-- ==== Sys2Proof/Word.lean ====
section
/-! DEFINITION. Word.lean: the word types (spec 00 R3, 03 R59). -/

namespace Sys2Proof

/-- A 64-bit word: a PAYLOAD, an instruction word, a register (R9, R59). -/
abbrev Word := BitVec 64

/-- One byte of memory. -/
abbrev Byte := BitVec 8

end Sys2Proof
end

