-- ==== Sys2Proof/Machine/Sparse.lean ====
section
/-! DEFINITION. Machine/Sparse.lean: one canonical form for every sparse table of the machine (memory bytes, registers by
number, tables by id): keys strictly rising, and no entry equal to what an unlisted key reads as. -/

namespace Sys2Proof.Machine

/-- A sparse table: (key, entry) pairs. -/
abbrev Sparse (α : Type) := List (Nat × α)

/-- The entry listed at a key. -/
def look {α : Type} : List (Nat × α) → Nat → Option α
  | [], _ => none
  | (j, v) :: m, k => if j = k then some v else look m k

/-- Lists an entry at a key, keeping the keys rising. -/
def put {α : Type} : List (Nat × α) → Nat → α → List (Nat × α)
  | [], k, v => [(k, v)]
  | (j, w) :: m, k, v =>
    if k < j then (k, v) :: (j, w) :: m
    else if k = j then (k, v) :: m
    else (j, w) :: put m k v

/-- Removes what is listed at a key. -/
def del {α : Type} (m : List (Nat × α)) (k : Nat) : List (Nat × α) := m.filter fun e => decide (e.1 ≠ k)

/-- What a key reads as: its entry, or the default of the table. -/
def getAt {α : Type} (m : List (Nat × α)) (k : Nat) (d : α) : α := (look m k).getD d

/-- Writes a key: writing the default removes the entry. -/
def setAt {α : Type} [DecidableEq α] (m : List (Nat × α)) (k : Nat) (v d : α) : List (Nat × α) :=
  if v = d then del m k else put m k v

/-- Whether every key listed is above a bound, and rising. -/
def rising {α : Type} : List (Nat × α) → Nat → Bool
  | [], _ => true
  | (j, _) :: m, lo => decide (lo ≤ j) && rising m (j + 1)

/-- The canonical form: keys strictly rising, no entry equal to the default. -/
def canonical {α : Type} [DecidableEq α] (m : List (Nat × α)) (d : α) : Bool :=
  rising m 0 && m.all (fun e => decide (e.2 ≠ d))

/-- `n` consecutive numbers from `a`. -/
def countFrom (a : Nat) : Nat → List Nat
  | 0 => []
  | n + 1 => a :: countFrom (a + 1) n

/-- The bytes at `n` consecutive addresses. -/
def readBytes (m : List (Nat × Byte)) (a n : Nat) : List Byte := (countFrom a n).map fun i => getAt m i 0

/-- Writes bytes at consecutive addresses. -/
def writeBytes (m : List (Nat × Byte)) (a : Nat) : List Byte → List (Nat × Byte)
  | [] => m
  | b :: bs => writeBytes (setAt m a b 0) (a + 1) bs

/-- Little-endian bytes of a number (R3). -/
def leBytes : Nat → Nat → List Byte
  | 0, _ => []
  | n + 1, v => BitVec.ofNat 8 v :: leBytes n (v / 256)

/-- The number that little-endian bytes hold (R3). -/
def leNat : List Byte → Nat
  | [] => 0
  | b :: bs => b.toNat + 256 * leNat bs

/-- Replaces element `n` of a list. -/
def setNth {α : Type} : List α → Nat → α → List α
  | [], _, _ => []
  | _ :: xs, 0, y => y :: xs
  | x :: xs, n + 1, y => x :: setNth xs n y

/-- Removes element `n` of a list. -/
def dropNth {α : Type} : List α → Nat → List α
  | [], _ => []
  | _ :: xs, 0 => xs
  | x :: xs, n + 1 => x :: dropNth xs n

/-- The first index at which a test holds. -/
def indexOf {α : Type} (p : α → Bool) : List α → Nat → Option Nat
  | [], _ => none
  | x :: xs, n => if p x then some n else indexOf p xs (n + 1)

/-- Applies a function where a test holds. -/
def mapWhere {α : Type} (p : α → Bool) (f : α → α) (xs : List α) : List α := xs.map fun x => if p x then f x else x

/-- A left fold over consecutive numbers. -/
def foldNat {σ : Type} (f : σ → Nat → σ) (a : Nat) : Nat → σ → σ
  | 0, s => s
  | n + 1, s => foldNat f (a + 1) n (f s a)

end Sys2Proof.Machine
end

