-- ==== Sys2Proof/Machine/Crypto.lean ====
section
/-! DEFINITION. Machine/Crypto.lean: AES-XTS-256 over 64-byte units, under which local HBM is stored (R220, R395), and
SHA-384 (R93, R380, R397, R401). -/

namespace Sys2Proof.Machine

/-! AES-256. -/

/-- Multiplication by x in GF(2^8). -/
def gfDouble (a : Nat) : Nat := if a < 128 then 2 * a else Nat.xor (2 * a) 0x11b

/-- Multiplication in GF(2^8), `n` bits of `b` from the lowest. -/
def gfMulGo (a b : Nat) : Nat → Nat
  | 0 => 0
  | n + 1 => Nat.xor (if b % 2 = 1 then a else 0) (gfMulGo (gfDouble a) (b / 2) n)

/-- Multiplication in GF(2^8). -/
def gfMul (a b : Nat) : Nat := gfMulGo a b 8

/-- The inverse in GF(2^8), with 0 for 0: the power 254. -/
def gfInv (a : Nat) : Nat :=
  let a2 := gfMul a a
  let a4 := gfMul a2 a2
  let a8 := gfMul a4 a4
  let a16 := gfMul a8 a8
  let a32 := gfMul a16 a16
  let a64 := gfMul a32 a32
  gfMul (gfMul (gfMul a2 a4) (gfMul a8 a16)) (gfMul (gfMul a32 a64) (gfMul a64 a64))

/-- An 8-bit rotation to the left. -/
def rotl8 (a n : Nat) : Nat := (a * 2 ^ n) % 256 + a / 2 ^ (8 - n)

/-- The AES S-box. -/
def aesSub (a : Nat) : Nat :=
  let b := gfInv a
  Nat.xor (Nat.xor (Nat.xor b (rotl8 b 1)) (Nat.xor (rotl8 b 2) (rotl8 b 3))) (Nat.xor (rotl8 b 4) 0x63)

/-- The inverse S-box. -/
def aesUnsub (a : Nat) : Nat := gfInv (Nat.xor (Nat.xor (rotl8 a 1) (rotl8 a 3)) (Nat.xor (rotl8 a 6) 0x05))

/-- Entry-wise exclusive or. -/
def xorList : List Nat → List Nat → List Nat
  | x :: xs, y :: ys => Nat.xor x y :: xorList xs ys
  | _, _ => []

/-- Key expansion: the words so far, newest first, until `n` more are made; `i` is the number of the next. -/
def aesExpandGo (ws : List (List Nat)) (i rcon : Nat) : Nat → List (List Nat)
  | 0 => ws.reverse
  | n + 1 =>
    let t := ws.headD []
    let far := (ws.drop 7).headD []
    if i % 8 = 0 then
      let r := (t.drop 1 ++ t.take 1).map aesSub
      aesExpandGo (xorList far (xorList r [rcon, 0, 0, 0]) :: ws) (i + 1) (gfDouble rcon) n
    else if i % 8 = 4 then aesExpandGo (xorList far (t.map aesSub) :: ws) (i + 1) rcon n
    else aesExpandGo (xorList far t :: ws) (i + 1) rcon n

/-- Cuts a list into pieces of `k`. -/
def chunks {α : Type} (k : Nat) : Nat → List α → List (List α)
  | 0, _ => []
  | n + 1, xs => xs.take k :: chunks k n (xs.drop k)

/-- The fifteen round keys of a 32-byte key. -/
def aesKeys (key : List Nat) : List (List Nat) :=
  (chunks 4 15 (aesExpandGo (chunks 4 8 key).reverse 8 1 52)).map List.flatten

/-- Byte `i` of a list. -/
def byteAt (xs : List Nat) (i : Nat) : Nat := (xs.drop i).headD 0

/-- ShiftRows, the state being column by column; the inverse with step 3. -/
def shiftRows (step : Nat) (s : List Nat) : List Nat :=
  (countFrom 0 16).map fun i => byteAt s ((i + 4 * (step * (i % 4))) % 16)

/-- MixColumns with the given first row. -/
def mixColumns (row : List Nat) (s : List Nat) : List Nat :=
  (countFrom 0 16).map fun i =>
    let c := i / 4 * 4
    (countFrom 0 4).foldl (fun a j => Nat.xor a (gfMul (byteAt row ((j + 4 - i % 4) % 4)) (byteAt s (c + j)))) 0

/-- The rounds of encryption. -/
def aesEncGo : List (List Nat) → List Nat → List Nat
  | [], s => s
  | [k], s => xorList (shiftRows 1 (s.map aesSub)) k
  | k :: ks, s => aesEncGo ks (xorList (mixColumns [2, 3, 1, 1] (shiftRows 1 (s.map aesSub))) k)

/-- AES-256 of one block. -/
def aesEnc (keys : List (List Nat)) (s : List Nat) : List Nat :=
  match keys with
  | k :: ks => aesEncGo ks (xorList s k)
  | [] => s

/-- The rounds of decryption, over the round keys in reverse. -/
def aesDecGo : List (List Nat) → List Nat → List Nat
  | [], s => s
  | [k], s => xorList ((shiftRows 3 s).map aesUnsub) k
  | k :: ks, s => aesDecGo ks (mixColumns [14, 11, 13, 9] (xorList ((shiftRows 3 s).map aesUnsub) k))

/-- AES-256 inverse of one block. -/
def aesDec (keys : List (List Nat)) (s : List Nat) : List Nat :=
  match keys.reverse with
  | k :: ks => aesDecGo ks (xorList s k)
  | [] => s

/-! XTS over one data unit of 64 bytes (R220). -/

/-- The little-endian bytes of a number, as numbers. -/
def natBytes (n v : Nat) : List Nat := (leBytes n v).map BitVec.toNat

/-- The number of little-endian bytes. -/
def bytesNat : List Nat → Nat
  | [] => 0
  | b :: bs => b + 256 * bytesNat bs

/-- The tweak of the next block: times α. -/
def xtsNext (t : Nat) : Nat := if t < 2 ^ 127 then 2 * t else Nat.xor (2 * t % 2 ^ 128) 0x87

/-- The blocks of a unit under successive tweaks. -/
def xtsGo (block : List Nat → List Nat) (t : Nat) : Nat → List Nat → List Nat
  | 0, _ => []
  | n + 1, bs =>
    let tb := natBytes 16 t
    xorList (block (xorList (bs.take 16) tb)) tb ++ xtsGo block (xtsNext t) n (bs.drop 16)

/-- One 64-byte data unit, `unit` being physical address bits 51:6. -/
def xtsUnit (decrypt : Bool) (k1 k2 unit : Nat) (bs : List Nat) : List Nat :=
  let key1 := aesKeys (natBytes 32 k1)
  let tweak := bytesNat (aesEnc (aesKeys (natBytes 32 k2)) (natBytes 16 unit))
  xtsGo (if decrypt then aesDec key1 else aesEnc key1) tweak 4 bs

/-! SHA-384. -/

/-- The integer k-th root of v below 2 ^ n beside the bits found: one bit at a time, from the highest. -/
def rootGo (k v acc : Nat) : Nat → Nat
  | 0 => acc
  | n + 1 => rootGo k v (if (acc + 2 ^ n) ^ k ≤ v then acc + 2 ^ n else acc) n

/-- The first 64 bits of the fraction of a k-th root of a number below 512. -/
def rootBits (k p : Nat) : Nat := rootGo k (p * 2 ^ (64 * k)) 0 70 % 2 ^ 64

/-- The primes below 410: the first eighty. -/
def primes80 : List Nat := (countFrom 2 408).filter fun n => (countFrom 2 19).all fun d => decide (n ≤ d ∨ n % d ≠ 0)

/-- The round constants: the fractions of the cube roots of the first eighty primes. -/
def shaRounds : List Nat := primes80.map (rootBits 3)

/-- SHA-384's initial hash value: the fractions of the square roots of the ninth to the sixteenth prime. -/
def shaInit : List Nat := ((primes80.drop 8).take 8).map (rootBits 2)

/-- A 64-bit rotation to the right. -/
def rotr64 (a n : Nat) : Nat := a / 2 ^ n + a % 2 ^ n * 2 ^ (64 - n)

/-- The message schedule: the last words newest first, `n` more to make. -/
def shaSchedule (ws : List Nat) : Nat → List Nat
  | 0 => ws.reverse
  | n + 1 =>
    let x := (ws.drop 14).headD 0
    let y := (ws.drop 1).headD 0
    let s0 := Nat.xor (Nat.xor (rotr64 x 1) (rotr64 x 8)) (x / 2 ^ 7)
    let s1 := Nat.xor (Nat.xor (rotr64 y 19) (rotr64 y 61)) (y / 2 ^ 6)
    shaSchedule ((((ws.drop 15).headD 0 + s0 + (ws.drop 6).headD 0 + s1) % 2 ^ 64) :: ws) n

/-- One round on the eight working variables. -/
def shaRound (v : List Nat) (kw : Nat × Nat) : List Nat :=
  match v with
  | [a, b, c, d, e, f, g, h] =>
    let s1 := Nat.xor (Nat.xor (rotr64 e 14) (rotr64 e 18)) (rotr64 e 41)
    let ch := Nat.xor (Nat.land e f) (Nat.land (2 ^ 64 - 1 - e) g)
    let t1 := h + s1 + ch + kw.1 + kw.2
    let s0 := Nat.xor (Nat.xor (rotr64 a 28) (rotr64 a 34)) (rotr64 a 39)
    let mj := Nat.xor (Nat.xor (Nat.land a b) (Nat.land a c)) (Nat.land b c)
    [(t1 + s0 + mj) % 2 ^ 64, a, b, c, (d + t1) % 2 ^ 64, e, f, g]
  | v => v

/-- A big-endian number of bytes. -/
def beNat (bs : List Nat) : Nat := bs.foldl (fun a b => a * 256 + b) 0

/-- One block of 128 bytes. -/
def shaBlock (h : List Nat) (bs : List Nat) : List Nat :=
  let w := shaSchedule ((chunks 8 16 bs).map beNat).reverse 64
  let v := (shaRounds.zip w).foldl shaRound h
  (h.zip v).map fun p => (p.1 + p.2) % 2 ^ 64

/-- The blocks of a padded message. -/
def shaGo (h : List Nat) : Nat → List Nat → List Nat
  | 0, _ => h
  | n + 1, bs => shaGo (shaBlock h (bs.take 128)) n (bs.drop 128)

/-- SHA-384 of a list of bytes, as a number whose most significant byte comes first. -/
def sha384 (msg : List Byte) : BitVec 384 :=
  let n := msg.length
  let blocks := (n + 17 + 127) / 128
  let padded := msg.map BitVec.toNat ++ 0x80 :: List.replicate (blocks * 128 - n - 17) 0 ++
    (natBytes 16 (n * 8)).reverse
  BitVec.ofNat 384 (((shaGo shaInit blocks padded).take 6).foldl (fun a w => a * 2 ^ 64 + w) 0)

/-- A digest as the 48 bytes it is written as, first byte first. -/
def digestBytes (d : BitVec 384) : List Byte := (leBytes 48 d.toNat).reverse

end Sys2Proof.Machine
end

