-- ==== Sys2Proof/Config.lean ====
section
/-! DEFINITION. Config.lean: what the spec leaves open.  Every constant below is opaque: no proof can see a value of it. -/

namespace Sys2Proof.Config

/-- The choice among the actions that no rule orders (R7, R163, R357; log 3): applied to State's free counter. -/
opaque freeChoice : Nat → Nat

/-- A 64-bit value that the spec leaves open, fresh at each use (log 3): applied to State's free counter. -/
opaque freeWord : Nat → BitVec 64

/-- A byte of a save area's remainder, whose form the spec leaves open (R380; log 21): applied to the save's number and the byte's place. -/
opaque saveByte : Nat → Nat → BitVec 8

/-- The place of a save area's tokens in its remainder, in units of 16 bytes (R9, R380; log 21): applied to the save's number. -/
opaque savePlace : Nat → Nat

/-- One ECDSA P-384 signature (r, s) over a digest by a die's key; the keys are not given (R397, R401; log 22). -/
opaque signature : Nat → BitVec 384 → BitVec 768

/-- A byte that host or peer memory answers to an engine's read (R221; log 12): the target's own memory decides it. -/
opaque outsideByte : Nat → BitVec 8

/-- Whether the host grants a portal a page, by die, page and the count of free values (R399; log 171): the host decides it. -/
opaque hostGrants : Nat → Nat → Nat → Bool

/-- Whether an image's resource summary section equals its recomputation (R102): the section's layout is not given (log 20).  Applied
to the section and to the image. -/
opaque summaryAgrees : List (BitVec 8) → List (BitVec 8) → Bool

/-- The bobbin classes that a class section holds (R17), each its size, 0 or its parent plus 1, and its fan: the section's layout is not
given (log 43). -/
opaque classSection : List (BitVec 8) → List (Nat × Nat × Nat)

/-- The `.knots` size that a knot-pool section holds: its layout is not given (log 43). -/
opaque knotSection : List (BitVec 8) → Nat

/-- The station match capacity and the seam group size that a debug-limits section holds: its layout is not given (log 43). -/
opaque debugSection : List (BitVec 8) → Nat × Nat

/-- Whether a constant whose bits are those of R100's pool form names a pool index, and is no datum (R130; log 99): the spec gives no mark
that tells them apart. -/
opaque poolConstant : BitVec 64 → Bool

/-- The entries of the slot table that a stage image holds for a cluster: no place of the image is given for them (R145, R236; log 155).
Applied to the pattern's digest, the stage, the footprint cluster and the entry. -/
opaque slotStream : BitVec 384 → Nat → Nat → Nat → BitVec 16

end Sys2Proof.Config
end

