-- ==== Sys2Proof/Syntax.lean ====
section
/-! DEFINITION. Syntax.lean: the whole opcode table as one inductive type (spec 03, and the tables of 08 to 18). -/

namespace Sys2Proof

/-- TY codes (Table 3.3, R62). -/
inductive Ty where
  | i32 | u32 | i64 | u64 | f16 | bf16 | f32 | f64
  deriving DecidableEq, Repr

/-- Element codes that format T's TY holds (Table 2.2, R45). -/
inductive Elem where
  | e4m3 | e5m2 | i8 | f16 | bf16 | f32 | yb8 | yb4
  deriving DecidableEq, Repr

/-- Operand specifiers (Table 3.2, R60); reserved codes 0x09 to 0x1F have no constructor. -/
inductive Spec where
  | port | iter | bobbin | die | station | zero | ones | imm | phase
  | const (n : Fin 32)
  deriving DecidableEq, Repr

/-- Predication (R63). -/
inductive Pred where
  | always | ifTrue | ifFalse | steer
  deriving DecidableEq, Repr

/-- Rounding modes 0 to 4 (R46). -/
inductive RM where
  | rne | rz | ru | rd | rna
  deriving DecidableEq, Repr

/-- Access widths of format M (R65). -/
inductive Width where
  | b8 | b16 | b32 | b64
  deriving DecidableEq, Repr

/-- Knot scopes (R66, R362). -/
inductive Scope where
  | bobbin | panel | device | system
  deriving DecidableEq, Repr

/-- Knot orders (R66). -/
inductive Order where
  | relaxed | acquire | release | acqRel
  deriving DecidableEq, Repr

/-- CMP's relations (R196). -/
inductive CmpRel where
  | eq | ne | lt | le | gt | ge
  deriving DecidableEq, Repr

/-- FCMP's predicates (R204). -/
inductive FcmpPred where
  | eq | ne | lt | le | gt | ge | un | ord
  deriving DecidableEq, Repr

/-- FCVT's sources (R205): FN 4 to 9. -/
inductive CvtSrc where
  | f16 | bf16 | f32 | f64 | e4m3 | e5m2
  deriving DecidableEq, Repr

/-- The integer types that FTOI and ITOF name in FN (R205). -/
inductive IntTy where
  | i32 | u32 | i64 | u64
  deriving DecidableEq, Repr

/-- AMOL and AMOG operators (Table 10.6). -/
inductive AmoOp where
  | swap | cas | add | min | max
  deriving DecidableEq, Repr

/-- UPDG operators (Table 10.6). -/
inductive UpdOp where
  | add | min | max | and | or | xor | fadd | faddNd
  deriving DecidableEq, Repr

/-- CQPUSH's patch (R245). -/
inductive CqPatch where
  | none | src | dst
  deriving DecidableEq, Repr

/-- TACT's functions (R264). -/
inductive ActFn where
  | relu | gelu | silu | sigm | tanh | exp2 | softp
  deriving DecidableEq, Repr

/-- Formats A and I (R59, R64): OG as two bits, IMM24 as it stands. -/
structure FormA where
  sa : Spec
  sb : Spec
  sc : Spec
  og0 : Bool
  og1 : Bool
  pm : Pred
  ty : Ty
  rm : RM
  imm : BitVec 24
  deriving DecidableEq, Repr

/-- Format X (R67): IMM24 is the constructor's own parameters. -/
structure FormX where
  sa : Spec
  sb : Spec
  sc : Spec
  og0 : Bool
  og1 : Bool
  pm : Pred
  ty : Ty
  deriving DecidableEq, Repr

/-- Format M (R65): SC holds RANGE, FN holds width, REL and SPC. -/
structure FormM where
  sa : Spec
  sb : Spec
  range : BitVec 6
  og0 : Bool
  og1 : Bool
  pm : Pred
  ty : Ty
  width : Width
  rel : Bool
  spc : Bool
  deriving DecidableEq, Repr

/-- Format K (R66): FN holds scope and order. -/
structure FormK where
  sa : Spec
  sb : Spec
  sc : Spec
  og0 : Bool
  og1 : Bool
  pm : Pred
  scope : Scope
  order : Order
  imm : BitVec 24
  deriving DecidableEq, Repr

/-- Format E (R68). -/
structure FormE where
  sa : Spec
  sb : Spec
  sc : Spec
  og0 : Bool
  og1 : Bool
  pm : Pred
  ty : Ty
  kv : Bool
  kc : Fin 32
  sw1 : BitVec 8
  sw2 : BitVec 8
  deriving DecidableEq, Repr

/-- Format T (R69, Table 3.4). -/
structure FormT where
  sa : Spec
  sb : Spec
  td : Fin 16
  ta : Fin 16
  tb : Fin 16
  qa : Fin 4
  sw : BitVec 8
  flg : BitVec 7
  og0 : Bool
  og1 : Bool
  pm : Pred
  ty : Elem
  deriving DecidableEq, Repr

/-- Who writes a control-block field (Table 19.2): the physical function through Ronob, or the partition's own. -/
inductive CbWriter where
  | pf | vf
  deriving DecidableEq, Repr

/-- A Ronob configuration request (R394): whether a physical function or partition `fn`'s function sends it, and the
header and data words. -/
structure DoeReq where
  fromPf : Bool
  fn : Nat
  header : BitVec 64
  words : List (BitVec 64)
  deriving DecidableEq, Repr

/-- A link that lane recalibration retrains (Table 19.6). -/
inductive LinkUnit where
  | ualink (port : Nat)
  | ucie (edge : Nat)
  deriving DecidableEq, Repr

/-- TDISP interface states (R393, R400). -/
inductive Tdisp where
  | configUnlocked | configLocked | run | error
  deriving DecidableEq, Repr


/-- One constructor per row of spec/opcode_table.json: first the instructions of Table 3.5 with their fields as the
encoding gives them, then the events of the machine with the objects they act on (those that come from outside last). -/
inductive Instr where
  /-- MOV (opcode 0x01). -/
  | mov (f : FormA)
  /-- FANOUT (opcode 0x02). -/
  | fanout (f : FormA)
  /-- SINK (opcode 0x03). -/
  | sink (f : FormA)
  /-- STEER (opcode 0x04). -/
  | steer (f : FormA)
  /-- GATE (opcode 0x05). -/
  | gate (f : FormA)
  /-- JOIN (opcode 0x06). -/
  | join (f : FormA)
  /-- INV (opcode 0x07). -/
  | inv (f : FormA)
  /-- BALLOC (opcode 0x08). -/
  | balloc (f : FormX) (cls : BitVec 6)
  /-- BFREE (opcode 0x09). -/
  | bfree (f : FormA)
  /-- LOOPGEN (opcode 0x0A). -/
  | loopgen (f : FormX) (step : BitVec 16)
  /-- NEXT (opcode 0x0B). -/
  | next (f : FormA)
  /-- IEND (opcode 0x0C). -/
  | iend (f : FormA)
  /-- RETAG (opcode 0x0D). -/
  | retag (f : FormA)
  /-- RETAG_CALL (opcode 0x0D). -/
  | retagCall (f : FormA)
  /-- SPEC (opcode 0x0E). -/
  | spec (f : FormX) (colour : BitVec 2)
  /-- COMMIT (opcode 0x0F). -/
  | commit (f : FormX) (colour : BitVec 2)
  /-- KILL (opcode 0x10). -/
  | kill (f : FormX) (colour : BitVec 2)
  /-- PHSET (opcode 0x11). -/
  | phset (f : FormX) (ph : BitVec 4) (rel : Bool)
  /-- PHWAIT (opcode 0x12). -/
  | phwait (f : FormX) (ph : BitVec 4) (src : Bool)
  /-- SPAWN (opcode 0x13). -/
  | spawn (f : FormE) (setSeed : Bool)
  /-- DONE (opcode 0x14). -/
  | done (f : FormX)
  /-- DONE_FORCE (opcode 0x14). -/
  | doneForce (f : FormX)
  /-- TICKET (opcode 0x15). -/
  | ticket (f : FormX) (arb : BitVec 3) (arc : BitVec 6)
  /-- TICKET_RELEASE (opcode 0x15). -/
  | ticketRelease (f : FormX) (arb : BitVec 3) (arc : BitVec 6)
  /-- ADD (opcode 0x20). -/
  | add (f : FormA)
  /-- SUB (opcode 0x21). -/
  | sub (f : FormA)
  /-- MUL (opcode 0x22). -/
  | mul (f : FormA)
  /-- MULH (opcode 0x23). -/
  | mulh (f : FormA)
  /-- DIV (opcode 0x24). -/
  | div (f : FormA)
  /-- REM (opcode 0x25). -/
  | rem (f : FormA)
  /-- AND (opcode 0x26). -/
  | and (f : FormA)
  /-- OR (opcode 0x27). -/
  | or (f : FormA)
  /-- XOR (opcode 0x28). -/
  | xor (f : FormA)
  /-- ANDN (opcode 0x29). -/
  | andn (f : FormA)
  /-- SHL (opcode 0x2A). -/
  | shl (f : FormA)
  /-- SHR (opcode 0x2B). -/
  | shr (f : FormA)
  /-- SRA (opcode 0x2C). -/
  | sra (f : FormA)
  /-- ROT (opcode 0x2D). -/
  | rot (f : FormA)
  /-- MIN (opcode 0x2E). -/
  | min (f : FormA)
  /-- MAX (opcode 0x2F). -/
  | max (f : FormA)
  /-- ABS (opcode 0x30). -/
  | abs (f : FormA)
  /-- NEG (opcode 0x31). -/
  | neg (f : FormA)
  /-- CLZ (opcode 0x32). -/
  | clz (f : FormA)
  /-- CTZ (opcode 0x33). -/
  | ctz (f : FormA)
  /-- POPC (opcode 0x34). -/
  | popc (f : FormA)
  /-- BREV (opcode 0x35). -/
  | brev (f : FormA)
  /-- CMP (opcode 0x36). -/
  | cmp (f : FormA) (rel : CmpRel)
  /-- SEL (opcode 0x37). -/
  | sel (f : FormA)
  /-- EXT (opcode 0x38). -/
  | ext (f : FormA)
  /-- INS (opcode 0x39). -/
  | ins (f : FormA)
  /-- LEA (opcode 0x3A). -/
  | lea (f : FormA) (sh : BitVec 4)
  /-- CONST_LO (opcode 0x3B). -/
  | constLo (f : FormX) (imm : BitVec 24)
  /-- CONST_MID (opcode 0x3B). -/
  | constMid (f : FormX) (imm : BitVec 24)
  /-- CONST_HI (opcode 0x3B). -/
  | constHi (f : FormX) (imm : BitVec 16)
  /-- CONSTH (opcode 0x3C). -/
  | consth (f : FormX) (imm : BitVec 24)
  /-- FADD (opcode 0x40). -/
  | fadd (f : FormA)
  /-- FSUB (opcode 0x41). -/
  | fsub (f : FormA)
  /-- FMUL (opcode 0x42). -/
  | fmul (f : FormA)
  /-- FMA (opcode 0x43). -/
  | fma (f : FormA)
  /-- FNMA (opcode 0x44). -/
  | fnma (f : FormA)
  /-- FDIV (opcode 0x45). -/
  | fdiv (f : FormA)
  /-- FSQRT (opcode 0x46). -/
  | fsqrt (f : FormA)
  /-- FMIN (opcode 0x47). -/
  | fmin (f : FormA)
  /-- FMAX (opcode 0x48). -/
  | fmax (f : FormA)
  /-- FABS (opcode 0x49). -/
  | fabs (f : FormA)
  /-- FNEG (opcode 0x4A). -/
  | fneg (f : FormA)
  /-- FCMP (opcode 0x4B). -/
  | fcmp (f : FormA) (pred : FcmpPred)
  /-- FCLASS (opcode 0x4C). -/
  | fclass (f : FormA)
  /-- FCVT (opcode 0x4D). -/
  | fcvt (f : FormA) (src : CvtSrc)
  /-- FTOI (opcode 0x4E). -/
  | ftoi (f : FormA) (dst : IntTy)
  /-- ITOF (opcode 0x4F). -/
  | itof (f : FormA) (src : IntTy)
  /-- FEXP2 (opcode 0x50). -/
  | fexp2 (f : FormA)
  /-- FLOG2 (opcode 0x51). -/
  | flog2 (f : FormA)
  /-- FRCP (opcode 0x52). -/
  | frcp (f : FormA)
  /-- FRSQ (opcode 0x53). -/
  | frsq (f : FormA)
  /-- FRINT (opcode 0x54). -/
  | frint (f : FormA)
  /-- FRINT_X (opcode 0x54). -/
  | frintX (f : FormA)
  /-- LDL (opcode 0x70). -/
  | ldl (f : FormM) (off : BitVec 24)
  /-- STL (opcode 0x71). -/
  | stl (f : FormM) (off : BitVec 24)
  /-- LDN (opcode 0x72). -/
  | ldn (f : FormM) (off : BitVec 24)
  /-- STN (opcode 0x73). -/
  | stn (f : FormM) (off : BitVec 24)
  /-- LDG (opcode 0x74). -/
  | ldg (f : FormM) (off : BitVec 24)
  /-- STG (opcode 0x75). -/
  | stg (f : FormM) (off : BitVec 24)
  /-- LDW (opcode 0x76). -/
  | ldw (f : FormM) (off : BitVec 24)
  /-- FECLR (opcode 0x77). -/
  | feclr (f : FormM) (off : BitVec 24)
  /-- FESET (opcode 0x78). -/
  | feset (f : FormM) (off : BitVec 24)
  /-- WCAL (opcode 0x79). -/
  | wcal (f : FormM) (off : BitVec 24)
  /-- AMOL (opcode 0x7A). -/
  | amol (f : FormM) (op : AmoOp) (cmp : Spec) (off : BitVec 14)
  /-- AMOG (opcode 0x7B). -/
  | amog (f : FormM) (op : AmoOp) (cmp : Spec) (off : BitVec 14)
  /-- UPDG (opcode 0x7C). -/
  | updg (f : FormM) (op : UpdOp) (off : BitVec 14)
  /-- KADD (opcode 0x90). -/
  | kadd (f : FormK)
  /-- KWAIT (opcode 0x91). -/
  | kwait (f : FormK)
  /-- KREAD (opcode 0x92). -/
  | kread (f : FormK)
  /-- KLIMIT (opcode 0x93). -/
  | klimit (f : FormK)
  /-- KARM (opcode 0x94). -/
  | karm (f : FormK)
  /-- KALLOC (opcode 0x95). -/
  | kalloc (f : FormK)
  /-- KFREE (opcode 0x96). -/
  | kfree (f : FormK)
  /-- COPY (opcode 0xA0). -/
  | copy (f : FormE) (ord : Bool)
  /-- COPYR (opcode 0xA1). -/
  | copyr (f : FormE) (ord : Bool)
  /-- FILL (opcode 0xA2). -/
  | fill (f : FormE) (ord : Bool)
  /-- GATHR (opcode 0xA3). -/
  | gathr (f : FormE) (ord : Bool)
  /-- SCATR (opcode 0xA4). -/
  | scatr (f : FormE) (ord : Bool)
  /-- SCATR_ADD (opcode 0xA4). -/
  | scatrAdd (f : FormE) (ord : Bool)
  /-- OVERLAY (opcode 0xA5). -/
  | overlay (f : FormE) (ord : Bool)
  /-- CQPUSH (opcode 0xA6). -/
  | cqpush (f : FormE) (patch : CqPatch)
  /-- TSHAPE (opcode 0xB0). -/
  | tshape (f : FormT)
  /-- TRDSH (opcode 0xB1). -/
  | trdsh (f : FormT)
  /-- TLD (opcode 0xB2). -/
  | tld (f : FormT)
  /-- TST (opcode 0xB3). -/
  | tst (f : FormT)
  /-- TZERO_TILE (opcode 0xB4). -/
  | tzeroTile (f : FormT)
  /-- TZERO_ACC (opcode 0xB4). -/
  | tzeroAcc (f : FormT)
  /-- TZERO_CARRY (opcode 0xB4). -/
  | tzeroCarry (f : FormT)
  /-- TMMA (opcode 0xB5). -/
  | tmma (f : FormT)
  /-- TADD (opcode 0xB6). -/
  | tadd (f : FormT)
  /-- TMUL (opcode 0xB7). -/
  | tmul (f : FormT)
  /-- TSCALE (opcode 0xB8). -/
  | tscale (f : FormT)
  /-- TACT (opcode 0xB9). -/
  | tact (f : FormT) (fn : ActFn)
  /-- TRED_SUM (opcode 0xBA). -/
  | tredSum (f : FormT)
  /-- TRED_MAX (opcode 0xBA). -/
  | tredMax (f : FormT)
  /-- TQNT (opcode 0xBB). -/
  | tqnt (f : FormT)
  /-- TDQ (opcode 0xBC). -/
  | tdq (f : FormT)
  /-- TCVT (opcode 0xBD). -/
  | tcvt (f : FormT)
  /-- TTRN (opcode 0xBE). -/
  | ttrn (f : FormT)
  /-- TROW (opcode 0xBF). -/
  | trow (f : FormT)
  /-- TROW_STR (opcode 0xBF). -/
  | trowStr (f : FormT)
  /-- TSCAN (opcode 0xC0). -/
  | tscan (f : FormT)
  /-- TCARRY_SAVE (opcode 0xC1). -/
  | tcarrySave (f : FormT)
  /-- TCARRY_LOAD (opcode 0xC1). -/
  | tcarryLoad (f : FormT)
  /-- TMOVQ (opcode 0xC2). -/
  | tmovq (f : FormT)
  /-- SEMIT (opcode 0xD0). -/
  | semit (f : FormX) (ch : BitVec 2)
  /-- SMARK (opcode 0xD1). -/
  | smark (f : FormX) (ch : BitVec 2) (mark : BitVec 4)
  /-- SRECV (opcode 0xD2). -/
  | srecv (f : FormX) (ch : BitVec 2)
  /-- SPARM (opcode 0xD3). -/
  | sparm (f : FormX) (kind : BitVec 4) (inst : BitVec 1) (preg : BitVec 2)
  /-- SSTAT (opcode 0xD4). -/
  | sstat (f : FormX) (kind : BitVec 4) (inst : BitVec 1)
  /-- SMOPEN (opcode 0xD8). -/
  | smopen (f : FormE) (inst : BitVec 2) (ctx : BitVec 2)
  /-- SMFEED (opcode 0xD9). -/
  | smfeed (f : FormE)
  /-- SMCLOSE (opcode 0xDA). -/
  | smclose (f : FormE)
  /-- SMSTAT (opcode 0xDB). -/
  | smstat (f : FormE)
  /-- SMABORT (opcode 0xDC). -/
  | smabort (f : FormE)
  /-- UMCTX_OPEN (opcode 0xE0). -/
  | umctxOpen (f : FormE) (die : BitVec 2)
  /-- UMCTX_RELEASE (opcode 0xE0). -/
  | umctxRelease (f : FormE)
  /-- UMSCORE (opcode 0xE1). -/
  | umscore (f : FormE) (f16 : Bool)
  /-- UMRANK (opcode 0xE2). -/
  | umrank (f : FormE)
  /-- UMTAP (opcode 0xE3). -/
  | umtap (f : FormE)
  /-- UMDIRTY (opcode 0xE4). -/
  | umdirty (f : FormE)
  /-- UMQRY_INFO (opcode 0xE5). -/
  | umqryInfo (f : FormE)
  /-- UMQRY_MASK (opcode 0xE5). -/
  | umqryMask (f : FormE)
  /-- UMQRY_DIRTY (opcode 0xE5). -/
  | umqryDirty (f : FormE)
  /-- UMQRY_ROUND (opcode 0xE5). -/
  | umqryRound (f : FormE)
  /-- UMCLR (opcode 0xE6). -/
  | umclr (f : FormE)
  /-- TRAP (opcode 0xF0). -/
  | trap (f : FormX) (code : BitVec 16)
  /-- SYSRD (opcode 0xF1). -/
  | sysrd (f : FormX) (reg : BitVec 12)
  /-- SYSWR (opcode 0xF2). -/
  | syswr (f : FormX) (reg : BitVec 12)
  /-- HEM (opcode 0xF3). -/
  | hem (f : FormX)
  /-- CYCLE (opcode 0xF4). -/
  | cycle (f : FormX)
  /-- CYCLE_STAMP (opcode 0xF4). -/
  | cycleStamp (f : FormX)
  /-- METER (opcode 0xF5). -/
  | meter (f : FormX) (idx : BitVec 5)
  /-- BKPT (opcode 0xF6). -/
  | bkpt (f : FormX) (id : BitVec 16)
  /-- YIELD (opcode 0xF7). -/
  | yield (f : FormX) (n : BitVec 24)
  /-- FLAG (opcode 0xF8). -/
  | flag (f : FormX) (mask : BitVec 16)
  /-- BRING_UP, an event. -/
  | bringUp
  /-- STAMP_COUNTER_TICK, an event. -/
  | stampCounterTick
  /-- AGE_CLAMP_SWEEP, an event. -/
  | ageClampSweep
  /-- QUEUE_REREAD_POLL, an event. -/
  | queueRereadPoll (part : Nat) (q : Nat)
  /-- CONSUME_PACKET, an event. -/
  | consumePacket (part : Nat) (q : Nat)
  /-- DEPENDENCES_MET, an event. -/
  | dependencesMet (l : Nat)
  /-- PLACEMENT_DECISION, an event. -/
  | placementDecision (part : Nat)
  /-- AGED_PRIORITY_STEP, an event. -/
  | agedPriorityStep (l : Nat)
  /-- BLOCKED_HEAD_TIMEOUT, an event. -/
  | blockedHeadTimeout (part : Nat)
  /-- QUOTA_WINDOW_BEGIN, an event. -/
  | quotaWindowBegin
  /-- PATTERN_STORE_FILL, an event. -/
  | patternStoreFill (l : Nat) (cl : Nat)
  /-- STATION_LOAD, an event. -/
  | stationLoad (l : Nat) (cl : Nat) (st : Nat)
  /-- CONFIGURATION_COMPLETE_WAVE, an event. -/
  | configurationCompleteWave (l : Nat)
  /-- SEED_INJECT, an event. -/
  | seedInject (l : Nat)
  /-- ENTRY_ADMIT, an event. -/
  | entryAdmit (l : Nat) (entry : Nat)
  /-- TOKEN_DELIVERED, an event. -/
  | tokenDelivered (cl : Nat) (k : Nat)
  /-- REMNANT_PROMOTE, an event. -/
  | remnantPromote (cl : Nat) (st : Nat)
  /-- ROUTER_CYCLE, an event. -/
  | routerCycle (cl : Nat)
  /-- STARVE, an event. -/
  | starve (cl : Nat)
  /-- RECEIVE_PORT_DELIVERY, an event. -/
  | receivePortDelivery (cl : Nat)
  /-- CREDIT_RETURN, an event. -/
  | creditReturn (src : Nat) (dst : Nat)
  /-- SPINE_SWITCH_CYCLE, an event. -/
  | spineSwitchCycle (die : Nat)
  /-- COMMIT_TOKEN_ARRIVAL, an event. -/
  | commitTokenArrival (cl : Nat) (k : Nat)
  /-- KILL_TOKEN_ARRIVAL, an event. -/
  | killTokenArrival (cl : Nat) (k : Nat)
  /-- PHASE_REDUCTION_WAVE, an event. -/
  | phaseReductionWave (l : Nat) (ph : Nat)
  /-- GENERATOR_STEP, an event. -/
  | generatorStep (l : Nat) (g : Nat)
  /-- NEXT_RELEASE, an event. -/
  | nextRelease (l : Nat) (p : Nat)
  /-- BALLOC_WAKE, an event. -/
  | ballocWake (l : Nat) (p : Nat)
  /-- TICKET_GRANT, an event. -/
  | ticketGrant (cl : Nat) (arb : Nat)
  /-- STAGE_SWITCH, an event. -/
  | stageSwitch (l : Nat)
  /-- MEMORY_ACCESS_PERFORMED, an event. -/
  | memoryAccessPerformed (r : Nat)
  /-- TRANSLATION_WALK, an event. -/
  | translationWalk (r : Nat)
  /-- HOME_SLICE_APPLY, an event. -/
  | homeSliceApply (r : Nat)
  /-- LINE_FULL_WAKE, an event. -/
  | lineFullWake (cl : Nat) (line : Nat)
  /-- REFRESH_WINDOW_END, an event. -/
  | refreshWindowEnd (die : Nat) (group : Nat)
  /-- COPY_PACKET_START, an event. -/
  | copyPacketStart (cl : Nat)
  /-- COPY_ORD_TOKEN, an event. -/
  | copyOrdToken (cl : Nat) (k : Nat)
  /-- COPY_PACKET_PERFORMED, an event. -/
  | copyPacketPerformed (cl : Nat) (p : Nat)
  /-- COPY_QUEUE_PACKET, an event. -/
  | copyQueuePacket (part : Nat) (q : Nat)
  /-- SPAWN_SLOT_STEP, an event. -/
  | spawnSlotStep (cl : Nat)
  /-- TENSOR_COMMAND_PERFORM, an event. -/
  | tensorCommandPerform (cl : Nat)
  /-- ROW_STREAM_TOKEN, an event. -/
  | rowStreamToken (cl : Nat) (k : Nat)
  /-- TSCAN_SET_ASIDE_RELEASE, an event. -/
  | tscanSetAsideRelease (cl : Nat) (slot : Nat)
  /-- STREAM_OUTPUT_ROW, an event. -/
  | streamOutputRow (cl : Nat)
  /-- CIRCUIT_SLOT_RETURN, an event. -/
  | circuitSlotReturn (l : Nat) (ep : Nat)
  /-- STREAM_OPERATOR_STEP, an event. -/
  | streamOperatorStep (l : Nat) (op : Nat)
  /-- SEAM_TOKEN_ARRIVAL, an event. -/
  | seamTokenArrival (die : Nat) (k : Nat)
  /-- SEAM_PORT_WORD, an event. -/
  | seamPortWord (l : Nat) (unit : Nat) (port : Nat)
  /-- SEAM_MERGE_ROW, an event. -/
  | seamMergeRow (l : Nat) (unit : Nat) (ctx : Nat)
  /-- SEAM_CONTEXT_END, an event. -/
  | seamContextEnd (l : Nat) (unit : Nat) (ctx : Nat)
  /-- UNMASK_CONTEXT_GRANT, an event. -/
  | unmaskContextGrant (die : Nat)
  /-- UNMASK_IN_TOKEN, an event. -/
  | unmaskInToken (die : Nat) (k : Nat)
  /-- KNOT_BANK_APPLY, an event. -/
  | knotBankApply (r : Nat)
  /-- WAITER_DIRECTORY_NOTIFY, an event. -/
  | waiterDirectoryNotify (cl : Nat) (kn : Nat)
  /-- POLLING_WAITER_REREAD, an event. -/
  | pollingWaiterReread (l : Nat) (p : Nat)
  /-- TRIGGER_ENGINE_ISSUE, an event. -/
  | triggerEngineIssue (cl : Nat)
  /-- HEM_TOKEN_OUTBOUND, an event. -/
  | hemTokenOutbound (cl : Nat) (k : Nat)
  /-- HEM_TOKEN_INBOUND, an event. -/
  | hemTokenInbound (l : Nat) (cl : Nat) (hseq : Nat)
  /-- FAULT_RECORD_WRITE, an event. -/
  | faultRecordWrite (l : Nat)
  /-- FREEZE, an event. -/
  | freeze (l : Nat)
  /-- FREEZE_BOUND_EXPIRY, an event. -/
  | freezeBoundExpiry (l : Nat)
  /-- SAVE_LAUNCH, an event. -/
  | saveLaunch (l : Nat)
  /-- RESTORE_LAUNCH, an event. -/
  | restoreLaunch (l : Nat)
  /-- WATCHDOG_EXPIRY, an event. -/
  | watchdogExpiry (l : Nat)
  /-- YIELD_EXPIRY, an event. -/
  | yieldExpiry (l : Nat) (p : Nat)
  /-- RETIREMENT, an event. -/
  | retirement (l : Nat)
  /-- UNMASK_COMMAND_PERFORM, an event. -/
  | unmaskCommandPerform (die : Nat) (ctx : Nat)
  /-- INVALIDATION_COMPLETE, an event. -/
  | invalidationComplete (part : Nat)
  /-- DSNAP_COMPLETE, an event. -/
  | dsnapComplete (part : Nat)
  /-- PORTAL_COMPLETION, an event. -/
  | portalCompletion (r : Nat) (ok : Bool) (data : BitVec 64)
  /-- PRI_PAGE_REQUEST, an event. -/
  | priPageRequest (r : Nat) (granted : Bool)
  /-- WEIGHT_LOAD_COMMAND, an event. -/
  | weightLoadCommand (part : Nat) (image : Nat) (load : Nat) (cl : Nat) (packet : List (BitVec 64))
  /-- KNOT_WINDOW_ADD, an event. -/
  | knotWindowAdd (part : Nat) (off : Nat) (v : BitVec 64)
  /-- KNOT_WINDOW_SET_LIMIT, an event. -/
  | knotWindowSetLimit (part : Nat) (off : Nat) (v : BitVec 64)
  /-- KNOT_WINDOW_ACQUIRE, an event. -/
  | knotWindowAcquire (part : Nat) (off : Nat)
  /-- RESUME_RETRY, an event. -/
  | resumeRetry (l : Nat) (recid : Nat)
  /-- RESUME_DISCARD, an event. -/
  | resumeDiscard (l : Nat) (recid : Nat)
  /-- CB_ENABLE, an event. -/
  | cbEnable (part : Nat) (v : BitVec 64)
  /-- CB_QUEUE_ENTRY, an event. -/
  | cbQueueEntry (part : Nat) (q : Nat) (v : BitVec 64)
  /-- CB_COPY_QUEUE_ENTRY, an event. -/
  | cbCopyQueueEntry (part : Nat) (q : Nat) (v : BitVec 64)
  /-- CB_INVALIDATE, an event. -/
  | cbInvalidate (part : Nat) (v : BitVec 64)
  /-- CB_DSNAP, an event. -/
  | cbDsnap (part : Nat) (v : BitVec 64)
  /-- CB_OVREL, an event. -/
  | cbOvrel (part : Nat) (v : BitVec 64)
  /-- CB_ERROR_CLEAR, an event. -/
  | cbErrorClear (part : Nat) (v : BitVec 64)
  /-- CONTROL_BLOCK_WRITE, an event. -/
  | controlBlockWrite (writer : CbWriter) (part : Nat) (off : Nat) (v : BitVec 64)
  /-- KNOT_ALLOT, an event. -/
  | knotAllot (rq : DoeReq)
  /-- KNOT_RETURN, an event. -/
  | knotReturn (rq : DoeReq)
  /-- SLOT_TABLE, an event. -/
  | slotTable (rq : DoeReq)
  /-- QUEUE_HOME, an event. -/
  | queueHome (rq : DoeReq)
  /-- PORT_MASK, an event. -/
  | portMask (rq : DoeReq)
  /-- SELF_ID, an event. -/
  | selfId (rq : DoeReq)
  /-- BRIDGE, an event. -/
  | bridge (rq : DoeReq)
  /-- KEY_LOAD, an event. -/
  | keyLoad (rq : DoeReq)
  /-- KEY_UNLOAD, an event. -/
  | keyUnload (rq : DoeReq)
  /-- METER_SNAPSHOT, an event. -/
  | meterSnapshot (fn : Nat) (die : Nat) (part : Nat) (nonce : BitVec 256)
  /-- GET_MEASUREMENTS, an event. -/
  | getMeasurements (fn : Nat) (die : Nat) (index : Nat)
  /-- RONOB_FIRMWARE_UPDATE, an event. -/
  | ronobFirmwareUpdate (die : Nat) (digest : BitVec 384)
  /-- SCHEDULER_MICROCODE_UPDATE, an event. -/
  | schedulerMicrocodeUpdate (digest : BitVec 384)
  /-- LANE_RECALIBRATION, an event. -/
  | laneRecalibration (link : LinkUnit) (start : Bool)
  /-- THERMAL_RECALIBRATION, an event. -/
  | thermalRecalibration (die : Nat) (offsets : BitVec 64)
  /-- HBM_RETRAINING, an event. -/
  | hbmRetraining (stack : Nat)
  /-- THERMAL_GATING, an event. -/
  | thermalGating (die : Nat) (on : Bool)
  /-- THERMAL_TRIP, an event. -/
  | thermalTrip (die : Nat)
  /-- POWER_CAP_SET, an event. -/
  | powerCapSet (watts : Nat)
  /-- HBM_RETRAINING_END, an event. -/
  | hbmRetrainingEnd (stack : Nat)
  /-- ATS_INVALIDATION, an event. -/
  | atsInvalidation (die : Nat) (addr : Nat) (len : Nat)
  /-- SPDM_SESSION, an event. -/
  | spdmSession (fn : Nat) (up : Bool)
  /-- IDE_STREAM_KEYING, an event. -/
  | ideStreamKeying (part : Nat)
  /-- TDISP_REQUEST, an event. -/
  | tdispRequest (part : Nat) (to_ : Tdisp)
  deriving DecidableEq, Repr

end Sys2Proof
end

