-- ==== Sys2Proof/WellFormed.lean ====
section
/-! DEFINITION. WellFormed.lean: what registration checks of one instruction's fields by themselves (R60 to R69, R80
checks 4 to 6; the tables of the families).  Checks against the pattern's tables are in Machine/Register.lean. -/

namespace Sys2Proof

/-- Why a word is no instruction of this device, by the check of Table 3.7 that it fails. -/
inductive DecodeErr where
  /-- check 1: OPC is 0x00, 0xFF or reserved. -/
  | opcode
  /-- check 4: a reserved or unnamed bit is set. -/
  | reservedBits
  /-- check 5: FN, or a parameter field, holds a value that the instruction does not accept. -/
  | subOperation
  /-- check 5: TY (R62). -/
  | scalarType
  /-- check 5: RM (R46). -/
  | rounding
  /-- check 5: PM (R63). -/
  | predication
  /-- check 6: a reserved specifier code, or one that the position does not take (R60, R169). -/
  | specifier
  /-- check 6: 0x07 where it may not stand, or twice (R61). -/
  | immediateUse
  /-- check 6: an unused operand that is not 0x05 (R61). -/
  | unusedOperand
  /-- check 5: a literal parameter field outside its values. -/
  | parameter
  /-- check 8: OG names a group that the instruction never emits on (R169). -/
  | outputGroup
  deriving DecidableEq, Repr

/-- The fields that every format has, as its rules give them. -/
structure View where
  sa : Spec
  sb : Spec
  sc : Spec
  og0 : Bool
  og1 : Bool
  pm : Pred
  /-- TY; none in format T, whose element code is checked by Table 12.3. -/
  ty : Option Ty
  rm : RM
  /-- KV of format E. -/
  kv : Bool
  deriving DecidableEq, Repr

/-- Format A's common fields. -/
def FormA.view (f : FormA) : View := ⟨f.sa, f.sb, f.sc, f.og0, f.og1, f.pm, some f.ty, f.rm, false⟩
/-- Format X's common fields. -/
def FormX.view (f : FormX) : View := ⟨f.sa, f.sb, f.sc, f.og0, f.og1, f.pm, some f.ty, .rne, false⟩
/-- Format M's common fields: SC is no specifier (R65). -/
def FormM.view (f : FormM) : View := ⟨f.sa, f.sb, .zero, f.og0, f.og1, f.pm, some f.ty, .rne, false⟩
/-- Format K's common fields. -/
def FormK.view (f : FormK) : View := ⟨f.sa, f.sb, f.sc, f.og0, f.og1, f.pm, some .u64, .rne, false⟩
/-- Format E's common fields. -/
def FormE.view (f : FormE) : View := ⟨f.sa, f.sb, f.sc, f.og0, f.og1, f.pm, some f.ty, .rne, f.kv⟩
/-- Format T's common fields: no port c and no RM (R69). -/
def FormT.view (f : FormT) : View := ⟨f.sa, f.sb, .zero, f.og0, f.og1, f.pm, none, .rne, false⟩

/-- AMOL and AMOG: CMP is the third operand under cas only (R226). -/
def amoView (f : FormM) (op : AmoOp) (cmp : Spec) : View :=
  { f.view with sc := match op with | .cas => cmp | _ => .zero }

/-- What a position of Tables 8.1 to 18.4 takes. -/
inductive SpecRule where
  /-- any specifier -/
  | any
  /-- 0x00 only -/
  | port
  /-- 0x00 or 0x05 (an entry in parentheses, R169) -/
  | portOpt
  /-- unused: 0x05 -/
  | unused
  /-- format E's SC: any under KV 1, else 0x05 (R68) -/
  | kv
  /-- SPAWN's SC, in parentheses in Table 8.1: 0x00 or 0x05 under KV 1, else 0x05 (log 23) -/
  | kvPort
  deriving DecidableEq, Repr

/-- What an instruction's row accepts. -/
structure Shape where
  tys : List Ty := [.i32]
  sa : SpecRule := .any
  sb : SpecRule := .unused
  sc : SpecRule := .unused
  rmOk : Bool := false
  immOk : Bool := false
  o0 : Bool := true
  o1 : Bool := false
  steer : Bool := false
  deriving DecidableEq, Repr

/-- Table 3.3's types. -/
def allTys : List Ty := [.i32, .u32, .i64, .u64, .f16, .bf16, .f32, .f64]
/-- TY 0 to 3. -/
def intTys : List Ty := [.i32, .u32, .i64, .u64]
/-- TY 4 to 7. -/
def floatTys : List Ty := [.f16, .bf16, .f32, .f64]

/-- One position's check. -/
def SpecRule.err (kv : Bool) (r : SpecRule) (x : Spec) : Option DecodeErr :=
  match r with
  | .any => none
  | .port => if x = .port then none else some .specifier
  | .portOpt => if x = .port ∨ x = .zero then none else some .specifier
  | .unused => if x = .zero then none else some .unusedOperand
  | .kv => if kv ∨ x = .zero then none else some .unusedOperand
  | .kvPort => if x = .zero ∨ (kv ∧ x = .port) then none else some .specifier

/-- How many of the three specifiers are 0x07. -/
def View.imms (v : View) : Nat :=
  [v.sa, v.sb, v.sc].countP (· = .imm)

/-- The ports a slot reads (R14): a, b, c by specifier 0x00, p by PM. -/
structure Ports where
  a : Bool
  b : Bool
  c : Bool
  p : Bool
  deriving DecidableEq, Repr

/-- The ports that the fields read (R14). -/
def View.reads (v : View) : Ports :=
  ⟨v.sa = .port, v.sb = .port, v.sc = .port, v.pm ≠ .always⟩

/-- Whether any port is read: R438 asks it of every occupied slot, and registration checks it (check 8). -/
def Ports.any (p : Ports) : Bool := p.a || p.b || p.c || p.p

/-- The first of several checks that fails. -/
def firstErr : List (Option DecodeErr) → Option DecodeErr
  | [] => none
  | none :: es => firstErr es
  | some e :: _ => some e

/-- A check: the error unless the condition holds. -/
def require (ok : Bool) (e : DecodeErr) : Option DecodeErr := if ok then none else some e

/-- Checks 5 and 6 of Table 3.7, and OG (R72, R169), for the fields every format has. -/
def Shape.errs (sh : Shape) (v : View) : List (Option DecodeErr) :=
  [ require (match v.ty with | some t => decide (t ∈ sh.tys) | none => true) .scalarType,
    require (sh.rmOk || decide (v.rm = .rne)) .rounding,
    require (sh.steer || decide (v.pm ≠ .steer)) .predication,
    sh.sa.err v.kv v.sa, sh.sb.err v.kv v.sb, sh.sc.err v.kv v.sc,
    require (decide (v.imms ≤ if sh.immOk then 1 else 0)) .immediateUse,
    require (sh.o0 || !v.og0) .outputGroup,
    require (sh.o1 || decide (v.pm = .steer) || !v.og1) .outputGroup ]

/-- The common view of each instruction's fields; an event of the machine has none. -/
def Instr.view : Instr → Option View
  | .mov f => some f.view
  | .fanout f => some f.view
  | .sink f => some f.view
  | .steer f => some f.view
  | .gate f => some f.view
  | .join f => some f.view
  | .inv f => some f.view
  | .balloc f _ => some f.view
  | .bfree f => some f.view
  | .loopgen f _ => some f.view
  | .next f => some f.view
  | .iend f => some f.view
  | .retag f => some f.view
  | .retagCall f => some f.view
  | .spec f _ => some f.view
  | .commit f _ => some f.view
  | .kill f _ => some f.view
  | .phset f _ _ => some f.view
  | .phwait f _ _ => some f.view
  | .spawn f _ => some f.view
  | .done f => some f.view
  | .doneForce f => some f.view
  | .ticket f _ _ => some f.view
  | .ticketRelease f _ _ => some f.view
  | .add f => some f.view
  | .sub f => some f.view
  | .mul f => some f.view
  | .mulh f => some f.view
  | .div f => some f.view
  | .rem f => some f.view
  | .and f => some f.view
  | .or f => some f.view
  | .xor f => some f.view
  | .andn f => some f.view
  | .shl f => some f.view
  | .shr f => some f.view
  | .sra f => some f.view
  | .rot f => some f.view
  | .min f => some f.view
  | .max f => some f.view
  | .abs f => some f.view
  | .neg f => some f.view
  | .clz f => some f.view
  | .ctz f => some f.view
  | .popc f => some f.view
  | .brev f => some f.view
  | .cmp f _ => some f.view
  | .sel f => some f.view
  | .ext f => some f.view
  | .ins f => some f.view
  | .lea f _ => some f.view
  | .constLo f _ => some f.view
  | .constMid f _ => some f.view
  | .constHi f _ => some f.view
  | .consth f _ => some f.view
  | .fadd f => some f.view
  | .fsub f => some f.view
  | .fmul f => some f.view
  | .fma f => some f.view
  | .fnma f => some f.view
  | .fdiv f => some f.view
  | .fsqrt f => some f.view
  | .fmin f => some f.view
  | .fmax f => some f.view
  | .fabs f => some f.view
  | .fneg f => some f.view
  | .fcmp f _ => some f.view
  | .fclass f => some f.view
  | .fcvt f _ => some f.view
  | .ftoi f _ => some f.view
  | .itof f _ => some f.view
  | .fexp2 f => some f.view
  | .flog2 f => some f.view
  | .frcp f => some f.view
  | .frsq f => some f.view
  | .frint f => some f.view
  | .frintX f => some f.view
  | .ldl f _ => some f.view
  | .stl f _ => some f.view
  | .ldn f _ => some f.view
  | .stn f _ => some f.view
  | .ldg f _ => some f.view
  | .stg f _ => some f.view
  | .ldw f _ => some f.view
  | .feclr f _ => some f.view
  | .feset f _ => some f.view
  | .wcal f _ => some f.view
  | .amol f op k _ => some (amoView f op k)
  | .amog f op k _ => some (amoView f op k)
  | .updg f _ _ => some f.view
  | .kadd f => some f.view
  | .kwait f => some f.view
  | .kread f => some f.view
  | .klimit f => some f.view
  | .karm f => some f.view
  | .kalloc f => some f.view
  | .kfree f => some f.view
  | .copy f _ => some f.view
  | .copyr f _ => some f.view
  | .fill f _ => some f.view
  | .gathr f _ => some f.view
  | .scatr f _ => some f.view
  | .scatrAdd f _ => some f.view
  | .overlay f _ => some f.view
  | .cqpush f _ => some f.view
  | .tshape f => some f.view
  | .trdsh f => some f.view
  | .tld f => some f.view
  | .tst f => some f.view
  | .tzeroTile f => some f.view
  | .tzeroAcc f => some f.view
  | .tzeroCarry f => some f.view
  | .tmma f => some f.view
  | .tadd f => some f.view
  | .tmul f => some f.view
  | .tscale f => some f.view
  | .tact f _ => some f.view
  | .tredSum f => some f.view
  | .tredMax f => some f.view
  | .tqnt f => some f.view
  | .tdq f => some f.view
  | .tcvt f => some f.view
  | .ttrn f => some f.view
  | .trow f => some f.view
  | .trowStr f => some f.view
  | .tscan f => some f.view
  | .tcarrySave f => some f.view
  | .tcarryLoad f => some f.view
  | .tmovq f => some f.view
  | .semit f _ => some f.view
  | .smark f _ _ => some f.view
  | .srecv f _ => some f.view
  | .sparm f _ _ _ => some f.view
  | .sstat f _ _ => some f.view
  | .smopen f _ _ => some f.view
  | .smfeed f => some f.view
  | .smclose f => some f.view
  | .smstat f => some f.view
  | .smabort f => some f.view
  | .umctxOpen f _ => some f.view
  | .umctxRelease f => some f.view
  | .umscore f _ => some f.view
  | .umrank f => some f.view
  | .umtap f => some f.view
  | .umdirty f => some f.view
  | .umqryInfo f => some f.view
  | .umqryMask f => some f.view
  | .umqryDirty f => some f.view
  | .umqryRound f => some f.view
  | .umclr f => some f.view
  | .trap f _ => some f.view
  | .sysrd f _ => some f.view
  | .syswr f _ => some f.view
  | .hem f => some f.view
  | .cycle f => some f.view
  | .cycleStamp f => some f.view
  | .meter f _ => some f.view
  | .bkpt f _ => some f.view
  | .yield f _ => some f.view
  | .flag f _ => some f.view
  | .bringUp => none
  | .stampCounterTick => none
  | .ageClampSweep => none
  | .queueRereadPoll _ _ => none
  | .consumePacket _ _ => none
  | .dependencesMet _ => none
  | .placementDecision _ => none
  | .agedPriorityStep _ => none
  | .blockedHeadTimeout _ => none
  | .quotaWindowBegin => none
  | .patternStoreFill _ _ => none
  | .stationLoad _ _ _ => none
  | .configurationCompleteWave _ => none
  | .seedInject _ => none
  | .entryAdmit _ _ => none
  | .tokenDelivered _ _ => none
  | .remnantPromote _ _ => none
  | .routerCycle _ => none
  | .starve _ => none
  | .receivePortDelivery _ => none
  | .creditReturn _ _ => none
  | .spineSwitchCycle _ => none
  | .commitTokenArrival _ _ => none
  | .killTokenArrival _ _ => none
  | .phaseReductionWave _ _ => none
  | .generatorStep _ _ => none
  | .nextRelease _ _ => none
  | .ballocWake _ _ => none
  | .ticketGrant _ _ => none
  | .stageSwitch _ => none
  | .memoryAccessPerformed _ => none
  | .translationWalk _ => none
  | .homeSliceApply _ => none
  | .lineFullWake _ _ => none
  | .refreshWindowEnd _ _ => none
  | .portalCompletion _ _ _ => none
  | .priPageRequest _ _ => none
  | .copyPacketStart _ => none
  | .copyOrdToken _ _ => none
  | .copyPacketPerformed _ _ => none
  | .copyQueuePacket _ _ => none
  | .weightLoadCommand _ _ _ _ _ => none
  | .spawnSlotStep _ => none
  | .tensorCommandPerform _ => none
  | .rowStreamToken _ _ => none
  | .tscanSetAsideRelease _ _ => none
  | .streamOutputRow _ => none
  | .circuitSlotReturn _ _ => none
  | .streamOperatorStep _ _ => none
  | .seamTokenArrival _ _ => none
  | .seamPortWord _ _ _ => none
  | .seamMergeRow _ _ _ => none
  | .seamContextEnd _ _ _ => none
  | .unmaskContextGrant _ => none
  | .unmaskInToken _ _ => none
  | .knotBankApply _ => none
  | .waiterDirectoryNotify _ _ => none
  | .pollingWaiterReread _ _ => none
  | .triggerEngineIssue _ => none
  | .knotWindowAdd _ _ _ => none
  | .knotWindowSetLimit _ _ _ => none
  | .knotWindowAcquire _ _ => none
  | .hemTokenOutbound _ _ => none
  | .hemTokenInbound _ _ _ => none
  | .faultRecordWrite _ => none
  | .resumeRetry _ _ => none
  | .resumeDiscard _ _ => none
  | .freeze _ => none
  | .freezeBoundExpiry _ => none
  | .saveLaunch _ => none
  | .restoreLaunch _ => none
  | .watchdogExpiry _ => none
  | .yieldExpiry _ _ => none
  | .retirement _ => none
  | .cbEnable _ _ => none
  | .cbQueueEntry _ _ _ => none
  | .cbCopyQueueEntry _ _ _ => none
  | .cbInvalidate _ _ => none
  | .cbDsnap _ _ => none
  | .cbOvrel _ _ => none
  | .cbErrorClear _ _ => none
  | .controlBlockWrite _ _ _ _ => none
  | .knotAllot _ => none
  | .knotReturn _ => none
  | .slotTable _ => none
  | .queueHome _ => none
  | .portMask _ => none
  | .selfId _ => none
  | .bridge _ => none
  | .keyLoad _ => none
  | .keyUnload _ => none
  | .meterSnapshot _ _ _ _ => none
  | .getMeasurements _ _ _ => none
  | .ronobFirmwareUpdate _ _ => none
  | .schedulerMicrocodeUpdate _ => none
  | .laneRecalibration _ _ => none
  | .thermalRecalibration _ _ => none
  | .hbmRetraining _ => none
  | .thermalGating _ _ => none
  | .thermalTrip _ => none
  | .powerCapSet _ => none
  | .unmaskCommandPerform _ _ => none
  | .hbmRetrainingEnd _ => none
  | .invalidationComplete _ => none
  | .dsnapComplete _ => none
  | .atsInvalidation _ _ _ => none
  | .spdmSession _ _ => none
  | .ideStreamKeying _ => none
  | .tdispRequest _ _ => none

/-- What the instruction's row accepts (Tables 8.1, 9.1, 9.3, 10.5, 11.3, 12.3, 13.4, 14.5, 15.3, 16.2, 18.4). -/
def Instr.shape : Instr → Option Shape
  | .mov _ => some { immOk := true, steer := true }
  | .fanout _ => some { immOk := true, o1 := true }
  | .sink _ => some { sb := .any, sc := .any, immOk := true, o0 := false }
  | .steer _ => some { sb := .any, immOk := true, o1 := true }
  | .gate _ => some { sb := .port, sc := .portOpt, immOk := true, steer := true }
  | .join _ => some { sa := .port, sb := .port, sc := .portOpt, immOk := true, steer := true }
  | .inv _ => some { immOk := true, o1 := true }
  | .balloc _ _ => some { steer := true }
  | .bfree _ => some { immOk := true, steer := true }
  | .loopgen _ _ => some { sb := .any, sc := .portOpt, o1 := true }
  | .next _ => some { immOk := true, o1 := true }
  | .iend _ => some { sa := .port, immOk := true, o0 := false }
  | .retag _ => some { sb := .any, immOk := true, steer := true }
  | .retagCall _ => some { sb := .any, immOk := true, o1 := true }
  | .spec _ _ => some { steer := true }
  | .commit _ _ => some {}
  | .kill _ _ => some {}
  | .phset _ _ _ => some { steer := true }
  | .phwait _ _ _ => some { steer := true }
  | .spawn _ _ => some { sb := .any, sc := .kvPort }
  | .done _ => some { o0 := false }
  | .doneForce _ => some { o0 := false }
  | .ticket _ _ _ => some {}
  | .ticketRelease _ _ _ => some {}
  | .add _ => some { tys := intTys, sb := .any, immOk := true, steer := true }
  | .sub _ => some { tys := intTys, sb := .any, immOk := true, steer := true }
  | .mul _ => some { tys := intTys, sb := .any, immOk := true, steer := true }
  | .mulh _ => some { tys := intTys, sb := .any, immOk := true, steer := true }
  | .div _ => some { tys := intTys, sb := .any, immOk := true, steer := true }
  | .rem _ => some { tys := intTys, sb := .any, immOk := true, steer := true }
  | .and _ => some { tys := intTys, sb := .any, immOk := true, steer := true }
  | .or _ => some { tys := intTys, sb := .any, immOk := true, steer := true }
  | .xor _ => some { tys := intTys, sb := .any, immOk := true, steer := true }
  | .andn _ => some { tys := intTys, sb := .any, immOk := true, steer := true }
  | .shl _ => some { tys := intTys, sb := .any, immOk := true, steer := true }
  | .shr _ => some { tys := intTys, sb := .any, immOk := true, steer := true }
  | .sra _ => some { tys := intTys, sb := .any, immOk := true, steer := true }
  | .rot _ => some { tys := intTys, sb := .any, immOk := true, steer := true }
  | .min _ => some { tys := intTys, sb := .any, immOk := true, steer := true }
  | .max _ => some { tys := intTys, sb := .any, immOk := true, steer := true }
  | .abs _ => some { tys := [.i32, .i64], immOk := true, steer := true }
  | .neg _ => some { tys := intTys, immOk := true, steer := true }
  | .clz _ => some { tys := intTys, immOk := true, steer := true }
  | .ctz _ => some { tys := intTys, immOk := true, steer := true }
  | .popc _ => some { tys := intTys, immOk := true, steer := true }
  | .brev _ => some { tys := intTys, immOk := true, steer := true }
  | .cmp _ _ => some { tys := intTys, sb := .any, immOk := true, steer := true }
  | .sel _ => some { tys := allTys, sb := .any, sc := .any, immOk := true, steer := true }
  | .ext _ => some { tys := intTys, sb := .any, immOk := true, steer := true }
  | .ins _ => some { tys := intTys, sb := .any, sc := .any, immOk := true, steer := true }
  | .lea _ _ => some { tys := intTys, sb := .any, steer := true }
  | .constLo _ _ => some { tys := allTys, steer := true }
  | .constMid _ _ => some { tys := [.i64, .u64, .f64], steer := true }
  | .constHi _ _ => some { tys := [.i64, .u64, .f64], steer := true }
  | .consth _ _ => some { tys := [.i64, .u64, .f64], steer := true }
  | .fadd _ => some { tys := floatTys, sb := .any, rmOk := true, immOk := true, steer := true }
  | .fsub _ => some { tys := floatTys, sb := .any, rmOk := true, immOk := true, steer := true }
  | .fmul _ => some { tys := floatTys, sb := .any, rmOk := true, immOk := true, steer := true }
  | .fma _ => some { tys := floatTys, sb := .any, sc := .any, rmOk := true, immOk := true, steer := true }
  | .fnma _ => some { tys := floatTys, sb := .any, sc := .any, rmOk := true, immOk := true, steer := true }
  | .fdiv _ => some { tys := floatTys, sb := .any, rmOk := true, immOk := true, steer := true }
  | .fsqrt _ => some { tys := floatTys, rmOk := true, immOk := true, steer := true }
  | .fmin _ => some { tys := floatTys, sb := .any, immOk := true, steer := true }
  | .fmax _ => some { tys := floatTys, sb := .any, immOk := true, steer := true }
  | .fabs _ => some { tys := floatTys, immOk := true, steer := true }
  | .fneg _ => some { tys := floatTys, immOk := true, steer := true }
  | .fcmp _ _ => some { tys := floatTys, sb := .any, immOk := true, steer := true }
  | .fclass _ => some { tys := floatTys, immOk := true, steer := true }
  | .fcvt _ _ => some { tys := floatTys, rmOk := true, immOk := true, steer := true }
  | .ftoi _ _ => some { tys := floatTys, rmOk := true, immOk := true, steer := true }
  | .itof _ _ => some { tys := floatTys, rmOk := true, immOk := true, steer := true }
  | .fexp2 _ => some { tys := floatTys, rmOk := true, immOk := true, steer := true }
  | .flog2 _ => some { tys := floatTys, rmOk := true, immOk := true, steer := true }
  | .frcp _ => some { tys := floatTys, rmOk := true, immOk := true, steer := true }
  | .frsq _ => some { tys := floatTys, rmOk := true, immOk := true, steer := true }
  | .frint _ => some { tys := floatTys, rmOk := true, immOk := true, steer := true }
  | .frintX _ => some { tys := floatTys, rmOk := true, immOk := true, steer := true }
  | .ldl _ _ => some { tys := allTys, o1 := true }
  | .stl _ _ => some { tys := allTys, sb := .any, o0 := false, o1 := true }
  | .ldn _ _ => some { tys := allTys, o1 := true }
  | .stn _ _ => some { tys := allTys, sb := .any, o0 := false, o1 := true }
  | .ldg _ _ => some { tys := allTys, o1 := true }
  | .stg _ _ => some { tys := allTys, sb := .any, o0 := false, o1 := true }
  | .ldw _ _ => some { tys := allTys, o1 := true }
  | .feclr _ _ => some { o0 := false, o1 := true }
  | .feset _ _ => some { o0 := false, o1 := true }
  | .wcal _ _ => some { tys := [.u64] }
  | .amol _ _ _ _ => some { tys := intTys, sb := .any, sc := .any, o1 := true }
  | .amog _ _ _ _ => some { tys := intTys, sb := .any, sc := .any, o1 := true }
  | .updg _ _ _ => some { tys := [.i32, .u32, .i64, .u64, .f32], sb := .any, o0 := false, o1 := true }
  | .kadd _ => some { tys := [.u64], sb := .any, sc := .any, immOk := true }
  | .kwait _ => some { tys := [.u64], sb := .any, immOk := true, o1 := true }
  | .kread _ => some { tys := [.u64], sb := .any, immOk := true, o1 := true }
  | .klimit _ => some { tys := [.u64], sb := .any, immOk := true }
  | .karm _ => some { tys := [.u64], sb := .any, sc := .any, immOk := true }
  | .kalloc _ => some { tys := [.u64], immOk := true }
  | .kfree _ => some { tys := [.u64], immOk := true }
  | .copy _ _ => some { sb := .any, sc := .kv }
  | .copyr _ _ => some { sb := .any, sc := .kv }
  | .fill _ _ => some { sc := .kv }
  | .gathr _ _ => some { sb := .any, sc := .kv }
  | .scatr _ _ => some { sb := .any, sc := .kv }
  | .scatrAdd _ _ => some { tys := [.i32, .i64, .f32], sb := .any, sc := .kv }
  | .overlay _ _ => some { sc := .kv }
  | .cqpush _ _ => some { tys := [.u64], sb := .any, sc := .kv }
  | .tshape _ => some { tys := [] }
  | .trdsh _ => some { tys := [] }
  | .tld _ => some { tys := [], sb := .any }
  | .tst _ => some { tys := [] }
  | .tzeroTile _ => some { tys := [] }
  | .tzeroAcc _ => some { tys := [] }
  | .tzeroCarry _ => some { tys := [] }
  | .tmma _ => some { tys := [], sb := .any }
  | .tadd _ => some { tys := [] }
  | .tmul _ => some { tys := [] }
  | .tscale _ => some { tys := [], sb := .any }
  | .tact _ _ => some { tys := [] }
  | .tredSum _ => some { tys := [] }
  | .tredMax _ => some { tys := [] }
  | .tqnt _ => some { tys := [] }
  | .tdq _ => some { tys := [] }
  | .tcvt _ => some { tys := [] }
  | .ttrn _ => some { tys := [] }
  | .trow _ => some { tys := [], sb := .any }
  | .trowStr _ => some { tys := [] }
  | .tscan _ => some { tys := [], sb := .any }
  | .tcarrySave _ => some { tys := [], sb := .any }
  | .tcarryLoad _ => some { tys := [] }
  | .tmovq _ => some { tys := [], sb := .any }
  | .semit _ _ => some { tys := [.i32, .f32], sb := .any }
  | .smark _ _ _ => some {}
  | .srecv _ _ => some { o1 := true }
  | .sparm _ _ _ _ => some {}
  | .sstat _ _ _ => some { steer := true }
  | .smopen _ _ _ => some { sb := .any, sc := .kv }
  | .smfeed _ => some { sb := .any }
  | .smclose _ => some { sb := .any }
  | .smstat _ => some { sb := .any }
  | .smabort _ => some { sb := .any }
  | .umctxOpen _ _ => some {}
  | .umctxRelease _ => some {}
  | .umscore _ _ => some { sb := .any }
  | .umrank _ => some { sc := .kv }
  | .umtap _ => some { sb := .any }
  | .umdirty _ => some { o1 := true }
  | .umqryInfo _ => some { sb := .any }
  | .umqryMask _ => some { sb := .any }
  | .umqryDirty _ => some { sb := .any }
  | .umqryRound _ => some { sb := .any }
  | .umclr _ => some { sb := .any }
  | .trap _ _ => some {}
  | .sysrd _ _ => some { tys := [.u64], steer := true }
  | .syswr _ _ => some { tys := [.u64] }
  | .hem _ => some {}
  | .cycle _ => some { tys := [.u64], steer := true }
  | .cycleStamp _ => some { tys := [.u64], steer := true }
  | .meter _ _ => some { tys := [.u64], steer := true }
  | .bkpt _ _ => some {}
  | .yield _ _ => some {}
  | .flag _ _ => some {}
  | .bringUp => none
  | .stampCounterTick => none
  | .ageClampSweep => none
  | .queueRereadPoll _ _ => none
  | .consumePacket _ _ => none
  | .dependencesMet _ => none
  | .placementDecision _ => none
  | .agedPriorityStep _ => none
  | .blockedHeadTimeout _ => none
  | .quotaWindowBegin => none
  | .patternStoreFill _ _ => none
  | .stationLoad _ _ _ => none
  | .configurationCompleteWave _ => none
  | .seedInject _ => none
  | .entryAdmit _ _ => none
  | .tokenDelivered _ _ => none
  | .remnantPromote _ _ => none
  | .routerCycle _ => none
  | .starve _ => none
  | .receivePortDelivery _ => none
  | .creditReturn _ _ => none
  | .spineSwitchCycle _ => none
  | .commitTokenArrival _ _ => none
  | .killTokenArrival _ _ => none
  | .phaseReductionWave _ _ => none
  | .generatorStep _ _ => none
  | .nextRelease _ _ => none
  | .ballocWake _ _ => none
  | .ticketGrant _ _ => none
  | .stageSwitch _ => none
  | .memoryAccessPerformed _ => none
  | .translationWalk _ => none
  | .homeSliceApply _ => none
  | .lineFullWake _ _ => none
  | .refreshWindowEnd _ _ => none
  | .portalCompletion _ _ _ => none
  | .priPageRequest _ _ => none
  | .copyPacketStart _ => none
  | .copyOrdToken _ _ => none
  | .copyPacketPerformed _ _ => none
  | .copyQueuePacket _ _ => none
  | .weightLoadCommand _ _ _ _ _ => none
  | .spawnSlotStep _ => none
  | .tensorCommandPerform _ => none
  | .rowStreamToken _ _ => none
  | .tscanSetAsideRelease _ _ => none
  | .streamOutputRow _ => none
  | .circuitSlotReturn _ _ => none
  | .streamOperatorStep _ _ => none
  | .seamTokenArrival _ _ => none
  | .seamPortWord _ _ _ => none
  | .seamMergeRow _ _ _ => none
  | .seamContextEnd _ _ _ => none
  | .unmaskContextGrant _ => none
  | .unmaskInToken _ _ => none
  | .knotBankApply _ => none
  | .waiterDirectoryNotify _ _ => none
  | .pollingWaiterReread _ _ => none
  | .triggerEngineIssue _ => none
  | .knotWindowAdd _ _ _ => none
  | .knotWindowSetLimit _ _ _ => none
  | .knotWindowAcquire _ _ => none
  | .hemTokenOutbound _ _ => none
  | .hemTokenInbound _ _ _ => none
  | .faultRecordWrite _ => none
  | .resumeRetry _ _ => none
  | .resumeDiscard _ _ => none
  | .freeze _ => none
  | .freezeBoundExpiry _ => none
  | .saveLaunch _ => none
  | .restoreLaunch _ => none
  | .watchdogExpiry _ => none
  | .yieldExpiry _ _ => none
  | .retirement _ => none
  | .cbEnable _ _ => none
  | .cbQueueEntry _ _ _ => none
  | .cbCopyQueueEntry _ _ _ => none
  | .cbInvalidate _ _ => none
  | .cbDsnap _ _ => none
  | .cbOvrel _ _ => none
  | .cbErrorClear _ _ => none
  | .controlBlockWrite _ _ _ _ => none
  | .knotAllot _ => none
  | .knotReturn _ => none
  | .slotTable _ => none
  | .queueHome _ => none
  | .portMask _ => none
  | .selfId _ => none
  | .bridge _ => none
  | .keyLoad _ => none
  | .keyUnload _ => none
  | .meterSnapshot _ _ _ _ => none
  | .getMeasurements _ _ _ => none
  | .ronobFirmwareUpdate _ _ => none
  | .schedulerMicrocodeUpdate _ => none
  | .laneRecalibration _ _ => none
  | .thermalRecalibration _ _ => none
  | .hbmRetraining _ => none
  | .thermalGating _ _ => none
  | .thermalTrip _ => none
  | .powerCapSet _ => none
  | .unmaskCommandPerform _ _ => none
  | .hbmRetrainingEnd _ => none
  | .invalidationComplete _ => none
  | .dsnapComplete _ => none
  | .atsInvalidation _ _ _ => none
  | .spdmSession _ _ => none
  | .ideStreamKeying _ => none
  | .tdispRequest _ _ => none

/-- The width of a scalar type in bits (Table 3.3). -/
def Ty.width : Ty → Nat
  | .i32 => 32 | .u32 => 32 | .i64 => 64 | .u64 => 64 | .f16 => 16 | .bf16 => 16 | .f32 => 32 | .f64 => 64

/-- Whether TY is one of 4 to 7. -/
def Ty.isFloat : Ty → Bool
  | .f16 => true | .bf16 => true | .f32 => true | .f64 => true | _ => false

/-- An access width in bytes (R65). -/
def Width.bytes : Width → Nat
  | .b8 => 1 | .b16 => 2 | .b32 => 4 | .b64 => 8

/-- Loads and stores: w at most TY's width, and equal to it for a floating TY (R226). -/
def loadStoreWidthOk (f : FormM) : Bool :=
  if f.ty.isFloat then decide (8 * f.width.bytes = f.ty.width) else decide (8 * f.width.bytes ≤ f.ty.width)

/-- Table 10.5's REL and SPC columns. -/
def memFlags (f : FormM) (relOk spcOk : Bool) : List (Option DecodeErr) :=
  [require (relOk || !f.rel) .subOperation, require (spcOk || !f.spc) .subOperation]

/-- A load's checks. -/
def loadExtra (f : FormM) : List (Option DecodeErr) :=
  require (loadStoreWidthOk f) .subOperation :: memFlags f false true

/-- A store's checks. -/
def storeExtra (f : FormM) : List (Option DecodeErr) :=
  require (loadStoreWidthOk f) .subOperation :: memFlags f true false

/-- FN[1:0] is 0 for FECLR, FESET and WCAL. -/
def noWidth (f : FormM) : Option DecodeErr := require (decide (f.width = .b8)) .subOperation

/-- Atomics: w is 32 or 64, and no more than TY holds is asked of it by Table 10.5. -/
def atomWidth (f : FormM) : Option DecodeErr := require (decide (f.width = .b32 ∨ f.width = .b64)) .subOperation

/-- CMP: 0x05 except under cas, and never 0x07 (R226). -/
def cmpExtra (op : AmoOp) (cmp : Spec) : Option DecodeErr :=
  match op with
  | .cas => require (decide (cmp ≠ .imm)) .immediateUse
  | _ => require (decide (cmp = .zero)) .unusedOperand

/-- UPDG's TY: AOP 6 and 7 need f32 and w 32, the others TY 0 to 3 (Table 10.6). -/
def updTyOk (f : FormM) (op : UpdOp) : Bool :=
  match op with
  | .fadd => decide (f.ty = .f32 ∧ f.width = .b32)
  | .faddNd => decide (f.ty = .f32 ∧ f.width = .b32)
  | _ => decide (f.ty ≠ .f32)

/-- Table 16.2's scopes and orders. -/
def knotExtra (f : FormK) (scopes : List Scope) (orders : List Order) : List (Option DecodeErr) :=
  [require (decide (f.scope ∈ scopes)) .subOperation, require (decide (f.order ∈ orders)) .subOperation]

/-- All four scopes. -/
def allScopes : List Scope := [.bobbin, .panel, .device, .system]

/-- Which of format T's fields an instruction uses (Table 12.3); every other must be 0 (R252). -/
structure TUse where
  tys : List Elem := [.e4m3]
  td : Bool := false
  ta : Bool := false
  tb : Bool := false
  qa : Bool := false
  sw : Bool := false
  /-- number of FLG bits the instruction names, from bit 0 -/
  flg : Nat := 0

/-- Format T's field checks (R252, Table 12.3). -/
def TUse.errs (u : TUse) (f : FormT) : List (Option DecodeErr) :=
  [ require (decide (f.flg.toNat < 2 ^ u.flg)) .reservedBits,
    require (decide (f.ty ∈ u.tys)) .scalarType,
    require (u.td || decide (f.td = 0)) .reservedBits,
    require (u.ta || decide (f.ta = 0)) .reservedBits,
    require (u.tb || decide (f.tb = 0)) .reservedBits,
    require (u.qa || decide (f.qa = 0)) .reservedBits,
    require (u.sw || decide (f.sw = 0)) .reservedBits ]

/-- RM codes in FLG[2:0] of TQNT, TCVT and TMOVQ. -/
def flgRmOk (f : FormT) (most : Nat) : Option DecodeErr := require (decide (f.flg.toNat % 8 ≤ most)) .rounding

/-- I32 (FLG[3]) needs TY 0. -/
def i32FlagOk (f : FormT) : Option DecodeErr :=
  require (!f.flg.getLsbD 3 || decide (f.ty = .e4m3)) .scalarType

/-- The system registers that exist (Table 18.5). -/
def sysRegExists (r : BitVec 12) : Bool := decide (r.toNat ≤ 10 ∨ (0x100 ≤ r.toNat ∧ r.toNat ≤ 0x11F))

/-- The system registers that SYSWR may name (Table 18.5). -/
def sysRegWritable (r : BitVec 12) : Bool :=
  decide (r.toNat = 6 ∨ r.toNat = 7 ∨ (0x100 ≤ r.toNat ∧ r.toNat ≤ 0x11F))

/-- SW1 and SW2: a field that the instruction does not use must be 0 (R68). -/
def swUse (f : FormE) (sw1 sw2 : Bool) : List (Option DecodeErr) :=
  [require (sw1 || decide (f.sw1 = 0)) .unusedOperand, require (sw2 || decide (f.sw2 = 0)) .unusedOperand]

/-- KC 0 and KV 0 (R308, R323). -/
def noKnot (f : FormE) : List (Option DecodeErr) :=
  [require (decide (f.kc = 0)) .unusedOperand, require (!f.kv) .unusedOperand]

/-- Element lists of Table 12.3. -/
def tArith : List Elem := [.e4m3, .e5m2, .f16, .bf16, .f32]
/-- TY 3 to 5. -/
def tFloat : List Elem := [.f16, .bf16, .f32]
/-- TY 0 to 5. -/
def tPlain : List Elem := [.e4m3, .e5m2, .i8, .f16, .bf16, .f32]
/-- TY 0 to 7. -/
def tAll : List Elem := [.e4m3, .e5m2, .i8, .f16, .bf16, .f32, .yb8, .yb4]

/-- The checks that one instruction has of its own. -/
def Instr.extra : Instr → List (Option DecodeErr)
  | .loopgen f _ => [require f.og0 .outputGroup]
  | .spec _ colour => [require (decide (colour ≠ 0)) .parameter]
  | .commit _ colour => [require (decide (colour ≠ 0)) .parameter]
  | .kill _ colour => [require (decide (colour ≠ 0)) .parameter]
  | .phwait _ ph src => [require (!src || decide (ph = 0)) .parameter]
  | .spawn f _ => swUse f true false
  | .ldl f _ => loadExtra f
  | .ldn f _ => loadExtra f
  | .ldg f _ => loadExtra f
  | .ldw f _ => loadExtra f
  | .stl f _ => storeExtra f
  | .stn f _ => storeExtra f
  | .stg f _ => storeExtra f
  | .feclr f _ => noWidth f :: memFlags f true false
  | .feset f _ => noWidth f :: memFlags f true false
  | .wcal f _ => noWidth f :: memFlags f false false
  | .amol f op k _ => atomWidth f :: cmpExtra op k :: memFlags f true false
  | .amog f op k _ => atomWidth f :: cmpExtra op k :: memFlags f true false
  | .updg f op _ => atomWidth f :: require (updTyOk f op) .scalarType :: memFlags f true false
  | .kadd f => knotExtra f allScopes [.relaxed, .release]
  | .kwait f => knotExtra f allScopes [.relaxed, .acquire]
  | .kread f => knotExtra f allScopes [.relaxed, .acquire]
  | .klimit f => knotExtra f allScopes [.relaxed]
  | .karm f => knotExtra f allScopes [.relaxed, .release]
  | .kalloc f => knotExtra f [.panel] [.relaxed]
  | .kfree f => knotExtra f [.panel] [.relaxed]
  | .fill f _ => swUse f false true
  | .cqpush f patch => require (decide (patch ≠ .none ∨ f.sb = .zero)) .unusedOperand :: swUse f true false
  | .tshape f => TUse.errs { td := true } f
  | .trdsh f => TUse.errs { ta := true } f
  | .tld f => TUse.errs { td := true, sw := true } f
  | .tst f => TUse.errs { ta := true, sw := true, flg := 1 } f
  | .tzeroTile f => TUse.errs { td := true } f
  | .tzeroAcc f => TUse.errs { qa := true } f
  | .tzeroCarry f => TUse.errs { flg := 3 } f
  | .tmma f => TUse.errs { tys := tAll, ta := true, tb := true, qa := true, flg := 3 } f ++
      [require (decide (f.ty ≠ .yb4) || decide (f.tb.val % 2 = 0)) .parameter]
  | .tadd f => TUse.errs { tys := tArith, td := true, ta := true, tb := true } f
  | .tmul f => TUse.errs { tys := tArith, td := true, ta := true, tb := true } f
  | .tscale f => TUse.errs { tys := tArith, td := true, ta := true } f
  | .tact f _ => TUse.errs { tys := tArith, td := true, ta := true } f
  | .tredSum f => TUse.errs { tys := tFloat, td := true, ta := true, flg := 1 } f
  | .tredMax f => TUse.errs { tys := tFloat, td := true, ta := true, flg := 1 } f
  | .tqnt f => TUse.errs { tys := [.yb8, .yb4], td := true, ta := true, sw := true, flg := 4 } f ++
      [flgRmOk f 5, require (f.flg.getLsbD 3 || decide (f.sw = 0)) .reservedBits]
  | .tdq f => TUse.errs { tys := tFloat, td := true, ta := true } f
  | .tcvt f => TUse.errs { tys := tPlain, td := true, ta := true, flg := 4 } f ++ [flgRmOk f 4, i32FlagOk f]
  | .ttrn f => TUse.errs { td := true, ta := true } f
  | .trow f => TUse.errs { ta := true, sw := true } f
  | .trowStr f => TUse.errs { ta := true, flg := 1 } f
  | .tscan f => TUse.errs { tys := tFloat, td := true, ta := true, tb := true, flg := 4 } f
  | .tcarrySave f => TUse.errs { sw := true, flg := 4 } f
  | .tcarryLoad f => TUse.errs { sw := true, flg := 3 } f
  | .tmovq f => TUse.errs { tys := tPlain, td := true, qa := true, flg := 4 } f ++ [flgRmOk f 4, i32FlagOk f]
  | .smark _ _ mark => [require (decide (mark.toNat ∈ [1, 2, 3, 4, 14, 15])) .parameter]
  | .sparm _ _ _ preg => [require (decide (preg ≠ 3)) .parameter]
  | .smfeed f => swUse f false false ++ noKnot f
  | .smclose f => swUse f false false ++ noKnot f
  | .smstat f => swUse f false false ++ noKnot f
  | .smabort f => swUse f false false ++ noKnot f
  | .umctxOpen f _ => noKnot f
  | .umctxRelease f => swUse f false false ++ noKnot f
  | .umscore f _ => swUse f true false ++ noKnot f
  | .umrank f => swUse f true false
  | .umtap f => swUse f true false ++ noKnot f
  | .umdirty f => require f.og0 .outputGroup :: require (!f.kv) .unusedOperand :: swUse f false false
  | .umqryInfo f => swUse f false false ++ noKnot f
  | .umqryMask f => swUse f false false ++ noKnot f
  | .umqryDirty f => swUse f false false ++ noKnot f
  | .umqryRound f => swUse f false false ++ noKnot f
  | .umclr f => swUse f false false ++ noKnot f
  | .trap _ code => [require (code.getLsbD 15) .parameter]
  | .sysrd f reg => [require (sysRegExists reg) .parameter, require (!f.og1) .outputGroup]
  | .syswr _ reg => [require (sysRegWritable reg) .parameter]
  | .cycle f => [require (!f.og1) .outputGroup]
  | .cycleStamp f => [require (!f.og1) .outputGroup]
  | .meter f idx => [require (decide (idx.toNat ≤ 23)) .parameter, require (!f.og1) .outputGroup]
  | .yield _ n => [require (decide (n ≠ 0)) .parameter]
  | .flag _ mask => [require (decide (mask ≠ 0)) .parameter]
  | _ => []

/-- Checks 5 and 6 of Table 3.7 with OG's, in order; an event of the machine is no encoding. -/
def Instr.check (i : Instr) : Option DecodeErr :=
  match i.view, i.shape with
  | some v, some sh => firstErr (sh.errs v ++ i.extra)
  | _, _ => some .opcode

/-- A well-formed instruction: one that passes every check of its own fields. -/
abbrev Instr.WellFormed (i : Instr) : Prop := i.check = none

end Sys2Proof
end

