-- ==== Sys2Proof/Decode.lean ====
section
/-! DEFINITION. Decode.lean: the instruction word (R59 to R69): a decoder that is total on any 64 bits and rejects by the
name of the failing check, and the encoder written from the same tables. -/

namespace Sys2Proof

/-- The common layout's fields as numbers (Table 3.1). -/
structure RawC where
  opc : Nat
  fn : Nat
  ty : Nat
  sa : Nat
  sb : Nat
  sc : Nat
  og : Nat
  pm : Nat
  rm : Nat
  imm : Nat
  deriving DecidableEq, Repr

/-- Format T's fields as numbers (Table 3.4). -/
structure RawT where
  opc : Nat
  fn : Nat
  ty : Nat
  sa : Nat
  sb : Nat
  td : Nat
  ta : Nat
  tb : Nat
  qa : Nat
  sw : Nat
  flg : Nat
  og : Nat
  pm : Nat
  top : Nat
  deriving DecidableEq, Repr

/-- `len` bits of `w` from bit `lo`. -/
def bitsOf (w lo len : Nat) : Nat := w / 2 ^ lo % 2 ^ len

/-- Table 3.1. -/
def RawC.unpack (w : Nat) : RawC where
  opc := bitsOf w 0 8
  fn := bitsOf w 8 4
  ty := bitsOf w 12 3
  sa := bitsOf w 15 6
  sb := bitsOf w 21 6
  sc := bitsOf w 27 6
  og := bitsOf w 33 2
  pm := bitsOf w 35 2
  rm := bitsOf w 37 3
  imm := bitsOf w 40 24

/-- Table 3.4. -/
def RawT.unpack (w : Nat) : RawT where
  opc := bitsOf w 0 8
  fn := bitsOf w 8 4
  ty := bitsOf w 12 3
  sa := bitsOf w 15 6
  sb := bitsOf w 21 6
  td := bitsOf w 27 4
  ta := bitsOf w 31 4
  tb := bitsOf w 35 4
  qa := bitsOf w 39 2
  sw := bitsOf w 41 8
  flg := bitsOf w 49 7
  og := bitsOf w 56 2
  pm := bitsOf w 58 2
  top := bitsOf w 60 4

/-- Table 3.3. -/
def Ty.ofCode : Nat → Option Ty
  | 0 => some .i32 | 1 => some .u32 | 2 => some .i64 | 3 => some .u64
  | 4 => some .f16 | 5 => some .bf16 | 6 => some .f32 | 7 => some .f64 | _ => none

/-- Table 2.2, codes 0 to 7. -/
def Elem.ofCode : Nat → Option Elem
  | 0 => some .e4m3 | 1 => some .e5m2 | 2 => some .i8 | 3 => some .f16
  | 4 => some .bf16 | 5 => some .f32 | 6 => some .yb8 | 7 => some .yb4 | _ => none

/-- Table 3.2. -/
def Spec.ofCode (n : Nat) : Option Spec :=
  match n with
  | 0 => some .port | 1 => some .iter | 2 => some .bobbin | 3 => some .die | 4 => some .station
  | 5 => some .zero | 6 => some .ones | 7 => some .imm | 8 => some .phase
  | _ => if 0x20 ≤ n ∧ n < 0x40 then some (.const (Fin.ofNat 32 n)) else none

/-- R63. -/
def Pred.ofCode : Nat → Option Pred
  | 0 => some .always | 1 => some .ifTrue | 2 => some .ifFalse | 3 => some .steer | _ => none

/-- R46, codes 0 to 4. -/
def RM.ofCode : Nat → Option RM
  | 0 => some .rne | 1 => some .rz | 2 => some .ru | 3 => some .rd | 4 => some .rna | _ => none

/-- R65. -/
def Width.ofCode : Nat → Option Width
  | 0 => some .b8 | 1 => some .b16 | 2 => some .b32 | 3 => some .b64 | _ => none

/-- R66. -/
def Scope.ofCode : Nat → Option Scope
  | 0 => some .bobbin | 1 => some .panel | 2 => some .device | 3 => some .system | _ => none

/-- R66. -/
def Order.ofCode : Nat → Option Order
  | 0 => some .relaxed | 1 => some .acquire | 2 => some .release | 3 => some .acqRel | _ => none

/-- R196. -/
def CmpRel.ofCode : Nat → Option CmpRel
  | 0 => some .eq | 1 => some .ne | 2 => some .lt | 3 => some .le | 4 => some .gt | 5 => some .ge | _ => none

/-- R204. -/
def FcmpPred.ofCode : Nat → Option FcmpPred
  | 0 => some .eq | 1 => some .ne | 2 => some .lt | 3 => some .le | 4 => some .gt | 5 => some .ge
  | 6 => some .un | 7 => some .ord | _ => none

/-- R205: FCVT's FN. -/
def CvtSrc.ofCode : Nat → Option CvtSrc
  | 4 => some .f16 | 5 => some .bf16 | 6 => some .f32 | 7 => some .f64 | 8 => some .e4m3 | 9 => some .e5m2
  | _ => none

/-- R205: FTOI's and ITOF's FN. -/
def IntTy.ofCode : Nat → Option IntTy
  | 0 => some .i32 | 1 => some .u32 | 2 => some .i64 | 3 => some .u64 | _ => none

/-- Table 10.6. -/
def AmoOp.ofCode : Nat → Option AmoOp
  | 0 => some .swap | 1 => some .cas | 2 => some .add | 3 => some .min | 4 => some .max | _ => none

/-- Table 10.6. -/
def UpdOp.ofCode : Nat → Option UpdOp
  | 0 => some .add | 1 => some .min | 2 => some .max | 3 => some .and | 4 => some .or | 5 => some .xor
  | 6 => some .fadd | 7 => some .faddNd | _ => none

/-- R245. -/
def CqPatch.ofCode : Nat → Option CqPatch
  | 0 => some .none | 1 => some .src | 2 => some .dst | _ => none

/-- R264. -/
def ActFn.ofCode : Nat → Option ActFn
  | 0 => some .relu | 1 => some .gelu | 2 => some .silu | 3 => some .sigm | 4 => some .tanh | 5 => some .exp2
  | 6 => some .softp | _ => none

/-- An answer, or the named error. -/
def orErr {α : Type} (e : DecodeErr) : Option α → Except DecodeErr α
  | some x => .ok x
  | none => .error e

/-- Bit n of OG. -/
def ogBit (og n : Nat) : Bool := og.testBit n

/-- Formats A and I (R59, R64). -/
def RawC.formA (r : RawC) : Except DecodeErr FormA := do
  let ty ← orErr .scalarType (Ty.ofCode r.ty)
  let rm ← orErr .rounding (RM.ofCode r.rm)
  let pm ← orErr .predication (Pred.ofCode r.pm)
  let sa ← orErr .specifier (Spec.ofCode r.sa)
  let sb ← orErr .specifier (Spec.ofCode r.sb)
  let sc ← orErr .specifier (Spec.ofCode r.sc)
  return ⟨sa, sb, sc, ogBit r.og 0, ogBit r.og 1, pm, ty, rm, BitVec.ofNat 24 r.imm⟩

/-- RM 0 is the only code of an instruction with no rounded result (R63). -/
def RawC.noRm (r : RawC) : Except DecodeErr Unit := if r.rm = 0 then .ok () else .error .rounding

/-- Format X (R67). -/
def RawC.formX (r : RawC) : Except DecodeErr FormX := do
  let ty ← orErr .scalarType (Ty.ofCode r.ty)
  r.noRm
  let pm ← orErr .predication (Pred.ofCode r.pm)
  let sa ← orErr .specifier (Spec.ofCode r.sa)
  let sb ← orErr .specifier (Spec.ofCode r.sb)
  let sc ← orErr .specifier (Spec.ofCode r.sc)
  return ⟨sa, sb, sc, ogBit r.og 0, ogBit r.og 1, pm, ty⟩

/-- Format M (R65): SC is RANGE, FN is width, REL and SPC. -/
def RawC.formM (r : RawC) : Except DecodeErr FormM := do
  let ty ← orErr .scalarType (Ty.ofCode r.ty)
  r.noRm
  let pm ← orErr .predication (Pred.ofCode r.pm)
  let width ← orErr .subOperation (Width.ofCode (r.fn % 4))
  let sa ← orErr .specifier (Spec.ofCode r.sa)
  let sb ← orErr .specifier (Spec.ofCode r.sb)
  return ⟨sa, sb, BitVec.ofNat 6 r.sc, ogBit r.og 0, ogBit r.og 1, pm, ty, width, r.fn.testBit 2, r.fn.testBit 3⟩

/-- Format K (R66): TY 3 only. -/
def RawC.formK (r : RawC) : Except DecodeErr FormK := do
  if r.ty = 3 then .ok () else .error .scalarType
  r.noRm
  let pm ← orErr .predication (Pred.ofCode r.pm)
  let scope ← orErr .subOperation (Scope.ofCode (r.fn % 4))
  let order ← orErr .subOperation (Order.ofCode (r.fn / 4))
  let sa ← orErr .specifier (Spec.ofCode r.sa)
  let sb ← orErr .specifier (Spec.ofCode r.sb)
  let sc ← orErr .specifier (Spec.ofCode r.sc)
  return ⟨sa, sb, sc, ogBit r.og 0, ogBit r.og 1, pm, scope, order, BitVec.ofNat 24 r.imm⟩

/-- Format E (R68): bits 63:62 are zero; KV is bit 61, KC 60:56, SW2 55:48, SW1 47:40. -/
def RawC.formE (r : RawC) : Except DecodeErr FormE := do
  if bitsOf r.imm 22 2 = 0 then .ok () else .error .reservedBits
  let ty ← orErr .scalarType (Ty.ofCode r.ty)
  r.noRm
  let pm ← orErr .predication (Pred.ofCode r.pm)
  let sa ← orErr .specifier (Spec.ofCode r.sa)
  let sb ← orErr .specifier (Spec.ofCode r.sb)
  let sc ← orErr .specifier (Spec.ofCode r.sc)
  return ⟨sa, sb, sc, ogBit r.og 0, ogBit r.og 1, pm, ty, r.imm.testBit 21, Fin.ofNat 32 (bitsOf r.imm 16 5),
    BitVec.ofNat 8 (bitsOf r.imm 0 8), BitVec.ofNat 8 (bitsOf r.imm 8 8)⟩

/-- Format T (R69): bits 63:60 are zero. -/
def RawT.formT (r : RawT) : Except DecodeErr FormT := do
  if r.top = 0 then .ok () else .error .reservedBits
  let ty ← orErr .scalarType (Elem.ofCode r.ty)
  let pm ← orErr .predication (Pred.ofCode r.pm)
  let sa ← orErr .specifier (Spec.ofCode r.sa)
  let sb ← orErr .specifier (Spec.ofCode r.sb)
  return ⟨sa, sb, Fin.ofNat 16 r.td, Fin.ofNat 16 r.ta, Fin.ofNat 16 r.tb, Fin.ofNat 4 r.qa, BitVec.ofNat 8 r.sw,
    BitVec.ofNat 7 r.flg, ogBit r.og 0, ogBit r.og 1, pm, ty⟩

/-- A sub-operation that the opcode does not have. -/
def badFn {α : Type} : Except DecodeErr α := .error .subOperation

/-- Format X: the bits of IMM24 that the instruction's layout does not name, given by a mask of those it names, are zero
(R67). -/
def named {α : Type} (imm mask : Nat) (x : Except DecodeErr α) : Except DecodeErr α :=
  if Nat.land imm (0xFFFFFF ^^^ mask) = 0 then x else .error .reservedBits

/-- The control opcodes, 0x01 to 0x15 (Table 3.5). -/
def parseControl (r : RawC) : Except DecodeErr Instr :=
  match r.opc with
  | 0x01 => 
    if r.fn = 0 then do let f ← r.formA; .ok (.mov f)
    else badFn
  | 0x02 => 
    if r.fn = 0 then do let f ← r.formA; .ok (.fanout f)
    else badFn
  | 0x03 => 
    if r.fn = 0 then do let f ← r.formA; .ok (.sink f)
    else badFn
  | 0x04 => 
    if r.fn = 0 then do let f ← r.formA; .ok (.steer f)
    else badFn
  | 0x05 => 
    if r.fn = 0 then do let f ← r.formA; .ok (.gate f)
    else badFn
  | 0x06 => 
    if r.fn = 0 then do let f ← r.formA; .ok (.join f)
    else badFn
  | 0x07 => 
    if r.fn = 0 then do let f ← r.formA; .ok (.inv f)
    else badFn
  | 0x08 => 
    if r.fn = 0 then named r.imm 0x3F (do let f ← r.formX; .ok (.balloc f (BitVec.ofNat 6 r.imm)))
    else badFn
  | 0x09 => 
    if r.fn = 0 then do let f ← r.formA; .ok (.bfree f)
    else badFn
  | 0x0A => 
    if r.fn = 0 then named r.imm 0xFFFF (do let f ← r.formX; .ok (.loopgen f (BitVec.ofNat 16 r.imm)))
    else badFn
  | 0x0B => 
    if r.fn = 0 then do let f ← r.formA; .ok (.next f)
    else badFn
  | 0x0C => 
    if r.fn = 0 then do let f ← r.formA; .ok (.iend f)
    else badFn
  | 0x0D => 
    if r.fn = 0 then do let f ← r.formA; .ok (.retag f)
    else
    if r.fn = 1 then do let f ← r.formA; .ok (.retagCall f)
    else badFn
  | 0x0E => 
    if r.fn = 0 then named r.imm 0x3 (do let f ← r.formX; .ok (.spec f (BitVec.ofNat 2 r.imm)))
    else badFn
  | 0x0F => 
    if r.fn = 0 then named r.imm 0x3 (do let f ← r.formX; .ok (.commit f (BitVec.ofNat 2 r.imm)))
    else badFn
  | 0x10 => 
    if r.fn = 0 then named r.imm 0x3 (do let f ← r.formX; .ok (.kill f (BitVec.ofNat 2 r.imm)))
    else badFn
  | 0x11 => 
    if r.fn = 0 then named r.imm 0x1F (do let f ← r.formX; .ok (.phset f (BitVec.ofNat 4 r.imm) (r.imm.testBit 4)))
    else badFn
  | 0x12 => 
    if r.fn = 0 then named r.imm 0x1F (do let f ← r.formX; .ok (.phwait f (BitVec.ofNat 4 r.imm) (r.imm.testBit 4)))
    else badFn
  | 0x13 => 
    if r.fn < 2 then do let f ← r.formE; .ok (.spawn f (r.fn.testBit 0))
    else badFn
  | 0x14 => 
    if r.fn = 0 then named r.imm 0x0 (do let f ← r.formX; .ok (.done f))
    else
    if r.fn = 1 then named r.imm 0x0 (do let f ← r.formX; .ok (.doneForce f))
    else badFn
  | 0x15 => 
    if r.fn = 0 then named r.imm 0x1FF (do let f ← r.formX; .ok (.ticket f (BitVec.ofNat 3 r.imm) (BitVec.ofNat 6 (r.imm / 2 ^ 3))))
    else
    if r.fn = 1 then named r.imm 0x1FF (do let f ← r.formX; .ok (.ticketRelease f (BitVec.ofNat 3 r.imm) (BitVec.ofNat 6 (r.imm / 2 ^ 3))))
    else badFn
  | _ => .error .opcode

/-- The integer opcodes, 0x20 to 0x3C (Table 3.5). -/
def parseInteger (r : RawC) : Except DecodeErr Instr :=
  match r.opc with
  | 0x20 => 
    if r.fn = 0 then do let f ← r.formA; .ok (.add f)
    else badFn
  | 0x21 => 
    if r.fn = 0 then do let f ← r.formA; .ok (.sub f)
    else badFn
  | 0x22 => 
    if r.fn = 0 then do let f ← r.formA; .ok (.mul f)
    else badFn
  | 0x23 => 
    if r.fn = 0 then do let f ← r.formA; .ok (.mulh f)
    else badFn
  | 0x24 => 
    if r.fn = 0 then do let f ← r.formA; .ok (.div f)
    else badFn
  | 0x25 => 
    if r.fn = 0 then do let f ← r.formA; .ok (.rem f)
    else badFn
  | 0x26 => 
    if r.fn = 0 then do let f ← r.formA; .ok (.and f)
    else badFn
  | 0x27 => 
    if r.fn = 0 then do let f ← r.formA; .ok (.or f)
    else badFn
  | 0x28 => 
    if r.fn = 0 then do let f ← r.formA; .ok (.xor f)
    else badFn
  | 0x29 => 
    if r.fn = 0 then do let f ← r.formA; .ok (.andn f)
    else badFn
  | 0x2A => 
    if r.fn = 0 then do let f ← r.formA; .ok (.shl f)
    else badFn
  | 0x2B => 
    if r.fn = 0 then do let f ← r.formA; .ok (.shr f)
    else badFn
  | 0x2C => 
    if r.fn = 0 then do let f ← r.formA; .ok (.sra f)
    else badFn
  | 0x2D => 
    if r.fn = 0 then do let f ← r.formA; .ok (.rot f)
    else badFn
  | 0x2E => 
    if r.fn = 0 then do let f ← r.formA; .ok (.min f)
    else badFn
  | 0x2F => 
    if r.fn = 0 then do let f ← r.formA; .ok (.max f)
    else badFn
  | 0x30 => 
    if r.fn = 0 then do let f ← r.formA; .ok (.abs f)
    else badFn
  | 0x31 => 
    if r.fn = 0 then do let f ← r.formA; .ok (.neg f)
    else badFn
  | 0x32 => 
    if r.fn = 0 then do let f ← r.formA; .ok (.clz f)
    else badFn
  | 0x33 => 
    if r.fn = 0 then do let f ← r.formA; .ok (.ctz f)
    else badFn
  | 0x34 => 
    if r.fn = 0 then do let f ← r.formA; .ok (.popc f)
    else badFn
  | 0x35 => 
    if r.fn = 0 then do let f ← r.formA; .ok (.brev f)
    else badFn
  | 0x36 => do let rel ← orErr .subOperation (CmpRel.ofCode r.fn); let f ← r.formA; .ok (.cmp f rel)
  | 0x37 => 
    if r.fn = 0 then do let f ← r.formA; .ok (.sel f)
    else badFn
  | 0x38 => 
    if r.fn = 0 then do let f ← r.formA; .ok (.ext f)
    else badFn
  | 0x39 => 
    if r.fn = 0 then do let f ← r.formA; .ok (.ins f)
    else badFn
  | 0x3A => do let f ← r.formA; .ok (.lea f (BitVec.ofNat 4 r.fn))
  | 0x3B => 
    if r.fn = 0 then named r.imm 0xFFFFFF (do let f ← r.formX; .ok (.constLo f (BitVec.ofNat 24 r.imm)))
    else
    if r.fn = 1 then named r.imm 0xFFFFFF (do let f ← r.formX; .ok (.constMid f (BitVec.ofNat 24 r.imm)))
    else
    if r.fn = 2 then named r.imm 0xFFFF (do let f ← r.formX; .ok (.constHi f (BitVec.ofNat 16 r.imm)))
    else badFn
  | 0x3C => 
    if r.fn = 0 then named r.imm 0xFFFFFF (do let f ← r.formX; .ok (.consth f (BitVec.ofNat 24 r.imm)))
    else badFn
  | _ => .error .opcode

/-- The float opcodes, 0x40 to 0x54 (Table 3.5). -/
def parseFloat (r : RawC) : Except DecodeErr Instr :=
  match r.opc with
  | 0x40 => 
    if r.fn = 0 then do let f ← r.formA; .ok (.fadd f)
    else badFn
  | 0x41 => 
    if r.fn = 0 then do let f ← r.formA; .ok (.fsub f)
    else badFn
  | 0x42 => 
    if r.fn = 0 then do let f ← r.formA; .ok (.fmul f)
    else badFn
  | 0x43 => 
    if r.fn = 0 then do let f ← r.formA; .ok (.fma f)
    else badFn
  | 0x44 => 
    if r.fn = 0 then do let f ← r.formA; .ok (.fnma f)
    else badFn
  | 0x45 => 
    if r.fn = 0 then do let f ← r.formA; .ok (.fdiv f)
    else badFn
  | 0x46 => 
    if r.fn = 0 then do let f ← r.formA; .ok (.fsqrt f)
    else badFn
  | 0x47 => 
    if r.fn = 0 then do let f ← r.formA; .ok (.fmin f)
    else badFn
  | 0x48 => 
    if r.fn = 0 then do let f ← r.formA; .ok (.fmax f)
    else badFn
  | 0x49 => 
    if r.fn = 0 then do let f ← r.formA; .ok (.fabs f)
    else badFn
  | 0x4A => 
    if r.fn = 0 then do let f ← r.formA; .ok (.fneg f)
    else badFn
  | 0x4B => do let pred ← orErr .subOperation (FcmpPred.ofCode r.fn); let f ← r.formA; .ok (.fcmp f pred)
  | 0x4C => 
    if r.fn = 0 then do let f ← r.formA; .ok (.fclass f)
    else badFn
  | 0x4D => do let src ← orErr .subOperation (CvtSrc.ofCode r.fn); let f ← r.formA; .ok (.fcvt f src)
  | 0x4E => do let dst ← orErr .subOperation (IntTy.ofCode r.fn); let f ← r.formA; .ok (.ftoi f dst)
  | 0x4F => do let src ← orErr .subOperation (IntTy.ofCode r.fn); let f ← r.formA; .ok (.itof f src)
  | 0x50 => 
    if r.fn = 0 then do let f ← r.formA; .ok (.fexp2 f)
    else badFn
  | 0x51 => 
    if r.fn = 0 then do let f ← r.formA; .ok (.flog2 f)
    else badFn
  | 0x52 => 
    if r.fn = 0 then do let f ← r.formA; .ok (.frcp f)
    else badFn
  | 0x53 => 
    if r.fn = 0 then do let f ← r.formA; .ok (.frsq f)
    else badFn
  | 0x54 => 
    if r.fn = 0 then do let f ← r.formA; .ok (.frint f)
    else
    if r.fn = 1 then do let f ← r.formA; .ok (.frintX f)
    else badFn
  | _ => .error .opcode

/-- The memory opcodes, 0x70 to 0x7C (Table 3.5). -/
def parseMemory (r : RawC) : Except DecodeErr Instr :=
  match r.opc with
  | 0x70 => do let f ← r.formM; .ok (.ldl f (BitVec.ofNat 24 r.imm))
  | 0x71 => do let f ← r.formM; .ok (.stl f (BitVec.ofNat 24 r.imm))
  | 0x72 => do let f ← r.formM; .ok (.ldn f (BitVec.ofNat 24 r.imm))
  | 0x73 => do let f ← r.formM; .ok (.stn f (BitVec.ofNat 24 r.imm))
  | 0x74 => do let f ← r.formM; .ok (.ldg f (BitVec.ofNat 24 r.imm))
  | 0x75 => do let f ← r.formM; .ok (.stg f (BitVec.ofNat 24 r.imm))
  | 0x76 => do let f ← r.formM; .ok (.ldw f (BitVec.ofNat 24 r.imm))
  | 0x77 => do let f ← r.formM; .ok (.feclr f (BitVec.ofNat 24 r.imm))
  | 0x78 => do let f ← r.formM; .ok (.feset f (BitVec.ofNat 24 r.imm))
  | 0x79 => do let f ← r.formM; .ok (.wcal f (BitVec.ofNat 24 r.imm))
  | 0x7A => do
      let f ← r.formM
      let op ← orErr .subOperation (AmoOp.ofCode (bitsOf r.imm 20 4))
      let k ← orErr .specifier (Spec.ofCode (bitsOf r.imm 14 6))
      .ok (.amol f op k (BitVec.ofNat 14 r.imm))
  | 0x7B => do
      let f ← r.formM
      let op ← orErr .subOperation (AmoOp.ofCode (bitsOf r.imm 20 4))
      let k ← orErr .specifier (Spec.ofCode (bitsOf r.imm 14 6))
      .ok (.amog f op k (BitVec.ofNat 14 r.imm))
  | 0x7C => do
      let f ← r.formM
      let op ← orErr .subOperation (UpdOp.ofCode (bitsOf r.imm 20 4))
      if bitsOf r.imm 14 6 = 5 then .ok (.updg f op (BitVec.ofNat 14 r.imm)) else .error .unusedOperand
  | _ => .error .opcode

/-- The knot opcodes, 0x90 to 0x96 (Table 3.5). -/
def parseKnot (r : RawC) : Except DecodeErr Instr :=
  match r.opc with
  | 0x90 => do let f ← r.formK; .ok (.kadd f)
  | 0x91 => do let f ← r.formK; .ok (.kwait f)
  | 0x92 => do let f ← r.formK; .ok (.kread f)
  | 0x93 => do let f ← r.formK; .ok (.klimit f)
  | 0x94 => do let f ← r.formK; .ok (.karm f)
  | 0x95 => do let f ← r.formK; .ok (.kalloc f)
  | 0x96 => do let f ← r.formK; .ok (.kfree f)
  | _ => .error .opcode

/-- The copy opcodes, 0xA0 to 0xA6 (Table 3.5). -/
def parseCopy (r : RawC) : Except DecodeErr Instr :=
  match r.opc with
  | 0xA0 => 
    if r.fn % 8 = 0 then do let f ← r.formE; .ok (.copy f (r.fn.testBit 3))
    else badFn
  | 0xA1 => 
    if r.fn % 8 = 0 then do let f ← r.formE; .ok (.copyr f (r.fn.testBit 3))
    else badFn
  | 0xA2 => 
    if r.fn % 8 = 0 then do let f ← r.formE; .ok (.fill f (r.fn.testBit 3))
    else badFn
  | 0xA3 => 
    if r.fn % 8 = 0 then do let f ← r.formE; .ok (.gathr f (r.fn.testBit 3))
    else badFn
  | 0xA4 => 
    if r.fn % 8 = 0 then do let f ← r.formE; .ok (.scatr f (r.fn.testBit 3))
    else
    if r.fn % 8 = 1 then do let f ← r.formE; .ok (.scatrAdd f (r.fn.testBit 3))
    else badFn
  | 0xA5 => 
    if r.fn % 8 = 0 then do let f ← r.formE; .ok (.overlay f (r.fn.testBit 3))
    else badFn
  | 0xA6 => do let patch ← orErr .subOperation (CqPatch.ofCode r.fn); let f ← r.formE; .ok (.cqpush f patch)
  | _ => .error .opcode

/-- The tensor opcodes, 0xB0 to 0xC2 (Table 3.5). -/
def parseTensor (r : RawT) : Except DecodeErr Instr :=
  match r.opc with
  | 0xB0 => 
    if r.fn = 0 then do let f ← r.formT; .ok (.tshape f)
    else badFn
  | 0xB1 => 
    if r.fn = 0 then do let f ← r.formT; .ok (.trdsh f)
    else badFn
  | 0xB2 => 
    if r.fn = 0 then do let f ← r.formT; .ok (.tld f)
    else badFn
  | 0xB3 => 
    if r.fn = 0 then do let f ← r.formT; .ok (.tst f)
    else badFn
  | 0xB4 => 
    if r.fn = 0 then do let f ← r.formT; .ok (.tzeroTile f)
    else
    if r.fn = 1 then do let f ← r.formT; .ok (.tzeroAcc f)
    else
    if r.fn = 2 then do let f ← r.formT; .ok (.tzeroCarry f)
    else badFn
  | 0xB5 => 
    if r.fn = 0 then do let f ← r.formT; .ok (.tmma f)
    else badFn
  | 0xB6 => 
    if r.fn = 0 then do let f ← r.formT; .ok (.tadd f)
    else badFn
  | 0xB7 => 
    if r.fn = 0 then do let f ← r.formT; .ok (.tmul f)
    else badFn
  | 0xB8 => 
    if r.fn = 0 then do let f ← r.formT; .ok (.tscale f)
    else badFn
  | 0xB9 => do let fn ← orErr .subOperation (ActFn.ofCode r.fn); let f ← r.formT; .ok (.tact f fn)
  | 0xBA => 
    if r.fn = 0 then do let f ← r.formT; .ok (.tredSum f)
    else
    if r.fn = 1 then do let f ← r.formT; .ok (.tredMax f)
    else badFn
  | 0xBB => 
    if r.fn = 0 then do let f ← r.formT; .ok (.tqnt f)
    else badFn
  | 0xBC => 
    if r.fn = 0 then do let f ← r.formT; .ok (.tdq f)
    else badFn
  | 0xBD => 
    if r.fn = 0 then do let f ← r.formT; .ok (.tcvt f)
    else badFn
  | 0xBE => 
    if r.fn = 0 then do let f ← r.formT; .ok (.ttrn f)
    else badFn
  | 0xBF => 
    if r.fn = 0 then do let f ← r.formT; .ok (.trow f)
    else
    if r.fn = 1 then do let f ← r.formT; .ok (.trowStr f)
    else badFn
  | 0xC0 => 
    if r.fn = 0 then do let f ← r.formT; .ok (.tscan f)
    else badFn
  | 0xC1 => 
    if r.fn = 0 then do let f ← r.formT; .ok (.tcarrySave f)
    else
    if r.fn = 1 then do let f ← r.formT; .ok (.tcarryLoad f)
    else badFn
  | 0xC2 => 
    if r.fn = 0 then do let f ← r.formT; .ok (.tmovq f)
    else badFn
  | _ => .error .opcode

/-- The stream opcodes, 0xD0 to 0xD4 (Table 3.5). -/
def parseStream (r : RawC) : Except DecodeErr Instr :=
  match r.opc with
  | 0xD0 => 
    if r.fn = 0 then named r.imm 0x3 (do let f ← r.formX; .ok (.semit f (BitVec.ofNat 2 r.imm)))
    else badFn
  | 0xD1 => 
    if r.fn = 0 then named r.imm 0xF3 (do let f ← r.formX; .ok (.smark f (BitVec.ofNat 2 r.imm) (BitVec.ofNat 4 (r.imm / 2 ^ 4))))
    else badFn
  | 0xD2 => 
    if r.fn = 0 then named r.imm 0x3 (do let f ← r.formX; .ok (.srecv f (BitVec.ofNat 2 r.imm)))
    else badFn
  | 0xD3 => 
    if r.fn = 0 then named r.imm 0x7F (do let f ← r.formX; .ok (.sparm f (BitVec.ofNat 4 r.imm) (BitVec.ofNat 1 (r.imm / 2 ^ 4)) (BitVec.ofNat 2 (r.imm / 2 ^ 5))))
    else badFn
  | 0xD4 => 
    if r.fn = 0 then named r.imm 0x1F (do let f ← r.formX; .ok (.sstat f (BitVec.ofNat 4 r.imm) (BitVec.ofNat 1 (r.imm / 2 ^ 4))))
    else badFn
  | _ => .error .opcode

/-- The seam opcodes, 0xD8 to 0xDC (Table 3.5). -/
def parseSeam (r : RawC) : Except DecodeErr Instr :=
  match r.opc with
  | 0xD8 => do let f ← r.formE; .ok (.smopen f (BitVec.ofNat 2 r.fn) (BitVec.ofNat 2 (r.fn / 4)))
  | 0xD9 => 
    if r.fn = 0 then do let f ← r.formE; .ok (.smfeed f)
    else badFn
  | 0xDA => 
    if r.fn = 0 then do let f ← r.formE; .ok (.smclose f)
    else badFn
  | 0xDB => 
    if r.fn = 0 then do let f ← r.formE; .ok (.smstat f)
    else badFn
  | 0xDC => 
    if r.fn = 0 then do let f ← r.formE; .ok (.smabort f)
    else badFn
  | _ => .error .opcode

/-- The unmask opcodes, 0xE0 to 0xE6 (Table 3.5). -/
def parseUnmask (r : RawC) : Except DecodeErr Instr :=
  match r.opc with
  | 0xE0 => 
    if r.fn % 4 = 0 then do let f ← r.formE; .ok (.umctxOpen f (BitVec.ofNat 2 (r.fn / 4)))
    else
    if r.fn = 1 then do let f ← r.formE; .ok (.umctxRelease f)
    else badFn
  | 0xE1 => 
    if r.fn < 2 then do let f ← r.formE; .ok (.umscore f (r.fn.testBit 0))
    else badFn
  | 0xE2 => 
    if r.fn = 0 then do let f ← r.formE; .ok (.umrank f)
    else badFn
  | 0xE3 => 
    if r.fn = 0 then do let f ← r.formE; .ok (.umtap f)
    else badFn
  | 0xE4 => 
    if r.fn = 0 then do let f ← r.formE; .ok (.umdirty f)
    else badFn
  | 0xE5 => 
    if r.fn = 0 then do let f ← r.formE; .ok (.umqryInfo f)
    else
    if r.fn = 1 then do let f ← r.formE; .ok (.umqryMask f)
    else
    if r.fn = 2 then do let f ← r.formE; .ok (.umqryDirty f)
    else
    if r.fn = 3 then do let f ← r.formE; .ok (.umqryRound f)
    else badFn
  | 0xE6 => 
    if r.fn = 0 then do let f ← r.formE; .ok (.umclr f)
    else badFn
  | _ => .error .opcode

/-- The system opcodes, 0xF0 to 0xF8 (Table 3.5). -/
def parseSystem (r : RawC) : Except DecodeErr Instr :=
  match r.opc with
  | 0xF0 => 
    if r.fn = 0 then named r.imm 0xFFFF (do let f ← r.formX; .ok (.trap f (BitVec.ofNat 16 r.imm)))
    else badFn
  | 0xF1 => 
    if r.fn = 0 then named r.imm 0xFFF (do let f ← r.formX; .ok (.sysrd f (BitVec.ofNat 12 r.imm)))
    else badFn
  | 0xF2 => 
    if r.fn = 0 then named r.imm 0xFFF (do let f ← r.formX; .ok (.syswr f (BitVec.ofNat 12 r.imm)))
    else badFn
  | 0xF3 => 
    if r.fn = 0 then named r.imm 0x0 (do let f ← r.formX; .ok (.hem f))
    else badFn
  | 0xF4 => 
    if r.fn = 0 then named r.imm 0x0 (do let f ← r.formX; .ok (.cycle f))
    else
    if r.fn = 1 then named r.imm 0x0 (do let f ← r.formX; .ok (.cycleStamp f))
    else badFn
  | 0xF5 => 
    if r.fn = 0 then named r.imm 0x1F (do let f ← r.formX; .ok (.meter f (BitVec.ofNat 5 r.imm)))
    else badFn
  | 0xF6 => 
    if r.fn = 0 then named r.imm 0xFFFF (do let f ← r.formX; .ok (.bkpt f (BitVec.ofNat 16 r.imm)))
    else badFn
  | 0xF7 => 
    if r.fn = 0 then named r.imm 0xFFFFFF (do let f ← r.formX; .ok (.yield f (BitVec.ofNat 24 r.imm)))
    else badFn
  | 0xF8 => 
    if r.fn = 0 then named r.imm 0xFFFF (do let f ← r.formX; .ok (.flag f (BitVec.ofNat 16 r.imm)))
    else badFn
  | _ => .error .opcode

/-- The opcode map's formats (Table 3.6) read from OPC: the fields, then the family's rows. -/
def parse (w : Nat) : Except DecodeErr Instr :=
  let r := RawC.unpack w
  if r.opc < 0x20 then parseControl r
  else if r.opc < 0x40 then parseInteger r
  else if r.opc < 0x60 then parseFloat r
  else if r.opc < 0x90 then parseMemory r
  else if r.opc < 0xA0 then parseKnot r
  else if r.opc < 0xB0 then parseCopy r
  else if r.opc < 0xD0 then parseTensor (RawT.unpack w)
  else if r.opc < 0xD8 then parseStream r
  else if r.opc < 0xE0 then parseSeam r
  else if r.opc < 0xF0 then parseUnmask r
  else parseSystem r

/-- The decoder: the instruction that a word holds, or the first check of Table 3.7 that it fails by itself. -/
def decode (w : Word) : Except DecodeErr Instr :=
  match parse w.toNat with
  | .error e => .error e
  | .ok i =>
    match i.check with
    | some e => .error e
    | none => .ok i

/-- The instruction as the host numbers a table row's bits: the one 64-bit word, little-endian, so bit 0 is bit 0. -/
def decodeTableWord (_nbits w : Nat) : Option Instr :=
  match decode (BitVec.ofNat 64 w) with
  | .ok i => some i
  | .error _ => none

/-! The encoder, from the same tables. -/

/-- Table 3.3. -/
def Ty.code : Ty → Nat
  | .i32 => 0 | .u32 => 1 | .i64 => 2 | .u64 => 3 | .f16 => 4 | .bf16 => 5 | .f32 => 6 | .f64 => 7
/-- Table 2.2. -/
def Elem.code : Elem → Nat
  | .e4m3 => 0 | .e5m2 => 1 | .i8 => 2 | .f16 => 3 | .bf16 => 4 | .f32 => 5 | .yb8 => 6 | .yb4 => 7
/-- Table 3.2. -/
def Spec.code : Spec → Nat
  | .port => 0 | .iter => 1 | .bobbin => 2 | .die => 3 | .station => 4 | .zero => 5 | .ones => 6 | .imm => 7
  | .phase => 8 | .const n => 0x20 + n.val
/-- R63. -/
def Pred.code : Pred → Nat
  | .always => 0 | .ifTrue => 1 | .ifFalse => 2 | .steer => 3
/-- R46. -/
def RM.code : RM → Nat
  | .rne => 0 | .rz => 1 | .ru => 2 | .rd => 3 | .rna => 4
/-- R65. -/
def Width.code : Width → Nat
  | .b8 => 0 | .b16 => 1 | .b32 => 2 | .b64 => 3
/-- R66. -/
def Scope.code : Scope → Nat
  | .bobbin => 0 | .panel => 1 | .device => 2 | .system => 3
/-- R66. -/
def Order.code : Order → Nat
  | .relaxed => 0 | .acquire => 1 | .release => 2 | .acqRel => 3
/-- R196. -/
def CmpRel.code : CmpRel → Nat
  | .eq => 0 | .ne => 1 | .lt => 2 | .le => 3 | .gt => 4 | .ge => 5
/-- R204. -/
def FcmpPred.code : FcmpPred → Nat
  | .eq => 0 | .ne => 1 | .lt => 2 | .le => 3 | .gt => 4 | .ge => 5 | .un => 6 | .ord => 7
/-- R205. -/
def CvtSrc.code : CvtSrc → Nat
  | .f16 => 4 | .bf16 => 5 | .f32 => 6 | .f64 => 7 | .e4m3 => 8 | .e5m2 => 9
/-- R205. -/
def IntTy.code : IntTy → Nat
  | .i32 => 0 | .u32 => 1 | .i64 => 2 | .u64 => 3
/-- Table 10.6. -/
def AmoOp.code : AmoOp → Nat
  | .swap => 0 | .cas => 1 | .add => 2 | .min => 3 | .max => 4
/-- Table 10.6. -/
def UpdOp.code : UpdOp → Nat
  | .add => 0 | .min => 1 | .max => 2 | .and => 3 | .or => 4 | .xor => 5 | .fadd => 6 | .faddNd => 7
/-- R245. -/
def CqPatch.code : CqPatch → Nat
  | .none => 0 | .src => 1 | .dst => 2
/-- R264. -/
def ActFn.code : ActFn → Nat
  | .relu => 0 | .gelu => 1 | .silu => 2 | .sigm => 3 | .tanh => 4 | .exp2 => 5 | .softp => 6

/-- Table 3.1. -/
def RawC.pack (r : RawC) : Nat :=
  r.opc + r.fn * 2 ^ 8 + r.ty * 2 ^ 12 + r.sa * 2 ^ 15 + r.sb * 2 ^ 21 + r.sc * 2 ^ 27 + r.og * 2 ^ 33 +
    r.pm * 2 ^ 35 + r.rm * 2 ^ 37 + r.imm * 2 ^ 40

/-- Table 3.4. -/
def RawT.pack (r : RawT) : Nat :=
  r.opc + r.fn * 2 ^ 8 + r.ty * 2 ^ 12 + r.sa * 2 ^ 15 + r.sb * 2 ^ 21 + r.td * 2 ^ 27 + r.ta * 2 ^ 31 +
    r.tb * 2 ^ 35 + r.qa * 2 ^ 39 + r.sw * 2 ^ 41 + r.flg * 2 ^ 49 + r.og * 2 ^ 56 + r.pm * 2 ^ 58 + r.top * 2 ^ 60

/-- OG from its two bits. -/
def ogCode (o0 o1 : Bool) : Nat := o0.toNat + 2 * o1.toNat

/-- Format A's word. -/
def FormA.raw (f : FormA) (opc fn : Nat) : RawC :=
  ⟨opc, fn, f.ty.code, f.sa.code, f.sb.code, f.sc.code, ogCode f.og0 f.og1, f.pm.code, f.rm.code, f.imm.toNat⟩
/-- Format X's word with its parameters. -/
def FormX.raw (f : FormX) (opc fn imm : Nat) : RawC :=
  ⟨opc, fn, f.ty.code, f.sa.code, f.sb.code, f.sc.code, ogCode f.og0 f.og1, f.pm.code, 0, imm⟩
/-- Format M's word with its IMM24. -/
def FormM.raw (f : FormM) (opc imm : Nat) : RawC :=
  ⟨opc, f.width.code + 4 * f.rel.toNat + 8 * f.spc.toNat, f.ty.code, f.sa.code, f.sb.code, f.range.toNat,
    ogCode f.og0 f.og1, f.pm.code, 0, imm⟩
/-- Format K's word. -/
def FormK.raw (f : FormK) (opc : Nat) : RawC :=
  ⟨opc, f.scope.code + 4 * f.order.code, 3, f.sa.code, f.sb.code, f.sc.code, ogCode f.og0 f.og1, f.pm.code, 0,
    f.imm.toNat⟩
/-- Format E's word. -/
def FormE.raw (f : FormE) (opc fn : Nat) : RawC :=
  ⟨opc, fn, f.ty.code, f.sa.code, f.sb.code, f.sc.code, ogCode f.og0 f.og1, f.pm.code, 0,
    f.sw1.toNat + 2 ^ 8 * f.sw2.toNat + 2 ^ 16 * f.kc.val + 2 ^ 21 * f.kv.toNat⟩
/-- Format T's word. -/
def FormT.raw (f : FormT) (opc fn : Nat) : RawT :=
  ⟨opc, fn, f.ty.code, f.sa.code, f.sb.code, f.td.val, f.ta.val, f.tb.val, f.qa.val, f.sw.toNat, f.flg.toNat,
    ogCode f.og0 f.og1, f.pm.code, 0⟩

/-- The 64 bits of each instruction; an event of the machine has no word, and 0 stands for it (OPC 0x00 is never an
instruction). -/
def Instr.word : Instr → Nat
  | .mov f => (f.raw 0x01 0).pack
  | .fanout f => (f.raw 0x02 0).pack
  | .sink f => (f.raw 0x03 0).pack
  | .steer f => (f.raw 0x04 0).pack
  | .gate f => (f.raw 0x05 0).pack
  | .join f => (f.raw 0x06 0).pack
  | .inv f => (f.raw 0x07 0).pack
  | .balloc f cls => (f.raw 0x08 0 (cls.toNat)).pack
  | .bfree f => (f.raw 0x09 0).pack
  | .loopgen f step => (f.raw 0x0A 0 (step.toNat)).pack
  | .next f => (f.raw 0x0B 0).pack
  | .iend f => (f.raw 0x0C 0).pack
  | .retag f => (f.raw 0x0D 0).pack
  | .retagCall f => (f.raw 0x0D 1).pack
  | .spec f colour => (f.raw 0x0E 0 (colour.toNat)).pack
  | .commit f colour => (f.raw 0x0F 0 (colour.toNat)).pack
  | .kill f colour => (f.raw 0x10 0 (colour.toNat)).pack
  | .phset f ph rel => (f.raw 0x11 0 (ph.toNat + 16 * rel.toNat)).pack
  | .phwait f ph src => (f.raw 0x12 0 (ph.toNat + 16 * src.toNat)).pack
  | .spawn f setSeed => (f.raw 0x13 (setSeed.toNat)).pack
  | .done f => (f.raw 0x14 0 0).pack
  | .doneForce f => (f.raw 0x14 1 0).pack
  | .ticket f arb arc => (f.raw 0x15 0 (arb.toNat + 8 * arc.toNat)).pack
  | .ticketRelease f arb arc => (f.raw 0x15 1 (arb.toNat + 8 * arc.toNat)).pack
  | .add f => (f.raw 0x20 0).pack
  | .sub f => (f.raw 0x21 0).pack
  | .mul f => (f.raw 0x22 0).pack
  | .mulh f => (f.raw 0x23 0).pack
  | .div f => (f.raw 0x24 0).pack
  | .rem f => (f.raw 0x25 0).pack
  | .and f => (f.raw 0x26 0).pack
  | .or f => (f.raw 0x27 0).pack
  | .xor f => (f.raw 0x28 0).pack
  | .andn f => (f.raw 0x29 0).pack
  | .shl f => (f.raw 0x2A 0).pack
  | .shr f => (f.raw 0x2B 0).pack
  | .sra f => (f.raw 0x2C 0).pack
  | .rot f => (f.raw 0x2D 0).pack
  | .min f => (f.raw 0x2E 0).pack
  | .max f => (f.raw 0x2F 0).pack
  | .abs f => (f.raw 0x30 0).pack
  | .neg f => (f.raw 0x31 0).pack
  | .clz f => (f.raw 0x32 0).pack
  | .ctz f => (f.raw 0x33 0).pack
  | .popc f => (f.raw 0x34 0).pack
  | .brev f => (f.raw 0x35 0).pack
  | .cmp f rel => (f.raw 0x36 (rel.code)).pack
  | .sel f => (f.raw 0x37 0).pack
  | .ext f => (f.raw 0x38 0).pack
  | .ins f => (f.raw 0x39 0).pack
  | .lea f sh => (f.raw 0x3A (sh.toNat)).pack
  | .constLo f imm => (f.raw 0x3B 0 (imm.toNat)).pack
  | .constMid f imm => (f.raw 0x3B 1 (imm.toNat)).pack
  | .constHi f imm => (f.raw 0x3B 2 (imm.toNat)).pack
  | .consth f imm => (f.raw 0x3C 0 (imm.toNat)).pack
  | .fadd f => (f.raw 0x40 0).pack
  | .fsub f => (f.raw 0x41 0).pack
  | .fmul f => (f.raw 0x42 0).pack
  | .fma f => (f.raw 0x43 0).pack
  | .fnma f => (f.raw 0x44 0).pack
  | .fdiv f => (f.raw 0x45 0).pack
  | .fsqrt f => (f.raw 0x46 0).pack
  | .fmin f => (f.raw 0x47 0).pack
  | .fmax f => (f.raw 0x48 0).pack
  | .fabs f => (f.raw 0x49 0).pack
  | .fneg f => (f.raw 0x4A 0).pack
  | .fcmp f pred => (f.raw 0x4B (pred.code)).pack
  | .fclass f => (f.raw 0x4C 0).pack
  | .fcvt f src => (f.raw 0x4D (src.code)).pack
  | .ftoi f dst => (f.raw 0x4E (dst.code)).pack
  | .itof f src => (f.raw 0x4F (src.code)).pack
  | .fexp2 f => (f.raw 0x50 0).pack
  | .flog2 f => (f.raw 0x51 0).pack
  | .frcp f => (f.raw 0x52 0).pack
  | .frsq f => (f.raw 0x53 0).pack
  | .frint f => (f.raw 0x54 0).pack
  | .frintX f => (f.raw 0x54 1).pack
  | .ldl f off => (f.raw 0x70 (off.toNat)).pack
  | .stl f off => (f.raw 0x71 (off.toNat)).pack
  | .ldn f off => (f.raw 0x72 (off.toNat)).pack
  | .stn f off => (f.raw 0x73 (off.toNat)).pack
  | .ldg f off => (f.raw 0x74 (off.toNat)).pack
  | .stg f off => (f.raw 0x75 (off.toNat)).pack
  | .ldw f off => (f.raw 0x76 (off.toNat)).pack
  | .feclr f off => (f.raw 0x77 (off.toNat)).pack
  | .feset f off => (f.raw 0x78 (off.toNat)).pack
  | .wcal f off => (f.raw 0x79 (off.toNat)).pack
  | .amol f op k off => (f.raw 0x7A (op.code * 2 ^ 20 + k.code * 2 ^ 14 + off.toNat)).pack
  | .amog f op k off => (f.raw 0x7B (op.code * 2 ^ 20 + k.code * 2 ^ 14 + off.toNat)).pack
  | .updg f op off => (f.raw 0x7C (op.code * 2 ^ 20 + 5 * 2 ^ 14 + off.toNat)).pack
  | .kadd f => (f.raw 0x90).pack
  | .kwait f => (f.raw 0x91).pack
  | .kread f => (f.raw 0x92).pack
  | .klimit f => (f.raw 0x93).pack
  | .karm f => (f.raw 0x94).pack
  | .kalloc f => (f.raw 0x95).pack
  | .kfree f => (f.raw 0x96).pack
  | .copy f ord => (f.raw 0xA0 (8 * ord.toNat)).pack
  | .copyr f ord => (f.raw 0xA1 (8 * ord.toNat)).pack
  | .fill f ord => (f.raw 0xA2 (8 * ord.toNat)).pack
  | .gathr f ord => (f.raw 0xA3 (8 * ord.toNat)).pack
  | .scatr f ord => (f.raw 0xA4 (8 * ord.toNat)).pack
  | .scatrAdd f ord => (f.raw 0xA4 (1 + 8 * ord.toNat)).pack
  | .overlay f ord => (f.raw 0xA5 (8 * ord.toNat)).pack
  | .cqpush f patch => (f.raw 0xA6 (patch.code)).pack
  | .tshape f => (f.raw 0xB0 0).pack
  | .trdsh f => (f.raw 0xB1 0).pack
  | .tld f => (f.raw 0xB2 0).pack
  | .tst f => (f.raw 0xB3 0).pack
  | .tzeroTile f => (f.raw 0xB4 0).pack
  | .tzeroAcc f => (f.raw 0xB4 1).pack
  | .tzeroCarry f => (f.raw 0xB4 2).pack
  | .tmma f => (f.raw 0xB5 0).pack
  | .tadd f => (f.raw 0xB6 0).pack
  | .tmul f => (f.raw 0xB7 0).pack
  | .tscale f => (f.raw 0xB8 0).pack
  | .tact f fn => (f.raw 0xB9 (fn.code)).pack
  | .tredSum f => (f.raw 0xBA 0).pack
  | .tredMax f => (f.raw 0xBA 1).pack
  | .tqnt f => (f.raw 0xBB 0).pack
  | .tdq f => (f.raw 0xBC 0).pack
  | .tcvt f => (f.raw 0xBD 0).pack
  | .ttrn f => (f.raw 0xBE 0).pack
  | .trow f => (f.raw 0xBF 0).pack
  | .trowStr f => (f.raw 0xBF 1).pack
  | .tscan f => (f.raw 0xC0 0).pack
  | .tcarrySave f => (f.raw 0xC1 0).pack
  | .tcarryLoad f => (f.raw 0xC1 1).pack
  | .tmovq f => (f.raw 0xC2 0).pack
  | .semit f ch => (f.raw 0xD0 0 (ch.toNat)).pack
  | .smark f ch mark => (f.raw 0xD1 0 (ch.toNat + 16 * mark.toNat)).pack
  | .srecv f ch => (f.raw 0xD2 0 (ch.toNat)).pack
  | .sparm f kind inst preg => (f.raw 0xD3 0 (kind.toNat + 16 * inst.toNat + 32 * preg.toNat)).pack
  | .sstat f kind inst => (f.raw 0xD4 0 (kind.toNat + 16 * inst.toNat)).pack
  | .smopen f inst ctx => (f.raw 0xD8 (inst.toNat + 4 * ctx.toNat)).pack
  | .smfeed f => (f.raw 0xD9 0).pack
  | .smclose f => (f.raw 0xDA 0).pack
  | .smstat f => (f.raw 0xDB 0).pack
  | .smabort f => (f.raw 0xDC 0).pack
  | .umctxOpen f die => (f.raw 0xE0 (4 * die.toNat)).pack
  | .umctxRelease f => (f.raw 0xE0 1).pack
  | .umscore f f16 => (f.raw 0xE1 (f16.toNat)).pack
  | .umrank f => (f.raw 0xE2 0).pack
  | .umtap f => (f.raw 0xE3 0).pack
  | .umdirty f => (f.raw 0xE4 0).pack
  | .umqryInfo f => (f.raw 0xE5 0).pack
  | .umqryMask f => (f.raw 0xE5 1).pack
  | .umqryDirty f => (f.raw 0xE5 2).pack
  | .umqryRound f => (f.raw 0xE5 3).pack
  | .umclr f => (f.raw 0xE6 0).pack
  | .trap f code => (f.raw 0xF0 0 (code.toNat)).pack
  | .sysrd f reg => (f.raw 0xF1 0 (reg.toNat)).pack
  | .syswr f reg => (f.raw 0xF2 0 (reg.toNat)).pack
  | .hem f => (f.raw 0xF3 0 0).pack
  | .cycle f => (f.raw 0xF4 0 0).pack
  | .cycleStamp f => (f.raw 0xF4 1 0).pack
  | .meter f idx => (f.raw 0xF5 0 (idx.toNat)).pack
  | .bkpt f id => (f.raw 0xF6 0 (id.toNat)).pack
  | .yield f n => (f.raw 0xF7 0 (n.toNat)).pack
  | .flag f mask => (f.raw 0xF8 0 (mask.toNat)).pack
  | .bringUp => 0
  | .stampCounterTick => 0
  | .ageClampSweep => 0
  | .queueRereadPoll _ _ => 0
  | .consumePacket _ _ => 0
  | .dependencesMet _ => 0
  | .placementDecision _ => 0
  | .agedPriorityStep _ => 0
  | .blockedHeadTimeout _ => 0
  | .quotaWindowBegin => 0
  | .patternStoreFill _ _ => 0
  | .stationLoad _ _ _ => 0
  | .configurationCompleteWave _ => 0
  | .seedInject _ => 0
  | .entryAdmit _ _ => 0
  | .tokenDelivered _ _ => 0
  | .remnantPromote _ _ => 0
  | .routerCycle _ => 0
  | .starve _ => 0
  | .receivePortDelivery _ => 0
  | .creditReturn _ _ => 0
  | .spineSwitchCycle _ => 0
  | .commitTokenArrival _ _ => 0
  | .killTokenArrival _ _ => 0
  | .phaseReductionWave _ _ => 0
  | .generatorStep _ _ => 0
  | .nextRelease _ _ => 0
  | .ballocWake _ _ => 0
  | .ticketGrant _ _ => 0
  | .stageSwitch _ => 0
  | .memoryAccessPerformed _ => 0
  | .translationWalk _ => 0
  | .homeSliceApply _ => 0
  | .lineFullWake _ _ => 0
  | .refreshWindowEnd _ _ => 0
  | .portalCompletion _ _ _ => 0
  | .priPageRequest _ _ => 0
  | .copyPacketStart _ => 0
  | .copyOrdToken _ _ => 0
  | .copyPacketPerformed _ _ => 0
  | .copyQueuePacket _ _ => 0
  | .weightLoadCommand _ _ _ _ _ => 0
  | .spawnSlotStep _ => 0
  | .tensorCommandPerform _ => 0
  | .rowStreamToken _ _ => 0
  | .tscanSetAsideRelease _ _ => 0
  | .streamOutputRow _ => 0
  | .circuitSlotReturn _ _ => 0
  | .streamOperatorStep _ _ => 0
  | .seamTokenArrival _ _ => 0
  | .seamPortWord _ _ _ => 0
  | .seamMergeRow _ _ _ => 0
  | .seamContextEnd _ _ _ => 0
  | .unmaskContextGrant _ => 0
  | .unmaskInToken _ _ => 0
  | .knotBankApply _ => 0
  | .waiterDirectoryNotify _ _ => 0
  | .pollingWaiterReread _ _ => 0
  | .triggerEngineIssue _ => 0
  | .knotWindowAdd _ _ _ => 0
  | .knotWindowSetLimit _ _ _ => 0
  | .knotWindowAcquire _ _ => 0
  | .hemTokenOutbound _ _ => 0
  | .hemTokenInbound _ _ _ => 0
  | .faultRecordWrite _ => 0
  | .resumeRetry _ _ => 0
  | .resumeDiscard _ _ => 0
  | .freeze _ => 0
  | .freezeBoundExpiry _ => 0
  | .saveLaunch _ => 0
  | .restoreLaunch _ => 0
  | .watchdogExpiry _ => 0
  | .yieldExpiry _ _ => 0
  | .retirement _ => 0
  | .cbEnable _ _ => 0
  | .cbQueueEntry _ _ _ => 0
  | .cbCopyQueueEntry _ _ _ => 0
  | .cbInvalidate _ _ => 0
  | .cbDsnap _ _ => 0
  | .cbOvrel _ _ => 0
  | .cbErrorClear _ _ => 0
  | .controlBlockWrite _ _ _ _ => 0
  | .knotAllot _ => 0
  | .knotReturn _ => 0
  | .slotTable _ => 0
  | .queueHome _ => 0
  | .portMask _ => 0
  | .selfId _ => 0
  | .bridge _ => 0
  | .keyLoad _ => 0
  | .keyUnload _ => 0
  | .meterSnapshot _ _ _ _ => 0
  | .getMeasurements _ _ _ => 0
  | .ronobFirmwareUpdate _ _ => 0
  | .schedulerMicrocodeUpdate _ => 0
  | .laneRecalibration _ _ => 0
  | .thermalRecalibration _ _ => 0
  | .hbmRetraining _ => 0
  | .thermalGating _ _ => 0
  | .thermalTrip _ => 0
  | .powerCapSet _ => 0
  | .unmaskCommandPerform _ _ => 0
  | .hbmRetrainingEnd _ => 0
  | .invalidationComplete _ => 0
  | .dsnapComplete _ => 0
  | .atsInvalidation _ _ _ => 0
  | .spdmSession _ _ => 0
  | .ideStreamKeying _ => 0
  | .tdispRequest _ _ => 0

/-- The encoder (R59 to R69). -/
def encode (i : Instr) : Word := BitVec.ofNat 64 i.word

end Sys2Proof
end

