-- ==== Sys2Proof/Machine/Num.lean ====
section
/-! DEFINITION. Machine/Num.lean: the number formats of spec 02: reading and forming scalars (R39), the floating layouts
(R40, Table 2.1), exact values and their one rounding (R46 to R49). -/

namespace Sys2Proof.Machine

/-- A binary floating layout (Table 2.1): exponent and fraction widths; E4M3 has no infinities (R40). -/
structure Fmt where
  e : Nat
  f : Nat
  ieee : Bool := true
  deriving DecidableEq, Repr

/-- FP64. -/
def fp64 : Fmt := ⟨11, 52, true⟩
/-- FP32. -/
def fp32 : Fmt := ⟨8, 23, true⟩
/-- FP16. -/
def fp16 : Fmt := ⟨5, 10, true⟩
/-- BF16. -/
def bf16 : Fmt := ⟨8, 7, true⟩
/-- FP8 E4M3. -/
def e4m3 : Fmt := ⟨4, 3, false⟩
/-- FP8 E5M2. -/
def e5m2 : Fmt := ⟨5, 2, true⟩

/-- The format's width in bits. -/
def Fmt.width (m : Fmt) : Nat := 1 + m.e + m.f
/-- The exponent bias (Table 2.1). -/
def Fmt.bias (m : Fmt) : Nat := 2 ^ (m.e - 1) - 1
/-- The weight of the lowest fraction bit of a subnormal. -/
def Fmt.qmin (m : Fmt) : Int := 1 - (m.bias : Int) - (m.f : Int)
/-- The magnitude pattern of an infinity (or, for E4M3, of its NaN's binade). -/
def Fmt.infBits (m : Fmt) : Nat := (2 ^ m.e - 1) * 2 ^ m.f
/-- The magnitude pattern of the largest finite value (Table 2.1). -/
def Fmt.maxBits (m : Fmt) : Nat := if m.ieee then m.infBits - 1 else m.infBits + 2 ^ m.f - 2
/-- The canonical quiet NaN (R41). -/
def Fmt.nanBits (m : Fmt) : Nat := if m.ieee then m.infBits + 2 ^ (m.f - 1) else m.infBits + 2 ^ m.f - 1

/-- A decoded value: a NaN, an infinity, or ±m × 2^e with m a natural number. -/
inductive FVal where
  | nan (signalling : Bool)
  | inf (neg : Bool)
  | fin (neg : Bool) (m : Nat) (e : Int)
  deriving DecidableEq, Repr

/-- The value of a bit pattern (R40). -/
def Fmt.decode (m : Fmt) (bits : Nat) : FVal :=
  let neg := bits.testBit (m.e + m.f)
  let mag := bits % 2 ^ (m.e + m.f)
  let ex := mag / 2 ^ m.f
  let fr := mag % 2 ^ m.f
  if m.ieee then
    if ex = 2 ^ m.e - 1 then
      if fr = 0 then .inf neg else .nan (!fr.testBit (m.f - 1))
    else if ex = 0 then .fin neg fr m.qmin
    else .fin neg (2 ^ m.f + fr) (m.qmin + ex - 1)
  else if mag = m.nanBits then .nan false
  else if ex = 0 then .fin neg fr m.qmin
  else .fin neg (2 ^ m.f + fr) (m.qmin + ex - 1)

/-- The sign bit over a magnitude pattern. -/
def Fmt.signed (m : Fmt) (neg : Bool) (mag : Nat) : Nat := if neg then 2 ^ (m.e + m.f) + mag else mag

/-- Whether the rounding of R46 goes away from zero, given the discarded remainder `r` of `2^d` and the kept magnitude. -/
def roundsUp (rm : RM) (neg : Bool) (kept r d : Nat) : Bool :=
  if r = 0 then false
  else match rm with
    | .rne => decide (2 ^ d < 2 * r) || (decide (2 * r = 2 ^ d) && decide (kept % 2 = 1))
    | .rz => false
    | .ru => !neg
    | .rd => neg
    | .rna => decide (2 ^ d ≤ 2 * r)

/-- A rounded result: the magnitude pattern, whether it differs from the exact value, whether it overflowed, and whether
it is tiny after rounding. -/
structure Rounded where
  mag : Nat
  inexact : Bool
  overflow : Bool
  tiny : Bool
  deriving DecidableEq, Repr

/-- The magnitude m × 2^e kept to weight 2^q by R46, as a count of 2^q, with whether it was inexact. -/
def roundTo (rm : RM) (neg : Bool) (m : Nat) (e q : Int) : Nat × Bool :=
  if q ≤ e then (m * 2 ^ (e - q).toNat, false)
  else
    let d := (q - e).toNat
    let kept := m / 2 ^ d
    let r := m % 2 ^ d
    (if roundsUp rm neg kept r d then kept + 1 else kept, decide (r ≠ 0))

/-- The one rounding of ±m × 2^e, m ≠ 0, to a format (R46 to R48). -/
def Fmt.round (t : Fmt) (rm : RM) (neg : Bool) (m : Nat) (e : Int) : Rounded :=
  let top : Int := (Nat.log2 m : Int) + e
  let q0 : Int := top - t.f
  let q : Int := if q0 < t.qmin then t.qmin else q0
  let (k, ix) := roundTo rm neg m e q
  let mag := (q - t.qmin).toNat * 2 ^ t.f + k
  let unbounded := (roundTo rm neg m e q0).1
  let tiny := decide (q0 < t.qmin) && !(decide (q0 = t.qmin - 1) && decide (unbounded = 2 ^ (t.f + 1)))
  if mag ≤ t.maxBits then ⟨mag, ix, false, tiny⟩
  else if t.ieee then
    let toInf := match rm with
      | .rne => true
      | .rna => true
      | .rz => false
      | .ru => !neg
      | .rd => neg
    ⟨if toInf then t.infBits else t.maxBits, true, true, false⟩
  else ⟨t.maxBits, true, true, false⟩

/-- A magnitude known to lie strictly between m × 2^e and (m+1) × 2^e when `sticky`: the low bit stands for the rest. -/
def jam (m : Nat) (e : Int) (sticky : Bool) : Nat × Int :=
  if sticky then (2 * m + 1, e - 1) else (m, e)

/-- Square root of a natural number, rounded down, `fuel` result bits. -/
def isqrtGo (n : Nat) : Nat → Nat → Nat
  | 0, r => r
  | i + 1, r => isqrtGo n i (if (r + 2 ^ i) * (r + 2 ^ i) ≤ n then r + 2 ^ i else r)

/-- Square root of a natural number, rounded down. -/
def isqrt (n : Nat) : Nat := isqrtGo n (Nat.log2 n / 2 + 1) 0

/-- An exact sum of ±m × 2^e values as a signed count of 2^e. -/
def alignSum (n1 : Bool) (m1 : Nat) (e1 : Int) (n2 : Bool) (m2 : Nat) (e2 : Int) : Int × Int :=
  let e := if e1 ≤ e2 then e1 else e2
  let a : Int := (m1 * 2 ^ (e1 - e).toNat : Nat)
  let b : Int := (m2 * 2 ^ (e2 - e).toNat : Nat)
  ((if n1 then -a else a) + (if n2 then -b else b), e)

/-- The scalar format of a floating TY (R62). -/
def fmtOf : Ty → Fmt
  | .f16 => fp16
  | .bf16 => bf16
  | .f32 => fp32
  | _ => fp64

/-- The bits that an operand of a type holds (R39), as an unsigned number. -/
def readBits (ty : Ty) (w : Word) : Nat := w.toNat % 2 ^ ty.width

/-- Sign extension of the low `n` bits of a number. -/
def sext (n v : Nat) : Int :=
  let x := v % 2 ^ n
  if 2 * x < 2 ^ n then (x : Int) else (x : Int) - (2 ^ n : Nat)

/-- A number as a 64-bit word, modulo 2^64. -/
def wordOfInt (i : Int) : Word := BitVec.ofInt 64 i

/-- A result in PAYLOAD (R39): i32 sign-extended, every other narrower type zero-extended. -/
def formBits (ty : Ty) (v : Nat) : Word :=
  match ty with
  | .i32 => wordOfInt (sext 32 v)
  | _ => BitVec.ofNat 64 (v % 2 ^ ty.width)

/-- The number an operand of an integer type holds, signed for i32 and i64 (R39). -/
def readInt (ty : Ty) (w : Word) : Int :=
  match ty with
  | .i32 => sext 32 w.toNat
  | .i64 => sext 64 w.toNat
  | _ => (readBits ty w : Int)

/-- An integer result modulo 2^w, formed by R39. -/
def formInt (ty : Ty) (i : Int) : Word := formBits ty (i % (2 ^ ty.width : Nat)).toNat

/-- Whether a type compares as signed (R192: TY 0 or 2). -/
def isSigned : Ty → Bool
  | .i32 => true
  | .i64 => true
  | _ => false

end Sys2Proof.Machine
end

