-- ==== Sys2Proof/Machine/Arith.lean ====
section
/-! DEFINITION. Machine/Arith.lean: what the integer and address instructions compute (Table 9.1, R192 to R199), as
functions of the operand words. -/

namespace Sys2Proof.Machine

/-- A binary operation on numbers, modulo 2^w, formed by R39. -/
def intBin (op : Int → Int → Int) (ty : Ty) (a b : Word) : Word := formInt ty (op (readInt ty a) (readInt ty b))

/-- A bitwise operation on the w-bit patterns. -/
def bitBin (op : Nat → Nat → Nat) (ty : Ty) (a b : Word) : Word := formBits ty (op (readBits ty a) (readBits ty b))

/-- MULH: the high w bits of the 2w-bit product. -/
def mulhInt (ty : Ty) (a b : Int) : Int := (a * b) / (2 ^ ty.width : Nat)

/-- DIV and its flag: truncation towards zero; all ones by zero, with DIVZ (R38, R193). -/
def divInt (ty : Ty) (a b : Word) : Word × Bool :=
  if readInt ty b = 0 then (formBits ty (2 ^ ty.width - 1), true)
  else (formInt ty (Int.tdiv (readInt ty a) (readInt ty b)), false)

/-- REM and its flag: a − b × DIV(a, b); the dividend by zero, with DIVZ (R38, R193). -/
def remInt (ty : Ty) (a b : Word) : Word × Bool :=
  if readInt ty b = 0 then (formInt ty (readInt ty a), true)
  else (formInt ty (readInt ty a - readInt ty b * Int.tdiv (readInt ty a) (readInt ty b)), false)

/-- The shift count: b mod w (R194). -/
def shiftCount (ty : Ty) (b : Word) : Nat := b.toNat % ty.width

/-- SHL (R194). -/
def shlInt (ty : Ty) (a b : Word) : Word := formBits ty (readBits ty a * 2 ^ shiftCount ty b)

/-- SHR (R194). -/
def shrInt (ty : Ty) (a b : Word) : Word := formBits ty (readBits ty a / 2 ^ shiftCount ty b)

/-- SRA: fills with bit w−1 of a, whatever TY says (R194). -/
def sraInt (ty : Ty) (a b : Word) : Word := formInt ty (sext ty.width a.toNat / (2 ^ shiftCount ty b : Nat))

/-- ROT: left rotation of the w-bit pattern (R194). -/
def rotInt (ty : Ty) (a b : Word) : Word :=
  formBits ty (readBits ty a * 2 ^ shiftCount ty b + readBits ty a / 2 ^ (ty.width - shiftCount ty b))

/-- MIN. -/
def minInt (a b : Int) : Int := if a ≤ b then a else b
/-- MAX. -/
def maxInt (a b : Int) : Int := if a ≤ b then b else a

/-- Number of zero bits from bit n−1 downwards. -/
def clzGo (v : Nat) : Nat → Nat
  | 0 => 0
  | n + 1 => if v.testBit n then 0 else clzGo v n + 1

/-- Number of zero bits from bit i upwards, `n` bits left. -/
def ctzGo (v i : Nat) : Nat → Nat
  | 0 => 0
  | n + 1 => if v.testBit i then 0 else ctzGo v (i + 1) n + 1

/-- Number of one bits below bit n. -/
def popGo (v : Nat) : Nat → Nat
  | 0 => 0
  | n + 1 => (if v.testBit n then 1 else 0) + popGo v n

/-- BREV's pattern: bit i moves to bit n−1−i (R195). -/
def brevBits (v n : Nat) : Nat := foldNat (fun acc i => if v.testBit i then acc + 2 ^ (n - 1 - i) else acc) 0 n 0

/-- CLZ (R195). -/
def clzInt (ty : Ty) (a : Word) : Word := formBits ty (clzGo (readBits ty a) ty.width)
/-- CTZ (R195). -/
def ctzInt (ty : Ty) (a : Word) : Word := formBits ty (ctzGo (readBits ty a) 0 ty.width)
/-- POPC (R195). -/
def popcInt (ty : Ty) (a : Word) : Word := formBits ty (popGo (readBits ty a) ty.width)
/-- BREV (R195). -/
def brevInt (ty : Ty) (a : Word) : Word := formBits ty (brevBits (readBits ty a) ty.width)

/-- CMP's relation (R196). -/
def cmpHolds (rel : CmpRel) (a b : Int) : Bool :=
  match rel with
  | .eq => decide (a = b)
  | .ne => decide (a ≠ b)
  | .lt => decide (a < b)
  | .le => decide (a ≤ b)
  | .gt => decide (b < a)
  | .ge => decide (b ≤ a)

/-- 1 or 0. -/
def boolWord (b : Bool) : Word := if b then 1 else 0

/-- SEL: the condition is the whole word (R196). -/
def selWord (ty : Ty) (a b c : Word) : Word := formBits ty (readBits ty (if c ≠ 0 then a else b))

/-- A field descriptor's POS and effective length L (R197). -/
def fieldOf (ty : Ty) (d : Word) : Nat × Nat :=
  let pos := d.toNat % 64
  let len := d.toNat / 256 % 128
  (pos, if pos < ty.width then (if len ≤ ty.width - pos then len else ty.width - pos) else 0)

/-- EXT (R197). -/
def extInt (ty : Ty) (a d : Word) : Word :=
  let (pos, len) := fieldOf ty d
  let v := readBits ty a / 2 ^ pos % 2 ^ len
  if len = 0 then 0
  else if isSigned ty then formInt ty (sext len v) else formBits ty v

/-- INS (R197). -/
def insInt (ty : Ty) (a b d : Word) : Word :=
  let (pos, len) := fieldOf ty d
  let x := readBits ty a
  let v := readBits ty b % 2 ^ len
  formBits ty (x % 2 ^ pos + v * 2 ^ pos + x / 2 ^ (pos + len) * 2 ^ (pos + len))

/-- IMM24 under a type: sign-extended for i32 and i64, zero-extended otherwise (Table 3.2). -/
def immOf (ty : Ty) (imm : BitVec 24) : Word :=
  if isSigned ty then wordOfInt (sext 24 imm.toNat) else BitVec.ofNat 64 imm.toNat

/-- LEA (R198). -/
def leaInt (ty : Ty) (a b : Word) (sh : Nat) (imm : BitVec 24) : Word :=
  formInt ty (readInt ty a + readInt ty b * (2 ^ sh : Nat) + (if isSigned ty then sext 24 imm.toNat else (imm.toNat : Int)))

/-- CONST's three sub-operations on SA's word (R199): bits replaced, then formed by R39. -/
def constLoWord (ty : Ty) (imm : BitVec 24) : Word := formBits ty (immOf ty imm).toNat
/-- CONST with FN 1, and CONSTH: bits 47:24 replaced (R199). -/
def constMidWord (ty : Ty) (a : Word) (imm : BitVec 24) : Word :=
  formBits ty (a.toNat % 2 ^ 24 + imm.toNat * 2 ^ 24 + a.toNat / 2 ^ 48 * 2 ^ 48)
/-- CONST with FN 2: bits 63:48 replaced (R199). -/
def constHiWord (ty : Ty) (a : Word) (imm : BitVec 16) : Word :=
  formBits ty (a.toNat % 2 ^ 48 + imm.toNat * 2 ^ 48)

end Sys2Proof.Machine
end

