-- ==== Sys2Proof/Machine/Types.lean ====
section
/-! DEFINITION. Machine/Types.lean: tokens, stations, firings, bobbins, faults, patterns and launches as plain data
(spec 01, 04 to 08, 18). -/

namespace Sys2Proof.Machine

/-- CLASS (Table 1.1, R11). -/
inductive TokClass where
  | value | tile | completion | kill | commit | hem | seed | fault
  deriving DecidableEq, Repr

/-- A tag (R10). -/
structure Tag where
  die : BitVec 2
  bobbin : BitVec 10
  iter : BitVec 6
  deriving DecidableEq, Repr

/-- A token (Table 1.1). -/
structure Token where
  age : BitVec 16
  cls : TokClass
  port : BitVec 2
  slot : BitVec 8
  station : BitVec 11
  phase : BitVec 4
  colour : BitVec 2
  tag : Tag
  payload : Word
  deriving DecidableEq, Repr

/-- One destination of a route group (R70): a slot's port, or an engine port. -/
inductive Dest where
  | slot (die : BitVec 2) (station : BitVec 11) (slot : BitVec 8) (port : BitVec 2)
  | engine (die : BitVec 2) (eng : BitVec 5) (inst : BitVec 8) (eport : BitVec 8)
  deriving DecidableEq, Repr

/-- A token on its way, with the engine port it is for, if any. -/
structure OutTok where
  tok : Token
  eng : Option (BitVec 5 × BitVec 8 × BitVec 8)
  deriving DecidableEq, Repr

/-- A match-table entry (Table 7.1).  V is membership of the table; an entry with PARK set is an operand of a parked
operation and is listed there (`Parked`), so that it has one home: `far` says which of the two tiers its entry is in (R153). -/
structure Held where
  tok : Token
  seq : BitVec 32
  /-- the A-cycle of its delivery (R152) -/
  cyc : Nat
  /-- held in the remnant store, from where it is fetched after the choice (R152, R153) -/
  far : Bool
  deriving DecidableEq, Repr

/-- What a remnant entry listed here holds (Tables 7.3 and 7.4).  A parked KWAIT, BALLOC or LOOPGEN (KIND 1, with its WSTAMP) and the
operands of a parked firing that the store holds (KIND 3: `Held.far`) are listed with their parked operation. -/
inductive RemKind where
  /-- KIND 0 -/
  | operand
  /-- KIND 2 -/
  | stageWait
  /-- a tile-handle token waiting for an empty tile row (R255) -/
  | rowWait (row : Nat)
  deriving DecidableEq, Repr

/-- A remnant entry (Table 7.4). -/
structure RemEntry where
  tok : Token
  seq : BitVec 32
  kind : RemKind
  stn : Nat
  wstamp : Nat
  deriving DecidableEq, Repr

/-- A chosen firing: its launch, slot, word and route, tag, phase (R29) and colour (R25), its operand tokens, and the
station's constant registers as they stood when it was chosen (R385: a firing chosen earlier reads the old value). -/
structure Firing where
  launch : Nat
  cl : Nat
  st : Nat
  slot : Nat
  word : Word
  route : BitVec 256
  tag : Tag
  phase : BitVec 4
  colour : BitVec 2
  a : Option Held
  b : Option Held
  c : Option Held
  p : Option Held
  consts : List (Nat × Word)
  /-- the number its operation keeps through parks and re-issues -/
  opId : Option Nat
  /-- performed at the commit of its colour (R26) -/
  atCommit : Bool
  /-- performed again by a resume (R376) -/
  retry : Bool
  deriving DecidableEq, Repr

/-- No firing. -/
def Firing.blank : Firing := ⟨0, 0, 0, 0, 0, 0, ⟨0, 0, 0⟩, 0, 0, .none, .none, .none, .none, [], .none, false, false⟩

/-- A held effect (R26): the firing performed when its colour commits, or a token for another stage (R139) sent then. -/
structure HeldEffect where
  id : Nat
  firing : Firing
  tok : Option OutTok
  deriving DecidableEq, Repr

/-- Control tokens seen at a slot for one tag and colour (R27): ports on which each kind arrived, and the kill mark. -/
structure ColourMark where
  slot : Nat
  tag : Tag
  colour : BitVec 2
  commitPorts : List (BitVec 2)
  killPorts : List (BitVec 2)
  killed : Bool
  deriving DecidableEq, Repr

/-- A colour in use under a tag (R28), with the slots that its wave has passed. -/
structure ColourUse where
  bobbin : BitVec 10
  iter : BitVec 6
  colour : BitVec 2
  passed : List (Nat × Nat × Nat)
  deriving DecidableEq, Repr

/-- Fault kinds (Table 18.1). -/
inductive FaultKind where
  | translate | protect | key | knotLimit | knotHandle | seamOrder | streamProtocol | align | tension | specMix | trap
  | poison | weightWindow | watchdog
  deriving DecidableEq, Repr

/-- A deferred fault (R26): a speculative load's fault, raised at the commit. -/
structure Deferred where
  firing : Firing
  kind : FaultKind
  detail : Word
  addr : Word
  flags : BitVec 16
  deriving DecidableEq, Repr

/-- Exception flags that a coloured firing raised (R51). -/
structure HeldFlags where
  slot : Nat
  tag : Tag
  colour : BitVec 2
  exc : BitVec 16
  deriving DecidableEq, Repr

/-- The tokens of a firing that has been chosen, with the A-cycle in which they are emitted: once an operand has been fetched from the
remnant store, or the station's unit has its result (R152, Table 7.2). -/
structure Late where
  due : Nat
  firing : Firing
  toks : List OutTok
  deriving DecidableEq, Repr

/-- One station (R150, R151, R147): resident slots, constant registers, match table, output queue. -/
structure Station where
  occ : BitVec 256
  words : List (Nat × Word)
  routes : List (Nat × BitVec 256)
  consts : List (Nat × Word)
  modified : BitVec 32
  table : List Held
  outq : List OutTok
  arrseq : BitVec 32
  /-- one more than the A-cycle of the last choice; 0 before any (R150) -/
  lastFire : Nat
  marks : List ColourMark
  held : List HeldEffect
  deferred : List Deferred
  heldFlags : List HeldFlags
  /-- N-cycles the head of the output queue has waited for injection (R160) -/
  injectWait : Nat
  /-- firings that read what they answer in an A-cycle after their choice, each with that A-cycle (R291, R314, R385) -/
  slow : List (Nat × Firing)
  /-- tokens still to be emitted, in the order of the choices -/
  late : List Late
  /-- the FIFO that its last firing with one entered, by number, and one more than that A-cycle (R186, R249) -/
  feeds : Nat
  fedAt : Nat
  /-- the A-cycles from which the iterative unit, and f64 arithmetic, can take a firing again (Table 7.2) -/
  unitFree : Nat
  wideFree : Nat
  deriving DecidableEq, Repr

/-- A station as placement puts it (R131). -/
def Station.clear : Station :=
  ⟨0, [], [], [], 0, [], [], 0, 0, [], [], [], [], 0, [], [], 0, 0, 0, 0⟩

/-- Where a token in the network is (R157 to R164). -/
inductive FlitAt where
  /-- at a router, on input 0 to 4 (+x, +y, −x, −y, injection) -/
  | router (cl : Nat) (input : Nat)
  /-- in the FIFO of a die's spine switch, by input port -/
  | spine (die : Nat) (input : Nat)
  /-- on the downlink of a cluster -/
  | downlink (cl : Nat)
  /-- in the reorder buffer of a cluster's receiving port -/
  | reorder (cl : Nat)
  deriving DecidableEq, Repr

/-- Where the sideband sends a token (R158, R71). -/
inductive FlitTo where
  | cluster (cl : Nat)
  | seam (die unit port : Nat)
  | unmask (die : Nat)
  deriving DecidableEq, Repr

/-- A token in the network with its sideband (R158); `moved` marks a router's work of this N-cycle as done. -/
structure Flit where
  id : Nat
  out : OutTok
  srcCl : Nat
  srcSt : Nat
  to_ : FlitTo
  seq : Nat
  at_ : FlitAt
  moved : Bool
  deriving DecidableEq, Repr

/-- A token that has reached its cluster or its die's engines and is next looked up: `src` names its source station by
cluster × 16 + station, none for a reply (R163); `cyc` is the N-cycle of its delivery and `lane` the way it came by (R151). -/
structure Arrival where
  launch : Nat
  out : OutTok
  src : Option Nat
  cyc : Nat
  /-- 0 the local path, 1 and 2 the ejection lanes, 3 the downlink, 4 none of them: a reply, a seed, a token sent again -/
  lane : Nat
  deriving DecidableEq, Repr

/-- A seed still to be injected (R121). -/
structure Seed where
  payload : Word
  die : BitVec 2
  station : BitVec 11
  slot : BitVec 8
  port : BitVec 2
  phase : BitVec 4
  group : Nat
  deriving DecidableEq, Repr

/-- An iteration's state (Table 1.2). -/
inductive IterState where
  | free | live | ended
  deriving DecidableEq, Repr

/-- One ITER of an instance: its state and the iteration number it holds. -/
structure IterSlot where
  st : IterState
  num : Nat
  deriving DecidableEq, Repr

/-- An instance in the bobbin table (R18, R173). -/
structure Instance where
  cls : Nat
  parent : Option (Nat × Nat)
  freeing : Bool
  nextIter : Nat
  endMark : Option Nat
  iters : List IterSlot
  /-- the entry whose activation a root instance is (R22) -/
  entry : Option Nat
  deriving DecidableEq, Repr

/-- A LOOPGEN generator (R175). -/
structure Generator where
  id : Nat
  firing : Firing
  inst : Nat
  cls : Nat
  n : Nat
  j : Nat
  base : Word
  step : BitVec 16
  /-- its instance was returned to the pool while it waited -/
  stale : Bool
  /-- WSTAMP: the A-cycle at which it began waiting (Table 7.4) -/
  wstamp : Nat
  /-- one more than the A-cycle of its last iteration (R175) -/
  last : Nat
  deriving DecidableEq, Repr

/-- Why an operation is parked (R153, R187). -/
inductive ParkWhy where
  | balloc
  | next
  | phwait (ph : Nat)
  /-- a PHWAIT whose phase a wave has found closed: it emits when its output queue has room -/
  | phdone
  | ticket (arb arc : Nat)
  | colour
  /-- KWAIT's waiter: `dir` is whether the bank's directory names its cluster, else it polls (R339) -/
  | kwait (handle threshold : Nat) (dir : Bool)
  | line (cl ln : Nat)
  | stream
  /-- YIELD: the A-cycle at which it ends -/
  | yield (until_ : Nat)
  | unmaskOpen
  | fault (rec_ : Nat)
  /-- to be performed again as soon as its station can: what it waited for has come (R211), a resume retries it (R376), or its
  colour has committed (R26) -/
  | again
  deriving DecidableEq, Repr

/-- A parked operation: a firing with its operands. -/
structure Parked where
  id : Nat
  firing : Firing
  why : ParkWhy
  /-- the A-cycle at which it parked: WSTAMP of a waiter (Table 7.4) -/
  wstamp : Nat
  deriving DecidableEq, Repr

/-- Why a launch ends (R185, R375, R382, R387); the watchdog ends it saved or drained. -/
inductive Ending where
  | normal | forced | abortFault | wdogSaved | drained
  deriving DecidableEq, Repr

/-- A fault record's STATE (Table 18.2). -/
inductive RecState where
  | parked | retried | discarded | final
  deriving DecidableEq, Repr

/-- What raised a fault (Table 18.2's SRCK, STATION, FCL, INST, CTX, ENG). -/
structure FaultSrc where
  srck : Nat
  die : Nat
  station : Nat
  slot : Nat
  phase : BitVec 4
  stage : Nat
  tag : Option Tag
  eng : Nat
  ctx : Nat
  inst : Nat
  fcl : Nat
  deriving DecidableEq, Repr

/-- What parks at a fault: a station's operation, by number; a copy packet or the spawn slot of a cluster; the command or a row-stream token
of a tensor unit; a stream operator, by its place; a seam context, by unit; an unmask context, by die. -/
inductive Parker where
  | op (id : Nat)
  | copy (cl pk : Nat)
  | spawn (cl : Nat)
  | tensor (cl : Nat)
  | row (cl : Nat)
  | stream (i : Nat)
  | seam (key c : Nat)
  | unmask (die c : Nat)
  deriving DecidableEq, Repr

/-- A fault (R372): `recid` is 0 until its record is written. -/
structure FaultRec where
  id : Nat
  recid : Nat
  kind : FaultKind
  detail : Word
  addr : Word
  src : FaultSrc
  deferFlag : Bool
  parked : Nat
  state : RecState
  stampA : Nat
  /-- what a token parked by a TENSION fault is, by its overflow index + 1; 0 otherwise -/
  ovf : Nat
  /-- a resume recorded while the panel was not Running (R377): whether it discards -/
  pending : Option Bool
  /-- PARKED and STATE of its copy in memory: 16 × PARKED + STATE (R373) -/
  shown : Nat
  /-- what it covers, in the order of parking; once it is retried, what has still to be performed again (R376) -/
  order : List Parker
  deriving DecidableEq, Repr

/-- Which list of the overflow area a record is in (R156). -/
inductive OvfList where
  | entry (n : Nat)
  | stage (n : Nat)
  | tension
  deriving DecidableEq, Repr

/-- A record of the overflow area (R156); `group` ties the seeds or call tokens of one activation (R123, R179). -/
structure OvfRec where
  idx : Nat
  list : OvfList
  tok : Token
  wstamp : Nat
  group : Nat
  /-- where a CALL's or seed's token goes once admitted is in the token; `eng` for an engine destination -/
  eng : Option (BitVec 5 × BitVec 8 × BitVec 8)
  /-- the source whose tokens keep their order (R163), if any -/
  src : Option Nat
  deriving DecidableEq, Repr

/-- Address spaces (R94, R207). -/
inductive Space where
  | l | n | w | g
  deriving DecidableEq, Repr

/-- A bobbin class (R17). -/
structure BobClass where
  size : Nat
  parent : Option Nat
  fan : Nat
  deriving DecidableEq, Repr

/-- An entry record (R138). -/
structure EntryRec where
  cls : Nat
  stage : Nat
  die : Nat
  station : Nat
  slot : Nat
  port : Nat
  tension : Nat
  deriving DecidableEq, Repr

/-- A swatch's kind (R95). -/
inductive SwKind where
  | dense | csr | region
  deriving DecidableEq, Repr

/-- A swatch entry (Table 4.3). -/
structure Swatch where
  kind : SwKind
  space : Space
  base : Nat
  range : Nat
  delta : Nat
  elem : Nat
  cols : Nat
  rows : Nat
  aux0 : Nat
  aux1 : Nat
  deriving DecidableEq, Repr

/-- A range entry (Table 4.4). -/
structure Range where
  rd : Bool
  wr : Bool
  atom : Bool
  space : Space
  base : Nat
  tgt : Nat
  dsc : Bool
  fet : Bool
  len : Nat
  deriving DecidableEq, Repr

/-- A bind entry (R100). -/
structure Bind where
  handle : Nat
  pool : Bool
  range : Nat
  scope : Nat
  deriving DecidableEq, Repr

/-- A station record of a stage (R92). -/
structure StationRec where
  cluster : Nat
  station : Nat
  occ : BitVec 256
  consts : List (Nat × Word)
  words : List (Nat × Word)
  routes : List (Nat × BitVec 256)
  deriving DecidableEq, Repr

/-- A circuit record (R284): the two endpoint codes. -/
structure CircuitRec where
  from_ : Nat
  to_ : Nat
  deriving DecidableEq, Repr

/-- An operator record (R282). -/
structure OpRec where
  fcl : Nat
  kind : Nat
  inst : Nat
  p0 : Word
  p1 : Word
  p2 : Word
  deriving DecidableEq, Repr

/-- One stage of a pattern (R92, R138). -/
structure StageImg where
  faultSlot : Option (Nat × Nat × Nat)
  stations : List StationRec
  circuits : List CircuitRec
  ops : List OpRec
  /-- X(c) for each footprint cluster (R23) -/
  remnant : List Nat
  /-- the bytes of the stage image of each footprint cluster (R145) -/
  bytes : List Nat
  deriving DecidableEq, Repr

/-- A registered pattern (R90 to R106). -/
structure Pattern where
  part : Nat
  gen : Nat
  digest : BitVec 384
  image : Nat
  imageLen : Nat
  isa : Nat
  fw : Nat
  fh : Nat
  fdies : Nat
  done : Nat
  classes : List BobClass
  entries : List EntryRec
  swatches : List Swatch
  ranges : List Range
  binds : List Bind
  knots : Nat
  stages : List StageImg
  /-- seam unit instances per panel die (R129) -/
  seams : List (List Nat)
  matchcap : Nat
  seamGroup : Nat
  errata : List Nat
  warn : BitVec 8
  released : Bool
  /-- where WARN has RACE: writers B and A as the registration record names them (R103, R105) -/
  race : Nat × Nat := (0, 0)
  deriving DecidableEq, Repr

end Sys2Proof.Machine
end

