-- ==== Sys2Proof/Machine/Engines.lean ====
section
/-! DEFINITION. Machine/Engines.lean: copy engines, tensor units, stream operators, seam units, unmask engines and hems as
plain data (spec 11 to 15, 17). -/

namespace Sys2Proof.Machine

/-! Accesses that an engine makes, one aligned 8-byte word (or a part of one) at a time (R353). -/

/-- The adds of scatter-add and SCATTER (R232, R238, R282). -/
inductive AddTy where
  | i32 | i64 | f32
  deriving DecidableEq, Repr

/-- What one access does. -/
inductive AccOp where
  | read
  | write (bytes : List Byte)
  | add (ty : AddTy) (v : Word)
  deriving DecidableEq, Repr

/-- One access of an engine; `got` are the bytes read.  `unit` is the access width of an element, whose address must be a multiple of it
(R222, check 2), and 0 for a piece of a row or region; `tx` is its transfer at the portal, once it has gone there (R221). -/
structure Acc where
  space : Space
  addr : Nat
  n : Nat
  op : AccOp
  range : Option Nat
  got : List Byte
  done : Bool
  unit : Nat := 0
  tx : Option Nat := none
  deriving DecidableEq, Repr

/-- Whose access it is: the launch (none for a queue packet), the partition whose translation applies, and the cluster
whose memory an L address names.  `counts` is whether meters count its bytes: those of slots and engines, not the accesses that the
scheduler and the event arbiter make to queues, images and records (log 47). -/
structure Client where
  launch : Option Nat
  part : Nat
  cl : Nat
  counts : Bool
  deriving DecidableEq, Repr

/-- How a request leaves a die's portal (R349, R403, R404): the UALink port and the accelerator of the local pod that it is sent to, the
extension that a bridge carries on (XPOD and XACC), and the tag of an atomic. -/
structure Route where
  port : Nat
  acc : Nat
  ext : Option Nat
  tag : Option Nat
  deriving DecidableEq, Repr

/-! Copy engines (spec 11). -/

/-- A run of rows of a packet: the row plane, or the scale plane that follows it (R244). -/
structure CopyRun where
  src : Nat
  dst : Nat
  rows : Nat
  rowBytes : Nat
  sstride : Nat
  dstride : Nat
  deriving DecidableEq, Repr

/-- One destination word of a packet in the engine (R235, R353): `pos` numbers its line access, or its position in a vector; `row` is
its row, for a scatter-add the destination row that its index names. -/
structure Piece where
  pos : Nat
  row : Nat
  dst : Nat
  src : Nat
  n : Nat
  /-- bytes read so far -/
  data : List Byte
  /-- the add of a scatter-add, once merged (R238) -/
  add : Option Word
  done : Bool
  /-- the transfer at the portal of its access in progress -/
  tx : Option Nat := none
  deriving DecidableEq, Repr

/-- What the scheduler issued a packet for: a stage's image for a pattern store (R146), or a load of a registered weight image
(R215). -/
inductive SchedJob where
  | fill (stage : Nat)
  | weight (image load : Nat)
  deriving DecidableEq, Repr

/-- A copy packet (Table 11.1) with what a station-built packet keeps beside it. -/
structure CopyPk where
  id : Nat
  /-- the issuing firing, for a station-built packet -/
  firing : Option Firing
  /-- partition, queue-table index and packet index, for a queue packet -/
  queue : Option (Nat × Nat × Nat)
  client : Client
  stream : Nat
  op : Nat
  sop : Nat
  sspace : Space
  dspace : Space
  runs : List CopyRun
  srange : Option Nat
  drange : Option Nat
  /-- ROWS that an index must stay below (0x0203) -/
  idxLimit : Option Nat
  aux : Nat
  knot : Word
  add : Nat
  token : Bool
  ord : Bool
  fence : Bool
  /-- the index words of gather and scatter read so far, by position -/
  idx : List (Nat × Nat)
  /-- run, row and byte of the next piece to issue -/
  run : Nat
  row : Nat
  byte : Nat
  issued : Nat
  todo : List Piece
  /-- covered tracked lines still to be filled, and those of them that a byte has been written to: cluster and line (R210) -/
  cover : List (Nat × Nat)
  wrote : List (Nat × Nat) := []
  parked : Option Nat
  /-- what the scheduler issued it for, if it did -/
  sched : Option SchedJob := none
  /-- the launch whose pool knots it reaches: that of the trigger that issued it (R333) -/
  reach : Option Nat := none
  deriving DecidableEq, Repr

/-- A SPAWN or CQPUSH command in the spawn slot (R184, R245): the steps of R113 done so far. -/
structure SpawnCmd where
  firing : Firing
  step : Nat
  tmpl : List Byte
  index : Nat
  accs : List Acc
  parked : Option Nat
  deriving DecidableEq, Repr

/-- A cluster's copy engine. -/
structure CopyEng where
  fifo : List CopyPk
  /-- packets of triggers and of the scheduler, waiting their turn -/
  queued : List CopyPk
  active : List CopyPk
  /-- ordering tokens held (R234) -/
  ord : List Token
  spawn : List SpawnCmd
  /-- the source that a packet was last taken from (R234): 0 the FIFO, 1 the packets of triggers and of the scheduler, 2 up the copy
  queues -/
  turn : Nat
  deriving DecidableEq, Repr

/-- An idle copy engine. -/
def CopyEng.blank : CopyEng := ⟨[], [], [], [], [], 0⟩

/-! Tensor units (spec 12). -/

/-- A stream word (R276). -/
structure SWord where
  value : BitVec 32
  coord : BitVec 32
  mark : BitVec 4
  deriving DecidableEq, Repr

/-- A command being performed: its next row, the accesses of that row, and whether its conditions have been checked. -/
structure TRun where
  firing : Firing
  started : Bool
  row : Nat
  accs : List Acc
  parked : Option Nat
  deriving DecidableEq, Repr

/-- A row-stream token being written into a tile (R255). -/
structure RowRun where
  tok : Token
  tile : Nat
  accs : List Acc
  parked : Option Nat
  deriving DecidableEq, Repr

/-- A tensor unit (Table 12.1, R249, R262, R274). -/
structure TensorUnit where
  /-- tile × 16,384 + byte -/
  tiles : List (Nat × Byte)
  /-- tile × 1,024 + byte -/
  sides : List (Nat × Byte)
  shapes : List (Nat × Word)
  /-- empty rows: tile × 192 + row -/
  rowEmpty : List (Nat × Bool)
  /-- accumulator × 16,384 + row × 128 + column -/
  accs : List (Nat × BitVec 32)
  /-- slot × 128 + channel -/
  carry : List (Nat × BitVec 32)
  swapped : BitVec 8
  /-- a swap knot other than "no knot", stored exclusive-ored with it -/
  swapKnot : List (Nat × Word)
  dither : BitVec 5
  fifo : List Firing
  cur : Option TRun
  /-- TSCANs set aside, each on its carry slot, and the slots whose reloading TCARRY has released theirs (R274) -/
  aside : List Firing
  ready : BitVec 8
  outRow : List SWord
  rows : List RowRun
  deriving DecidableEq, Repr

/-- A tensor unit as configuration leaves it (R131). -/
def TensorUnit.blank : TensorUnit := ⟨[], [], [], [], [], [], 0, [], 0, [], none, [], 0, [], []⟩

/-! Stream operators (spec 13). -/

/-- An access group of GATHER or SCATTER, in word order (R285). -/
structure OpPend where
  word : SWord
  accs : List Acc
  deriving DecidableEq, Repr

/-- An operator instance (R282). -/
structure OpInst where
  fcl : Nat
  kind : Nat
  inst : Nat
  p0 : Word
  p1 : Word
  p2 : Word
  inw : BitVec 32
  eosn : BitVec 16
  /-- words awaiting output, by port -/
  out : List (Nat × SWord)
  /-- previous coordinate of the fibre at each ordered input (R277) -/
  prev0 : Option (BitVec 32)
  prev1 : Option (BitVec 32)
  /-- inputs whose words are discarded up to their next reset (R282) -/
  drop : BitVec 2
  /-- inputs that have delivered end of stream -/
  ended : BitVec 2
  /-- per output (bit 4p + k − 1): a data word has left since the last marker of level k or higher (NOEMPTY) -/
  since : BitVec 8
  /-- REDUCE's partial result and count; COMPRESS's entry count in the fibre -/
  part : Option (BitVec 32)
  cnt : Nat
  /-- REPEAT's held word; the word that EXPAND, SCAN or COMPRESS is working on -/
  word : Option SWord
  /-- COMPRESS: entries before the fibre, the last row written plus 1, and whether it has begun -/
  base : Nat
  rowDone : Nat
  begun : Bool
  /-- accesses of EXPAND, SCAN and COMPRESS in progress, and the stage of EXPAND's reads -/
  phase : Nat
  accs : List Acc
  pend : List OpPend
  parked : Option Nat
  pport : Nat
  deriving DecidableEq, Repr

/-- The circuits and operators of a stage (R279 to R282). -/
structure StreamFab where
  /-- producer endpoint and consumer endpoint -/
  circuits : List (Nat × Nat)
  queues : List (Nat × List SWord)
  /-- free slots held by a producer, less than 16 -/
  credits : List (Nat × Nat)
  /-- slots that a consumer has freed and not yet reported -/
  freed : List (Nat × Nat)
  ops : List OpInst
  deriving DecidableEq, Repr

/-- No circuits. -/
def StreamFab.blank : StreamFab := ⟨[], [], [], [], []⟩

/-! Seam units (spec 14). -/

/-- A context's state (Table 14.1); Parked is `SeamCtx.parked`. -/
inductive SeamSt where
  | free | binding | merging | ending
  deriving DecidableEq, Repr

/-- How a context ends (Table 14.4). -/
inductive SeamEnd where
  | ok | order | spill | aborted
  deriving DecidableEq, Repr

/-- A run of the run area (R302): level, group, row, byte offset of its header, and entries; `kept` are the entries of a run for which
the extents of long fibres leave no one place, which the unit keeps itself (log 79). -/
structure SeamRun where
  level : Nat
  group : Nat
  row : Nat
  off : Nat
  len : Nat
  kept : List (Nat × BitVec 32)
  deriving DecidableEq, Repr

/-- A complete row in a fibre buffer; `long` is the long-fibre run that continues it: the offset of its header, and its entries
(R298).  `held` are the words after those, for which the run area had no place (log 79); `counted` says that its run is among the
context's. -/
structure FibreRow where
  row : Nat
  entries : List (Nat × BitVec 32)
  long : Option (Nat × Nat)
  held : List (Nat × BitVec 32)
  counted : Bool
  deriving DecidableEq, Repr

/-- An input of a context (R297, R298). -/
structure SeamIn where
  idx : Nat
  port : Nat
  ended : Bool
  /-- the last row number closed, plus 1 -/
  lastRow : Nat
  /-- the last column of the row being filled, plus 1 -/
  lastCol : Nat
  /-- the row being filled, and its long-fibre run so far -/
  cur : List (Nat × BitVec 32)
  curLong : Option (Nat × Nat)
  held : List (Nat × BitVec 32)
  /-- the writes of the word at the port's head to the run area, in progress -/
  late : List Acc
  rows : List FibreRow
  /-- a word has broken its order: what follows is discarded, and the merge ends where it needs this input (R304) -/
  broken : Bool
  deriving DecidableEq, Repr

/-- Input k bound to a port. -/
def SeamIn.bind (k p : Nat) : SeamIn := ⟨k, p, false, 0, 0, [], none, [], [], [], false⟩

/-- A port of a unit (R293): its tokens, and how many inputs of an ended context must still deliver MARK 0xF, to be discarded
(R304). -/
structure SeamPort where
  queue : List OutTok
  discard : Nat
  deriving DecidableEq, Repr

/-- An unused port. -/
def SeamPort.blank : SeamPort := ⟨[], 0⟩

/-- What a context is writing or reading. -/
inductive SeamPhase where
  /-- between rows -/
  | boundary
  /-- the zero status record of SMOPEN -/
  | opening
  /-- ptr[0] -/
  | first
  /-- the entries of the members' runs that hold the row -/
  | reading
  /-- the row's entries, then its pointers -/
  | entries
  | pointers
  /-- the row as a run -/
  | run
  /-- the pointers after the last row -/
  | trailing
  | record
  | add
  deriving DecidableEq, Repr

/-- A merge context. -/
structure SeamCtx where
  st : SeamSt
  gen : BitVec 8
  firing : Firing
  n : Nat
  op : Nat
  sw1 : Nat
  sw2 : Nat
  ovcap : Nat
  knot : Word
  add : Nat
  inputs : List SeamIn
  level : Nat
  group : Nat
  /-- levels used so far -/
  used : Nat
  /-- above level 0: the lowest row not yet merged in this group -/
  mrow : Nat
  runs : List SeamRun
  /-- the extents taken in the run area (offset and size, ascending), the start of the run in progress (0: it is kept), and the end
  that the run area would have with the runs of the merged rows alone -/
  taken : List (Nat × Nat)
  runAt : Nat
  charged : Nat
  nruns : Nat
  entries : Nat
  ovcount : Nat
  rowsDone : Nat
  begun : Bool
  phase : SeamPhase
  /-- the row in progress and its entries -/
  row : Nat
  ents : List (Nat × BitVec 32)
  /-- how many items of the phase are done, the next row pointer, and the accesses in progress -/
  idx : Nat
  ptr : Nat
  accs : List Acc
  /-- accesses of an ended merge that are still in flight -/
  left : List Acc
  endWith : Option SeamEnd
  aborters : List Firing
  parked : Option Nat
  deriving DecidableEq, Repr

/-- A free context with its generation. -/
def SeamCtx.free (gen : BitVec 8) : SeamCtx :=
  { st := .free, gen := gen, firing := Firing.blank, n := 0, op := 0, sw1 := 0, sw2 := 0, ovcap := 0, knot := 0, add := 0,
    inputs := [], level := 0, group := 0, used := 0, mrow := 0, runs := [], taken := [], runAt := 0, charged := 0, nruns := 0, entries := 0, ovcount := 0,
    rowsDone := 0, begun := false, phase := .boundary, row := 0, ents := [], idx := 0, ptr := 0, accs := [], left := [], endWith := none,
    aborters := [], parked := none }

/-- A seam unit. -/
structure SeamUnit where
  ports : List (Nat × SeamPort)
  ctxs : List (Nat × SeamCtx)
  deriving DecidableEq, Repr

/-- An unused unit. -/
def SeamUnit.blank : SeamUnit := ⟨[], []⟩

/-! Unmask engines (spec 15). -/

/-- A command or a token of a context, with how far it has come. -/
structure UmCmd where
  firing : Firing
  /-- a token at unmask.in, instead of a firing -/
  tok : Option OutTok
  /-- the source whose commands keep their order (R320) -/
  src : Nat
  started : Bool
  phase : Nat
  idx : Nat
  accs : List Acc
  /-- masked positions, or dirty entries (layer × 65,536 + block) -/
  seeds : List Nat
  /-- score words of masked positions, or the list to commit -/
  list : List (Nat × Nat)
  /-- bitmap bytes read -/
  read : List (Nat × Byte)
  count : Nat
  stopAdd : Bool
  parked : Option Nat
  /-- the generation of its handle: a command that an open of the context stood before may find it out of date -/
  gen : Option (BitVec 8)
  deriving DecidableEq, Repr

/-- A context (R317, R319, R324). -/
structure UmCtx where
  holder : Option Nat
  gen : BitVec 8
  opened : Bool
  sw1 : Nat
  sw2 : Nat
  len : Nat
  layers : Nat
  f : Nat
  k : Nat
  minc : Nat
  maxc : Nat
  theta : BitVec 32
  thetas : List (Nat × BitVec 32)
  remaining : Nat
  round : List (Nat × Bool)
  queue : List UmCmd
  deriving DecidableEq, Repr

/-- A context at reset. -/
def UmCtx.blank : UmCtx := ⟨none, 0, false, 0, 0, 0, 0, 0, 0, 0, 0, 0, [], 0, [], []⟩

/-- A die's unmask engine. -/
structure UmEngine where
  ctxs : List (Nat × UmCtx)
  /-- opens waiting for a free context, in order of arrival -/
  opens : List Firing
  /-- those that a freeze saved, which go first (R331) -/
  old : List Firing
  /-- tokens at unmask.in parked at a fault, by its number -/
  strays : List (Nat × Arrival)
  deriving DecidableEq, Repr

/-- An engine with every context free. -/
def UmEngine.blank : UmEngine := ⟨[], [], [], []⟩

/-! Hems (R365, R366). -/

/-- Why a hem was begun. -/
inductive HemWhy where
  | instr (f : Firing)
  | retire
  | stage
  deriving DecidableEq, Repr

/-- What one cluster holds of a hem: the writes noted and the engine commands ahead of its marks, by number; the writes that its operators
and contexts had issued, each with its engine; and the inbound tokens of its children that have come. -/
structure HemCl where
  cl : Nat
  seen : Bool
  notes : List Nat
  marks : List Nat
  writes : List (Nat × Acc)
  inn : Nat
  sent : Bool
  deriving DecidableEq, Repr

/-- A hem in progress. -/
structure Hem where
  seq : BitVec 8
  why : HemWhy
  cls : List HemCl
  done : Bool
  deriving DecidableEq, Repr

end Sys2Proof.Machine
end

