-- ==== Sys2Proof/Machine/Flags.lean ====
section
/-! DEFINITION. Machine/Flags.lean: the sticky exception flags (Table 2.3) and every scalar floating-point computation with
the flags it raises (R201 to R206). -/

namespace Sys2Proof.Machine

/-- EXC[15:0] (Table 2.3). -/
abbrev Exc := BitVec 16

/-- No flag. -/
def excNone : Exc := 0x00
/-- Inexact result. -/
def excNX : Exc := 0x01
/-- Tiny and inexact result. -/
def excUF : Exc := 0x02
/-- Overflow on rounding. -/
def excOF : Exc := 0x04
/-- Floating divide by zero. -/
def excDZ : Exc := 0x08
/-- Invalid operation. -/
def excNV : Exc := 0x10
/-- Integer DIV or REM by zero. -/
def excDIVZ : Exc := 0x20
/-- Infinity saturated to a finite code. -/
def excINFSAT : Exc := 0x40
/-- TQNT wrote a block NaN. -/
def excQNAN : Exc := 0x80

/-- A flag when a condition holds. -/
def excIf (b : Bool) (f : Exc) : Exc := if b then f else 0

/-- A result pattern with the flags it raised. -/
abbrev FRes := Nat × Exc

/-- A finite exact value rounded under R201: NX when inexact, UF when also tiny, OF and NX on overflow. -/
def roundRes (t : Fmt) (rm : RM) (neg : Bool) (m : Nat) (e : Int) : FRes :=
  if m = 0 then (t.signed neg 0, 0)
  else
    let r := t.round rm neg m e
    (t.signed neg r.mag, excIf r.inexact excNX ||| excIf (r.tiny && r.inexact) excUF ||| excIf r.overflow excOF)

/-- The canonical NaN with NV. -/
def invalid (t : Fmt) : FRes := (t.nanBits, excNV)

/-- An infinity. -/
def infRes (t : Fmt) (neg : Bool) : FRes := (t.signed neg t.infBits, 0)

/-- A zero. -/
def zeroRes (t : Fmt) (neg : Bool) : FRes := (t.signed neg 0, 0)

/-- Whether a value is a signalling NaN. -/
def FVal.isSnan : FVal → Bool
  | .nan s => s
  | _ => false

/-- Whether a value is a NaN. -/
def FVal.isNan : FVal → Bool
  | .nan _ => true
  | _ => false

/-- Whether a value is an infinity. -/
def FVal.isInf : FVal → Bool
  | .inf _ => true
  | _ => false

/-- Whether a value is a zero. -/
def FVal.isZero : FVal → Bool
  | .fin _ 0 _ => true
  | _ => false

/-- The sign of a value that is not a NaN. -/
def FVal.neg : FVal → Bool
  | .nan _ => false
  | .inf n => n
  | .fin n _ _ => n

/-- The value with its sign inverted. -/
def FVal.flip : FVal → FVal
  | .nan s => .nan s
  | .inf n => .inf (!n)
  | .fin n m e => .fin (!n) m e

/-- NV for any signalling NaN among the operands (R201). -/
def snanFlag (xs : List FVal) : Exc := excIf (xs.any FVal.isSnan) excNV

/-- x + y for values that are not NaN (R201, R202): an exact zero of opposite signs is −0 only under RD. -/
def addVals (t : Fmt) (rm : RM) (x y : FVal) : FRes :=
  match x, y with
  | .inf a, .inf b => if a = b then infRes t a else invalid t
  | .inf a, _ => infRes t a
  | _, .inf b => infRes t b
  | .fin n1 m1 e1, .fin n2 m2 e2 =>
    let (s, e) := alignSum n1 m1 e1 n2 m2 e2
    if s = 0 then
      if m1 = 0 ∧ m2 = 0 ∧ n1 = n2 then zeroRes t n1 else zeroRes t (decide (rm = .rd))
    else roundRes t rm (decide (s < 0)) s.natAbs e
  | _, _ => (t.nanBits, 0)

/-- The product of two values that are not NaN: none where it is 0 × ∞. -/
def mulVals (x y : FVal) : Option FVal :=
  match x, y with
  | .fin n1 m1 e1, .fin n2 m2 e2 => some (.fin (n1 != n2) (m1 * m2) (e1 + e2))
  | .inf a, .inf b => some (.inf (a != b))
  | .inf a, .fin n m _ => if m = 0 then none else some (.inf (a != n))
  | .fin n m _, .inf b => if m = 0 then none else some (.inf (n != b))
  | _, _ => some (.nan false)

/-- A value rounded to a format: infinities and zeros return themselves. -/
def roundVal (t : Fmt) (rm : RM) : FVal → FRes
  | .nan _ => (t.nanBits, 0)
  | .inf n => infRes t n
  | .fin n m e => roundRes t rm n m e

/-- R201 around an operation: signalling NaNs set NV, an invalid operation gives the canonical NaN with NV, and any other
NaN operand gives the canonical NaN. -/
def arith (t : Fmt) (xs : List FVal) (inv : Bool) (op : FRes) : FRes :=
  let nv := snanFlag xs
  if inv then (t.nanBits, nv ||| excNV)
  else if xs.any FVal.isNan then (t.nanBits, nv)
  else op

/-- FADD. -/
def fadd (t : Fmt) (rm : RM) (x y : FVal) : FRes := arith t [x, y] false (addVals t rm x y)
/-- FSUB. -/
def fsub (t : Fmt) (rm : RM) (x y : FVal) : FRes := arith t [x, y] false (addVals t rm x y.flip)

/-- FMUL (Table 9.4). -/
def fmul (t : Fmt) (rm : RM) (x y : FVal) : FRes :=
  arith t [x, y] (mulVals x y).isNone (match mulVals x y with | some p => roundVal t rm p | none => invalid t)

/-- FMA and FNMA: the product, negated for FNMA, plus c, rounded once; 0 × ∞ is invalid whatever c holds (Table 9.4). -/
def fma (t : Fmt) (rm : RM) (negate : Bool) (x y z : FVal) : FRes :=
  match mulVals x y with
  | none => arith t [x, y, z] true (invalid t)
  | some p => arith t [x, y, z] false (addVals t rm (if negate then p.flip else p) z)

/-- The quotient of two finite non-zero magnitudes to `k` bits below the divisor's scale, with its sticky part. -/
def divMag (m1 : Nat) (e1 : Int) (m2 : Nat) (e2 : Int) (k : Nat) : Nat × Int :=
  let n := m1 * 2 ^ (k + Nat.log2 m2 + 1)
  jam (n / m2) (e1 - e2 - (k + Nat.log2 m2 + 1 : Nat)) (decide (n % m2 ≠ 0))

/-- FDIV (Table 9.4). -/
def fdiv (t : Fmt) (rm : RM) (x y : FVal) : FRes :=
  arith t [x, y] ((x.isZero && y.isZero) || (x.isInf && y.isInf)) <|
    match x, y with
    | .inf a, _ => infRes t (a != y.neg)
    | _, .inf b => zeroRes t (x.neg != b)
    | .fin n1 m1 e1, .fin n2 m2 e2 =>
      if m2 = 0 then (t.signed (n1 != n2) t.infBits, excDZ)
      else if m1 = 0 then zeroRes t (n1 != n2)
      else
        let (m, e) := divMag m1 e1 m2 e2 (t.f + 4)
        roundRes t rm (n1 != n2) m e
    | _, _ => invalid t

/-- √(m × 2^e) to `k` bits, with its sticky part. -/
def sqrtMag (m : Nat) (e : Int) (k : Nat) : Nat × Int :=
  let odd := e % 2 ≠ 0
  let n := (if odd then 2 * m else m) * 2 ^ (2 * k)
  let r := isqrt n
  jam r ((if odd then e - 1 else e) / 2 - k) (decide (r * r ≠ n))

/-- FSQRT (Table 9.4). -/
def fsqrt (t : Fmt) (rm : RM) (x : FVal) : FRes :=
  arith t [x] (x.neg && !x.isZero) <|
    match x with
    | .fin n m e =>
      if m = 0 then zeroRes t n
      else
        let (r, q) := sqrtMag m e (t.f + 4)
        roundRes t rm false r q
    | _ => infRes t false

/-- Whether x < y, for values that are not NaN; −0 equals +0. -/
def ltVals (x y : FVal) : Bool :=
  match x, y with
  | .inf a, .inf b => a && !b
  | .inf a, _ => a
  | _, .inf b => !b
  | .fin n1 m1 e1, .fin n2 m2 e2 => decide ((alignSum n1 m1 e1 (!n2) m2 e2).1 < 0)
  | _, _ => false

/-- Whether x = y, for values that are not NaN; −0 equals +0. -/
def eqVals (x y : FVal) : Bool := !ltVals x y && !ltVals y x

/-- FMIN and FMAX (R203): minimumNumber and maximumNumber on bit patterns; `e017` is the compatibility case in which FMIN
of the two zeros returns +0. -/
def fminmax (t : Fmt) (isMax e017 : Bool) (a b : Nat) : FRes :=
  let x := t.decode a
  let y := t.decode b
  let nv := snanFlag [x, y]
  match x.isNan, y.isNan with
  | true, true => (t.nanBits, nv)
  | true, false => (b, nv)
  | false, true => (a, nv)
  | false, false =>
    if x.isZero && y.isZero && (x.neg != y.neg) then
      let wantNeg := !isMax && !e017
      (if x.neg = wantNeg then a else b, nv)
    else
      let aFirst := if isMax then !ltVals x y else !ltVals y x
      (if aFirst then a else b, nv)

/-- FABS: the sign bit cleared (R204). -/
def fabsBits (t : Fmt) (a : Nat) : Nat := a % 2 ^ (t.e + t.f)
/-- FNEG: the sign bit inverted (R204). -/
def fnegBits (t : Fmt) (a : Nat) : Nat := t.signed (!a.testBit (t.e + t.f)) (a % 2 ^ (t.e + t.f))

/-- FCMP's predicate and its flag (R204). -/
def fcmpHolds (t : Fmt) (p : FcmpPred) (a b : Nat) : Bool × Exc :=
  let x := t.decode a
  let y := t.decode b
  let un := x.isNan || y.isNan
  let quiet := snanFlag [x, y]
  let loud := excIf un excNV
  match p with
  | .eq => (!un && eqVals x y, quiet)
  | .ne => (un || !eqVals x y, quiet)
  | .lt => (!un && ltVals x y, loud)
  | .le => (!un && !ltVals y x, loud)
  | .gt => (!un && ltVals y x, loud)
  | .ge => (!un && !ltVals x y, loud)
  | .un => (un, quiet)
  | .ord => (!un, quiet)

/-- FCLASS's mask (R204). -/
def fclassMask (t : Fmt) (a : Nat) : Nat :=
  let sub := decide (a % 2 ^ (t.e + t.f) < 2 ^ t.f)
  match t.decode a with
  | .inf n => if n then 1 else 128
  | .nan s => if s then 256 else 512
  | .fin n m _ =>
    if m = 0 then (if n then 8 else 16)
    else if sub then (if n then 4 else 32)
    else if n then 2 else 64

/-- FCVT's source format (R205). -/
def cvtFmt : CvtSrc → Fmt
  | .f16 => fp16 | .bf16 => bf16 | .f32 => fp32 | .f64 => fp64 | .e4m3 => e4m3 | .e5m2 => e5m2

/-- FCVT (R205). -/
def fcvt (src dst : Fmt) (rm : RM) (a : Nat) : FRes :=
  let x := src.decode (a % 2 ^ src.width)
  arith dst [x] false (roundVal dst rm x)

/-- A finite value rounded to an integer by R46, with whether it was inexact. -/
def roundInt (rm : RM) (neg : Bool) (m : Nat) (e : Int) : Int × Bool :=
  let (k, ix) := roundTo rm neg m e 0
  (if neg then -(k : Int) else (k : Int), ix)

/-- The limits of an integer type. -/
def intLimits : IntTy → Int × Int
  | .i32 => (-(2 ^ 31 : Nat), (2 ^ 31 : Nat) - 1)
  | .u32 => (0, (2 ^ 32 : Nat) - 1)
  | .i64 => (-(2 ^ 63 : Nat), (2 ^ 63 : Nat) - 1)
  | .u64 => (0, (2 ^ 64 : Nat) - 1)

/-- R49: rounding, saturating to the limits with NV, a NaN giving 0 with NV; NX when rounded but in range. -/
def toInt (lim : Int × Int) (rm : RM) (x : FVal) : Int × Exc :=
  match x with
  | .nan _ => (0, excNV)
  | .inf n => (if n then lim.1 else lim.2, excNV)
  | .fin n m e =>
    let (i, ix) := roundInt rm n m e
    if i < lim.1 then (lim.1, excNV)
    else if lim.2 < i then (lim.2, excNV)
    else (i, excIf ix excNX)

/-- The scalar type that FTOI and ITOF name (R205). -/
def tyOfInt : IntTy → Ty
  | .i32 => .i32 | .u32 => .u32 | .i64 => .i64 | .u64 => .u64

/-- ITOF (R205). -/
def itof (t : Fmt) (rm : RM) (i : Int) : FRes :=
  if i = 0 then (0, 0) else roundRes t rm (decide (i < 0)) i.natAbs 0

/-- FRINT (R205): `setNX` is FN 1. -/
def frint (t : Fmt) (rm : RM) (setNX : Bool) (a : Nat) : FRes :=
  let x := t.decode a
  arith t [x] false <|
    match x with
    | .fin n m e =>
      if m = 0 then (a, 0)
      else
        let (k, ix) := roundTo rm n m e 0
        ((roundRes t .rne n k 0).1, excIf (setNX && ix) excNX)
    | _ => (a, 0)

/-- FRCP (R206). -/
def frcp (t : Fmt) (rm : RM) (x : FVal) : FRes :=
  arith t [x] false <|
    match x with
    | .fin n m e =>
      if m = 0 then (t.signed n t.infBits, excDZ)
      else
        let (r, q) := divMag 1 0 m e (t.f + 4)
        roundRes t rm n r q
    | _ => zeroRes t x.neg

/-- 1/√(m × 2^e) with its sticky part: the floor of √(2^2k / m) at an even exponent. -/
def rsqMag (m : Nat) (e : Int) (k : Nat) : Nat × Int :=
  let odd := e % 2 ≠ 0
  let n := if odd then 2 * m else m
  let e2 := (if odd then e - 1 else e) / 2
  let s := k + Nat.log2 n
  let r := isqrt (2 ^ (2 * s) / n)
  jam r (-e2 - s) (decide (r * r * n ≠ 2 ^ (2 * s)))

/-- FRSQ (R206). -/
def frsq (t : Fmt) (rm : RM) (x : FVal) : FRes :=
  arith t [x] (x.neg && !x.isZero) <|
    match x with
    | .fin n m e =>
      if m = 0 then (t.signed n t.infBits, excDZ)
      else
        let (r, q) := rsqMag m e (t.f + 4)
        roundRes t rm false r q
    | _ => zeroRes t false

/-- One step of 2^f by repeated square roots: an enclosure [lo, hi] of the product so far and of the root 2^(2^-i), each
with `p` bits below the point. -/
def exp2Go (frac width p : Nat) : Nat → (Nat × Nat) → (Nat × Nat) → Nat × Nat
  | 0, _, acc => acc
  | n + 1, root, acc =>
    let lo := isqrt (root.1 * 2 ^ p)
    let hi := isqrt (root.2 * 2 ^ p) + 1
    let i := width - n
    let acc' := if frac.testBit (width - i) then (acc.1 * lo / 2 ^ p, acc.2 * hi / 2 ^ p + 1) else acc
    exp2Go frac width p n (lo, hi) acc'

/-- 2^(frac / 2^width), 0 < frac < 2^width, enclosed with `p` bits below the point. -/
def exp2Frac (frac width p : Nat) : Nat × Nat := exp2Go frac width p width (2 * 2 ^ p, 2 * 2 ^ p) (2 ^ p, 2 ^ p)

/-- The enclosure's leading bits: the kept prefix at `drop` bits above its last, when both ends agree on it. -/
def agreed (b : Nat × Nat) (drop : Nat) : Option Nat := if b.1 / 2 ^ drop = b.2 / 2 ^ drop then some (b.1 / 2 ^ drop) else none

/-- 2^x for a finite x = ±m × 2^e that is no integer, as a magnitude with a sticky low bit (log 24). -/
def exp2Mag (t : Fmt) (neg : Bool) (m : Nat) (e : Int) : Nat × Int :=
  let top : Int := (Nat.log2 m : Int) + e
  if top < -(t.f + 8 : Nat) then
    -- |x| is below every rounding step at 1: 2^x lies strictly beside 1
    if neg then jam (2 ^ (t.f + 8) - 1) (-(t.f + 8 : Nat)) true else jam (2 ^ (t.f + 8)) (-(t.f + 8 : Nat)) true
  else
    let w := (-e).toNat
    let i : Int := if neg then -((m / 2 ^ w : Nat) : Int) - 1 else ((m / 2 ^ w : Nat) : Int)
    let fr := if neg then 2 ^ w - m % 2 ^ w else m % 2 ^ w
    let p := 2 * t.f + 160
    let b := exp2Frac fr w p
    let d := t.f + 100
    match agreed b d with
    | some k => jam k (i + d - p) true
    | none => jam (b.1 / 2 ^ 20) (i + 20 - p) true

/-- FEXP2 (R206). -/
def fexp2 (t : Fmt) (rm : RM) (x : FVal) : FRes :=
  arith t [x] false <|
    match x with
    | .inf n => if n then zeroRes t false else infRes t false
    | .fin n m e =>
      if m = 0 then roundRes t rm false 1 0
      else if 2 ^ 14 ≤ m * 2 ^ e.toNat / 2 ^ (-e).toNat then
        -- |x| ≥ 2^14: beyond every format's range on either side
        if n then roundRes t rm false 1 (-(2 ^ 14 : Nat)) else roundRes t rm false 1 (2 ^ 14 : Nat)
      else if 0 ≤ e ∨ m % 2 ^ (-e).toNat = 0 then
        let i : Int := (m * 2 ^ e.toNat / 2 ^ (-e).toNat : Nat)
        roundRes t rm false 1 (if n then -i else i)
      else
        let (k, q) := exp2Mag t n m e
        roundRes t rm false k q
    | .nan _ => (t.nanBits, 0)

/-- Binary digits of log2 of an enclosed number in [1, 2), by repeated squaring with `p` bits below the point: the count of
digits found and their value; it stops where the enclosure straddles 2. -/
def log2Go (p : Nat) : Nat → (Nat × Nat) → Nat × Nat → Nat × Nat
  | 0, _, acc => acc
  | n + 1, b, acc =>
    let lo := b.1 * b.1 / 2 ^ p
    let hi := b.2 * b.2 / 2 ^ p + 1
    if 2 * 2 ^ p ≤ lo then log2Go p n (lo / 2, hi / 2 + 1) (acc.1 + 1, 2 * acc.2 + 1)
    else if hi < 2 * 2 ^ p then log2Go p n (lo, hi) (acc.1 + 1, 2 * acc.2)
    else acc

/-- FLOG2 (R206). -/
def flog2 (t : Fmt) (rm : RM) (x : FVal) : FRes :=
  arith t [x] (x.neg && !x.isZero) <|
    match x with
    | .fin _ m e =>
      if m = 0 then (t.signed true t.infBits, excDZ)
      else
        let l := Nat.log2 m
        let i : Int := (l : Int) + e
        if m = 2 ^ l then itof t rm i
        else
          let n := 3 * t.f + 96
          let p := 2 * n + 64
          let (c, d) := log2Go p n (m * 2 ^ p / 2 ^ l, m * 2 ^ p / 2 ^ l) (0, 0)
          let v : Int := i * (2 ^ c : Nat) + d
          if 0 ≤ v then
            let (k, q) := jam v.natAbs (-(c : Int)) true
            roundRes t rm false k q
          else
            let (k, q) := jam (v.natAbs - 1) (-(c : Int)) true
            roundRes t rm true k q
    | _ => infRes t false

end Sys2Proof.Machine
end

