-- ==== Sys2Proof/Machine/State.lean ====
section
/-! DEFINITION. Machine/State.lean: everything the spec gives the machine, as plain data, and its value after reset. -/

namespace Sys2Proof.Machine

/-- Why a run of the model stops with a fault.  None is raised for anything the spec gives an effect to. -/
inductive Fault where
  /-- Raised by an instruction's meaning when the step's latched firing names no resident slot of a running launch: a state
  no run reaches (the step latches a firing only from a resident slot).  Safe: the machine has no such step. -/
  | noFiring
  deriving DecidableEq, Repr

/-- Why the model gives an instruction no meaning. -/
inductive Refusal where
  /-- The instruction of this mnemonic is not modelled yet; raised by its arm of exec only.  Safe. -/
  | notModelled (mnemonic : String)
  deriving DecidableEq, Repr

/-- What a request does at its place (Tables 10.5 and 10.6). -/
inductive AccKind where
  | load | store | feclr | feset
  | amo (op : AmoOp)
  | upd (op : UpdOp)
  deriving DecidableEq, Repr

/-- A resolved G address: local HBM under a key, a peer address, or a host bus address (R217, R221). -/
inductive GTarget where
  | hbm (pa : Nat) (key : Nat)
  | peer (pod acc rpa : Nat)
  | host (bus : Nat) (key : Nat)
  deriving DecidableEq, Repr

/-- Where a memory request stands (R222 to R224). -/
inductive ReqAt where
  /-- at the bank, weight group or, for G, not yet translated -/
  | issued
  /-- translated: at its home slice or at the portal (R221) -/
  | placed (t : GTarget)
  /-- sent by the portal to the host or a peer -/
  | sent (t : GTarget) (r : Route)
  deriving DecidableEq, Repr

/-- A memory request in flight (R224): everything latched at issue.  `merged` are the UPDGs it carries beside its own
(R347). -/
structure Req where
  id : Nat
  firing : Firing
  kind : AccKind
  space : Space
  addr : Nat
  bytes : Nat
  range : Nat
  ty : Ty
  rel : Bool
  spc : Bool
  data : Word
  cmp : Word
  at_ : ReqAt
  merged : List (Nat × Firing)
  deriving DecidableEq, Repr

/-- The firings whose requests a request carries, its own first, with their numbers (R347). -/
def Req.parts (q : Req) : List (Nat × Firing) := (q.id, q.firing) :: q.merged

/-- Whether a request carries one of a launch. -/
def Req.ofLaunch (q : Req) (l : Nat) : Bool := q.parts.any fun o => decide (o.2.launch = l)

/-- A request without what it carries for a launch; none where nothing is left. -/
def Req.without (q : Req) (l : Nat) : Option Req :=
  match q.parts.filter fun o => decide (o.2.launch ≠ l) with
  | [] => none
  | o :: rest => some { q with id := o.1, firing := o.2, merged := rest }

/-- Knot requests (Table 16.2). -/
inductive KnotOp where
  | add (amount : Word) (data : Option Word)
  | wait (v : Word)
  | read
  | limit (v : Word)
  | arm (v : Word) (block : List Word)
  | alloc
  | free
  deriving DecidableEq, Repr

/-- A knot request in flight to its bank; a release add's sweep, in an A-cycle after that of the choice, captures the tracked writes
it waits for (R359). -/
structure KReq where
  id : Nat
  firing : Firing
  handle : Word
  op : KnotOp
  release : Bool
  captured : Option (List Nat)
  /-- the A-cycle in which it was issued -/
  cyc : Nat
  deriving DecidableEq, Repr

/-- A bank's trigger record (R342), or a fired packet waiting to be issued (R343). -/
structure Trigger where
  slot : Nat
  knot : Nat
  part : Nat
  packet : List Word
  queue : Word
  /-- the index claimed while it is being issued (R113) -/
  index : Option Nat
  /-- the launch of a pool knot's panel (R333) -/
  owner : Option Nat
  deriving DecidableEq, Repr

/-- A waiter-directory entry (R339): `sent` is the VALUE and DATA on their way to the cluster. -/
structure DirEntry where
  knot : Nat
  cl : Nat
  threshold : Nat
  sent : Option (Word × Word)
  deriving DecidableEq, Repr

/-- A cached translation (R219): the page's base and size in VA, and the leaf as it was read. -/
structure TEntry where
  part : Nat
  base : Nat
  size : Nat
  leaf : Nat
  deriving DecidableEq, Repr

/-- A transfer that an engine makes at the portal (R221, R224): its access, its target, how it was sent, and the answer, `none` in it
being an error. -/
structure PortalTx where
  id : Nat
  client : Client
  op : AccOp
  n : Nat
  target : GTarget
  route : Option Route
  answer : Option (Option Word)
  deriving DecidableEq, Repr

/-- A key id (R395): its owner, and its two 256-bit keys while loaded. -/
structure KeySlot where
  owner : Option Nat
  loaded : Bool
  k1 : BitVec 256
  k2 : BitVec 256
  deriving DecidableEq, Repr

/-- A key id of no partition. -/
def KeySlot.blank : KeySlot := ⟨none, false, 0, 0⟩

/-- A knot's owner (Table 16.1). -/
inductive KOwner where
  | free | pool | standing
  deriving DecidableEq, Repr

/-- A knot (Table 16.1); the trigger's packet and QUEUE stand for its record. -/
structure Knot where
  value : Word
  data : Word
  limit : Word
  tv : Word
  armed : Bool
  tslot : BitVec 8
  waiters : BitVec 16
  owner : KOwner
  opart : BitVec 6
  opanel : BitVec 10
  deriving DecidableEq, Repr

/-- A free knot (Table 16.1; log 9). -/
def Knot.blank : Knot := ⟨0, 0, 0, 0, false, 0, 0, .free, 0, 0⟩

/-- One arbiter (R186, R350): a request's arc and its firing. -/
structure Arbiter where
  holder : Option (Nat × Firing)
  fifo : List (Nat × Firing)
  /-- the A-cycle of the last release (R186) -/
  released : Nat
  deriving DecidableEq, Repr

/-- A clear arbiter. -/
def Arbiter.clear : Arbiter := ⟨none, [], 0⟩

/-- One cluster. -/
structure Cluster where
  owner : Option Nat
  mem : List Host.Cell
  empty : List (Nat × Bool)
  stations : List (Nat × Station)
  remnant : List RemEntry
  arrivals : List Arrival
  sendSeq : List (Nat × Nat)
  credits : List (Nat × Nat)
  expect : List (Nat × Nat)
  owed : List (Nat × Nat)
  /-- the N-cycle at which its router raised STARVE (R160) -/
  starve : Option Nat
  touched : BitVec 16
  exc : Exc
  arbs : List (Nat × Arbiter)
  tcache : List TEntry
  dir : List DirEntry
  triggers : List Trigger
  fired : List Trigger
  copy : CopyEng
  tensor : TensorUnit
  /-- the stages whose images the pattern store holds (R146), and its bytes -/
  store : List Nat
  storeMem : List Host.Cell
  /-- slot table of the memory port (R236) -/
  slots : List Nat
  /-- this N-cycle: whether its router has done its work, mesh deliveries made, and whether its downlink has delivered -/
  routed : Bool
  lanes : Nat
  down : Bool
  deriving DecidableEq, Repr

/-- A cluster as placement puts it (R131). -/
def Cluster.clear : Cluster :=
  ⟨none, [], [], [], [], [], [], [], [], [], none, 0, 0, [], [], [], [], [], CopyEng.blank, TensorUnit.blank, [], [],
    List.replicate 64 0, false, 0, false⟩

/-- The scheduler's or an engine's copy of a queue header (R111, R112). -/
structure QueueHdr where
  publish : Word
  read : Nat
  wdog : Nat
  anyorder : Bool
  qpri : Nat
  part : Nat
  log2 : Nat
  recbase : Nat
  /-- the publish knot's VALUE at the last reading: a later publication has it read again (R112) -/
  seen : Nat
  deriving DecidableEq, Repr

/-- A partition: its control block (Table 19.2) and what the device keeps beside it. -/
structure Partition where
  enable : Bool
  permissive : Bool
  keepovf : Bool
  debug : Bool
  allot : BitVec 512
  quota : BitVec 32
  wdogdef : BitVec 32
  tkey : BitVec 12
  troot : Word
  ovpool : Word
  ovlen : Word
  ovsize : Word
  svpool : Word
  svlen : Word
  mdring : Word
  wlerr : Bool
  knoterr : Bool
  trigerr : Bool
  invalBusy : Bool
  /-- the invalidation in progress: VA granule and size (R219) -/
  inval : Word
  rslaunch : Word
  rsword : Word
  ovrel : Word
  pkwin : Word
  dirty : Word
  dsnap : Word
  /-- words of the bitmap that the snapshot in progress has copied (R405) -/
  dsnapAt : Nat
  wladdr : Word
  /-- loads of weight images, each an image and the number of its load, of which a command was refused: no further one is issued (R215) -/
  wrefused : List (Nat × Nat)
  lq : List (Nat × Word)
  cq : List (Nat × Word)
  /-- headers of the enabled queues, as last read -/
  lqHdr : List (Nat × QueueHdr)
  cqHdr : List (Nat × QueueHdr)
  /-- the home die of each launch queue (R394) -/
  hdie : List (Nat × Nat)
  /-- the deduction carried into this quota window, and the use in it, both in cluster-N-cycles (R134) -/
  deduct : Nat
  used : Nat
  /-- cluster-N-cycles on each die not yet counted in meter 21 -/
  msDie : List (Nat × Nat)
  /-- areas carved from the overflow and save pools: base, length, QIDX, PKT -/
  ovAreas : List (Nat × Nat × Nat × Nat)
  svAreas : List (Nat × Nat × Nat × Nat)
  deltaN : Nat
  launchLog : BitVec 384
  blocked : Option Nat
  /-- a migration has frozen its panels: none is restored here (R406) -/
  migrating : Bool
  /-- it has been enabled: its meters count (R396) -/
  metered : Bool
  deriving DecidableEq, Repr

/-- A partition's control block at reset (log 6). -/
def Partition.blank : Partition :=
  ⟨false, false, false, false, 0, 0, 0, 0, 0, 0, 0, 0, 0, 0, 0, false, false, false, false, 0, 0, 0, 0, 0, 0, 0, 0, 0,
    [], [], [], [], [], [], 0, 0, [], [], [], 0, 0, none, false, false⟩

/-- A launch's state (Table 5.4, and R378 to R382). -/
inductive LState where
  | depending | placing | configuring | running | freezing | saved | restoring | retiring
  deriving DecidableEq, Repr

/-- A panel (R125 to R130). -/
structure Panel where
  dies : List Nat
  clusters : List (List Nat)
  seams : List (List (Nat × Nat))
  home : Nat
  compat : BitVec 32
  deriving DecidableEq, Repr

/-- No panel. -/
def Panel.blank : Panel := ⟨[], [], [], 0, 0⟩

/-- What a configuration in progress is for (R131, R143, R381). -/
inductive CfgWhy where
  | initial | switch (stage : Nat) | restore
  deriving DecidableEq, Repr

/-- A configuration in progress: clusters whose store is filled, and stations (cluster × 16 + station) loaded. -/
structure Cfg where
  why : CfgWhy
  filled : List Nat
  loaded : List Nat
  deriving DecidableEq, Repr

/-- A freeze in progress or complete (R378, R382). -/
structure Freeze where
  since : Nat
  watchdog : Bool
  deriving DecidableEq, Repr

/-- What a save area holds beside the launch's own record (R380): `fill` tells the free bytes of the area's remainder, and `tokens` are
those whose images stand in it (R9); the stepping, the partition and its loaded keys are those that the restore of a migrated launch needs
again, and `moved` is whether a migration brought it (R406). -/
structure Saved where
  stamp : BitVec 16
  clusters : List (Nat × Cluster)
  seams : List (Nat × SeamUnit)
  knots : List (Nat × Knot)
  base : Nat
  fill : Nat
  tokens : List Token
  moved : Bool
  stepping : Nat
  part : Nat
  keys : List (Nat × KeySlot)
  deriving DecidableEq, Repr

/-- A launch (R116 to R124) with its panel's own state. -/
structure Launch where
  part : Nat := 0
  qidx : Nat := 0
  pkt : Nat := 0
  packet : List Word := []
  /-- the place of its record (R120) -/
  recAddr : Nat := 0
  pat : Nat := 0
  st : LState := .depending
  /-- effective priority, and aged priority (R116, R133) -/
  prio : Nat := 0
  aged : Nat := 0
  /-- N-cycle of its entry into Placing, N-cycles waited in earlier stays, N-cycle at which this stay began, and N-cycle of its first
  becoming the blocked head in this stay (R133, R136) -/
  placingAt : Nat := 0
  waited : Nat := 0
  since : Nat := 0
  blockedAt : Option Nat := none
  /-- aged priority at its placement (R135) -/
  placedPrio : Nat := 0
  panel : Panel := Panel.blank
  stage : Nat := 0
  seeds : List Seed := []
  groups : List (Nat × Nat) := []
  /-- the seed list's groups in order of first appearance, those discarded whole, and the entry of each (R122, R123) -/
  seedOrder : List Nat := []
  badGroups : List Nat := []
  groupEntry : List (Nat × Nat) := []
  /-- one more than the A-cycle in which its injector last handled a seed (R123) -/
  seedAt : Nat := 0
  startA : Nat := 0
  /-- watchdog limit in µs, and N-cycles counted (R124, R382) -/
  wdog : Option Nat := none
  wdogUsed : Nat := 0
  wdogOn : Bool := false
  ovArea : Option Nat := none
  ovLen : Nat := 0
  /-- records written to the fault queue, and the next RECID less 1 -/
  wridx : Nat := 0
  preempts : Nat := 0
  leftover : Nat := 0
  /-- cluster-N-cycles that its panel has been held -/
  clusterTime : Nat := 0
  insts : List (Nat × Instance) := []
  gens : List Generator := []
  parked : List Parked := []
  /-- numbers of operations that a resume discarded (R368, R376) -/
  dropped : List Nat := []
  faults : List FaultRec := []
  ovf : List OvfRec := []
  doneTally : Nat := 0
  user : BitVec 16 := 0
  colours : List ColourUse := []
  ending : Option Ending := none
  /-- pool indices that a bind names, and those that KALLOC handed out (R344) -/
  poolTaken : List Nat := []
  poolOut : List Nat := []
  fab : StreamFab := StreamFab.blank
  cfg : Option Cfg := none
  freeze : Option Freeze := none
  saved : Option Saved := none
  hemSeq : BitVec 8 := 0
  hems : List Hem := []
  /-- 1 while the retirement hem passes, 2 after it (R388) -/
  retire : Nat := 0
  exc : Exc := 0
  mseq : Option Nat := none
  /-- its contribution to the meters (R390) -/
  delta : List (Nat × Word) := []
  deriving DecidableEq, Repr

/-- An empty launch record. -/
def Launch.blank : Launch := {}

/-- What the step must do before it chooses anything else (log 3). -/
inductive Act where
  | perform (f : Firing)
  | event (i : Instr)
  /-- the records of a launch's overflow area in the sweep of R13 -/
  | clampOvf (l : Nat)
  deriving DecidableEq, Repr

/-- A bridge-table entry (R404). -/
structure Bridge where
  valid : Bool
  acc : BitVec 10
  mask : BitVec 48
  deriving DecidableEq, Repr

/-- An invalid bridge. -/
def Bridge.none : Bridge := ⟨false, 0, 0⟩

/-- What the host or a peer does to device memory (R113, R363). -/
inductive HostOp where
  | read (n : Nat)
  | write (bytes : List Byte)
  | fetchAdd (n : Nat) (v : Word)
  deriving DecidableEq, Repr

/-- An input from outside: an event of the opcode table, a host or peer access to device memory in a partition's addresses, a read of
a control block, a knot-window access of any size (R346, R392), the freeze of a partition for a migration, and a saved launch that a
migration brings under a number, those of its operations lying below `next`, and the remainder of a copy packet that it brings (R406). -/
inductive Input where
  | event (i : Instr)
  | memory (part addr : Nat) (op : HostOp)
  | cbRead (writer : CbWriter) (part off size : Nat)
  | knotRead (part off size : Nat)
  | knotWrite (part off size : Nat) (v : Word)
  | migrate (part : Nat)
  | importLaunch (l next : Nat) (x : Launch)
  | importPacket (cl : Nat) (p : CopyPk)
  deriving DecidableEq, Repr

/-- The machine. -/
structure State where
  nCycle : Nat := 0
  stamp : BitVec 16 := 0
  /-- the refresh calendar, the same on every die (R213) -/
  calendar : Nat := 0
  stepping : Nat := 2
  bringUp : Nat := 0
  presented : Bool := false
  quotaWindow : Nat := 0
  powerCap : Nat := 2800
  dieReset : BitVec 4 := 0
  dieGated : BitVec 4 := 0
  /-- dies whose Ronob is restarting (R402) -/
  restarting : BitVec 4 := 0
  /-- Ronob firmware digest of each die, scheduler microcode digest, ROM version and fuses (R401) -/
  firmware : List (Nat × BitVec 384) := []
  microcode : BitVec 384 := 0
  romVersion : Word := 0
  fuses : Word := 0
  sensors : List (Nat × Word) := []
  lanes : List LinkUnit := []
  retraining : List Nat := []
  selfPod : BitVec 4 := 0
  selfAcc : BitVec 10 := 0
  bridges : List (Nat × Bridge) := []
  portMasks : List (Nat × BitVec 48) := []
  /-- slot tables of the home slices (R236) -/
  slotTables : List (Nat × List Nat) := []
  /-- host pages whose translation the portal caches, by die × 2^48 + bus page (R399) -/
  ats : List Nat := []
  spdm : List (Nat × Bool) := []
  ide : List (Nat × Bool) := []
  tdisp : List (Nat × Tdisp) := []
  /-- local HBM as stored: ciphertext where the key id is not 0 (R217, R220) -/
  hbm : List Host.Cell := []
  /-- the weight stores: die × 2^28 + OFFSET (R213) -/
  wstore : List Host.Cell := []
  /-- bytes of HBM (0 + address) marked by an uncorrectable soft error (R222) -/
  poison : List (Nat × Bool) := []
  parts : List (Nat × Partition) := []
  keys : List (Nat × KeySlot) := []
  /-- meters: (partition × 4 + die) × 32 + index (R396) -/
  meters : List (Nat × Word) := []
  clusters : List (Nat × Cluster) := []
  knots : List (Nat × Knot) := []
  /-- seam units by die × 4 + unit, unmask engines by die, and tokens that have reached them -/
  seams : List (Nat × SeamUnit) := []
  ums : List (Nat × UmEngine) := []
  dieArr : List (Nat × List Arrival) := []
  patterns : List (Nat × Pattern) := []
  /-- the GEN that a pattern index last had, plus 1 (R106) -/
  gens : List (Nat × Nat) := []
  launches : List (Nat × Launch) := []
  reqs : List Req := []
  kreqs : List KReq := []
  /-- engine transfers at the portals, and the UALink port of each issuer and destination: cluster × 1,024 + the accelerator
  addressed (R403) -/
  portal : List PortalTx := []
  ports : List (Nat × Nat) := []
  flits : List Flit := []
  /-- set within a step that reached a stack being retrained: the step waits (R408) -/
  heldHit : Bool := false
  cur : Firing := Firing.blank
  agenda : List Act := []
  inbox : List Input := []
  outbox : List (List Byte) := []
  freeCtr : Nat := 0
  serial : Nat := 0
  deriving DecidableEq, Repr

/-- The machine right after reset. -/
def State.reset : State := {}

end Sys2Proof.Machine
end

