-- ==== Sys2Proof/Machine/Ops.lean ====
section
/-! DEFINITION. Machine/Ops.lean: the named operations every meaning is written over: access to the parts of the state,
routes and emission (R29, R70, R168), parking and faults (R153, R371 to R376), effects held under a colour (R26), flags. -/

namespace Sys2Proof.Machine

/-! Parts of the state. -/

/-- A cluster by key: physical die × 128 + physical cluster. -/
def State.cluster (s : State) (k : Nat) : Cluster := getAt s.clusters k Cluster.clear
/-- Replaces a cluster. -/
def State.setCluster (s : State) (k : Nat) (c : Cluster) : State :=
  { s with clusters := setAt s.clusters k c Cluster.clear }
/-- Changes a cluster. -/
def State.onCluster (s : State) (k : Nat) (f : Cluster → Cluster) : State := s.setCluster k (f (s.cluster k))
/-- A station of a cluster. -/
def Cluster.station (c : Cluster) (n : Nat) : Station := getAt c.stations n Station.clear
/-- Changes a station of a cluster. -/
def Cluster.onStation (c : Cluster) (n : Nat) (f : Station → Station) : Cluster :=
  { c with stations := setAt c.stations n (f (c.station n)) Station.clear }
/-- A station. -/
def State.station (s : State) (k n : Nat) : Station := (s.cluster k).station n
/-- Changes a station. -/
def State.onStation (s : State) (k n : Nat) (f : Station → Station) : State :=
  s.onCluster k fun c => c.onStation n f
/-- A launch by serial. -/
def State.launch (s : State) (l : Nat) : Launch := (look s.launches l).getD Launch.blank
/-- Changes a launch that exists. -/
def State.onLaunch (s : State) (l : Nat) (f : Launch → Launch) : State :=
  match look s.launches l with
  | some x => { s with launches := put s.launches l (f x) }
  | none => s
/-- The next unique number, and the state after taking it. -/
def State.fresh (s : State) : Nat × State := (s.serial, { s with serial := s.serial + 1 })
/-- A free choice below `n` (log 3). -/
def State.choose (s : State) (n : Nat) : Nat × State :=
  (Config.freeChoice s.freeCtr % n, { s with freeCtr := s.freeCtr + 1 })
/-- A free 64-bit value (log 3). -/
def State.freeWord (s : State) : Word × State := (Config.freeWord s.freeCtr, { s with freeCtr := s.freeCtr + 1 })
/-- The A-cycle counter (R5, R385). -/
def State.aCycle (s : State) : Nat := s.nCycle / 2
/-- The pattern of a launch. -/
def State.pattern (s : State) (l : Nat) : Option Pattern := look s.patterns (s.launch l).pat
/-- An entry of a list, or nothing. -/
def nth {α : Type} : List α → Nat → Option α
  | [], _ => none
  | x :: _, 0 => some x
  | _ :: xs, n + 1 => nth xs n

/-- A partition. -/
def State.part (s : State) (p : Nat) : Partition := getAt s.parts p Partition.blank
/-- Changes a partition. -/
def State.onPart (s : State) (p : Nat) (f : Partition → Partition) : State :=
  { s with parts := setAt s.parts p (f (s.part p)) Partition.blank }
/-- Adds to a meter of a partition on a die (R396). -/
def State.meterPart (s : State) (p die i n : Nat) : State :=
  let k := (p * 4 + die) * 32 + i
  { s with meters := setAt s.meters k (getAt s.meters k 0 + BitVec.ofNat 64 n) 0 }
/-- Adds to a meter for a launch's work, and to the launch's contribution (R390, R396). -/
def State.meter (s : State) (l die i n : Nat) : State :=
  (s.meterPart (s.launch l).part die i n).onLaunch l fun x =>
    { x with delta := setAt x.delta i (getAt x.delta i 0 + BitVec.ofNat 64 n) 0 }

/-! The panel map (R126). -/

/-- The physical cluster that a panel-relative die and station name. -/
def Panel.cluster (p : Panel) (die : BitVec 2) (station : BitVec 11) : Option Nat :=
  match nth p.clusters die.toNat with
  | some cs => nth cs (station.toNat / 16)
  | none => none

/-- The panel-relative die and footprint index of a physical cluster. -/
def Panel.locate (p : Panel) (cl : Nat) : Nat × Nat :=
  match indexOf (fun cs => decide (cl ∈ cs)) p.clusters 0 with
  | some d => (d, ((nth p.clusters d).bind fun cs => indexOf (fun c => decide (c = cl)) cs 0).getD 0)
  | none => (0, 0)

/-- The footprint number of a physical cluster: row by row on one die, then die by die (R87). -/
def Panel.footprint (p : Panel) (cl : Nat) : Nat :=
  let (d, n) := p.locate cl
  d * ((nth p.clusters 0).map List.length).getD 0 + n

/-- Every cluster of a panel. -/
def Panel.all (p : Panel) : List Nat := p.clusters.flatten

/-- The panel-relative station number of a firing's slot (Table 3.2). -/
def State.stationOf (s : State) (f : Firing) : Nat := (((s.launch f.launch).panel).locate f.cl).2 * 16 + f.st

/-! Tokens as bits (Table 1.1). -/

/-- CLASS. -/
def TokClass.code : TokClass → BitVec 3
  | .value => 0 | .tile => 1 | .completion => 2 | .kill => 3 | .commit => 4 | .hem => 5 | .seed => 6 | .fault => 7

/-- A token's 128 bits, as every record of it holds them (R9). -/
def Token.bits (t : Token) : BitVec 128 :=
  t.age ++ t.cls.code ++ t.port ++ t.slot ++ t.station ++ t.phase ++ t.colour ++ t.tag.iter ++ t.tag.bobbin ++ t.tag.die ++ t.payload

/-! Routes (R70). -/

/-- One DEST field. -/
def destOf (d : Nat) : Dest :=
  let die := BitVec.ofNat 2 (d / 2 ^ 22)
  if d.testBit 21 then .engine die (BitVec.ofNat 5 (d / 2 ^ 16)) (BitVec.ofNat 8 (d / 2 ^ 8)) (BitVec.ofNat 8 d)
  else .slot die (BitVec.ofNat 11 (d / 2 ^ 10)) (BitVec.ofNat 8 (d / 4)) (BitVec.ofNat 2 d)

/-- The destinations of group o0 (false) or o1 (true), in order. -/
def routeGroup (route : BitVec 256) (o1 : Bool) : List Dest :=
  let g := route.toNat / 2 ^ (if o1 then 128 else 0) % 2 ^ 128
  (countFrom 0 (g / 2 ^ 96 % 8)).map fun i => destOf (g / 2 ^ (24 * i) % 2 ^ 24)

/-- What an emitted token carries. -/
structure Carry where
  cls : TokClass
  payload : Word
  phase : BitVec 4
  colour : BitVec 2
  bobbin : BitVec 10
  iter : BitVec 6
  deriving DecidableEq, Repr

/-- The token that goes to a destination (R70), stamped with its AGE (R12). -/
def Carry.token (k : Carry) (age : BitVec 16) : Dest → OutTok
  | .slot die st sl port => ⟨⟨age, k.cls, port, sl, st, k.phase, k.colour, ⟨die, k.bobbin, k.iter⟩, k.payload⟩, none⟩
  | .engine die eng inst ep => ⟨⟨age, k.cls, 0, 0, 0, k.phase, k.colour, ⟨die, k.bobbin, k.iter⟩, k.payload⟩, some (eng, inst, ep)⟩

/-- What a firing's own emissions carry (R25, R29). -/
def Firing.carry (f : Firing) (cls : TokClass) (payload : Word) : Carry :=
  ⟨cls, payload, f.phase, f.colour, f.tag.bobbin, f.tag.iter⟩

/-- Whether a destination lies in a stage that is not resident: it names an entry of another stage (R139). -/
def crossesStage (p : Pattern) (stage : Nat) : Dest → Bool
  | .slot die st sl _ => p.entries.any fun e =>
      decide (e.stage ≠ stage ∧ e.die = die.toNat ∧ e.station = st.toNat ∧ e.slot = sl.toNat)
  | .engine _ _ _ _ => false

/-- Places tokens in a station's output queue, in order (R150). -/
def State.enqueue (s : State) (cl st : Nat) (ts : List OutTok) : State :=
  s.onStation cl st fun x => { x with outq := x.outq ++ ts }

/-- Whether a token that a firing sends under a colour leaves its stage: it is then a held effect (R139). -/
def State.heldDest (s : State) (f : Firing) (colour : BitVec 2) (d : Dest) : Bool :=
  decide (colour ≠ 0) &&
    (match s.pattern f.launch with | some p => crossesStage p (s.launch f.launch).stage d | none => false)

/-- Holds tokens at a firing's slot, under the colour that they carry (R139). -/
def State.holdTokens (s : State) (f : Firing) (k : Carry) (ds : List Dest) : State :=
  let hs := ds.map fun d => (⟨s.serial, { f with colour := k.colour }, some (k.token s.stamp d)⟩ : HeldEffect)
  if hs = [] then s
  else { s.onStation f.cl f.st (fun x => { x with held := x.held ++ hs }) with serial := s.serial + 1 }

/-- A firing's emission on one group (R150): a coloured token along a stage crossing is held instead (R139). -/
def State.emitGroup (s : State) (f : Firing) (o1 : Bool) (k : Carry) : State :=
  let ds := routeGroup f.route o1
  let held := s.heldDest f k.colour
  (s.enqueue f.cl f.st ((ds.filter fun d => !held d).map (k.token s.stamp))).holdTokens f k (ds.filter held)

/-! Operands. -/

/-- The PAYLOAD on a port; a port that the slot does not read reads as 0. -/
def portWord : Option Held → Word
  | some h => h.tok.payload
  | none => 0

/-- The 64-bit value of an operand specifier (Table 3.2), `imm` being IMM24 under the instruction's TY. -/
def State.operand (s : State) (f : Firing) (port : Option Held) (imm : Word) : Spec → Word
  | .port => portWord port
  | .iter => f.tag.iter.setWidth 64
  | .bobbin => f.tag.bobbin.setWidth 64
  | .die => f.tag.die.setWidth 64
  | .station => BitVec.ofNat 64 (s.stationOf f)
  | .zero => 0
  | .ones => BitVec.allOnes 64
  | .imm => imm
  | .phase => f.phase.setWidth 64
  | .const n => getAt f.consts n.val 0

/-- The firing's operand tokens. -/
def Firing.held (f : Firing) : List Held := [f.a, f.b, f.c, f.p].filterMap id

/-- The colours of a firing's operands (R25). -/
def Firing.colours (f : Firing) : List (BitVec 2) := (f.held.map fun h => h.tok.colour).filter fun c => decide (c ≠ 0)

/-- The colour a firing takes (R25): the one non-zero colour, or 0. -/
def Firing.colourOf (f : Firing) : BitVec 2 :=
  match f.colours with
  | [] => 0
  | c :: _ => c

/-- Whether the operands carry two different non-zero colours (R25). -/
def Firing.mixes (f : Firing) : Bool := f.colours.any fun c => decide (c ≠ f.colourOf)

/-- Whether the predicate lets the firing proceed (R63). -/
def Firing.passes (f : Firing) (pm : Pred) : Bool :=
  match pm with
  | .always => true
  | .ifTrue => decide (portWord f.p ≠ 0)
  | .ifFalse => decide (portWord f.p = 0)
  | .steer => true

/-- The group that a value described as emitted on o0 goes to (R63, PM 3). -/
def Firing.group0 (f : Firing) (pm : Pred) : Bool :=
  match pm with
  | .steer => decide (portWord f.p = 0)
  | _ => false

/-- Emits on o0, or under PM 3 on the group that p selects. -/
def State.emit0 (s : State) (f : Firing) (pm : Pred) (cls : TokClass) (v : Word) : State :=
  s.emitGroup f (f.group0 pm) (f.carry cls v)

/-- Emits on o1. -/
def State.emit1 (s : State) (f : Firing) (cls : TokClass) (v : Word) : State := s.emitGroup f true (f.carry cls v)

/-! Replies (R163, R224): they do not pass an output queue, and are delivered in any order. -/

/-- Puts a token at its cluster, ready to be looked up. -/
def State.arrive (s : State) (cl : Nat) (a : Arrival) : State :=
  s.onCluster cl fun c => { c with arrivals := c.arrivals ++ [a] }

/-- Puts a token at a die's seam units and unmask engine. -/
def State.arriveDie (s : State) (die : Nat) (a : Arrival) : State :=
  { s with dieArr := setAt s.dieArr die (getAt s.dieArr die [] ++ [a]) [] }

/-- Delivers one token straight to where it goes: its station's cluster, an engine of the cluster, or a die's engines; tokens of
one source keep their order. -/
def State.deliverFrom (s : State) (src : Option Nat) (l cl : Nat) (t : OutTok) : State :=
  let p := (s.launch l).panel
  match t.eng with
  | none => match p.cluster t.tok.tag.die t.tok.station with
    | some k => s.arrive k ⟨l, t, src, s.nCycle, 4⟩
    | none => s
  | some (eng, _, _) =>
    if eng.toNat < 3 then s.arrive cl ⟨l, t, src, s.nCycle, 4⟩
    else match nth p.dies t.tok.tag.die.toNat with
      | some d => s.arriveDie d ⟨l, t, src, s.nCycle, 4⟩
      | none => s

/-- Delivers a reply: replies keep no order (R163). -/
def State.deliverReply (s : State) (l cl : Nat) (t : OutTok) : State := s.deliverFrom none l cl t

/-- A reply on one group of a firing's route: as with an emission, a coloured one along a stage crossing is held (R139). -/
def State.replyGroup (s : State) (f : Firing) (o1 : Bool) (k : Carry) : State :=
  let ds := routeGroup f.route o1
  let held := s.heldDest f k.colour
  ((ds.filter fun d => !held d).foldl (fun s d => s.deliverReply f.launch f.cl (k.token s.stamp d)) s).holdTokens f k (ds.filter held)

/-- A reply on o0. -/
def State.reply0 (s : State) (f : Firing) (cls : TokClass) (v : Word) : State := s.replyGroup f false (f.carry cls v)
/-- A reply on o1. -/
def State.reply1 (s : State) (f : Firing) (cls : TokClass) (v : Word) : State := s.replyGroup f true (f.carry cls v)

/-! Parking and faults. -/

/-- Parks a firing with its operands (R153); an operation that is parked again keeps its number. -/
def State.park (s : State) (f : Firing) (why : ParkWhy) : State :=
  let id := f.opId.getD s.serial
  { s.onLaunch f.launch (fun l => { l with parked := l.parked ++ [⟨id, { f with opId := some id }, why, s.aCycle⟩] }) with
    serial := s.serial + 1 }

/-- Removes a parked operation. -/
def State.unpark (s : State) (l id : Nat) : State :=
  s.onLaunch l fun x => { x with parked := x.parked.filter fun p => decide (p.id ≠ id) }

/-- Parked operations are to be performed again, in the order in which they parked (R211, R376): each as soon as its station can. -/
def State.resumeParked (s : State) (l : Nat) (ps : List Parked) : State :=
  let ids := ps.map fun p => p.id
  let up := fun (p : Parked) => { p with firing := { p.firing with retry := true }, why := .again }
  s.onLaunch l fun x => { x with parked := x.parked.map fun p => if p.id ∈ ids then up p else p }

/-- The source fields of a firing's fault (Table 18.2). -/
def State.srcOf (s : State) (f : Firing) : FaultSrc :=
  ⟨0, f.tag.die.toNat, s.stationOf f, f.slot, f.phase, (s.launch f.launch).stage, some f.tag, 0, 0, 0, 0⟩

/-- Whether a kind parks when a station's firing raises it (Table 18.1). -/
def FaultKind.code : FaultKind → Nat
  | .translate => 1 | .protect => 2 | .key => 3 | .knotLimit => 4 | .knotHandle => 5 | .seamOrder => 6
  | .streamProtocol => 7 | .align => 8 | .tension => 9 | .specMix => 10 | .trap => 11 | .poison => 12
  | .weightWindow => 13 | .watchdog => 14

/-- A new fault of a launch: its record waits to be written (R372). -/
def State.newFault (s : State) (l : Nat) (kind : FaultKind) (detail addr : Word) (src : FaultSrc) (deferFlag : Bool)
    (parked : Nat) (st : RecState) : State :=
  { s.onLaunch l (fun x => { x with faults := x.faults ++
      [⟨s.serial, 0, kind, detail, addr, src, deferFlag, parked, st, 0, 0, none, 0, []⟩] }) with serial := s.serial + 1 }

/-- An unresumed TRANSLATE record of the same 64 KiB granule (R222, R373). -/
def Launch.granuleFault (x : Launch) (addr : Word) : Option FaultRec :=
  x.faults.find? fun r => decide (r.kind = .translate ∧ r.state = .parked ∧ r.pending = none ∧
    r.addr.toNat / 2 ^ 16 = addr.toNat / 2 ^ 16)

/-- Counts what parks at a fault in its record (R373). -/
def State.cover (s : State) (l id n : Nat) (w : Parker) : State :=
  s.onLaunch l fun x => { x with faults := x.faults.map fun q =>
    if q.id = id then { q with parked := q.parked + n, order := q.order ++ [w] } else q }

/-- fault(): the firing parks with its operands, and a record is made or, for TRANSLATE, counted in (R371, R373). -/
def State.faultFiring (s : State) (f : Firing) (kind : FaultKind) (detail addr : Word) : State :=
  match (if kind = .translate then (s.launch f.launch).granuleFault addr else none) with
  | some r => (s.cover f.launch r.id 1 (.op (f.opId.getD s.serial))).park f (.fault r.id)
  | none =>
    ((s.newFault f.launch kind detail addr (s.srcOf f) f.atCommit 1 .parked).cover f.launch s.serial 0
      (.op (f.opId.getD (s.serial + 1)))).park f (.fault s.serial)

/-- A TRAP with a detail code (R171). -/
def State.trap (s : State) (f : Firing) (code : Nat) : State := s.faultFiring f .trap (BitVec.ofNat 64 code) 0

/-! Effects under a colour. -/

/-- Holds a whole firing at its slot, in issue order (R26). -/
def State.hold (s : State) (f : Firing) : State :=
  { s.onStation f.cl f.st (fun x => { x with held := x.held ++ [⟨s.serial, f, none⟩] }) with serial := s.serial + 1 }

/-- Raises exception flags: at once under colour 0, held otherwise (R50, R51). -/
def State.raise (s : State) (f : Firing) (e : Exc) : State :=
  if e = 0 then s
  else if f.colour = 0 then s.onCluster f.cl fun c => { c with exc := c.exc ||| e }
  else s.onStation f.cl f.st fun x => { x with heldFlags := x.heldFlags ++ [⟨f.slot, f.tag, f.colour, e⟩] }

/-! One firing. -/

/-- What every instruction does first: the colour rule (R25), then the predicate (R63); a false predicate consumes the
operands and does nothing else. -/
def State.fire (s : State) (pm : Pred) (body : State → Firing → State) : Host.Outcome State Fault Refusal :=
  let f := s.cur
  match look s.launches f.launch with
  | none => .fault .noFiring
  | some _ =>
    if f.mixes then .next (s.faultFiring f .specMix 0 0)
    else if f.passes pm then .next (body s f)
    else .next s

/-- As `fire`, for an effect that a colour holds whole (R26, R170, R337). -/
def State.fireHeld (s : State) (pm : Pred) (body : State → Firing → State) : Host.Outcome State Fault Refusal :=
  s.fire pm fun s f => if f.colour ≠ 0 then s.hold f else body s f

/-- The class of a token that carries a port operand's value unchanged (R168). -/
def passClass (sp : Spec) (port : Option Held) : TokClass :=
  match sp, port with
  | .port, some h =>
    match h.tok.cls with
    | .tile => .tile
    | .completion => .completion
    | _ => .value
  | _, _ => .value

end Sys2Proof.Machine
end

