-- ==== Sys2Proof/Machine/Operands.lean ====
section
/-! DEFINITION. Machine/Operands.lean: the operand forms of every format (spec 03: Tables 3.1 to 3.4, R60, R64 to R69). -/

namespace Sys2Proof.Machine

/-- SA's value of a format A slot. -/
def State.opA (s : State) (f : Firing) (x : FormA) : Word := s.operand f f.a (immOf x.ty x.imm) x.sa
/-- SB's value of a format A slot. -/
def State.opB (s : State) (f : Firing) (x : FormA) : Word := s.operand f f.b (immOf x.ty x.imm) x.sb
/-- SC's value of a format A slot. -/
def State.opC (s : State) (f : Firing) (x : FormA) : Word := s.operand f f.c (immOf x.ty x.imm) x.sc
/-- SA's value of a format X slot. -/
def State.opXA (s : State) (f : Firing) (x : FormX) : Word := s.operand f f.a 0 x.sa
/-- SB's value of a format X slot. -/
def State.opXB (s : State) (f : Firing) (x : FormX) : Word := s.operand f f.b 0 x.sb
/-- SC's value of a format X slot. -/
def State.opXC (s : State) (f : Firing) (x : FormX) : Word := s.operand f f.c 0 x.sc
/-- SA's value of a format M slot: the address (R228). -/
def State.opMA (s : State) (f : Firing) (x : FormM) : Word := s.operand f f.a 0 x.sa
/-- SB's value of a format M slot: the data. -/
def State.opMB (s : State) (f : Firing) (x : FormM) : Word := s.operand f f.b 0 x.sb
/-- CMP's value of an AMOL or AMOG slot (R226). -/
def State.opMC (s : State) (f : Firing) (cmp : Spec) : Word := s.operand f f.c 0 cmp
/-- SA's value of a format K slot (R335: TY 3). -/
def State.opKA (s : State) (f : Firing) (x : FormK) : Word := s.operand f f.a (immOf .u64 x.imm) x.sa
/-- SB's value of a format K slot. -/
def State.opKB (s : State) (f : Firing) (x : FormK) : Word := s.operand f f.b (immOf .u64 x.imm) x.sb
/-- SC's value of a format K slot. -/
def State.opKC (s : State) (f : Firing) (x : FormK) : Word := s.operand f f.c (immOf .u64 x.imm) x.sc
/-- SA's value of a format E slot. -/
def State.opEA (s : State) (f : Firing) (x : FormE) : Word := s.operand f f.a 0 x.sa
/-- SB's value of a format E slot. -/
def State.opEB (s : State) (f : Firing) (x : FormE) : Word := s.operand f f.b 0 x.sb
/-- The completion knot of a format E slot: the register that KC names (R68). -/
def Firing.knotOf (f : Firing) (x : FormE) : Word := getAt f.consts x.kc.val 0
/-- The completion knot add of a format E slot: SC modulo 2^32 when KV is 1, else 1 (R68). -/
def State.addOf (s : State) (f : Firing) (x : FormE) : Nat :=
  if x.kv then (s.operand f f.c 0 x.sc).toNat % 2 ^ 32 else 1
/-- SA's value of a format T slot. -/
def State.opTA (s : State) (f : Firing) (x : FormT) : Word := s.operand f f.a 0 x.sa
/-- SB's value of a format T slot. -/
def State.opTB (s : State) (f : Firing) (x : FormT) : Word := s.operand f f.b 0 x.sb

/-- "No knot" (R110). -/
def noKnot : Word := 0x8000000000000000

/-- A handle that the bit check refuses: not "no knot", and a bit above 26 set (R68, R244, R310). -/
def badHandle (h : Word) : Bool := decide (h ≠ noKnot) && decide (2 ^ 27 ≤ h.toNat)

end Sys2Proof.Machine
end

