-- ==== Sys2Proof/Machine/Global.lean ====
section
/-! DEFINITION. Machine/Global.lean: the places of memory (R207 to R221): local HBM under its keys, page tables and their
walk, cluster memory, the weight store, what passes through the portal, and the dirty bitmap (R405). -/

namespace Sys2Proof.Machine

/-! Address forms (R207). -/

/-- Whether the bytes of an access are named by its space's address form: the bits beyond it are zero (R207). -/
def Space.addrOk (sp : Space) (a n : Nat) : Bool :=
  match sp with
  | .l => decide (a + n ≤ 2 ^ 20)
  | .n => decide (a + n ≤ 2 ^ 29)
  | .w => decide (a + n ≤ 2 ^ 30)
  | .g => decide (a + n ≤ 2 ^ 57)

/-! Local HBM (R217, R220). -/

/-- Bytes of local HBM: 576 GiB. -/
def hbmSize : Nat := 576 * 2 ^ 30
/-- The die whose stacks hold a physical address. -/
def dieOf (pa : Nat) : Nat := pa / (144 * 2 ^ 30)
/-- The stack, of twelve, that holds a physical address (R408): three per die. -/
def stackOf (pa : Nat) : Nat := pa / (48 * 2 ^ 30)

/-- Whether the home slices of the stack that holds an address hold requests: it is being retrained (R408), or its die is held in reset
(R410). -/
def State.stackHeld (s : State) (pa : Nat) : Bool :=
  s.retraining.any (fun k => decide (k = stackOf pa)) || s.dieReset.getLsbD (dieOf pa)

/-- A step reaches a physical address: it waits if the home slices there hold requests (R408, R410). -/
def State.touchPa (s : State) (pa : Nat) : State := if s.stackHeld pa then { s with heldHit := true } else s

/-- One 64-byte data unit as plaintext. -/
def State.unitPlain (s : State) (key unit : Nat) : List Nat :=
  let raw := (readBytes s.hbm (unit * 64) 64).map BitVec.toNat
  if key = 0 then raw
  else
    let k := getAt s.keys key KeySlot.blank
    xtsUnit true k.k1.toNat k.k2.toNat unit raw

/-- Plaintext bytes of local HBM under a key id. -/
def State.hbmRead (s : State) (key pa n : Nat) : List Byte :=
  if key = 0 then readBytes s.hbm pa n
  else
    let u := pa / 64
    let units := countFrom u ((pa + n + 63) / 64 - u)
    (((units.flatMap (s.unitPlain key)).drop (pa % 64)).take n).map (BitVec.ofNat 8)

/-- Replaces bytes of a list from a position. -/
def splice {α : Type} (xs : List α) (i : Nat) (ys : List α) : List α := xs.take i ++ ys ++ xs.drop (i + ys.length)

/-- Writes one data unit, encrypted. -/
def State.unitWrite (s : State) (key unit : Nat) (plain : List Nat) : State :=
  let k := getAt s.keys key KeySlot.blank
  { s with hbm := writeBytes s.hbm (unit * 64) ((xtsUnit false k.k1.toNat k.k2.toNat unit plain).map (BitVec.ofNat 8)) }

/-- Writes plaintext bytes to local HBM under a key id: a read-modify-write of each data unit (R220, R354). -/
def State.hbmPut (s : State) (key pa : Nat) (bs : List Byte) : State :=
  if key = 0 then { s with hbm := writeBytes s.hbm pa bs }
  else
    let u := pa / 64
    let units := countFrom u ((pa + bs.length + 63) / 64 - u)
    let plain := splice (units.flatMap (s.unitPlain key)) (pa % 64) (bs.map BitVec.toNat)
    (units.foldl (fun (acc : State × List Nat) unit => (acc.1.unitWrite key unit (acc.2.take 64), acc.2.drop 64)) (s, plain)).1

/-- Marks the bytes of a span as sound again: they have been written (log 30). -/
def State.heal (s : State) (a n : Nat) : State :=
  { s with poison := (countFrom a n).foldl (fun m i => setAt m i false false) s.poison }

/-- Whether a byte of a span is marked by an uncorrectable soft error (R222, check 6). -/
def State.poisoned (s : State) (a n : Nat) : Bool := (countFrom a n).any fun i => getAt s.poison i false

/-- Soft-error marks are kept by one number space: HBM at its address, cluster memory and the weight store above. -/
def clusterMark (cl off : Nat) : Nat := 2 ^ 60 + cl * 2 ^ 20 + off
/-- The mark of a weight-store byte. -/
def weightMark (a : Nat) : Nat := 2 ^ 61 + a

/-! The dirty bitmap (R405). -/

/-- Sets the dirty bit of a physical page for a write of a partition: the bitmap's base is a physical address (log 31). -/
def State.setDirty (s : State) (part pa : Nat) : State :=
  let d := (s.part part).dirty
  if d.getLsbD 0 then
    let a := d.toNat / 2 * 2 + pa / 2 ^ 16 / 8
    let b := getAt s.hbm a 0
    { s with hbm := setAt s.hbm a (b ||| BitVec.ofNat 8 (2 ^ (pa / 2 ^ 16 % 8))) 0 }
  else s

/-- A write of a partition to local HBM at its home slice. -/
def State.hbmWrite (s : State) (part key pa : Nat) (bs : List Byte) : State :=
  ((s.hbmPut key pa bs).heal pa bs.length).setDirty part pa

/-! Meters of an access (R396). -/

/-- Adds to a meter for a client's work. -/
def State.meterOf (s : State) (c : Client) (die i n : Nat) : State :=
  if !c.counts then s
  else
    match c.launch with
    | some l => s.meter l die i n
    | none => s.meterPart c.part die i n

/-- UCIe edges between two dies (R164): diagonal dies are two apart. -/
def edges (a b : Nat) : Nat := if a = b then 0 else if a + b = 3 then 2 else 1

/-- Counts the bytes of a memory transfer between two dies (meter 11; log 32). -/
def State.crossing (s : State) (c : Client) (frm to_ n : Nat) : State :=
  if frm = to_ then s else s.meterOf c frm 11 (n * edges frm to_)

/-! Page tables (R216 to R218). -/

/-- Whether a partition may use a key id: 0, or loaded and its own (R222 check 5, R395). -/
def State.keyOk (s : State) (part key : Nat) : Bool :=
  decide (key = 0) || (let k := getAt s.keys key KeySlot.blank; k.loaded && decide (k.owner = some part))

/-- How a walk ends: a leaf (its entry's address, its word, the page's base and size), a bad entry, or a table key that the
partition may not use. -/
inductive Walk where
  | leaf (entry word base size : Nat)
  | bad
  | badKey (key : Nat)
  deriving DecidableEq, Repr

/-- One field of a table entry. -/
def bitsOf (w lo n : Nat) : Nat := w / 2 ^ lo % 2 ^ n

/-- Whether a table entry is valid and its reserved bits are zero. -/
def entryOk (w : Nat) : Bool := w.testBit 0 && decide (bitsOf w 10 6 = 0)

/-- Whether a non-leaf entry is well formed; a level-3 table is 128 KiB aligned. -/
def nonLeafOk (w align : Nat) : Bool :=
  entryOk w && !w.testBit 4 && !w.testBit 5 && decide (bitsOf w 8 2 = 0) && decide (bitsOf w 52 12 = 0) &&
    decide (bitsOf w 16 36 * 2 ^ 16 % align = 0) && decide (bitsOf w 16 36 * 2 ^ 16 + align ≤ hbmSize)

/-- Whether a leaf of a page size is well formed (R217): `low` address bits, 16 up, must be zero. -/
def leafOk (w size : Nat) : Bool :=
  entryOk w && w.testBit 4 && decide (bitsOf w 8 2 ≠ 3) && decide (bitsOf w 16 36 * 2 ^ 16 % size = 0) &&
    (decide (bitsOf w 8 2 ≠ 0) || decide (bitsOf w 16 36 * 2 ^ 16 + size ≤ hbmSize))

/-- A table entry, read under the table key. -/
def State.tableEntry (s : State) (key pa : Nat) : Nat := leNat (s.hbmRead key pa 8)

/-- The address of the level-3 entry used for a VA: one of a 2 MiB group's 32 where they differ (R217). -/
def State.groupEntry (s : State) (key table va : Nat) : Nat × State :=
  let own := table + bitsOf va 16 14 * 8
  let e := s.tableEntry key own
  if e.testBit 5 then
    let first := table + bitsOf va 16 14 / 32 * 32 * 8
    let strip := fun w => w - bitsOf w 6 2 * 64
    if (countFrom 0 32).all fun i => decide (strip (s.tableEntry key (first + 8 * i)) = strip e) then (own, s)
    else
      let (k, s1) := s.choose 32
      (first + 8 * k, s1)
  else (own, s)

/-- The walk of a VA under a partition's tables. -/
def State.walk (s : State) (part va : Nat) : Walk × State :=
  let p := s.part part
  let key := p.tkey.toNat
  let root := bitsOf p.troot.toNat 17 35 * 2 ^ 17
  if !s.keyOk part key then (.badKey key, s)
  else if hbmSize ≤ root then (.bad, s)
  else
    let s := s.touchPa root
    let e1 := s.tableEntry key (root + bitsOf va 43 14 * 8)
    if !nonLeafOk e1 (2 ^ 16) then (.bad, s)
    else
      let a2 := bitsOf e1 16 36 * 2 ^ 16 + bitsOf va 30 13 * 8
      let s := s.touchPa a2
      let e2 := s.tableEntry key a2
      if e2.testBit 4 then
        if leafOk e2 (2 ^ 30) && !e2.testBit 5 then (.leaf a2 e2 (va / 2 ^ 30 * 2 ^ 30) (2 ^ 30), s) else (.bad, s)
      else if !nonLeafOk e2 (2 ^ 17) then (.bad, s)
      else
        let (a3, s1) := (s.touchPa (bitsOf e2 16 36 * 2 ^ 16)).groupEntry key (bitsOf e2 16 36 * 2 ^ 16) va
        let e3 := s1.tableEntry key a3
        let size := if e3.testBit 5 then 2 ^ 21 else 2 ^ 16
        if leafOk e3 size then (.leaf a3 e3 (va / size * size) size, s1) else (.bad, s1)

/-- What a leaf names for a VA of its page (R217). -/
def leafTarget (w base va : Nat) : GTarget :=
  let off := va - base
  match bitsOf w 8 2 with
  | 1 => .peer (bitsOf w 60 4) (bitsOf w 50 10) (bitsOf w 16 34 * 2 ^ 16 + off)
  | 2 => .host (bitsOf w 16 36 * 2 ^ 16 + off) (bitsOf w 52 12)
  | _ => .hbm (bitsOf w 16 36 * 2 ^ 16 + off) (bitsOf w 52 12)

/-- What an access needs of the leaf (R222, check 4). -/
structure Need where
  r : Bool
  w : Bool
  x : Bool
  tgt : Nat
  deriving DecidableEq, Repr

/-- Checks 4 and 5 of Table 10.4 on a leaf, and the bridge of a peer in another pod (R404). -/
def State.checkLeaf (s : State) (part w : Nat) (need : Need) : Option (FaultKind × Word) :=
  let tgt := bitsOf w 8 2
  let key := bitsOf w 52 12
  if (need.r && !w.testBit 1) || (need.w && !w.testBit 2) || (need.x && !w.testBit 3) ||
      (decide (need.tgt ≠ 3) && decide (tgt ≠ need.tgt)) then some (.protect, 0)
  else if tgt = 1 then
    let pod := bitsOf w 60 4
    if decide (pod ≠ s.selfPod.toNat) && !(getAt s.bridges pod Bridge.none).valid then some (.protect, 0) else none
  else if (tgt = 2 ∧ key ≠ 0) ∨ !s.keyOk part key then some (.key, BitVec.ofNat 64 key)
  else none

/-- The walker sets A, and D for a write, in the leaf it used (R218). -/
def State.touchLeaf (s : State) (part entry : Nat) (write : Bool) : State :=
  let key := (s.part part).tkey.toNat
  let e := s.tableEntry key entry
  let e := Nat.lor e (if write then 192 else 64)
  s.hbmPut key entry (leBytes 8 e)

/-- A translated access, or its fault. -/
abbrev Xlate := Except (FaultKind × Word) GTarget

/-- Translates a VA by a walk, with checks 3 to 5 and the A and D bits. -/
def State.translate (s : State) (part va : Nat) (need : Need) : Xlate × State :=
  match s.walk part va with
  | (.bad, s1) => (.error (.translate, 0), s1)
  | (.badKey k, s1) => (.error (.key, BitVec.ofNat 64 k), s1)
  | (.leaf entry w base _, s1) =>
    match s1.checkLeaf part w need with
    | some e => (.error e, s1)
    | none => (.ok (leafTarget w base va), s1.touchLeaf part entry need.w)

/-! Synchronous global accesses: what an engine or the scheduler reads and writes, within one page. -/

/-- A byte that the host or a peer answers (log 12). -/
def State.outside (s : State) : Nat → List Byte × State
  | 0 => ([], s)
  | n + 1 =>
    let b := Config.outsideByte s.freeCtr
    let (bs, s1) := State.outside { s with freeCtr := s.freeCtr + 1 } n
    (b :: bs, s1)

/-- What leaves the package, in order. -/
def State.sendOut (s : State) (m : List Byte) : State := { s with outbox := s.outbox ++ [m] }

/-- The port of a route that stands for the die's PCIe port; UALink ports are 0 to 47. -/
def pciePort : Nat := 48

/-- The UALink port of an issuer and a destination: one and the same while the destination's mask holds it, any of the mask at first
(R403; log 149). -/
def State.portTo (s : State) (cl acc : Nat) (mask : BitVec 48) : Nat × State :=
  let ps := (countFrom 0 48).filter fun p => decide (mask = 0) || mask.getLsbD p
  match (look s.ports (cl * 1024 + acc)).filter fun p => decide (p ∈ ps) with
  | some p => (p, s)
  | none =>
    let (k, s1) := s.choose ps.length
    let p := (nth ps k).getD 0
    (p, { s1 with ports := put s1.ports (cl * 1024 + acc) p })

/-- The way to a target from a cluster (R398, R403, R404); none where it leads through a bridge entry that is not valid. -/
def State.routeTo (s : State) (cl : Nat) (t : GTarget) (tag : Option Nat) : Option (Route × State) :=
  match t with
  | .peer pod acc _ =>
    if pod = s.selfPod.toNat then
      let (p, s1) := s.portTo cl acc (getAt s.portMasks acc 0)
      some (⟨p, acc, none, tag⟩, s1)
    else
      let b := getAt s.bridges pod Bridge.none
      if b.valid then
        let (p, s1) := s.portTo cl b.acc.toNat b.mask
        some (⟨p, b.acc.toNat, some (pod + acc * 16), tag⟩, s1)
      else none
  | _ => some (⟨pciePort, 0, none, tag⟩, s)

/-- The address that a request to a target carries. -/
def GTarget.addr : GTarget → Nat
  | .hbm pa _ => pa
  | .peer _ _ rpa => rpa
  | .host bus _ => bus

/-- A request as it leaves a portal: its operation, its way, its address, its width and its operands (R349, R404; log 149). -/
def portalMsg (r : Route) (code : Nat) (t : GTarget) (n : Nat) (bs : List Byte) : List Byte :=
  leBytes 1 code ++ leBytes 1 r.port ++ leBytes 2 r.acc ++ leBytes 2 (r.ext.getD 0xFFFF) ++ leBytes 8 t.addr ++ leBytes 4 n ++ bs

/-- The operation codes of a read and a write. -/
def codeRead : Nat := 0
/-- The code of a write. -/
def codeWrite : Nat := 1

/-- Counts the payload of a portal transfer of a client, sent and received: PCIe bytes together (R396). -/
def State.portalBytes (s : State) (c : Client) (t : GTarget) (sent got : Nat) : State :=
  let d := c.cl / 128
  match t with
  | .host _ _ => s.meterOf c d 14 (sent + got)
  | _ => (s.meterOf c d 12 sent).meterOf c d 13 got

/-- Reads bytes at a resolved target; POISON when a byte is marked (check 6). -/
def State.readTarget (s : State) (c : Client) (t : GTarget) (n : Nat) : Except (FaultKind × Word) (List Byte) × State :=
  match t with
  | .hbm pa key =>
    let s := s.touchPa pa
    if s.poisoned pa n then (.error (.poison, 0), s)
    else (.ok (s.hbmRead key pa n), (s.meterOf c (dieOf pa) 7 n).crossing c (dieOf pa) (c.cl / 128) n)
  | t =>
    match s.routeTo c.cl t none with
    | none => (.error (.protect, 0), s)
    | some (r, s1) =>
      let (bs, s2) := (s1.sendOut (portalMsg r codeRead t n [])).outside n
      (.ok bs, s2.portalBytes c t 0 n)

/-- Writes bytes at a resolved target. -/
def State.writeTarget (s : State) (c : Client) (t : GTarget) (bs : List Byte) : State :=
  match t with
  | .hbm pa key =>
    (((s.touchPa pa).hbmWrite c.part key pa bs).meterOf c (dieOf pa) 8 bs.length).crossing c (c.cl / 128) (dieOf pa) bs.length
  | t =>
    match s.routeTo c.cl t none with
    | none => s
    | some (r, s1) => (s1.sendOut (portalMsg r codeWrite t bs.length bs)).portalBytes c t bs.length 0

/-- Whether the portal can send to a target: a host page only when it holds its translation, else it asks for it (R399). -/
def State.mayReach (s : State) (die : Nat) : GTarget → Bool
  | .host bus _ => decide (die * 2 ^ 48 + bus / 2 ^ 12 ∈ s.ats)
  | _ => true

/-- The portal holds the translation of a host page (R399): 4 KiB of bus addresses (log 150). -/
def State.cachePage (s : State) (die bus : Nat) : State :=
  let page := die * 2 ^ 48 + bus / 2 ^ 12
  { s with ats := if page ∈ s.ats then s.ats else s.ats ++ [page] }

/-- A host page that the scheduler or a queue needs: where the portal does not hold its translation it asks for it, by ATS and then PRI, and
the host grants or refuses it before the access (R399, log 171). -/
def State.askPage (s : State) (c : Client) (t : GTarget) : Bool × State :=
  match t with
  | .host bus _ =>
    if s.mayReach (c.cl / 128) t then (true, s)
    else
      let s1 := { s with freeCtr := s.freeCtr + 1 }
      if Config.hostGrants (c.cl / 128) (bus / 2 ^ 12) s.freeCtr then (true, s1.cachePage (c.cl / 128) bus) else (false, s1)
  | _ => (true, s)

/-- Reads G bytes that lie within one page. -/
def State.gRead (s : State) (c : Client) (va n : Nat) (need : Need) : Except (FaultKind × Word) (List Byte) × State :=
  match s.translate c.part va need with
  | (.error e, s1) => (.error e, s1)
  | (.ok t, s1) => match s1.askPage c t with
    | (true, s2) => s2.readTarget c t n
    | (false, s2) => (.error (.protect, 0), s2)

/-- Writes G bytes that lie within one page. -/
def State.gWrite (s : State) (c : Client) (va : Nat) (bs : List Byte) (need : Need) : Except (FaultKind × Word) State :=
  match s.translate c.part va need with
  | (.error e, _) => .error e
  | (.ok t, s1) => match s1.askPage c t with
    | (true, s2) => .ok (s2.writeTarget c t bs)
    | (false, _) => .error (.protect, 0)

/-- The need of a plain read, and of a plain write, whatever the target. -/
def Need.read : Need := ⟨true, false, false, 3⟩
/-- The need of an image read: R, and X (R217). -/
def Need.image : Need := ⟨true, false, true, 3⟩
/-- The need of a plain write. -/
def Need.write : Need := ⟨false, true, false, 3⟩

/-- Reads a span of G, piece by piece within 64-byte units; its fault names the address of the piece. -/
def State.readSpan (c : Client) (need : Need) : Nat → Nat → Nat → State → Except Nat (List Byte) × State
  | 0, _, _, s => (.ok [], s)
  | fuel + 1, a, n, s =>
    if n = 0 then (.ok [], s)
    else
      let k := min (64 - a % 64) n
      match s.gRead c a k need with
      | (.error _, s1) => (.error a, s1)
      | (.ok bs, s1) =>
        match State.readSpan c need fuel (a + k) (n - k) s1 with
        | (.ok rest, s2) => (.ok (bs ++ rest), s2)
        | e => e

/-- Reads `n` bytes of G. -/
def State.gReadAll (s : State) (c : Client) (a n : Nat) (need : Need) : Except Nat (List Byte) × State :=
  State.readSpan c need (n / 64 + 2) a n s

/-- Writes a span of G, piece by piece within 64-byte units. -/
def State.writeSpan (c : Client) : Nat → Nat → List Byte → State → Except (FaultKind × Word) State
  | 0, _, _, s => .ok s
  | fuel + 1, a, bs, s =>
    if bs.isEmpty then .ok s
    else
      let k := 64 - a % 64
      match s.gWrite c a (bs.take k) Need.write with
      | .error e => .error e
      | .ok s1 => State.writeSpan c fuel (a + k) (bs.drop k) s1

/-- Writes bytes to G. -/
def State.gWriteAll (s : State) (c : Client) (a : Nat) (bs : List Byte) : Except (FaultKind × Word) State :=
  State.writeSpan c (bs.length / 64 + 2) a bs s

/-! Places in L, N and W (R207, R209, R213). -/

/-- The cluster and offset that an N address names in a panel. -/
def Panel.place (p : Panel) (a : Nat) : Option (Nat × Nat) :=
  ((nth p.clusters (a / 2 ^ 27 % 4)).bind fun cs => nth cs (a / 2 ^ 20 % 128)).map fun k => (k, a % 2 ^ 20)

/-- A line of a cluster memory. -/
def lineOf (off : Nat) : Nat := off / 128

/-- Whether a line is empty (R210). -/
def Cluster.lineEmpty (c : Cluster) (ln : Nat) : Bool := getAt c.empty ln false

/-- Sets a line's full/empty bit. -/
def State.setLine (s : State) (cl ln : Nat) (isEmpty : Bool) : State :=
  s.onCluster cl fun c => { c with empty := setAt c.empty ln isEmpty false }

/-- Whether a byte address lies in a range. -/
def Range.has (r : Range) (a n : Nat) : Bool := decide (r.base ≤ a ∧ a + n ≤ r.base + r.len)

/-- The N address of an offset of a panel's cluster. -/
def Panel.nAddr (p : Panel) (cl off : Nat) : Nat := (p.locate cl).1 * 2 ^ 27 + (p.locate cl).2 * 2 ^ 20 + off

/-- Whether a line is tracked under a pattern (R210). -/
def trackedLine (pat : Pattern) (p : Panel) (cl ln : Nat) : Bool :=
  pat.ranges.any fun r => r.fet && (match r.space with
    | .l => r.has (ln * 128) 1
    | .n => r.has (p.nAddr cl (ln * 128)) 1
    | _ => false)

/-- Whether a line of a launch's cluster is tracked. -/
def State.tracked (s : State) (l cl ln : Nat) : Bool :=
  match s.pattern l with
  | some pat => trackedLine pat (s.launch l).panel cl ln
  | none => false

/-- Bytes of a cluster memory. -/
def State.memRead (s : State) (cl off n : Nat) : List Byte := readBytes (s.cluster cl).mem off n

/-- Writes bytes to a cluster memory. -/
def State.memWrite (s : State) (cl off : Nat) (bs : List Byte) : State :=
  (s.onCluster cl fun c => { c with mem := writeBytes c.mem off bs }).heal (clusterMark cl off) bs.length

/-- The bank group of a weight-store byte (R213). -/
def groupOf (a : Nat) : Nat := a % 2 ^ 28 / 0x400000

/-- Whether a group is refreshing (R213). -/
def State.refreshing (s : State) (g : Nat) : Bool := decide (g * 1575 ≤ s.calendar ∧ s.calendar < g * 1575 + 1575)

end Sys2Proof.Machine
end

