-- ==== Sys2Proof/Machine/Control.lean ====
section
/-! DEFINITION. Machine/Control.lean: the dataflow control instructions (spec 08). -/

namespace Sys2Proof.Machine

/-- MOV (R172): SA's value on o0. -/
def execMov (x : FormA) (s : State) : Host.Outcome State Fault Refusal :=
  s.fire x.pm fun s f => s.emit0 f x.pm (passClass x.sa f.a) (s.opA f x)

/-- FANOUT (R172): SA's value on both groups. -/
def execFanout (x : FormA) (s : State) : Host.Outcome State Fault Refusal :=
  s.fire x.pm fun s f =>
    (s.emit0 f x.pm (passClass x.sa f.a) (s.opA f x)).emit1 f (passClass x.sa f.a) (s.opA f x)

/-- SINK (R172): the operands are consumed and nothing is emitted. -/
def execSink (x : FormA) (s : State) : Host.Outcome State Fault Refusal := s.fire x.pm fun s _ => s

/-- STEER (R172): SA's value on o0 when SB is not 0, else on o1. -/
def execSteer (x : FormA) (s : State) : Host.Outcome State Fault Refusal :=
  s.fire x.pm fun s f =>
    if s.opB f x ≠ 0 then s.emit0 f x.pm (passClass x.sa f.a) (s.opA f x)
    else s.emit1 f (passClass x.sa f.a) (s.opA f x)

/-- GATE (R172): SA's value on o0; b and c are triggers. -/
def execGate (x : FormA) (s : State) : Host.Outcome State Fault Refusal :=
  s.fire x.pm fun s f => s.emit0 f x.pm (passClass x.sa f.a) (s.opA f x)

/-- JOIN (R172): a completion token on o0. -/
def execJoin (x : FormA) (s : State) : Host.Outcome State Fault Refusal :=
  s.fire x.pm fun s f => s.emit0 f x.pm .completion 0

/-- INV (R172): whether SA is 0, on o0, and whether it is not, on o1. -/
def execInv (x : FormA) (s : State) : Host.Outcome State Fault Refusal :=
  s.fire x.pm fun s f =>
    (s.emit0 f x.pm .value (boolWord (decide (s.opA f x = 0)))).emit1 f .value (boolWord (decide (s.opA f x ≠ 0)))

/-! The bobbin table (R17 to R21, R173 to R179). -/

/-- The size of a class. -/
def State.classOf (s : State) (l c : Nat) : Option BobClass := (s.pattern l).bind fun p => nth p.classes c

/-- The lowest id that no instance holds, from `i`, of the 1,024 of a panel (R18). -/
def lowestId (insts : List (Nat × Instance)) (i : Nat) : Nat → Option Nat
  | 0 => none
  | n + 1 => if (look insts i).isNone then some i else lowestId insts (i + 1) n

/-- The lowest free instance id of a panel, if any (R18). -/
def Launch.freeId (x : Launch) : Option Nat := lowestId x.insts 0 1024

/-- Changes an instance. -/
def Launch.onInst (x : Launch) (id : Nat) (f : Instance → Instance) : Launch :=
  match look x.insts id with
  | some i => { x with insts := put x.insts id (f i) }
  | none => x

/-- One ITER of an instance. -/
def Instance.iter (i : Instance) (n : Nat) : IterSlot := (nth i.iters n).getD ⟨.free, 0⟩

/-- Changes one ITER of an instance. -/
def Instance.setIter (i : Instance) (n : Nat) (x : IterSlot) : Instance := { i with iters := setNth i.iters n x }

/-- A new instance: all iterations Free, next iteration number 0, no end mark (R173). -/
def newInstance (cls size : Nat) (parent : Option (Nat × Nat)) (entry : Option Nat) : Instance :=
  ⟨cls, parent, false, 0, none, List.replicate size ⟨.free, 0⟩, entry⟩

/-- How many instances of a class one iteration holds (R17, R173). -/
def Launch.fanHeld (x : Launch) (cls bob it : Nat) : Nat :=
  x.insts.countP fun e => decide (e.2.cls = cls ∧ e.2.parent = some (bob, it))

/-- An instance word (R172's introduction): ID and CLASS. -/
def instWord (id cls : Nat) : Word := BitVec.ofNat 64 (id + cls * 2 ^ 16)
/-- The ID of an instance word. -/
def instId (w : Word) : Nat := w.toNat % 2 ^ 10
/-- The CLASS of an instance word. -/
def instCls (w : Word) : Nat := w.toNat / 2 ^ 16 % 2 ^ 6

/-- The allocated instance that an instance word names (R174): none when it is stale. -/
def Launch.named (x : Launch) (w : Word) : Option Instance :=
  (look x.insts (instId w)).filter fun i => decide (i.cls = instCls w)

/-- BALLOC once its firing's class is right: allocates when the fan limit and the id pool allow, else parks (R173). -/
def State.balloc (s : State) (f : Firing) (pm : Pred) (cls : Nat) : State :=
  let x := s.launch f.launch
  match s.classOf f.launch cls, x.freeId with
  | some c, some id =>
    if x.fanHeld cls f.tag.bobbin.toNat f.tag.iter.toNat < c.fan then
      let i := newInstance cls c.size (some (f.tag.bobbin.toNat, f.tag.iter.toNat)) none
      (s.onLaunch f.launch fun y => { y with insts := put y.insts id i }).emit0 f pm .value (instWord id cls)
    else s.park f .balloc
  | _, _ => s.park f .balloc

/-- Whether BALLOC would allocate now (R173). -/
def State.ballocReady (s : State) (f : Firing) (cls : Nat) : Bool :=
  match s.classOf f.launch cls, (s.launch f.launch).freeId with
  | some c, some _ => decide ((s.launch f.launch).fanHeld cls f.tag.bobbin.toNat f.tag.iter.toNat < c.fan)
  | _, _ => false

/-- BALLOC (R173). -/
def execBalloc (x : FormX) (cls : BitVec 6) (s : State) : Host.Outcome State Fault Refusal :=
  s.fireHeld x.pm fun s f =>
    match s.classOf f.launch cls.toNat, look (s.launch f.launch).insts f.tag.bobbin.toNat with
    | some c, some i => if c.parent = some i.cls then s.balloc f x.pm cls.toNat else s.trap f 0x0102
    | _, _ => s.trap f 0x0102

/-- BFREE (R174). -/
def execBfree (x : FormA) (s : State) : Host.Outcome State Fault Refusal :=
  s.fireHeld x.pm fun s f =>
    match (s.launch f.launch).named (s.opA f x) with
    | none => s.trap f 0x0101
    | some _ =>
      (s.onLaunch f.launch fun y => y.onInst (instId (s.opA f x)) fun i => { i with freeing := true }).emit0 f x.pm
        .completion 0

/-- LOOPGEN (R175): creates a generator. -/
def execLoopgen (x : FormX) (step : BitVec 16) (s : State) : Host.Outcome State Fault Refusal :=
  s.fireHeld x.pm fun s f =>
    let w := s.opXA f x
    match (s.launch f.launch).named w with
    | none => s.trap f 0x0101
    | some _ =>
      { s.onLaunch f.launch (fun y => { y with gens := y.gens ++
          [⟨s.serial, f, instId w, instCls w, (s.opXB f x).toNat, 0, s.opXC f x, step, false, s.aCycle, 0⟩] }) with serial := s.serial + 1 }

/-- Where NEXT stands (R176): at the loop exit, ready to move to the next iteration, or waiting. -/
inductive NextStep where
  | exit | go | wait
  deriving DecidableEq, Repr

/-- R176 for a firing's tag. -/
def Launch.nextStep (x : Launch) (f : Firing) : NextStep :=
  match look x.insts f.tag.bobbin.toNat with
  | none => .wait
  | some i =>
    let k := (i.iter f.tag.iter.toNat).num
    if i.endMark = some k then .exit
    else
      let it := i.iter ((f.tag.iter.toNat + 1) % i.iters.length)
      if it.st = .live ∧ it.num = k + 1 then .go else .wait

/-- The next ITER of a firing's instance (R176). -/
def Launch.nextIter (x : Launch) (f : Firing) : BitVec 6 :=
  match look x.insts f.tag.bobbin.toNat with
  | none => 0
  | some i => BitVec.ofNat 6 ((f.tag.iter.toNat + 1) % i.iters.length)

/-- NEXT's effect at one moment: exit on o1, the next iteration on o0, or a park (R176). -/
def State.nextFiring (s : State) (f : Firing) (cls : TokClass) (v : Word) : State :=
  match (s.launch f.launch).nextStep f with
  | .exit => s.emit1 f cls v
  | .go => s.emitGroup f false { f.carry cls v with iter := (s.launch f.launch).nextIter f }
  | .wait => s.park f .next

/-- NEXT (R176). -/
def execNext (x : FormA) (s : State) : Host.Outcome State Fault Refusal :=
  s.fireHeld x.pm fun s f => s.nextFiring f (passClass x.sa f.a) (s.opA f x)

/-- IEND (R177): Live to Ended, discarded otherwise. -/
def execIend (x : FormA) (s : State) : Host.Outcome State Fault Refusal :=
  s.fireHeld x.pm fun s f =>
    s.onLaunch f.launch fun y => y.onInst f.tag.bobbin.toNat fun i =>
      if (i.iter f.tag.iter.toNat).st = .live then
        i.setIter f.tag.iter.toNat { i.iter f.tag.iter.toNat with st := .ended }
      else i

/-- Whether an iteration is Live or Ended (R178). -/
def Launch.holdsIter (x : Launch) (bob it : Nat) : Bool :=
  match look x.insts bob with
  | some i => decide ((i.iter it).st ≠ .free)
  | none => false

/-- RETAG with FN 0 (R178). -/
def execRetag (x : FormA) (s : State) : Host.Outcome State Fault Refusal :=
  s.fireHeld x.pm fun s f =>
    let w := s.opB f x
    let it := w.toNat % 2 ^ 6
    let bob := w.toNat / 2 ^ 6 % 2 ^ 10
    if (s.launch f.launch).holdsIter bob it then
      s.emitGroup f (f.group0 x.pm)
        { f.carry (passClass x.sa f.a) (s.opA f x) with bobbin := BitVec.ofNat 10 bob, iter := BitVec.ofNat 6 it }
    else s.trap f 0x0103

/-- The entry that a destination names, by index (R138). -/
def entryOf (p : Pattern) (stage : Nat) : Dest → Option Nat
  | .slot die st sl _ => indexOf (fun e => decide (e.stage = stage ∧ e.die = die.toNat ∧ e.station = st.toNat ∧
      e.slot = sl.toNat)) p.entries 0
  | .engine _ _ _ _ => none

/-- Live activations of an entry (R22). -/
def Launch.activations (x : Launch) (e : Nat) : Nat := x.insts.countP fun i => decide (i.2.entry = some e)

/-- Whether an entry may open an activation now: below its tension, with none waiting before, and an id free (R18, R22). -/
def Launch.mayEnter (x : Launch) (p : Pattern) (e : Nat) : Bool :=
  match nth p.entries e with
  | some r => decide (x.activations e < r.tension) && x.freeId.isSome && !x.ovf.any fun o => decide (o.list = .entry e)
  | none => false

/-- Opens an activation: a root instance with ITER 0 Live (R123, R179). -/
def Launch.openRoot (x : Launch) (p : Pattern) (e id : Nat) : Launch :=
  match nth p.entries e with
  | some r =>
    let size := ((nth p.classes r.cls).map BobClass.size).getD 1
    let i := newInstance r.cls size none (some e)
    { x with insts := put x.insts id (i.setIter 0 ⟨.live, 0⟩) }
  | none => x

/-- Whether a launch's watchdog has expired: its freeze is under way, and no other cause of retirement decides any more (R382). -/
def Launch.expired (x : Launch) : Bool := decide (x.ending = none) && x.freeze.any fun z => z.watchdog

/-- A cause of retirement reaches the home cluster: the first one decides (R185, R375, R382). -/
def Launch.endBy (x : Launch) (e : Ending) : Launch := if x.ending = none ∧ x.expired = false then { x with ending := some e } else x

/-! The overflow area (R156). -/

/-- KIND of a list's records (Table 7.3). -/
def OvfList.kind : OvfList → Nat
  | .entry _ => 4
  | .stage _ => 2
  | .tension => 5

/-- The index of the first record of a list among some records; 0xFFFF_FFFF where there is none. -/
def nextOf (k : OvfList) (os : List OvfRec) : Nat := ((os.find? fun o => decide (o.list = k)).map OvfRec.idx).getD 0xFFFFFFFF

/-- The records of an area with the 32 bytes of each (R156): TOKEN, NEXT, KIND, WSTAMP. -/
def ovfImages : List OvfRec → List (Nat × List Byte)
  | [] => []
  | o :: os => (o.idx, leBytes 16 o.tok.bits.toNat ++ leBytes 4 (nextOf o.list os) ++ leBytes 4 (o.list.kind * 32) ++ leBytes 8 o.wstamp) ::
      ovfImages os

/-- Replaces the records of a launch's overflow area: those whose bytes change are written, after the 16 KiB of its fault queue
(R372); a record on a page that cannot be written keeps its old bytes (log 36). -/
def State.setOvf (s : State) (l : Nat) (new : List OvfRec) : State :=
  let x := s.launch l
  let s1 := s.onLaunch l fun y => { y with ovf := new }
  match x.ovArea with
  | none => s1
  | some a =>
    let old := ovfImages x.ovf
    ((ovfImages new).filter fun r => decide (r ∉ old)).foldl (fun s r =>
      match s.gWrite ⟨none, x.part, x.panel.home, false⟩ (a + 16384 + 32 * r.1) r.2 Need.write with
      | .ok t => t
      | .error _ => s) s1

/-- The lowest record index of an overflow area that no list uses, from `i` (log 36). -/
def freeIndex (ovf : List OvfRec) (i : Nat) : Nat → Nat
  | 0 => i
  | n + 1 => if ovf.all fun o => decide (o.idx ≠ i) then i else freeIndex ovf (i + 1) n

/-- Writes one record to a launch's overflow area, after the 16 KiB of its fault queue (R372); a full area aborts the launch
(R156). -/
def State.overflow (s : State) (l : Nat) (o : OvfRec) : State :=
  let x := s.launch l
  if 16384 + (x.ovf.length + 1) * 32 ≤ x.ovLen then
    s.setOvf l (x.ovf ++ [{ o with idx := freeIndex x.ovf 0 x.ovf.length }])
  else
    (s.newFault l .tension 0 (BitVec.allOnes 64) ⟨6, 0, 0, 0, 0, x.stage, none, 0, 0, 0, 0⟩ false 0 .final).onLaunch l fun y =>
      y.endBy .abortFault

/-- Appends the tokens of one waiting activation to an entry's queue (R22), under a group number of their own. -/
def State.queueAtEntry (s : State) (l e : Nat) (ts : List OutTok) (src : Option Nat) : State :=
  let s1 := { s with serial := s.serial + 1 }
  ts.foldl (fun a t => a.overflow l ⟨0, .entry e, t.tok, 0, s.serial, t.eng, src⟩) s1

/-- RETAG with FN 1 (R179): one activation of the entry that DEST0 of o0 names. -/
def execRetagCall (x : FormA) (s : State) : Host.Outcome State Fault Refusal :=
  s.fireHeld x.pm fun s f =>
    match s.pattern f.launch, routeGroup f.route false with
    | some p, d :: _ =>
      match entryOf p (s.launch f.launch).stage d with
      | none => s
      | some e =>
        let k0 : Carry := f.carry .seed (s.opA f x)
        let k1 : Carry := f.carry .seed (s.opB f x)
        if (s.launch f.launch).mayEnter p e then
          match (s.launch f.launch).freeId with
          | some id =>
            let b := BitVec.ofNat 10 id
            ((s.onLaunch f.launch fun y => y.openRoot p e id).emitGroup f false { k0 with bobbin := b, iter := 0 }).emitGroup
              f true { k1 with bobbin := b, iter := 0 }
          | none => s
        else
          s.queueAtEntry f.launch e ((routeGroup f.route false).map (k0.token s.stamp) ++
            (routeGroup f.route true).map (k1.token s.stamp)) none
    | _, _ => s

/-! Speculation (R25 to R28, R180, R181). -/

/-- Whether an instruction holds its whole effect under a colour, and so emits nothing coloured (R26, Table 8.2, R228,
R287, R308, R321, R337, R384). -/
def heldWhole : Instr → Bool
  | .balloc _ _ => true | .bfree _ => true | .iend _ => true | .loopgen _ _ => true | .next _ => true
  | .retag _ => true | .retagCall _ => true | .spawn _ _ => true | .done _ => true | .doneForce _ => true
  | .ticket _ _ _ => true | .ticketRelease _ _ _ => true
  | .stl _ _ => true | .stn _ _ => true | .stg _ _ => true | .feclr _ _ => true | .feset _ _ => true
  | .amol _ _ _ _ => true | .amog _ _ _ _ => true | .updg _ _ _ => true
  | .kadd _ => true | .klimit _ => true | .karm _ => true | .kalloc _ => true | .kfree _ => true
  | .copy _ _ => true | .copyr _ _ => true | .fill _ _ => true | .gathr _ _ => true | .scatr _ _ => true
  | .scatrAdd _ _ => true | .overlay _ _ => true | .cqpush _ _ => true
  | .tshape _ => true | .trdsh _ => true | .tld _ => true | .tst _ => true | .tzeroTile _ => true | .tzeroAcc _ => true
  | .tzeroCarry _ => true | .tmma _ => true | .tadd _ => true | .tmul _ => true | .tscale _ => true | .tact _ _ => true
  | .tredSum _ => true | .tredMax _ => true | .tqnt _ => true | .tdq _ => true | .tcvt _ => true | .ttrn _ => true
  | .trow _ => true | .trowStr _ => true | .tscan _ => true | .tcarrySave _ => true | .tcarryLoad _ => true
  | .tmovq _ => true
  | .semit _ _ => true | .smark _ _ _ => true | .srecv _ _ => true | .sparm _ _ _ _ => true
  | .smopen _ _ _ => true | .smfeed _ => true | .smclose _ => true | .smabort _ => true
  | .umctxOpen _ _ => true | .umctxRelease _ => true | .umscore _ _ => true | .umrank _ => true | .umtap _ => true
  | .umdirty _ => true | .umclr _ => true
  | .trap _ _ => true | .syswr _ _ => true | .hem _ => true | .bkpt _ _ => true | .flag _ _ => true
  | _ => false

/-- One resident slot of a stage, in panel-relative coordinates. -/
structure SlotInfo where
  die : Nat
  station : Nat
  slot : Nat
  word : Word
  route : BitVec 256
  deriving DecidableEq, Repr

/-- The occupied slots of a stage (R92): footprint cluster n stands on die n div (W × H) (R87). -/
def stageSlots (p : Pattern) (stage : Nat) : List SlotInfo :=
  match nth p.stages stage with
  | none => []
  | some g => g.stations.flatMap fun r =>
      let per := p.fw * p.fh
      r.words.map fun w => ⟨r.cluster / per, r.cluster % per * 16 + r.station, w.1, w.2, getAt r.routes w.1 0⟩

/-- A slot's port, in panel-relative coordinates. -/
abbrev PortAt := Nat × Nat × Nat × Nat

/-- The slot destinations of a route. -/
def portsOf (ds : List Dest) : List PortAt :=
  ds.filterMap fun d => match d with
    | .slot die st sl port => some (die.toNat, st.toNat, sl.toNat, port.toNat)
    | .engine _ _ _ _ => none

/-- What a slot's routes carry of a colour, given the ports that carry it so far: SPEC of that colour starts it, and every
other slot that reads a carrying port passes it on unless its effect is held whole (R25, R26); a stage crossing carries none,
since its coloured tokens are held (R139). -/
def slotCarries (p : Pattern) (stage : Nat) (c : BitVec 2) (known : List PortAt) (x : SlotInfo) : List PortAt :=
  let all := portsOf ((routeGroup x.route false ++ routeGroup x.route true).filter fun d => !crossesStage p stage d)
  match decode x.word with
  | .ok (.spec _ col) => if col = c then all else []
  | .ok (.commit _ _) => []
  | .ok (.kill _ _) => []
  | .ok i =>
    if known.any (fun q => decide (q.1 = x.die ∧ q.2.1 = x.station ∧ q.2.2.1 = x.slot)) && !heldWhole i then all else []
  | .error _ => []

/-- Union without repeats. -/
def union {α : Type} [DecidableEq α] (xs ys : List α) : List α :=
  ys.foldl (fun acc y => if y ∈ acc then acc else acc ++ [y]) xs

/-- The colour analysis (R181): `fuel` rounds over the stage's slots. -/
def carryGo (p : Pattern) (stage : Nat) (slots : List SlotInfo) (c : BitVec 2) : Nat → List PortAt → List PortAt
  | 0, known => known
  | n + 1, known => carryGo p stage slots c n (union known (slots.flatMap (slotCarries p stage c known)))

/-- The ports of a stage that can carry a colour. -/
def carriers (p : Pattern) (stage : Nat) (c : BitVec 2) : List PortAt :=
  let slots := stageSlots p stage
  carryGo p stage slots c (slots.length + 1) []

/-- Whether a colour is in use under a tag (R28). -/
def Launch.usesColour (x : Launch) (tag : Tag) (c : BitVec 2) : Bool :=
  x.colours.any fun u => decide (u.bobbin = tag.bobbin ∧ u.iter = tag.iter ∧ u.colour = c)

/-- SPEC's effect with its colour free: the colour is taken, and SA's value carries it (R180). -/
def State.specTake (s : State) (f : Firing) (pm : Pred) (cls : TokClass) (v : Word) (c : BitVec 2) : State :=
  (s.onLaunch f.launch fun y => { y with colours := y.colours ++ [⟨f.tag.bobbin, f.tag.iter, c, []⟩] }).emitGroup f
    (f.group0 pm) { f.carry cls v with colour := c }

/-- SPEC (R180). -/
def execSpec (x : FormX) (colour : BitVec 2) (s : State) : Host.Outcome State Fault Refusal :=
  s.fire x.pm fun s f =>
    if f.colour ≠ 0 then s.faultFiring f .specMix 0 0
    else if (s.launch f.launch).usesColour f.tag colour then s.park f .colour
    else s.specTake f x.pm (passClass x.sa f.a) (s.opXA f x) colour

/-- COMMIT and KILL: one control token to each destination (R181). -/
def State.control (s : State) (f : Firing) (cls : TokClass) (colour : BitVec 2) : State :=
  if f.colour ≠ 0 then s.faultFiring f .specMix 0 0
  else s.emitGroup f false (f.carry cls (colour.setWidth 64))

/-- COMMIT (R181). -/
def execCommit (x : FormX) (colour : BitVec 2) (s : State) : Host.Outcome State Fault Refusal :=
  s.fire x.pm fun s f => s.control f .commit colour

/-- KILL (R181). -/
def execKill (x : FormX) (colour : BitVec 2) (s : State) : Host.Outcome State Fault Refusal :=
  s.fire x.pm fun s f => s.control f .kill colour

/-! Phases (R182, R183). -/

/-- PHSET (R182). -/
def execPhset (x : FormX) (ph : BitVec 4) (rel : Bool) (s : State) : Host.Outcome State Fault Refusal :=
  s.fire x.pm fun s f =>
    s.emitGroup f (f.group0 x.pm)
      { f.carry (passClass x.sa f.a) (s.opXA f x) with phase := if rel then f.phase + ph else ph }

/-- PHWAIT (R183): parks until a wave finds the phase closed. -/
def execPhwait (x : FormX) (ph : BitVec 4) (src : Bool) (s : State) : Host.Outcome State Fault Refusal :=
  s.fire x.pm fun s f =>
    s.park f (.phwait (if src then ((f.a.map fun (h : Held) => h.tok.phase).getD 0).toNat else ph.toNat))

/-! Launch level and arbiters (R185, R186). -/

/-- DONE (R185). -/
def execDone (x : FormX) (s : State) : Host.Outcome State Fault Refusal :=
  s.fireHeld x.pm fun s f => s.onLaunch f.launch fun y => { y with doneTally := y.doneTally + 1 }

/-- DONE.FORCE (R185): step 1 at once; the steps after it are the launch's retirement (R388). -/
def execDoneForce (x : FormX) (s : State) : Host.Outcome State Fault Refusal :=
  s.fireHeld x.pm fun s f => s.onLaunch f.launch fun y => y.endBy .forced

/-- An arbiter of a cluster (R350). -/
def Cluster.arbiter (c : Cluster) (n : Nat) : Arbiter := getAt c.arbs n Arbiter.clear
/-- Replaces an arbiter. -/
def Cluster.setArbiter (c : Cluster) (n : Nat) (a : Arbiter) : Cluster := { c with arbs := setAt c.arbs n a Arbiter.clear }

/-- A request reaches its arbiter: 256 wait, and a further one parks at its station (R186). -/
def State.ticketRequest (s : State) (f : Firing) (arb arc : Nat) : State :=
  let a := (s.cluster f.cl).arbiter arb
  if a.fifo.length < 256 then s.onCluster f.cl fun c => c.setArbiter arb { a with fifo := a.fifo ++ [(arc, f)] }
  else s.park f (.ticket arb arc)

/-- TICKET with FN 0 (R186). -/
def execTicket (x : FormX) (arb : BitVec 3) (arc : BitVec 6) (s : State) : Host.Outcome State Fault Refusal :=
  s.fireHeld x.pm fun s f => s.ticketRequest f arb.toNat arc.toNat

/-- TICKET with FN 1 (R186): releases the grant that its arc holds. -/
def execTicketRelease (x : FormX) (arb : BitVec 3) (arc : BitVec 6) (s : State) : Host.Outcome State Fault Refusal :=
  s.fireHeld x.pm fun s f =>
    let a := (s.cluster f.cl).arbiter arb.toNat
    if a.holder.map Prod.fst = some arc.toNat then
      (s.onCluster f.cl fun c => c.setArbiter arb.toNat { a with holder := none, released := s.aCycle + 1 }).emit0 f x.pm
        .completion 0
    else s.trap f 0x0106

end Sys2Proof.Machine
end

