-- ==== Sys2Proof/Machine/Memory.lean ====
section
/-! DEFINITION. Machine/Memory.lean: the memory instructions (spec 10: R222 to R230) and the steps in which their accesses are
translated, performed, merged and answered (R209 to R224, R347, R349, R352). -/

namespace Sys2Proof.Machine

/-! Values. -/

/-- What a load emits: the bytes extended under TY (R228). -/
def loadValue (ty : Ty) (bytes v : Nat) : Word :=
  if isSigned ty then formInt ty (sext (8 * bytes) v) else formBits ty v

/-- The value of an operand word taken under TY modulo 2^w (R230). -/
def atomicWord (ty : Ty) (w : Nat) (v : Word) : Nat := (readInt ty v % (2 ^ w : Nat)).toNat

/-- Whether x < y as an atomic compares them: signed for TY 0 and 2 (R230). -/
def atomicLt (ty : Ty) (w x y : Nat) : Bool := if isSigned ty then decide (sext w x < sext w y) else decide (x < y)

/-- The new memory value of AMOL and AMOG (Table 10.6); x, d and k are read under TY (R230). -/
def amoNew (op : AmoOp) (ty : Ty) (w m : Nat) (d k : Word) : Nat :=
  let x := atomicWord ty w (BitVec.ofNat 64 m)
  let y := atomicWord ty w d
  match op with
  | .swap => y
  | .cas => if x = atomicWord ty w k then y else x
  | .add => (x + y) % 2 ^ w
  | .min => if atomicLt ty w y x then y else x
  | .max => if atomicLt ty w x y then y else x

/-- x op d of UPDG (Table 10.6), both w bits and read under TY. -/
def updNew (op : UpdOp) (ty : Ty) (w x y : Nat) : Nat :=
  match op with
  | .add => (x + y) % 2 ^ w
  | .min => if atomicLt ty w y x then y else x
  | .max => if atomicLt ty w x y then y else x
  | .and => Nat.land x y
  | .or => Nat.lor x y
  | .xor => Nat.xor x y
  | .fadd | .faddNd => (fadd fp32 .rne (fp32.decode x) (fp32.decode y)).1

/-- A UPDG's operand, or the memory value that it meets, read under TY: w bits (R230). -/
def updWord (op : UpdOp) (ty : Ty) (w : Nat) (d : Word) : Nat :=
  match op with
  | .fadd | .faddNd => d.toNat % 2 ^ 32
  | _ => atomicWord ty w d

/-- Whether a request writes: what R358 calls a write. -/
def AccKind.writes : AccKind → Bool
  | .load => false
  | _ => true

/-- Whether a request must be granted w, and whether a (R222, check 1). -/
def AccKind.needs : AccKind → Bool × Bool × Bool
  | .load => (true, false, false)
  | .store | .feclr | .feset => (false, true, false)
  | .amo _ | .upd _ => (false, false, true)

/-- Whether a range grants an access. -/
def Range.grants (r : Range) (k : AccKind) : Bool :=
  let n := k.needs
  (!n.1 || r.rd) && (!n.2.1 || r.wr) && (!n.2.2 || r.atom)

/-! Issue. -/

/-- Whether a launch's replies are still delivered: they are discarded once its retirement has been forced (R185). -/
def State.delivers (s : State) (l : Nat) : Bool :=
  match look s.launches l with
  | some x => decide (x.ending = none)
  | none => false

/-- A memory access's fault: an SPC load answers with the code (R223), a coloured load leaves a deferred fault (R26), every
other access parks (R222). -/
def State.memFault (s : State) (f : Firing) (kind : AccKind) (spc : Bool) (k : FaultKind) (detail addr : Word) : State :=
  if kind = .load ∧ (spc = true ∨ f.colour ≠ 0) then
    if !s.delivers f.launch then s
    else if spc then (s.reply0 f .value 0).reply1 f .completion (BitVec.ofNat 64 k.code)
    else
      (s.reply0 f .value 0).onStation f.cl f.st fun x => { x with deferred := x.deferred ++ [⟨f, k, detail, addr, 0⟩] }
  else s.faultFiring f k detail addr

/-- The issue of an access: checks 1 and 2 of Table 10.4, the tracked line of FECLR and FESET, and the request (R222, R224,
R228); a re-issued access keeps its number. -/
def State.memIssue (s : State) (f : Firing) (x : FormM) (kind : AccKind) (space : Space) (addr data cmp : Word) : State :=
  let bytes := x.width.bytes
  match (s.pattern f.launch).bind fun p => nth p.ranges x.range.toNat with
  | none => s.memFault f kind x.spc .protect 0 addr
  | some r =>
    if !(space.addrOk addr.toNat bytes && r.has addr.toNat bytes && r.grants kind && decide (r.space = space)) then s.memFault f kind x.spc .protect 0 addr
    else if addr.toNat % bytes ≠ 0 then s.memFault f kind x.spc .align 0 addr
    else
      let fe := decide (kind = .feclr) || decide (kind = .feset)
      let place := match space with
        | .l => some (f.cl, addr.toNat)
        | .n => (s.launch f.launch).panel.place addr.toNat
        | _ => none
      let plain := fe && !(match place with | some (cl, off) => s.tracked f.launch cl (lineOf off) | none => false)
      if plain then s.memFault f kind x.spc .protect 0 addr
      else
        let id := f.opId.getD s.serial
        { s with
          serial := s.serial + 1
          reqs := s.reqs ++ [⟨id, { f with opId := some id }, kind, space, addr.toNat, bytes, x.range.toNat, x.ty, x.rel, x.spc,
            data, cmp, .issued, []⟩] }

/-- The signed offset of a load or store added to SA (R65). -/
def State.memAddr (s : State) (f : Firing) (x : FormM) (off : BitVec 24) : Word := s.opMA f x + off.signExtend 64
/-- The signed offset of an atomic added to SA (R226). -/
def State.atomAddr (s : State) (f : Firing) (x : FormM) (off : BitVec 14) : Word := s.opMA f x + off.signExtend 64
/-- The space of the slot's range: what L or N form AMOL, FECLR and FESET use (R208). -/
def State.rangeSpace (s : State) (f : Firing) (x : FormM) : Space :=
  (((s.pattern f.launch).bind fun p => nth p.ranges x.range.toNat).map Range.space).getD .l

/-- A load of a space. -/
def State.load (s : State) (x : FormM) (off : BitVec 24) (space : Space) : Host.Outcome State Fault Refusal :=
  s.fire x.pm fun s f => s.memIssue f x .load space (s.memAddr f x off) 0 0
/-- A store to a space. -/
def State.store (s : State) (x : FormM) (off : BitVec 24) (space : Space) : Host.Outcome State Fault Refusal :=
  s.fireHeld x.pm fun s f => s.memIssue f x .store space (s.memAddr f x off) (s.opMB f x) 0

/-- LDL (R228). -/
def execLdl (x : FormM) (off : BitVec 24) (s : State) : Host.Outcome State Fault Refusal := s.load x off .l
/-- STL (R228). -/
def execStl (x : FormM) (off : BitVec 24) (s : State) : Host.Outcome State Fault Refusal := s.store x off .l
/-- LDN (R228). -/
def execLdn (x : FormM) (off : BitVec 24) (s : State) : Host.Outcome State Fault Refusal := s.load x off .n
/-- STN (R228). -/
def execStn (x : FormM) (off : BitVec 24) (s : State) : Host.Outcome State Fault Refusal := s.store x off .n
/-- LDG (R228). -/
def execLdg (x : FormM) (off : BitVec 24) (s : State) : Host.Outcome State Fault Refusal := s.load x off .g
/-- STG (R228). -/
def execStg (x : FormM) (off : BitVec 24) (s : State) : Host.Outcome State Fault Refusal := s.store x off .g
/-- LDW (R228): under a colour it completes normally. -/
def execLdw (x : FormM) (off : BitVec 24) (s : State) : Host.Outcome State Fault Refusal := s.load x off .w

/-- FECLR (R228). -/
def execFeclr (x : FormM) (off : BitVec 24) (s : State) : Host.Outcome State Fault Refusal :=
  s.fireHeld x.pm fun s f => s.memIssue f x .feclr (s.rangeSpace f x) (s.memAddr f x off) 0 0
/-- FESET (R228). -/
def execFeset (x : FormM) (off : BitVec 24) (s : State) : Host.Outcome State Fault Refusal :=
  s.fireHeld x.pm fun s f => s.memIssue f x .feset (s.rangeSpace f x) (s.memAddr f x off) 0 0

/-- The calendar word of a group (R229). -/
def calendarWord (n g : Nat) : Word :=
  let start := g * 1575
  let until_ := if n < start then start - n else start + 100800 - n
  let active := decide (start ≤ n ∧ n < start + 1575)
  BitVec.ofNat 64 (until_ + 1575 * 2 ^ 32 + (if active then 2 ^ 48 + (start + 1575 - n) * 2 ^ 49 else 0))

/-- WCAL (R229): checks 1 and 2 for one byte; no memory access. -/
def execWcal (x : FormM) (off : BitVec 24) (s : State) : Host.Outcome State Fault Refusal :=
  s.fire x.pm fun s f =>
    let addr := s.memAddr f x off
    match (s.pattern f.launch).bind fun p => nth p.ranges x.range.toNat with
    | none => s.memFault f .load x.spc .protect 0 addr
    | some r =>
      if !(Space.w.addrOk addr.toNat 1 && r.has addr.toNat 1 && r.rd && decide (r.space = .w)) then s.memFault f .load x.spc .protect 0 addr
      else s.emitGroup f false (f.carry .value (calendarWord s.calendar (groupOf addr.toNat)))

/-- AMOL (R230). -/
def execAmol (x : FormM) (op : AmoOp) (cmp : Spec) (off : BitVec 14) (s : State) : Host.Outcome State Fault Refusal :=
  s.fireHeld x.pm fun s f => s.memIssue f x (.amo op) (s.rangeSpace f x) (s.atomAddr f x off) (s.opMB f x) (s.opMC f cmp)
/-- AMOG (R230). -/
def execAmog (x : FormM) (op : AmoOp) (cmp : Spec) (off : BitVec 14) (s : State) : Host.Outcome State Fault Refusal :=
  s.fireHeld x.pm fun s f => s.memIssue f x (.amo op) .g (s.atomAddr f x off) (s.opMB f x) (s.opMC f cmp)
/-- UPDG (R230). -/
def execUpdg (x : FormM) (op : UpdOp) (off : BitVec 14) (s : State) : Host.Outcome State Fault Refusal :=
  s.fireHeld x.pm fun s f => s.memIssue f x (.upd op) .g (s.atomAddr f x off) (s.opMB f x) 0

/-! Requests in flight. -/

/-- The request of a number. -/
def State.req (s : State) (id : Nat) : Option Req := s.reqs.find? fun r => decide (r.id = id)
/-- Removes a request. -/
def State.dropReq (s : State) (id : Nat) : State := { s with reqs := s.reqs.filter fun r => decide (r.id ≠ id) }
/-- Replaces a request. -/
def State.putReq (s : State) (q : Req) : State := { s with reqs := s.reqs.map fun r => if r.id = q.id then q else r }

/-- Whose access a request is. -/
def State.clientOf (s : State) (f : Firing) : Client := ⟨some f.launch, (s.launch f.launch).part, f.cl, true⟩

/-- A request is performed: its reply leaves (R224), and those of the UPDGs it carries (R347). -/
def State.reqDone (s : State) (q : Req) (data : Option Word) : State :=
  let own := fun (s : State) =>
    (match data with
      | some v => s.reply0 q.firing .value v
      | none => s).reply1 q.firing .completion 0
  let s1 := s.dropReq q.id
  q.merged.foldl (fun s m => if s.delivers m.2.launch then s.reply1 m.2 .completion 0 else s)
    (if s1.delivers q.firing.launch then own s1 else s1)

/-- A request meets a fault: it and what it carries are faulted (R222). -/
def State.reqFault (s : State) (q : Req) (k : FaultKind) (detail : Word) : State :=
  let a := BitVec.ofNat 64 q.addr
  let s := (s.dropReq q.id).memFault q.firing q.kind q.spc k detail a
  q.merged.foldl (fun s m => s.memFault m.2 q.kind q.spc k detail a) s

/-- The old value that AMOL and AMOG emit (R230): x, read under TY and taken modulo 2^w, formed under R39. -/
def amoOld (ty : Ty) (w m : Nat) : Word :=
  let x := atomicWord ty w (BitVec.ofNat 64 m)
  if isSigned ty then formInt ty x else formBits ty x

/-- The memory value after a UPDG whose operand word is `d` (R230). -/
def updMem (op : UpdOp) (ty : Ty) (w m : Nat) (d : Word) : Nat := updNew op ty w (updWord op ty w (BitVec.ofNat 64 m)) (updWord op ty w d)

/-- Whether a request brings data back to its issuer, as a load does, or takes data to its place. -/
def AccKind.reads : AccKind → Bool
  | .load => true
  | _ => false

/-- Counts the bytes that a request moves between its issuer's die and that of its bank (meter 11). -/
def State.bankCrossing (s : State) (q : Req) (cl : Nat) : State :=
  let c := s.clientOf q.firing
  if q.kind.reads then s.crossing c (cl / 128) (q.firing.cl / 128) q.bytes else s.crossing c (q.firing.cl / 128) (cl / 128) q.bytes

/-- A request performed at a cluster-memory bank (R209, R211, R230). -/
def State.bankPerform (s : State) (q : Req) (cl off : Nat) : State :=
  let empty := (s.cluster cl).lineEmpty (lineOf off)
  let x := leNat (s.memRead cl off q.bytes)
  let bad := s.poisoned (clusterMark cl off) q.bytes
  let t := s.bankCrossing q cl
  match q.kind with
  | .load =>
    if empty then (s.dropReq q.id).park q.firing (.line cl (lineOf off))
    else if bad then s.reqFault q .poison 0
    else t.reqDone q (some (loadValue q.ty q.bytes x))
  | .amo op =>
    if empty then (s.dropReq q.id).park q.firing (.line cl (lineOf off))
    else if bad then s.reqFault q .poison 0
    else (t.memWrite cl off (leBytes q.bytes (amoNew op q.ty (8 * q.bytes) x q.data q.cmp))).reqDone q
      (some (amoOld q.ty (8 * q.bytes) x))
  | .upd op => (t.memWrite cl off (leBytes q.bytes (updMem op q.ty (8 * q.bytes) x q.data))).reqDone q none
  | .store => (t.memWrite cl off (leBytes q.bytes q.data.toNat)).reqDone q none
  | .feclr => (s.setLine cl (lineOf off) true).reqDone q none
  | .feset => (s.setLine cl (lineOf off) false).reqDone q none

/-- An LDW performed at its group, or still waiting for the group's refresh window to end (R214). -/
def State.weightPerform (s : State) (q : Req) : State :=
  if s.refreshing (groupOf q.addr) || s.dieReset.getLsbD (q.addr / 2 ^ 28) then s
  else if s.poisoned (weightMark q.addr) q.bytes then s.reqFault q .poison 0
  else
    let c := s.clientOf q.firing
    ((s.meterOf c (q.addr / 2 ^ 28) 9 q.bytes).crossing c (q.addr / 2 ^ 28) (q.firing.cl / 128) q.bytes).reqDone q
      (some (loadValue q.ty q.bytes (leNat (readBytes s.wstore q.addr q.bytes))))

/-- Whether a request is the first of those that wait at the home slices of its stack: they perform requests in the order of arrival, also
those that retraining held (R221, R408). -/
def State.firstAt (s : State) (q : Req) (pa : Nat) : Bool :=
  (s.reqs.takeWhile fun p => decide (p.id ≠ q.id)).all fun p => match p.at_ with
    | .placed (.hbm a _) => decide (stackOf a ≠ stackOf pa)
    | _ => true

/-- A load performed at its home slice. -/
def State.slicePerformLoad (s : State) (q : Req) (pa key : Nat) : State :=
  if s.stackHeld pa || !s.firstAt q pa then s
  else if s.poisoned pa q.bytes then s.reqFault q .poison 0
  else
    let c := s.clientOf q.firing
    ((s.meterOf c (dieOf pa) 7 q.bytes).crossing c (dieOf pa) (q.firing.cl / 128) q.bytes).reqDone q
      (some (loadValue q.ty q.bytes (leNat (s.hbmRead key pa q.bytes))))

/-- What a G request needs of the leaf (R222, check 4). -/
def State.needOf (s : State) (q : Req) : Need :=
  let tgt := (((s.pattern q.firing.launch).bind fun p => nth p.ranges q.range).map Range.tgt).getD 3
  match q.kind with
  | .load => ⟨true, false, false, tgt⟩
  | .amo _ | .upd _ => ⟨true, true, false, tgt⟩
  | _ => ⟨false, true, false, tgt⟩

/-- The cached translation that serves a request (R218, R219): one without D does not serve a write. -/
def State.cached (s : State) (q : Req) : Option TEntry :=
  let part := (s.launch q.firing.launch).part
  (s.cluster q.firing.cl).tcache.find? fun e =>
    decide (e.part = part ∧ e.base ≤ q.addr ∧ q.addr < e.base + e.size) && (!(s.needOf q).w || e.leaf.testBit 7)

/-- A translated request reaches its home slice or portal (R221). -/
def State.place (s : State) (q : Req) (t : GTarget) : State :=
  let s1 := s.dropReq q.id
  { s1 with reqs := s1.reqs ++ [{ q with at_ := .placed t }] }

/-! The portal (R221, R349, R399, R403, R404). -/

/-- Whether a target is the host. -/
def GTarget.isHost : GTarget → Bool
  | .host _ _ => true
  | .hbm _ _ => false
  | .peer _ _ _ => false

/-- The code of an atomic or update at the portal (Table 16.4; log 149): of a return or none, and signed or unsigned; an add of UPDG goes to
the host as a fetch-add. -/
def portalCode (host : Bool) (k : AccKind) (ty : Ty) : Nat :=
  let sign := if isSigned ty then 0 else 1
  match k with
  | .load => codeRead
  | .amo .swap => 2
  | .amo .cas => 3
  | .amo .add => 4
  | .amo .min => 5 + sign
  | .amo .max => 7 + sign
  | .upd .min => 10 + sign
  | .upd .max => 12 + sign
  | .upd .and => 14
  | .upd .or => 15
  | .upd .xor => 16
  | .upd _ => if host then 4 else 9
  | _ => codeWrite

/-- The operands of a request at the portal: the compare value first (Table 16.4). -/
def Req.operands (q : Req) : List Byte :=
  let w := 8 * q.bytes
  match q.kind with
  | .load => []
  | .amo .cas => leBytes q.bytes (atomicWord q.ty w q.cmp) ++ leBytes q.bytes (atomicWord q.ty w q.data)
  | .amo _ | .upd _ => leBytes q.bytes (atomicWord q.ty w q.data)
  | _ => leBytes q.bytes q.data.toNat

/-- Whether a request takes a tag at the portal. -/
def AccKind.atomic : AccKind → Bool
  | .amo _ | .upd _ => true
  | _ => false

/-- The tags that a die's portal has in use: those of its requests and of its engine transfers. -/
def State.tagsUsed (s : State) (die : Nat) : List Nat :=
  (s.reqs.filterMap fun q => match q.at_ with
    | .sent _ r => if q.firing.cl / 128 = die then r.tag else none
    | _ => none) ++ s.portal.filterMap fun x => if x.client.cl / 128 = die then x.route.bind Route.tag else none

/-- The lowest of a portal's 4,096 tags that is not in use (R349). -/
def State.freeTag (s : State) (die : Nat) : Option Nat :=
  let used := s.tagsUsed die
  (countFrom 0 4096).find? fun n => decide (n ∉ used)

/-- How sending ends: the request waits (for a tag, or for its page), its way is not valid, or it goes. -/
inductive SendRes where
  | wait
  | noWay
  | go (r : Route) (s : State)
  deriving DecidableEq, Repr

/-- Sends a request of a cluster to a target; an atomic takes a tag. -/
def State.portalSend (s : State) (cl : Nat) (t : GTarget) (atomic : Bool) (code n : Nat) (bs : List Byte) : SendRes :=
  let tag := if atomic then s.freeTag (cl / 128) else none
  if !s.mayReach (cl / 128) t || (atomic && tag.isNone) then .wait
  else
    match s.routeTo cl t tag with
    | none => .noWay
    | some (r, s1) => .go r (s1.sendOut (portalMsg r code t n bs))

/-- Sends a request that waits at the portal. -/
def State.sendReq (s : State) (q : Req) (t : GTarget) : State :=
  match s.portalSend q.firing.cl t q.kind.atomic (portalCode t.isHost q.kind q.ty) q.bytes q.operands with
  | .wait => s
  | .noWay => s.reqFault q .protect 0
  | .go r s1 => s1.putReq { q with at_ := .sent t r }

/-- An engine's transfer of a number. -/
def State.tx (s : State) (id : Nat) : Option PortalTx := s.portal.find? fun x => decide (x.id = id)
/-- Replaces a transfer. -/
def State.putTx (s : State) (x : PortalTx) : State := { s with portal := s.portal.map fun y => if y.id = x.id then x else y }
/-- Removes a transfer. -/
def State.dropTx (s : State) (id : Nat) : State := { s with portal := s.portal.filter fun x => decide (x.id ≠ id) }

/-- The width of an add. -/
def AddTy.bytes : AddTy → Nat
  | .i64 => 8
  | _ => 4

/-- Sends an engine's transfer: an add goes as a fetch-add to the host, and as an add without return to a peer (Table 16.4). -/
def State.sendTx (s : State) (x : PortalTx) : State :=
  let (atomic, code, bs) := match x.op with
    | .read => (false, codeRead, [])
    | .write bs => (false, codeWrite, bs)
    | .add ty v => (true, if x.target.isHost then 4 else 9, leBytes ty.bytes v.toNat)
  if x.route.isSome ∨ x.answer.isSome then s
  else
    match s.portalSend x.client.cl x.target atomic code x.n bs with
    | .wait => s
    | .noWay => s.putTx { x with answer := some none }
    | .go r s1 => s1.putTx { x with route := some r }

/-- MEMORY_ACCESS_PERFORMED (R224, R352): a request is performed at its bank, weight group or home slice; a G request not yet
translated takes a cached translation (R219), and one at the portal is sent. -/
def execMemoryAccessPerformed (r : Nat) (s : State) : Host.Outcome State Fault Refusal :=
  .next (match s.req r with
    | none => match s.tx r with
      | some x => s.sendTx x
      | none => s
    | some q =>
      match q.at_, q.space with
      | .issued, .l => s.bankPerform q q.firing.cl q.addr
      | .issued, .n =>
        match (s.launch q.firing.launch).panel.place q.addr with
        | some (cl, off) => s.bankPerform q cl off
        | none => s.reqFault q .protect 0
      | .issued, .w => s.weightPerform q
      | .issued, .g =>
        match s.cached q with
        | none => s
        | some e =>
          match s.checkLeaf e.part e.leaf (s.needOf q) with
          | some (k, d) => s.reqFault q k d
          | none => s.place q (leafTarget e.leaf e.base q.addr)
      | .placed (.hbm pa key), _ => if q.kind = .load then s.slicePerformLoad q pa key else s
      | .placed t, _ => s.sendReq q t
      | .sent _ _, _ => s)

/-- Enters a translation in a cluster's cache of 256 (R219). -/
def Cluster.cacheLeaf (c : Cluster) (e : TEntry) : Cluster :=
  let rest := c.tcache.filter fun x => !(decide (x.part = e.part ∧ x.base = e.base))
  { c with tcache := (rest ++ [e]).drop (rest.length + 1 - 256) }

/-- TRANSLATION_WALK (R216 to R219, R222): checks 3 to 5, then A and D, then the place. -/
def execTranslationWalk (r : Nat) (s : State) : Host.Outcome State Fault Refusal :=
  .next (match s.req r with
    | none => s
    | some q =>
      match q.at_, q.space with
      | .issued, .g =>
        let part := (s.launch q.firing.launch).part
        match s.walk part q.addr with
        | (.bad, s1) => s1.reqFault q .translate 0
        | (.badKey k, s1) => s1.reqFault q .key (BitVec.ofNat 64 k)
        | (.leaf entry w base size, s1) =>
          match s1.checkLeaf part w (s1.needOf q) with
          | some (k, d) => s1.reqFault q k d
          | none =>
            let wr := (s1.needOf q).w
            let s2 := s1.touchLeaf part entry wr
            (s2.onCluster q.firing.cl fun c => c.cacheLeaf ⟨part, base, size, Nat.lor w (if wr then 192 else 64)⟩).place q
              (leafTarget w base q.addr)
      | _, _ => s)

/-- The width of a TY of an atomic. -/
def tyBytes : Ty → Nat
  | .i64 => 8
  | .u64 => 8
  | _ => 4

/-- Whether two UPDGs may merge (R347).  An add whose width exceeds its TY's is not merged: read under TY one by one, the contributors
would leave another value (log 148). -/
def State.mergeable (s : State) (q p : Req) : Bool :=
  match q.kind, p.kind, q.at_, p.at_ with
  | .upd a, .upd b, .placed (.hbm x k), .placed (.hbm y j) =>
    decide (a = b) && decide (a ≠ .fadd) && decide (x = y ∧ k = j ∧ q.bytes = p.bytes ∧ q.id ≠ p.id ∧
      (s.launch q.firing.launch).part = (s.launch p.firing.launch).part) && decide (q.ty = p.ty) && decide (a ≠ .add ∨ q.bytes ≤ tyBytes q.ty)
  | _, _, _, _ => false

/-- Merges request q into request p: p then carries op(p, q) and q's completions (R347). -/
def State.mergeInto (s : State) (q p : Req) (op : UpdOp) : State :=
  let w := 8 * q.bytes
  let v := updNew op q.ty w (updWord op p.ty w p.data) (updWord op q.ty w q.data)
  (s.dropReq q.id).putReq { p with data := BitVec.ofNat 64 v, merged := p.merged ++ [(q.id, q.firing)] ++ q.merged }

/-- A store, atomic or update applied at its home slice (R220, R221, R230). -/
def State.sliceApply (s : State) (q : Req) (pa key : Nat) : State :=
  let c := s.clientOf q.firing
  let w := 8 * q.bytes
  let x := leNat (s.hbmRead key pa q.bytes)
  let put := fun (s : State) (v : Nat) =>
    ((s.hbmWrite c.part key pa (leBytes q.bytes v)).meterOf c (dieOf pa) 8 q.bytes).crossing c (q.firing.cl / 128) (dieOf pa) q.bytes
  match q.kind with
  | .store => (put s q.data.toNat).reqDone q none
  | .amo op =>
    if s.poisoned pa q.bytes then s.reqFault q .poison 0
    else ((put s (amoNew op q.ty w x q.data q.cmp)).meterOf c (dieOf pa) 7 q.bytes).reqDone q (some (amoOld q.ty w x))
  | .upd op =>
    if s.poisoned pa q.bytes then s.reqFault q .poison 0
    else ((put s (updMem op q.ty w x q.data)).meterOf c (dieOf pa) 7 q.bytes).reqDone q none
  | _ => s

/-- HOME_SLICE_APPLY (R221, R347): a home slice applies a store, atomic or update, or merges it with another that waits. -/
def execHomeSliceApply (r : Nat) (s : State) : Host.Outcome State Fault Refusal :=
  .next (match s.req r with
    | none => s
    | some q =>
      match q.at_ with
      | .placed (.hbm pa key) =>
        if s.stackHeld pa || !s.firstAt q pa || decide (q.kind = .load) then s
        else
          match q.kind, s.reqs.filter (s.mergeable q) with
          | .upd op, p :: ps =>
            let (k, s1) := s.choose (ps.length + 2)
            match nth (p :: ps) k with
            | some other => s1.mergeInto q other op
            | none => s1.sliceApply q pa key
          | _, _ => s.sliceApply q pa key
      | _ => s)

/-- LINE_FULL_WAKE (R211): the firings that wait for a full line are re-issued. -/
def execLineFullWake (cl line : Nat) (s : State) : Host.Outcome State Fault Refusal :=
  .next (if (s.cluster cl).lineEmpty line then s
    else
      match (s.cluster cl).owner with
      | none => s
      | some l =>
        if (s.launch l).st = .running ∨ (s.launch l).st = .retiring then
          s.resumeParked l ((s.launch l).parked.filter fun p => decide (p.why = .line cl line))
        else s)

/-- REFRESH_WINDOW_END (R214): the LDWs that wait at a group are performed once its window has ended. -/
def execRefreshWindowEnd (die group : Nat) (s : State) : Host.Outcome State Fault Refusal :=
  .next ((s.reqs.filter fun q => decide (q.space = .w ∧ q.addr / 2 ^ 28 = die ∧ groupOf q.addr = group)).foldl
    (fun s q => s.weightPerform q) s)

/-- Counts the payload of a request's portal transfer (R396). -/
def State.portalMeters (s : State) (q : Req) (t : GTarget) : State :=
  match q.kind with
  | .load => s.portalBytes (s.clientOf q.firing) t 0 q.bytes
  | .amo _ => s.portalBytes (s.clientOf q.firing) t q.bytes q.bytes
  | _ => s.portalBytes (s.clientOf q.firing) t q.bytes 0

/-- The answer to a request that the portal has sent (R224, R349): an error faults with PROTECT. -/
def State.answerReq (s : State) (q : Req) (t : GTarget) (ok : Bool) (data : BitVec 64) : State :=
  let v := data.toNat % 2 ^ (8 * q.bytes)
  if !ok then s.reqFault q .protect 0
  else
    match q.kind with
    | .load => (s.portalMeters q t).reqDone q (some (loadValue q.ty q.bytes v))
    | .amo _ => (s.portalMeters q t).reqDone q (some (amoOld q.ty (8 * q.bytes) v))
    | _ => (s.portalMeters q t).reqDone q none

/-- The answer to an engine's transfer. -/
def State.answerTx (s : State) (x : PortalTx) (ok : Bool) (data : BitVec 64) : State :=
  if x.route.isNone ∨ x.answer.isSome then s
  else
    let (sent, got) := match x.op with
      | .read => (0, x.n)
      | _ => (x.n, 0)
    let s1 := if ok then s.portalBytes x.client x.target sent got else s
    s1.putTx { x with route := none, answer := some (if ok then some data else none) }

/-- PORTAL_COMPLETION (R221, R224, R349): the host's or peer's answer to what the portal has sent. -/
def execPortalCompletion (r : Nat) (ok : Bool) (data : BitVec 64) (s : State) : Host.Outcome State Fault Refusal :=
  .next (match s.req r with
    | none => match s.tx r with
      | some x => s.answerTx x ok data
      | none => s
    | some q =>
      match q.at_ with
      | .sent t _ => s.answerReq q t ok data
      | _ => s)

/-- PRI_PAGE_REQUEST (R399): the host answers for a page that a waiting access needs; granted, the page is cached and the access goes on
without a record, and refused, it faults with PROTECT. -/
def execPriPageRequest (r : Nat) (granted : Bool) (s : State) : Host.Outcome State Fault Refusal :=
  .next (match s.req r with
    | none => match s.tx r with
      | some x => match x.target with
        | .host bus _ =>
          if x.route.isSome ∨ x.answer.isSome then s
          else if granted then s.cachePage (x.client.cl / 128) bus else s.putTx { x with answer := some none }
        | _ => s
      | none => s
    | some q =>
      match q.at_ with
      | .placed (.host bus _) => if granted then s.cachePage (q.firing.cl / 128) bus else s.reqFault q .protect 0
      | _ => s)

end Sys2Proof.Machine
end

