-- ==== Sys2Proof/Machine/Queues.lean ====
section
/-! DEFINITION. Machine/Queues.lean: knot handles and the bank's operations (R110, R130, R332 to R343), and the queue protocol
of R113 as a producer inside the device runs it. -/

namespace Sys2Proof.Machine

/-! Handles (R110). -/

/-- A knot's key: DIE, CLUSTER and INDEX of its handle. -/
def knotKey (h : Word) : Nat := h.toNat % 2 ^ 21
/-- The PART of a handle. -/
def knotPart (h : Word) : Nat := h.toNat / 2 ^ 21 % 2 ^ 6
/-- The cluster whose bank holds a knot. -/
def bankOf (key : Nat) : Nat := key / 2 ^ 12
/-- The handle of a knot of a partition. -/
def handleOf (part key : Nat) : Word := BitVec.ofNat 64 (part * 2 ^ 21 + key)

/-- A knot. -/
def State.knot (s : State) (k : Nat) : Knot := getAt s.knots k Knot.blank
/-- Replaces a knot. -/
def State.setKnot (s : State) (k : Nat) (x : Knot) : State := { s with knots := setAt s.knots k x Knot.blank }

/-- The key of a pool knot on the clusters of a footprint, in footprint order (R130). -/
def poolKeyOn (cs : List Nat) (j : Nat) : Nat := ((nth cs (j % cs.length)).getD 0) * 2 ^ 12 + j / cs.length

/-- The key of a panel's pool knot (R130). -/
def Panel.poolKey (p : Panel) (j : Nat) : Nat := poolKeyOn p.all j

/-- The handle that a bind entry names in a launch (R100, R130). -/
def State.bindHandle (s : State) (l : Nat) (b : Bind) : Word :=
  let x := s.launch l
  if b.pool then handleOf x.part (x.panel.poolKey (b.handle % 2 ^ 12)) else BitVec.ofNat 64 b.handle

/-- A standing knot of a partition (R333). -/
def State.isStanding (s : State) (part : Nat) (h : Word) : Bool :=
  let k := s.knot (knotKey h)
  decide (h.toNat < 2 ^ 27) && decide (knotPart h = part) && decide (k.owner = .standing) && decide (k.opart.toNat = part)

/-- Whether a launch reaches a knot (R333). -/
def State.reaches (s : State) (l : Nat) (h : Word) : Bool :=
  let x := s.launch l
  let k := s.knot (knotKey h)
  s.isStanding x.part h || (decide (h.toNat < 2 ^ 27) && decide (knotPart h = x.part) && decide (k.owner = .pool) &&
    decide (k.opart.toNat = x.part) && decide (k.opanel.toNat = x.panel.home))

/-! The bank step (R338, R339, R343). -/

/-- The largest value a knot may take. -/
def Knot.limitOf (k : Knot) : Nat := if k.limit = 0 then 2 ^ 64 - 1 else k.limit.toNat

/-- Tells each cluster of the waiter directory whose threshold is met (R339). -/
def State.notify (s : State) (key : Nat) : State :=
  let k := s.knot key
  s.onCluster (bankOf key) fun c => { c with dir := c.dir.map fun d =>
    if d.knot = key ∧ d.threshold ≤ k.value.toNat then { d with sent := some (k.value, k.data) } else d }

/-- Fires an armed trigger whose threshold is reached: it is disarmed and its record freed in the same step (R343). -/
def State.fireTrigger (s : State) (key : Nat) : State :=
  let k := s.knot key
  if k.armed ∧ k.tv.toNat ≤ k.value.toNat then
    let mine := fun (t : Trigger) => decide (t.knot = key)
    (s.setKnot key { k with armed := false }).onCluster (bankOf key) fun c =>
      { c with triggers := c.triggers.filter fun t => !mine t, fired := c.fired ++ c.triggers.filter mine }
  else s

/-- Re-evaluates a knot's waiters and trigger after a request (R332). -/
def State.reevaluate (s : State) (key : Nat) : State := (s.notify key).fireTrigger key

/-- The add of R338; none where it would pass the limit. -/
def State.knotAdd (s : State) (key : Nat) (amount : Nat) (data : Option Word) : Option State :=
  let k := s.knot key
  if k.value.toNat + amount > k.limitOf then none
  else some ((s.setKnot key { k with value := k.value + BitVec.ofNat 64 amount, data := data.getD k.data }).reevaluate key)

/-- How a completion add of an engine or the scheduler ends (R242). -/
inductive AddRes where
  | done | limit | handle
  deriving DecidableEq, Repr

/-- The bytes of a knot request on the knot network (log 32). -/
def knotBytes : Nat := 16

/-- A completion add that leaves from die `frm`: "no knot" does nothing; a knot out of reach, or one at its limit, is left unchanged
(R242). -/
def State.engineAdd (s : State) (frm : Nat) (l : Option Nat) (part : Nat) (h : Word) (amount : Nat) : AddRes × State :=
  if h = noKnot then (.done, s)
  else
    let ok := match l with
      | some l => s.reaches l h
      | none => s.isStanding part h
    if !ok then (.handle, s)
    else
      match s.knotAdd (knotKey h) amount none with
      | none => (.limit, s)
      | some s1 =>
        let c : Client := ⟨l, part, frm * 128, true⟩
        let d := bankOf (knotKey h) / 128
        (.done, (s1.meterOf c d 15 1).crossing c frm d knotBytes)

/-- The fault of a completion add that was not made (R242). -/
def AddRes.kind : AddRes → Option FaultKind
  | .done => none
  | .limit => some .knotLimit
  | .handle => some .knotHandle

/-! Queues (R111 to R113). -/

/-- The header address that an enabled table entry names. -/
def entryAddr (v : Word) : Nat := v.toNat / 64 * 64

/-- Whether an address is the header of an enabled entry of a table. -/
def enabledIn (tbl : List (Nat × Word)) (a : Nat) : Bool :=
  tbl.any fun e => e.2.getLsbD 0 && decide (entryAddr e.2 = a)

/-- The 64-bit words of bytes. -/
def wordsOf (bs : List Byte) : List Word := (chunks 8 (bs.length / 8) bs).map fun c => BitVec.ofNat 64 (leNat c)

/-- The bytes of 64-bit words. -/
def bytesOf (ws : List Word) : List Byte := ws.flatMap fun w => leBytes 8 w.toNat

/-- Word `i` of a list. -/
def wordAt (ws : List Word) (i : Nat) : Word := (nth ws i).getD 0

/-- The number of slots that LOG2 gives (R112). -/
def ringSize (log2 : Nat) : Nat := if log2 = 0 then 65536 else 2 ^ log2

/-! Headers (R111, R112, R239). -/

/-- The fields of a launch queue's header (Table 5.1). -/
def headerOf (ws : List Word) : QueueHdr :=
  let w3 := (wordAt ws 3).toNat
  ⟨wordAt ws 1, (wordAt ws 2).toNat, bitsOf w3 32 32, w3.testBit 20, bitsOf w3 16 2, bitsOf w3 8 6, bitsOf w3 0 4, (wordAt ws 4).toNat, 0⟩

/-- Reads a queue's header. -/
def State.readHeader (s : State) (c : Client) (a : Nat) : Option QueueHdr × State :=
  match s.gReadAll c a 64 Need.read with
  | (.ok bs, s1) => (some (headerOf (wordsOf bs)), s1)
  | (.error _, s1) => (none, s1)

/-- Whether a header's LOG2, PART and publish knot are accepted (R112). -/
def State.headerFits (s : State) (part : Nat) (h : QueueHdr) : Bool :=
  decide (h.log2 = 0 ∨ 4 ≤ h.log2) && decide (h.part = part) && s.isStanding part h.publish

/-- A copy queue's header, with its serving cluster in RECBASE's place: accepted where that lies in the allotment (Table 11.2, R239). -/
def State.copyHeader (s : State) (part : Nat) (h : QueueHdr) : Option QueueHdr :=
  let cl := h.wdog / 2 ^ 30 * 128 + h.wdog / 2 ^ 23 % 128
  if s.headerFits part h && (s.part part).allot.getLsbD cl then some { h with recbase := cl } else none

/-- The VALUE of the knot that a handle names. -/
def State.knotValue (s : State) (h : Word) : Nat := (s.knot (knotKey h)).value.toNat

/-- Whether a queue has had a publication since its header was last read. -/
def State.published (s : State) (h : QueueHdr) : Bool := decide (h.seen ≠ s.knotValue h.publish)

/-- A header read again after a publication: changed fields that `fits` accepts take effect at this publication or at another, freely
chosen (R112). -/
def State.reread (s : State) (c : Client) (a : Nat) (h : QueueHdr) (fits : QueueHdr → Option QueueHdr) : QueueHdr × State :=
  let keep := { h with seen := s.knotValue h.publish }
  match s.readHeader c a with
  | (none, s1) => (keep, s1)
  | (some n, s1) =>
    let (k, s2) := s1.choose 2
    match (if k = 0 then none else fits n) with
    | some n => ({ n with read := h.read, seen := s2.knotValue n.publish }, s2)
    | none => (keep, s2)

/-! R113's steps. -/

/-- How an access to a queue fails: the fault, its detail, and the address (Table 18.2). -/
abbrev QErr := FaultKind × Word × Nat

/-- Reads a word of a queue. -/
def State.queueRead (s : State) (c : Client) (a : Nat) (need : Need) : Except QErr (Nat × State) :=
  match s.gRead c a 8 need with
  | (.error e, _) => .error (e.1, e.2, a)
  | (.ok bs, s1) => .ok (leNat bs, s1)

/-- Writes bytes of a queue. -/
def State.queueWrite (s : State) (c : Client) (a : Nat) (bs : List Byte) (need : Need) : Except QErr State :=
  match s.gWrite c a bs need with
  | .error e => .error (e.1, e.2, a)
  | .ok s1 => .ok s1

/-- Step 1 of R113: the claim, a fetch-add on RESERVE. -/
def State.queueClaim (s : State) (c : Client) (q : Nat) : Except QErr (Nat × State) :=
  match s.queueRead c q ⟨true, true, false, 3⟩ with
  | .error e => .error e
  | .ok (i, s1) =>
    match s1.queueWrite c q (leBytes 8 (i + 1)) ⟨true, true, false, 3⟩ with
    | .error e => .error e
    | .ok s2 => .ok (i, s2)

/-- Step 2: whether the ring has room for index i. -/
def State.queueRoom (s : State) (c : Client) (q i : Nat) : Except QErr (Bool × State) :=
  match s.queueRead c (q + 16) Need.read with
  | .error e => .error e
  | .ok (rd, s1) =>
    match s1.queueRead c (q + 24) Need.read with
    | .error e => .error e
    | .ok (w3, s2) => .ok (decide ((BitVec.ofNat 64 i - BitVec.ofNat 64 rd).toNat < ringSize (w3 % 16)), s2)

/-- Steps 3 to 5: the packet with VALID 0, then VALID, then the release add on the publish knot, whose end is answered. -/
def State.queuePublish (s : State) (c : Client) (q i : Nat) (packet : List Word) : Except QErr (AddRes × Word × State) :=
  match s.queueRead c (q + 24) Need.read with
  | .error e => .error e
  | .ok (w3, s1) =>
    let slot := q + 64 + i % ringSize (w3 % 16) * 64
    let w0 := (wordAt packet 0).toNat % 2 ^ 63
    match s1.queueWrite c slot (bytesOf (BitVec.ofNat 64 w0 :: packet.drop 1)) Need.write with
    | .error e => .error e
    | .ok s2 =>
      match s2.queueWrite c slot (leBytes 8 (w0 + 2 ^ 63)) Need.write with
      | .error e => .error e
      | .ok s3 =>
        match s3.queueRead c (q + 8) Need.read with
        | .error e => .error e
        | .ok (k, s4) =>
          let (r, s5) := s4.engineAdd (c.cl / 128) c.launch c.part (BitVec.ofNat 64 k) 1
          .ok (r, BitVec.ofNat 64 k, s5)

end Sys2Proof.Machine
end

