-- ==== Sys2Proof/Machine/Knots.lean ====
section
/-! DEFINITION. Machine/Knots.lean: the knot instructions, the knot bank, release sweeps, waiters, triggers and the knot window
(spec 16: R332 to R346; spec 17: R358 to R360). -/

namespace Sys2Proof.Machine

/-- The smallest of a list of numbers. -/
def smallest : List Nat → Option Nat
  | [] => none
  | x :: xs => match smallest xs with
    | none => some x
    | some y => some (if x ≤ y then x else y)

/-! Tracked writes (R358, R359). -/

/-- The knot that a range is bound to, if any. -/
def State.boundKnot (s : State) (l range : Nat) : Option Word :=
  match s.pattern l with
  | some p => (p.binds.find? fun b => decide (b.range = range)).map (s.bindHandle l)
  | none => none

/-- Whether an access of a range, with REL or without, is tracked for a knot (R358). -/
def State.trackedFor (s : State) (l range : Nat) (rel : Bool) (h : Word) : Bool :=
  rel || decide (s.boundKnot l range = some h)

/-- The RANGE of a swatch. -/
def State.swatchRange (s : State) (l sw : Nat) : Option Nat :=
  ((s.pattern l).bind fun p => nth p.swatches sw).map Swatch.range

/-- Whether an instruction that is issued and not yet performed is a write tracked for a knot (R358). -/
def State.trackedInstr (s : State) (f : Firing) (h : Word) : Bool :=
  let m := fun (x : FormM) => s.trackedFor f.launch x.range.toNat x.rel h
  match decode f.word with
  | .ok (.stl x _) => m x
  | .ok (.stn x _) => m x
  | .ok (.stg x _) => m x
  | .ok (.feclr x _) => m x
  | .ok (.feset x _) => m x
  | .ok (.amol x _ _ _) => m x
  | .ok (.amog x _ _ _) => m x
  | .ok (.updg x _ _) => m x
  | .ok (.tst x) => x.flg.getLsbD 0
  | .ok (.tcarrySave x) => x.flg.getLsbD 3
  | _ => false

/-- The tensor commands of a cluster that are not performed. -/
def Cluster.tensorOps (c : Cluster) : List Firing := c.tensor.fifo ++ c.tensor.aside ++ (c.tensor.cur.map fun r => r.firing).toList

/-- The clusters of a launch: those of its panel, or while it is saved those of its save area (R369). -/
def State.clustersOf (s : State) (l : Nat) : List Cluster :=
  match (s.launch l).saved with
  | some v => v.clusters.map Prod.snd
  | none => (s.launch l).panel.all.map s.cluster

/-- Every operation of a launch that is chosen and not performed, with its number: requests and what each carries
(R347), parked operations, and tensor commands. -/
def State.issuedOps (s : State) (l : Nat) : List (Nat × Firing) :=
  let reqs := (s.reqs.flatMap Req.parts).filter fun o => decide (o.2.launch = l)
  let parked := (s.launch l).parked.map fun p => (p.id, p.firing)
  let named := fun (f : Firing) => f.opId.map fun i => (i, f)
  let cs := s.clustersOf l
  reqs ++ parked ++ cs.flatMap fun c => c.tensorOps.filterMap named

/-- The writes that a release sweep of an instance captures (R359): its whole passage is one instant, in an A-cycle after that of the
choice (log 33). -/
def State.capture (s : State) (f : Firing) (h : Word) : List Nat :=
  ((s.issuedOps f.launch).filter fun o => decide (o.2.tag.bobbin = f.tag.bobbin) && s.trackedInstr o.2 h).map Prod.fst

/-- Whether every captured write has been performed: one that a resume discarded never is (R368; log 34). -/
def State.allPerformed (s : State) (l : Nat) (ids : List Nat) : Bool :=
  let open_ := (s.issuedOps l).map Prod.fst
  ids.all fun i => decide (i ∉ open_) && decide (i ∉ (s.launch l).dropped)

/-! Requests. -/

/-- Sends a knot request to its bank (R335). -/
def State.knotRequest (s : State) (f : Firing) (h : Word) (op : KnotOp) (release : Bool) : State :=
  let id := f.opId.getD s.serial
  { s with serial := s.serial + 1, kreqs := s.kreqs ++ [⟨id, { f with opId := some id }, h, op, release, none, s.aCycle⟩] }

/-- Whether a format K slot's order is a release. -/
def releasesOf (x : FormK) : Bool := decide (x.order = .release)

/-- KADD (R338). -/
def execKadd (x : FormK) (s : State) : Host.Outcome State Fault Refusal :=
  s.fireHeld x.pm fun s f =>
    s.knotRequest f (s.opKA f x) (.add (s.opKB f x) (if x.sc = .zero then none else some (s.opKC f x))) (releasesOf x)

/-- KWAIT (R339). -/
def execKwait (x : FormK) (s : State) : Host.Outcome State Fault Refusal :=
  s.fire x.pm fun s f => s.knotRequest f (s.opKA f x) (.wait (s.opKB f x)) false

/-- KREAD (R340): SB's value is ignored. -/
def execKread (x : FormK) (s : State) : Host.Outcome State Fault Refusal :=
  s.fire x.pm fun s f => s.knotRequest f (s.opKA f x) .read false

/-- KLIMIT (R341). -/
def execKlimit (x : FormK) (s : State) : Host.Outcome State Fault Refusal :=
  s.fireHeld x.pm fun s f => s.knotRequest f (s.opKA f x) (.limit (s.opKB f x)) false

/-- KARM (R342): the block is read when it is issued, with checks 2 to 6 of Table 10.4. -/
def execKarm (x : FormK) (s : State) : Host.Outcome State Fault Refusal :=
  s.fireHeld x.pm fun s f =>
    let a := s.opKC f x
    if a.toNat % 128 ≠ 0 then s.faultFiring f .align 0 a
    else
      match (if a.toNat < 2 ^ 57 then s.gRead (s.clientOf f) a.toNat 128 Need.read else (.error (.translate, 0), s)) with
      | (.error e, s1) => s1.faultFiring f e.1 e.2 a
      | (.ok bs, s1) => s1.knotRequest f (s1.opKA f x) (.arm (s1.opKB f x) (wordsOf bs)) (releasesOf x)

/-- KALLOC (R344). -/
def execKalloc (x : FormK) (s : State) : Host.Outcome State Fault Refusal :=
  s.fireHeld x.pm fun s f => s.knotRequest f noKnot .alloc false

/-- KFREE (R344). -/
def execKfree (x : FormK) (s : State) : Host.Outcome State Fault Refusal :=
  s.fireHeld x.pm fun s f => s.knotRequest f (s.opKA f x) .free false

/-! The trigger block (R342). -/

/-- Bits lo to hi of a word are zero. -/
def zeroBits (w : Word) (lo hi : Nat) : Bool := decide (bitsOf w.toNat lo (hi + 1 - lo) = 0)

/-- Reserved fields of a copy packet (Table 11.1) are zero. -/
def copyFieldsClean (p : List Word) : Bool :=
  zeroBits (wordAt p 0) 54 63 && zeroBits (wordAt p 0) 12 31 && zeroBits (wordAt p 1) 60 63 && zeroBits (wordAt p 2) 60 63 &&
    zeroBits (wordAt p 3) 55 63

/-- Reserved fields and codes of a copy packet (Table 11.1, R232): zero, and within their ranges. -/
def copyPacketClean (p : List Word) : Bool :=
  let op := bitsOf (wordAt p 3).toNat 48 4
  let sop := bitsOf (wordAt p 3).toNat 52 3
  copyFieldsClean p && decide (bitsOf (wordAt p 1).toNat 57 3 ≤ 3) && decide (bitsOf (wordAt p 2).toNat 57 3 ≤ 4) && decide (op ≤ 7) &&
    (if op = 5 then decide (sop ≤ 2) else decide (sop = 0)) &&
    (decide (op < 3) || decide (5 < op) || zeroBits (wordAt p 7) 52 63)

/-- Reserved fields of a launch packet (Table 5.2) are zero. -/
def launchFieldsClean (p : List Word) : Bool :=
  zeroBits (wordAt p 0) 40 62 && zeroBits (wordAt p 0) 10 31 && zeroBits (wordAt p 2) 51 63 && zeroBits (wordAt p 2) 14 31 &&
    zeroBits (wordAt p 2) 4 7

/-- Reserved fields and codes of a launch packet (Table 5.2). -/
def launchPacketClean (p : List Word) : Bool := launchFieldsClean p && decide (bitsOf (wordAt p 2).toNat 12 2 ≤ 1)

/-- Whether a trigger block keeps R342, for a knot of a partition: its cases alone; R240 checks the rest at issue. -/
def triggerBlockOk (b : List Word) (opart : Nat) : Bool :=
  let w0 := (wordAt b 0).toNat
  let rest := (b.drop 9).all fun w => decide (w = 0)
  rest && decide (bitsOf w0 32 6 = opart) &&
    (if w0 % 256 = 1 then launchFieldsClean (b.take 8) && decide (wordAt b 8 ≠ 0)
     else if w0 % 256 = 2 then
       copyFieldsClean (b.take 8) && decide (bitsOf w0 8 1 = 0 ∧ bitsOf w0 10 2 = 0) &&
         decide (bitsOf (wordAt b 3).toNat 48 4 ≠ 7 ∧ bitsOf (wordAt b 2).toNat 57 3 ≠ 4)
     else false)

/-- The lowest free trigger record of a bank of 256. -/
def freeRecord (ts : List Trigger) : Option Nat := indexOf (fun n => ts.all fun t => decide (t.slot ≠ n)) (countFrom 0 256) 0

/-! The bank (R332 to R344). -/

/-- Whether a knot request must wait for one of its station to the same bank whose firing was chosen earlier (R332; log 35). -/
def State.behind (s : State) (q : KReq) : Bool :=
  let bank := bankOf (knotKey q.handle)
  s.kreqs.any fun p => decide (p.id < q.id ∧ p.firing.cl = q.firing.cl ∧ p.firing.st = q.firing.st ∧ p.firing.launch = q.firing.launch ∧
      bankOf (knotKey p.handle) = bank)

/-- Removes a knot request. -/
def State.dropKreq (s : State) (id : Nat) : State := { s with kreqs := s.kreqs.filter fun r => decide (r.id ≠ id) }

/-- A reply on a group, unless the launch no longer takes replies (R185). -/
def State.knotReply (s : State) (f : Firing) (o1 : Bool) (cls : TokClass) (v : Word) : State :=
  if s.delivers f.launch then s.replyGroup f o1 (f.carry cls v) else s

/-- Enters a waiter in the bank's directory of 8,192, or finds it full (R339). -/
def State.dirEnter (s : State) (key cl threshold : Nat) : Bool × State :=
  let b := s.cluster (bankOf key)
  if b.dir.any fun d => decide (d.knot = key ∧ d.cl = cl) then
    (true, s.onCluster (bankOf key) fun c => { c with dir := c.dir.map fun d =>
      if d.knot = key ∧ d.cl = cl ∧ threshold < d.threshold then { d with threshold := threshold } else d })
  else if b.dir.length < 8192 then
    (true, s.onCluster (bankOf key) fun c => { c with dir := c.dir ++ [⟨key, cl, threshold, none⟩] })
  else (false, s)

/-- Changes the number of waiters on a knot. -/
def State.addWaiters (s : State) (key : Nat) (up : Bool) (n : Nat) : State :=
  let k := s.knot key
  s.setKnot key { k with waiters := if up then k.waiters + BitVec.ofNat 16 n else k.waiters - BitVec.ofNat 16 n }

/-- A KWAIT at its bank: it returns at once, or parks as a waiter (R339). -/
def State.bankWait (s : State) (f : Firing) (h v : Word) : State :=
  let key := knotKey h
  let k := s.knot key
  if v.toNat ≤ k.value.toNat then (s.knotReply f false .value k.value).knotReply f true .value k.data
  else
    let (dir, s1) := (s.addWaiters key true 1).dirEnter key f.cl v.toNat
    s1.park f (.kwait h.toNat v.toNat dir)

/-- The pool index of a handle in a launch's panel, if it names one (R130). -/
def State.poolIndex (s : State) (l : Nat) (h : Word) : Option Nat :=
  let x := s.launch l
  let n := ((s.pattern l).map Pattern.knots).getD 0
  (countFrom 0 n).find? fun j => decide (handleOf x.part (x.panel.poolKey j) = h)

/-- A knot as KALLOC and the pool's reset leave it (Table 16.1). -/
def poolKnot (part home : Nat) : Knot :=
  { Knot.blank with owner := .pool, opart := BitVec.ofNat 6 part, opanel := BitVec.ofNat 10 home }

/-- KALLOC at the panel's pool (R344). -/
def State.bankAlloc (s : State) (f : Firing) : State :=
  let x := s.launch f.launch
  let n := ((s.pattern f.launch).map Pattern.knots).getD 0
  match (countFrom 0 n).find? fun j => decide (j ∉ x.poolTaken ∧ j ∉ x.poolOut) with
  | none => s.trap f 0x0703
  | some j =>
    let key := x.panel.poolKey j
    ((s.setKnot key (poolKnot x.part x.panel.home)).onLaunch f.launch fun y => { y with poolOut := y.poolOut ++ [j] }).knotReply
      f false .value (handleOf x.part key)

/-- KFREE at the panel's pool (R344). -/
def State.bankFree (s : State) (f : Firing) (h : Word) : State :=
  let k := s.knot (knotKey h)
  match s.poolIndex f.launch h with
  | none => s.trap f 0x0705
  | some j =>
    if decide (j ∈ (s.launch f.launch).poolOut) && decide (k.waiters = 0) && !k.armed then
      (s.onLaunch f.launch fun y => { y with poolOut := y.poolOut.filter fun i => decide (i ≠ j) }).knotReply f false .completion 0
    else s.trap f 0x0705

/-- KARM at its bank (R342): arms, and fires at once where the condition already holds. -/
def State.bankArm (s : State) (f : Firing) (h v : Word) (block : List Word) : State :=
  let key := knotKey h
  let k := s.knot key
  let bank := s.cluster (bankOf key)
  if k.armed then s.trap f 0x0702
  else if !triggerBlockOk block k.opart.toNat then s.trap f 0x0706
  else
    match freeRecord bank.triggers with
    | none => s.trap f 0x0704
    | some n =>
      let own := if k.owner = .pool then some f.launch else none
      let t : Trigger := ⟨n, key, k.opart.toNat, block.take 8, wordAt block 8, none, own⟩
      (((s.setKnot key { k with tv := v, armed := true, tslot := BitVec.ofNat 8 n }).onCluster (bankOf key) fun c =>
        { c with triggers := c.triggers ++ [t] }).fireTrigger key).knotReply f false .completion 0

/-- One request applied at its bank (R332, R336, R338 to R344). -/
def State.bankApply (s : State) (q : KReq) : State :=
  let f := q.firing
  let d := bankOf (knotKey q.handle) / 128
  let s := ((s.dropKreq q.id).meter f.launch d 15 1).crossing (s.clientOf f) (f.cl / 128) d knotBytes
  match q.op with
  | .alloc => s.bankAlloc f
  | op =>
    if !s.reaches f.launch q.handle then s.faultFiring f .knotHandle q.handle 0
    else
      let key := knotKey q.handle
      let k := s.knot key
      match op with
      | .add amount data =>
        match s.knotAdd key amount.toNat data with
        | none => s.faultFiring f .knotLimit q.handle 0
        | some s1 => s1.knotReply f false .completion (s1.knot key).value
      | .wait v => s.bankWait f q.handle v
      | .read => (s.knotReply f false .value k.value).knotReply f true .value k.data
      | .limit v =>
        if k.value ≠ 0 then s.trap f 0x0701
        else (s.setKnot key { k with limit := v }).knotReply f false .completion 0
      | .arm v block => s.bankArm f q.handle v block
      | .free => s.bankFree f q.handle
      | .alloc => s

/-- Whether a launch's knot requests reach their banks: it holds its panel, and is not only saved (R369). -/
def Launch.knotsLive (x : Launch) : Bool := decide (x.st = .running ∨ x.st = .freezing ∨ x.st = .retiring)

/-- KNOT_BANK_APPLY (R332, R359): a release makes its sweep first, in an A-cycle after that of its choice, and is applied once every write
that it captured is performed. -/
def execKnotBankApply (r : Nat) (s : State) : Host.Outcome State Fault Refusal :=
  .next (match s.kreqs.find? fun q => decide (q.id = r) with
    | none => s
    | some q =>
      if !(s.launch q.firing.launch).knotsLive then s
      else if q.release && q.captured.isNone then
        if q.cyc < s.aCycle then
          let up := { q with captured := some (s.capture q.firing q.handle) }
          { s with kreqs := s.kreqs.map fun p => if p.id = q.id then up else p }
        else s
      else if s.behind q then s
      else if s.allPerformed q.firing.launch (q.captured.getD []) then s.bankApply q
      else s)

/-- Releases a waiter: it emits VALUE and DATA (R339). -/
def State.releaseWaiter (s : State) (l : Nat) (p : Parked) (key : Nat) (v d : Word) : State :=
  (((s.unpark l p.id).addWaiters key false 1).knotReply p.firing false .value v).knotReply p.firing true .value d

/-- The waiters of a cluster on a knot, with their thresholds; a saved launch's send their waits again at its restore (R351). -/
def State.waitersAt (s : State) (cl key : Nat) : List (Nat × Parked × Nat) :=
  (s.launches.filter fun e => e.2.saved.isNone).flatMap fun e => e.2.parked.filterMap fun p =>
    match p.why with
    | .kwait h v _ => if knotKey (BitVec.ofNat 64 h) = key ∧ p.firing.cl = cl then some (e.1, p, v) else none
    | _ => none

/-- WAITER_DIRECTORY_NOTIFY (R339): the bank's VALUE and DATA reach a cluster, which releases the waiters that they meet and
reports the smallest threshold that remains. -/
def execWaiterDirectoryNotify (cl kn : Nat) (s : State) : Host.Outcome State Fault Refusal :=
  .next (match (s.cluster (bankOf kn)).dir.find? fun d => decide (d.knot = kn ∧ d.cl = cl) with
    | none => s
    | some d =>
      match d.sent with
      | none => s
      | some (v, dat) =>
        let s1 := (s.waitersAt cl kn).foldl (fun s w => if w.2.2 ≤ v.toNat then s.releaseWaiter w.1 w.2.1 kn v dat else s) s
        let rest := (s1.waitersAt cl kn).filterMap fun w => match w.2.1.why with
          | .kwait _ t true => some t
          | _ => none
        (s1.onCluster (bankOf kn) fun c => { c with dir := match smallest rest with
          | none => c.dir.filter fun e => !(decide (e.knot = kn ∧ e.cl = cl))
          | some t => c.dir.map fun e => if e.knot = kn ∧ e.cl = cl then { e with threshold := t, sent := none } else e }).notify kn)

/-- POLLING_WAITER_REREAD (R339): a waiter whose cluster found the directory full re-reads its knot. -/
def execPollingWaiterReread (l p : Nat) (s : State) : Host.Outcome State Fault Refusal :=
  .next (match (if (s.launch l).saved.isSome then none else (s.launch l).parked.find? fun w => decide (w.id = p)) with
    | none => s
    | some w =>
      match w.why with
      | .kwait h v false =>
        let key := knotKey (BitVec.ofNat 64 h)
        let k := s.knot key
        if v ≤ k.value.toNat then s.releaseWaiter l w key k.value k.data else s
      | _ => s)

/-! The trigger engine (R343). -/

/-- The copy packet of eight words as a queue packet that no queue holds. -/
def packetOf (id : Nat) (c : Client) (queue : Option (Nat × Nat × Nat)) (p : List Word) : CopyPk :=
  let w := fun i => (wordAt p i).toNat
  let space := fun n => if n = 0 then Space.l else if n = 1 then Space.n else if n = 2 then Space.w else Space.g
  ⟨id, none, queue, c, bitsOf (w 0) 38 16, bitsOf (w 3) 48 4, bitsOf (w 3) 52 3, space (bitsOf (w 1) 57 3),
    space (bitsOf (w 2) 57 3),
    [⟨bitsOf (w 1) 0 57, bitsOf (w 2) 0 57, bitsOf (w 3) 0 24, bitsOf (w 3) 24 24, w 4, w 5⟩],
    none, none, none, bitsOf (w 7) 32 32, wordAt p 6, bitsOf (w 7) 0 32, false, false, decide (bitsOf (w 0) 9 1 = 1),
    [], 0, 0, 0, 0, [], [], [], none, none, none⟩

/-- Why a queue packet is refused (R233, R240): 1 malformed, 2 another PART, 3 a knot that it may not name. -/
def State.packetError (s : State) (part : Nat) (l : Option Nat) (p : List Word) : Option Nat :=
  let w := fun i => (wordAt p i).toNat
  let op := bitsOf (w 3) 48 4
  let width := if bitsOf (w 3) 52 3 = 1 then 8 else 4
  if decide (w 0 % 256 ≠ 2) || !copyPacketClean p || decide (bitsOf (w 0) 8 1 = 1) || decide (bitsOf (w 0) 10 2 ≠ 0) ||
      decide (op = 7) || decide (bitsOf (w 2) 57 3 = 4) || decide (bitsOf (w 3) 24 24 = 0) ||
      (decide (op = 2) && decide (w 1 ≠ 0)) || (decide (op = 5) && decide (bitsOf (w 3) 24 24 % width ≠ 0)) then some 1
  else if bitsOf (w 0) 32 6 ≠ part then some 2
  else if wordAt p 6 ≠ noKnot ∧ !(match l with | some l => s.reaches l (wordAt p 6) | none => s.isStanding part (wordAt p 6)) then
    some 3
  else none

/-- Sets TRIGERR (R343). -/
def State.setTrigErr (s : State) (part : Nat) : State := s.onPart part fun p => { p with trigerr := true }

/-- The first fired packet of a bank leaves its trigger engine. -/
def State.popFired (s : State) (cl : Nat) : State := s.onCluster cl fun c => { c with fired := c.fired.drop 1 }

/-- The launch whose pool knots a fired packet reaches, while there is one (R333). -/
def State.triggerOwner (s : State) (t : Trigger) : Option Nat := t.owner.filter fun l => (look s.launches l).isSome

/-- A fired copy packet with QUEUE 0: it joins the packets that wait at the copy engine of its cluster, or is refused as R240 states. -/
def State.triggerCopy (s : State) (cl : Nat) (t : Trigger) : State :=
  match s.packetError t.part (s.triggerOwner t) t.packet with
  | some _ => (s.engineAdd (cl / 128) (s.triggerOwner t) t.part (wordAt t.packet 6) (bitsOf (wordAt t.packet 7).toNat 0 32)).2
  | none =>
    let pk := { packetOf s.serial ⟨none, t.part, cl, true⟩ none t.packet with reach := t.owner }
    { s.onCluster cl (fun c => { c with copy := { c.copy with queued := c.copy.queued ++ [pk] } }) with serial := s.serial + 1 }

/-- A fired packet goes through R113's steps on its queue; a step that fails, or a publish knot that does not take its add, sets TRIGERR
(log 71). -/
def State.triggerQueue (s : State) (cl : Nat) (t : Trigger) : State :=
  let c : Client := ⟨none, t.part, cl, false⟩
  let q := t.queue.toNat
  let lost := (s.popFired cl).setTrigErr t.part
  match t.index with
  | none =>
    match s.queueClaim c q with
    | .error _ => lost
    | .ok (i, s1) => s1.onCluster cl fun c' => { c' with fired := { t with index := some i } :: c'.fired.drop 1 }
  | some i =>
    match s.queueRoom c q i with
    | .error _ => lost
    | .ok (false, s1) => s1
    | .ok (true, s1) =>
      match s1.queuePublish c q i t.packet with
      | .error _ => lost
      | .ok (r, _, s2) => if r = .done then s2.popFired cl else (s2.popFired cl).setTrigErr t.part

/-- TRIGGER_ENGINE_ISSUE (R343): the first fired packet is added to its queue, step by step, or handed to the copy engine of the
knot's cluster. -/
def execTriggerEngineIssue (cl : Nat) (s : State) : Host.Outcome State Fault Refusal :=
  .next (match (s.cluster cl).fired with
    | [] => s
    | t :: _ =>
      let part := s.part t.part
      let q := t.queue.toNat
      if t.queue = 0 then (s.popFired cl).triggerCopy cl t
      else if !(enabledIn part.lq q || enabledIn part.cq q) then (s.popFired cl).setTrigErr t.part
      else s.triggerQueue cl t)

/-! The knot window (R346, R363). -/

/-- The knot that a window offset lies in. -/
def windowKey (off : Nat) : Nat := off / 2 ^ 24 % 4 * 2 ^ 19 + off / 2 ^ 17 % 128 * 2 ^ 12 + off / 32 % 4096

/-- Whether an access of a partition's window names one of its standing knots, in a bank that works (R410). -/
def State.windowKnot (s : State) (part off : Nat) : Bool :=
  s.isStanding part (handleOf part (windowKey off)) && !s.dieReset.getLsbD (windowKey off / 2 ^ 19)

/-- KNOT_WINDOW_ADD (R346): a release add at +0; one that would fault sets KNOTERR instead. -/
def execKnotWindowAdd (part off : Nat) (v : BitVec 64) (s : State) : Host.Outcome State Fault Refusal :=
  .next (if off % 32 = 0 ∧ s.windowKnot part off then
    let s1 := s.meterPart part (bankOf (windowKey off) / 128) 15 1
    match s1.knotAdd (windowKey off) v.toNat none with
    | some s2 => s2
    | none => s1.onPart part fun p => { p with knoterr := true }
  else s)

/-- KNOT_WINDOW_SET_LIMIT (R346): a write at +16 sets LIMIT under R341. -/
def execKnotWindowSetLimit (part off : Nat) (v : BitVec 64) (s : State) : Host.Outcome State Fault Refusal :=
  .next (if off % 32 = 16 ∧ s.windowKnot part off then
    let s1 := s.meterPart part (bankOf (windowKey off) / 128) 15 1
    let k := s1.knot (windowKey off)
    if k.value = 0 then s1.setKnot (windowKey off) { k with limit := v }
    else s1.onPart part fun p => { p with knoterr := true }
  else s)

/-- What a window read returns (R346). -/
def State.windowRead (s : State) (part off : Nat) : Word :=
  if s.windowKnot part off ∧ off % 8 = 0 then
    let k := s.knot (windowKey off)
    match off % 32 / 8 with
    | 0 => k.value
    | 1 => k.data
    | 2 => k.limit
    | _ => BitVec.ofNat 64 ((if k.armed then 1 else 0) + k.waiters.toNat * 2 ^ 16)
  else 0

/-- KNOT_WINDOW_ACQUIRE (R346, R363): a window read, answered to the outside. -/
def execKnotWindowAcquire (part off : Nat) (s : State) : Host.Outcome State Fault Refusal :=
  .next { s.meterPart part (bankOf (windowKey off) / 128) 15 1 with
    outbox := s.outbox ++ [leBytes 8 (s.windowRead part off).toNat] }

end Sys2Proof.Machine
end

