-- ==== Sys2Proof/Machine/Custody.lean ====
section
/-! DEFINITION. Machine/Custody.lean: every token and request of a launch, from which its outstanding counts (R20), phase counts
(R30), retirement of iterations (R19, R21) and quiescence (R141) are read. -/

namespace Sys2Proof.Machine

/-- Something that counts against an iteration and a phase: a token, or a request whose reply is to come; `waits` marks a token
that waits at a stage that is not resident (R141), and `phased` whether it counts in its phase (R183). -/
structure Item where
  bobbin : BitVec 10
  iter : BitVec 6
  phase : BitVec 4
  phased : Bool
  waits : Bool
  token : Bool
  /-- waits at an entry's queue, under no tag yet (R22) -/
  queued : Bool
  key : Token
  deriving DecidableEq, Repr

/-- A token as an item. -/
def Item.ofToken (t : Token) : Item := ⟨t.tag.bobbin, t.tag.iter, t.phase, true, false, true, false, t⟩

/-- A token that stands for a firing's request. -/
def Firing.asToken (f : Firing) : Token :=
  ⟨BitVec.ofNat 16 f.slot, .value, 0, BitVec.ofNat 8 f.slot, 0, f.phase, f.colour, f.tag, BitVec.ofNat 64 (f.opId.getD 0)⟩

/-- A request as an item. -/
def Item.ofFiring (f : Firing) : Item := ⟨f.tag.bobbin, f.tag.iter, f.phase, true, false, false, false, f.asToken⟩

/-- The operand tokens of a parked operation: PHWAIT's count in no phase (R183). -/
def Parked.items (p : Parked) : List Item :=
  let ph := match p.why with
    | .phwait _ => false
    | .phdone => false
    | _ => true
  p.firing.held.map fun h => { Item.ofToken h.tok with phased := ph }

/-- Whether a class is counted: hem tokens are not (R20, R366). -/
def counted (t : Token) : Bool := decide (t.cls ≠ .hem)

/-- Firings that a station has chosen and not yet performed (R291, R314, R385). -/
def Station.busy (x : Station) : List Firing := x.slow.map Prod.snd

/-- The tokens that a station has still to emit for what it chose (R152, Table 7.2). -/
def Station.lateToks (x : Station) : List OutTok := x.late.flatMap fun e => e.toks

/-- The tokens in one station: its table, its output queue, and those it has still to emit. -/
def Station.tokens (x : Station) : List Token := x.table.map (fun h => h.tok) ++ (x.outq ++ x.lateToks).map fun o => o.tok

/-- The requests of a cluster's engines. -/
def Cluster.engineFirings (c : Cluster) : List Firing :=
  (c.copy.fifo ++ c.copy.active).filterMap (fun p => p.firing) ++ c.copy.spawn.map (fun x => x.firing) ++
    c.tensor.fifo ++ c.tensor.aside ++ (c.tensor.cur.map fun r => r.firing).toList ++
    c.arbs.flatMap fun a => a.2.fifo.map Prod.snd

/-- The tokens held by a cluster's engines. -/
def Cluster.engineTokens (c : Cluster) : List Token := c.copy.ord ++ c.tensor.rows.map fun r => r.tok

/-- Every item in a cluster's own structures. -/
def Cluster.items (c : Cluster) : List Item :=
  (((c.stations.flatMap fun x => x.2.tokens) ++ c.engineTokens ++ c.arrivals.map fun a => a.out.tok).filter counted).map
      Item.ofToken ++
    (c.remnant.map fun r => { Item.ofToken r.tok with waits := decide (r.kind = .stageWait) }) ++
    c.engineFirings.map Item.ofFiring ++
    c.stations.flatMap fun x => (x.2.held.map fun h => Item.ofFiring h.firing) ++ x.2.busy.map Item.ofFiring

/-- The seam units of a panel, with the panel die each stands on. -/
def Panel.seamKeys (p : Panel) : List Nat :=
  ((p.dies.zip p.seams).flatMap fun e => e.2.map fun x => e.1 * 4 + x.2)

/-- A seam unit. -/
def State.seam (s : State) (k : Nat) : SeamUnit := getAt s.seams k SeamUnit.blank
/-- A die's unmask engine. -/
def State.um (s : State) (d : Nat) : UmEngine := getAt s.ums d UmEngine.blank
/-- Changes a seam unit. -/
def State.onSeam (s : State) (k : Nat) (f : SeamUnit → SeamUnit) : State :=
  { s with seams := setAt s.seams k (f (s.seam k)) SeamUnit.blank }
/-- Changes an unmask engine. -/
def State.onUm (s : State) (d : Nat) (f : UmEngine → UmEngine) : State :=
  { s with ums := setAt s.ums d (f (s.um d)) UmEngine.blank }

/-- A cluster as a launch's tokens stand in it: while the launch is saved, as the save holds it (R18, R20, R380). -/
def State.itsCluster (s : State) (l cl : Nat) : Cluster :=
  match (s.launch l).saved with
  | some v => (look v.clusters cl).getD Cluster.clear
  | none => s.cluster cl

/-- A seam unit of a launch: while it is saved, as the save holds it. -/
def State.itsSeam (s : State) (l k : Nat) : SeamUnit :=
  match (s.launch l).saved with
  | some v => (look v.seams k).getD SeamUnit.blank
  | none => s.seam k

/-- The items of a panel's seam units and, for its launch, of the unmask engines of its dies. -/
def State.dieItems (s : State) (l : Nat) : List Item :=
  let p := (s.launch l).panel
  (p.seamKeys.flatMap fun k =>
    let u := s.itsSeam l k
    (u.ctxs.flatMap fun c => (if c.2.phase = .opening then [Item.ofFiring c.2.firing] else []) ++
        c.2.aborters.map Item.ofFiring) ++
      u.ports.flatMap fun q => q.2.queue.map fun t => Item.ofToken t.tok) ++
  (p.dies.flatMap fun d =>
    let e := s.um d
    (((e.old ++ e.opens).filter fun f => decide (f.launch = l)).map Item.ofFiring) ++
    (e.ctxs.flatMap fun c => if c.2.holder = some l then
        c.2.queue.map fun q => match q.tok with
          | some t => Item.ofToken t.tok
          | none => Item.ofFiring q.firing
      else []) ++
    ((e.strays.filter fun a => decide (a.2.launch = l)).map fun a => Item.ofToken a.2.out.tok) ++
    ((getAt s.dieArr d []).filter fun a => decide (a.launch = l)).map fun a => Item.ofToken a.out.tok)

/-- The firing that an act performs. -/
def Act.firing : Act → Option Firing
  | .perform f => some f
  | .event _ => none
  | .clampOvf _ => none

/-- The items of a launch that stand at one of its clusters: what its router counts (R30). -/
def State.clusterItems (s : State) (l cl : Nat) : List Item :=
  let x := s.launch l
  (s.itsCluster l cl).items ++
    ((x.parked.filter fun p => decide (p.firing.cl = cl)).flatMap Parked.items) ++
    ((x.gens.filter fun g => decide (g.firing.cl = cl)).map fun g => Item.ofFiring g.firing) ++
    ((s.flits.filter fun f => decide (f.srcCl = cl) && x.saved.isNone && counted f.out.tok).map fun f => Item.ofToken f.out.tok) ++
    (((s.reqs.flatMap Req.parts).filter fun o => decide (o.2.launch = l ∧ o.2.cl = cl)).map fun o => Item.ofFiring o.2) ++
    ((s.kreqs.filter fun q => decide (q.firing.launch = l ∧ q.firing.cl = cl)).map fun q => Item.ofFiring q.firing) ++
    ((s.agenda.filterMap Act.firing).filter fun f => decide (f.launch = l ∧ f.cl = cl)).map Item.ofFiring ++
    (if cl = x.panel.home then
      s.dieItems l ++ (x.ovf.map fun o =>
          { Item.ofToken o.tok with
            waits := match o.list with | .stage _ => true | _ => false
            queued := match o.list with | .entry _ => true | _ => false }) ++
        x.hems.filterMap fun h => match h.why with
          | .instr f => some (Item.ofFiring f)
          | _ => none
    else [])

/-- Every item of a launch. -/
def State.items (s : State) (l : Nat) : List Item := (s.launch l).panel.all.flatMap (s.clusterItems l)

/-- The outstanding count of an iteration (R20). -/
def countOf (items : List Item) (bob : Nat) (it : Nat) : Nat :=
  items.countP fun i => decide (i.bobbin.toNat = bob ∧ i.iter.toNat = it) && !i.queued

/-- Whether an iteration has a child instance (R21). -/
def Launch.hasChild (x : Launch) (bob it : Nat) : Bool := x.insts.any fun e => decide (e.2.parent = some (bob, it))

/-- Ended iterations without tokens, requests or children become Free (R19). -/
def Launch.retireIters (x : Launch) (items : List Item) : Launch :=
  { x with insts := x.insts.map fun e =>
      (e.1, { e.2 with iters := (e.2.iters.zip (countFrom 0 e.2.iters.length)).map fun p =>
        if p.1.st = .ended ∧ countOf items e.1 p.2 = 0 ∧ x.hasChild e.1 p.2 = false then { p.1 with st := .free } else p.1 }) }

/-- Freeing instances whose iterations are all Free return their ids (R21). -/
def Launch.returnIds (x : Launch) : Launch :=
  let goes := fun (e : Nat × Instance) => e.2.freeing && e.2.iters.all fun i => decide (i.st = .free)
  { x with
    insts := x.insts.filter fun e => !goes e
    gens := x.gens.map fun g => if x.insts.any fun e => decide (e.1 = g.inst) && goes e then { g with stale := true } else g }

/-- Retirement of iterations and return of ids, until nothing changes: a returned child lets its parent retire. -/
def Launch.settleGo (items : List Item) : Nat → Launch → Launch
  | 0, x => x
  | n + 1, x => Launch.settleGo items n (x.retireIters items).returnIds

/-- Retirement of iterations and return of ids (R19, R21). -/
def Launch.settle (x : Launch) (items : List Item) : Launch := Launch.settleGo items (x.insts.length + 1) x

/-- The phases whose counts changed at a cluster (R30). -/
def touchedBy (before after : List Item) : BitVec 16 :=
  (countFrom 0 16).foldl (fun b p =>
    let pick := fun (xs : List Item) => xs.filter fun i => i.phased && decide (i.phase.toNat = p)
    if pick before = pick after then b else b ||| BitVec.ofNat 16 (2 ^ p)) 0

/-- Sets the touched bits of every cluster of a launch's panel whose counts a step changed (R30); a save and a restore change none
(R380). -/
def State.touch (s0 s1 : State) (l : Nat) : State :=
  if (s0.launch l).saved.isSome ∨ (s1.launch l).saved.isSome then s1
  else (s1.launch l).panel.all.foldl (fun s cl =>
    let b := touchedBy (s0.clusterItems l cl) (s1.clusterItems l cl)
    if b = 0 then s else s.onCluster cl fun c => { c with touched := c.touched ||| b }) s1

/-- What every step ends with: touched bits, then retirement of iterations and return of ids (R19, R21, R30). -/
def State.settleFrom (s0 s1 : State) : State :=
  s1.launches.foldl (fun s e =>
    let s := State.touch s0 s e.1
    if (s.launch e.1).insts = [] then s else s.onLaunch e.1 fun x => x.settle (s.items e.1)) s1

/-- Whether a phase is closed: one wave reads every count as zero and every touched bit as clear (R30). -/
def State.phaseClosed (s : State) (l p : Nat) : Bool :=
  (s.launch l).panel.all.all fun cl =>
    (s.clusterItems l cl).all (fun i => !(i.phased && decide (i.phase.toNat = p))) && !(s.cluster cl).touched.getLsbD p

/-! Quiescence (R141). -/

/-- Whether a stream operator is idle (R282). -/
def OpInst.idle (o : OpInst) : Bool :=
  o.out.isEmpty && o.accs.isEmpty && o.pend.isEmpty && o.part.isNone && o.word.isNone && o.prev0.isNone && o.prev1.isNone &&
    decide (o.parked = none) && decide (o.phase = 0) && decide (o.drop = 0)

/-- Whether a cluster's engines are idle. -/
def Cluster.enginesIdle (c : Cluster) : Bool :=
  c.copy.fifo.isEmpty && c.copy.active.all (fun p => p.firing.isNone) && c.copy.spawn.isEmpty && c.tensor.fifo.isEmpty &&
    c.tensor.cur.isNone && c.tensor.aside.isEmpty && c.tensor.outRow.isEmpty && c.tensor.rows.isEmpty &&
    c.arbs.all fun a => a.2.fifo.isEmpty

/-- Whether every engine bound to a launch is idle, with no merge context open and no circuit or port holding a word. -/
def State.enginesIdle (s : State) (l : Nat) : Bool :=
  let x := s.launch l
  x.panel.all.all (fun cl => (s.cluster cl).enginesIdle) &&
    x.fab.ops.all OpInst.idle && x.fab.queues.all (fun q => q.2.isEmpty) &&
    x.panel.seamKeys.all (fun k =>
      let u := s.seam k
      u.ctxs.all (fun c => decide (c.2.st = .free)) && u.ports.all fun p => p.2.queue.isEmpty) &&
    x.panel.dies.all fun d =>
      let e := s.um d
      (e.old ++ e.opens).all (fun f => decide (f.launch ≠ l)) && e.strays.all (fun a => decide (a.2.launch ≠ l)) && e.ctxs.all fun c => decide (c.2.holder ≠ some l) || c.2.queue.isEmpty

/-- Whether the resident stage is quiescent (R141); held effects and deferred work count as held. -/
def State.quiescent (s : State) (l : Nat) : Bool :=
  let x := s.launch l
  (s.items l).all (fun i => i.waits) && x.panel.all.all (fun cl => decide ((s.cluster cl).touched = 0)) && s.enginesIdle l &&
    (s.reqs.all fun q => !q.ofLaunch l) && (s.kreqs.all fun q => decide (q.firing.launch ≠ l)) &&
    x.parked.isEmpty && x.gens.isEmpty

/-- A reduction wave clears the touched bits as it passes (R30). -/
def State.clearTouched (s : State) (l : Nat) : State :=
  (s.launch l).panel.all.foldl (fun s cl => s.onCluster cl fun c => { c with touched := 0 }) s

/-- Whether tokens wait at some stage (R142). -/
def State.stageWaits (s : State) (l : Nat) : Bool := (s.items l).any fun i => i.waits

end Sys2Proof.Machine
end

