-- ==== Sys2Proof/Machine/Fetch.lean ====
section
/-! DEFINITION. Machine/Fetch.lean: how a firing comes to run.  Nothing is fetched on this device (R32, spec 03): a station
chooses a ready firing of a resident slot (R14, R16, R150) and the slot's word is what runs. -/

namespace Sys2Proof.Machine

/-- The ports that a resident slot reads (R14). -/
def readsOf (w : Word) : Ports :=
  match decode w with
  | .ok i => match i.view with
    | some v => v.reads
    | none => ⟨false, false, false, false⟩
  | .error _ => ⟨false, false, false, false⟩

/-- The firing that operand tokens give a slot, with its tag (R10), phase (R29) and colour (R25). -/
def latch (launch cl st slot : Nat) (x : Station) (a b c p : Option Held) : Firing :=
  let ops := [a, b, c, p].filterMap id
  let lead := (ops.head?.map fun (h : Held) => h.tok)
  let f : Firing := ⟨launch, cl, st, slot, getAt x.words slot 0, getAt x.routes slot 0,
    (lead.map fun t => t.tag).getD ⟨0, 0, 0⟩, (lead.map fun t => t.phase).getD 0, 0, a, b, c, p, x.consts, none, false, false⟩
  { f with colour := f.colourOf }

/-- The earliest-arrived token of a list, in order of ARRSEQ (R14, R151): `base` is the station's counter, from which
differences modulo 2^32 are taken. -/
def earliest (base : BitVec 32) : List Held → Option Held
  | [] => none
  | h :: hs =>
    match earliest base hs with
    | none => some h
    | some g => if (base - g.seq).toNat ≤ (base - h.seq).toNat then some h else some g

/-- The operand tokens that a station holds: its match table and its cluster's KIND 0 remnant entries (R152). -/
def Cluster.operands (c : Cluster) (n : Nat) : List Held :=
  (c.station n).table ++ (c.remnant.filter fun r => decide (r.kind = .operand ∧ r.stn = n)).map fun r => ⟨r.tok, r.seq, r.wstamp, true⟩

/-- The earliest token of a match key on one port (R14). -/
def pick (base : BitVec 32) (hs : List Held) (slot : BitVec 8) (tag : Tag) (port : BitVec 2) : Option Held :=
  earliest base (hs.filter fun h => decide (h.tok.slot = slot ∧ h.tok.tag = tag ∧ h.tok.port = port))

/-- The firing of one match key, if the station holds a token on every port that the slot reads (R14). -/
def keyFiring (launch cl n : Nat) (c : Cluster) (slot : BitVec 8) (tag : Tag) : Option Firing :=
  let x := c.station n
  if x.occ.getLsbD slot.toNat then
    let r := readsOf (getAt x.words slot.toNat 0)
    let hs := c.operands n
    let get := fun (q : Bool) (port : BitVec 2) => if q then pick x.arrseq hs slot tag port else none
    let f := latch launch cl n slot.toNat x (get r.a 0) (get r.b 1) (get r.c 2) (get r.p 3)
    if (r.a → f.a.isSome) ∧ (r.b → f.b.isSome) ∧ (r.c → f.c.isSome) ∧ (r.p → f.p.isSome) ∧ r.any then some f else none
  else none

/-- The last-arrived operand of a firing (R16). -/
def Firing.last (base : BitVec 32) (f : Firing) : Option Held :=
  f.held.foldl (fun acc h => match acc with
    | none => some h
    | some g => if (base - h.seq).toNat ≤ (base - g.seq).toNat then some h else some g) none

/-- Whether AGE x is older than AGE y (R12). -/
def older (x y : BitVec 16) : Bool := decide (1 ≤ (y - x).toNat ∧ (y - x).toNat ≤ 32767)
/-- Whether two AGEs are equal under R12. -/
def sameAge (x y : BitVec 16) : Bool := decide ((y - x).toNat = 0 ∨ (y - x).toNat = 32768)

/-- Whether firing f goes before firing g at a station (R16): older, then lower slot, then earlier last operand. -/
def goesFirst (base : BitVec 32) (f g : Firing) : Bool :=
  match f.last base, g.last base with
  | some x, some y =>
    if sameAge x.tok.age y.tok.age then
      decide (f.slot < g.slot) || (decide (f.slot = g.slot) && decide ((base - y.seq).toNat < (base - x.seq).toNat))
    else older x.tok.age y.tok.age
  | _, _ => false

/-- Every complete firing of a station, one for each match key it holds a token of, ready in this A-cycle (R152). -/
def State.readyFirings (s : State) (launch cl n : Nat) : List Firing :=
  let c := s.cluster cl
  let keys := (c.operands n).foldl (fun acc (h : Held) =>
    if (h.tok.slot, h.tok.tag) ∈ acc then acc else acc ++ [(h.tok.slot, h.tok.tag)]) []
  (keys.filterMap fun k => keyFiring launch cl n c k.1 k.2).filter fun f => f.held.all fun h => decide (h.cyc < s.aCycle)

/-- The first of a list of firings by R16. -/
def firstFiring (base : BitVec 32) : List Firing → Option Firing
  | [] => none
  | f :: fs =>
    match firstFiring base fs with
    | none => some f
    | some g => if goesFirst base g f then some g else some f

/-- Removes a firing's operand tokens from the station's table and the cluster's remnant store (R14). -/
def State.consume (s : State) (f : Firing) : State :=
  let seqs := f.held.map fun h => h.seq
  s.onCluster f.cl fun c =>
    let c := c.onStation f.st fun x => { x with table := x.table.filter fun h => decide (h.seq ∉ seqs) }
    { c with remnant := c.remnant.filter fun r => !(decide (r.kind = .operand ∧ r.stn = f.st ∧ r.seq ∈ seqs)) }

/-- A slot of a running one-cluster panel, alone, with one token on each port that its word reads: what withFetchWord
places (log 25).  The predicate token lets the firing proceed. -/
def State.placeWord (s : State) (w : Word) : State :=
  let view := match decode w with
    | .ok i => i.view
    | .error _ => none
  let one : BitVec 128 := BitVec.ofNat 128 (2 ^ 96 + 4)
  let g0 := match view with | some v => v.og0 | none => false
  let g1 := match view with | some v => v.og1 | none => false
  let route : BitVec 256 := (if g1 then one else 0) ++ (if g0 then one else 0)
  let pv : Word := match view with
    | some v => if v.pm = .ifFalse then 0 else 1
    | none => 0
  let tok := fun (port : BitVec 2) (v : Word) => (⟨0, .value, port, 0, 0, 0, 0, ⟨0, 0, 0⟩, v⟩ : Token)
  let r := readsOf w
  let x : Station := { Station.clear with occ := 3, words := [(0, w)], routes := [(0, route)] }
  let held := fun (q : Bool) (port : BitVec 2) (v : Word) (n : BitVec 32) => if q then some (⟨tok port v, n, 0, false⟩ : Held) else none
  let f := latch 0 0 0 0 x (held r.a 0 0 0) (held r.b 1 0 1) (held r.c 2 0 2) (held r.p 3 pv 3)
  let root : Instance := ⟨0, none, false, 0, none, [⟨.live, 0⟩], none⟩
  let launch : Launch := { Launch.blank with st := .running, panel := ⟨[0], [[0]], [], 0, 0⟩, insts := [(0, root)] }
  { s with
    launches := put s.launches 0 launch
    clusters := put s.clusters 0 { Cluster.clear with owner := some 0, stations := [(0, x)] }
    agenda := [.perform f] }

end Sys2Proof.Machine
end

