-- ==== Sys2Proof/Machine/Tokens.lean ====
section
/-! DEFINITION. Machine/Tokens.lean: tokens reaching their slots (spec 01, 07: R14, R22 to R31, R140, R151 to R156), the commit
and kill waves (R27, R28), phases (R30), generators, waiters, arbiters and seeds (R121 to R124, R173 to R186). -/

namespace Sys2Proof.Machine

/-! Arrivals (R163). -/

/-- Whether the hem of a stage switch has still to complete. -/
def Launch.switchHem (x : Launch) : Bool := x.hems.any fun h => decide (h.why = .stage)

/-- Whether tokens of a launch still move (R148, R185, R378): its panel is configured and not yet frozen. -/
def Launch.moves (x : Launch) : Bool :=
  decide (x.st = .running ∨ x.st = .freezing ∨ x.st = .retiring) && (x.cfg.isNone || x.switchHem)

/-- Whether a launch's stations, seeds, generators and stage switches go on (R148, R185, R378). -/
def Launch.runs (x : Launch) : Bool := decide (x.st = .running ∧ x.ending = none) && x.freeze.isNone && x.cfg.isNone

/-- Where a token is going: its station, or its engine port. -/
def OutTok.target (t : OutTok) : Nat × Nat × Nat × Nat :=
  match t.eng with
  | none => (0, t.tok.station.toNat, 0, 0)
  | some (e, i, p) => (e.toNat + 1, i.toNat, p.toNat, 0)

/-- Whether a class is one that firings consume (R11). -/
def TokClass.operand (c : TokClass) : Bool := decide (c = .value ∨ c = .tile ∨ c = .completion ∨ c = .seed ∨ c = .fault)

/-- Whether an earlier arrival of the same source for the same target is still to be taken (R163). -/
def behindSame (as_ : List Arrival) (k : Nat) : Bool :=
  match nth as_ k with
  | none => true
  | some a => a.src.isSome && (as_.take k).any fun b => decide (b.src = a.src ∧ b.out.target = a.out.target)

/-- Whether another arrival for the same station came before: in an earlier N-cycle, or in the same one by the local path, then
lane 0, lane 1 and the downlink (R151). -/
def behindLane (as_ : List Arrival) (k : Nat) : Bool :=
  match nth as_ k with
  | none => true
  | some a => decide (a.lane < 4 ∧ a.out.eng = none) && as_.any fun b =>
      decide (b.lane < 4 ∧ b.out.eng = none ∧ b.out.tok.station = a.out.tok.station ∧ b.out.tok.cls.operand = true) &&
        (decide (b.cyc < a.cyc) || decide (b.cyc = a.cyc ∧ b.lane < a.lane))

/-- The arrival that a cluster's event takes: the k-th, unless one that came before it must go first. -/
def State.arrivalAt (s : State) (cl k : Nat) : Option Arrival :=
  let as_ := (s.cluster cl).arrivals
  if behindSame as_ k || behindLane as_ k then none else (nth as_ k).filter fun a => (s.launch a.launch).moves

/-- Removes the k-th arrival. -/
def State.dropArrival (s : State) (cl k : Nat) : State := s.onCluster cl fun c => { c with arrivals := dropNth c.arrivals k }

/-! Room for what is emitted (R150, R296). -/

/-- Every destination of a firing's two groups. -/
def Firing.dests (f : Firing) : List Dest := routeGroup f.route false ++ routeGroup f.route true

/-- Places of an output queue that are taken: its tokens, those that chosen firings have still to put there, and room for every
destination of the firings that have been chosen and not yet performed. -/
def Station.queueUse (x : Station) : Nat :=
  x.outq.length + x.lateToks.length + (x.busy.map fun f => f.dests.length).foldl (· + ·) 0

/-- Whether `n` tokens fit in a station's output queue of 16 (R150). -/
def State.room (s : State) (cl st n : Nat) : Bool := decide ((s.station cl st).queueUse + n ≤ 16)

/-- Whether tokens for both groups of a firing's route fit in its station's output queue: what an operation waits for that goes on by
itself (log 146). -/
def State.roomFor (s : State) (f : Firing) : Bool := s.room f.cl f.st f.dests.length

/-- The operations of a launch that may still emit along their routes: chosen firings, parked ones, requests, engine commands and hems. -/
def State.openFirings (s : State) (l : Nat) : List Firing :=
  let x := s.launch l
  (((s.reqs.flatMap Req.parts).filter fun o => decide (o.2.launch = l)).map Prod.snd) ++
    ((s.kreqs.filter fun q => decide (q.firing.launch = l)).map fun q => q.firing) ++ (x.parked.map fun p => p.firing) ++
    (x.hems.filterMap fun h => match h.why with | .instr f => some f | _ => none) ++
    (x.panel.all.flatMap fun cl =>
      (s.cluster cl).engineFirings ++ (s.cluster cl).stations.flatMap fun e => e.2.busy) ++
    (x.panel.seamKeys.flatMap fun k => (s.seam k).ctxs.flatMap fun c =>
      c.2.aborters ++ if c.2.phase = .opening then [c.2.firing] else []) ++
    x.panel.dies.flatMap fun d =>
      (((s.um d).old ++ (s.um d).opens).filter fun f => decide (f.launch = l)) ++
        (s.um d).ctxs.flatMap fun c => if c.2.holder = some l then c.2.queue.filterMap fun q => if q.tok = none then some q.firing else none
          else []

/-- Whether a destination is a seam token port (R71). -/
def seamDest : Dest → Bool
  | .engine _ e _ _ => decide (e.toNat = 3)
  | .slot _ _ _ _ => false

/-- Whether a token is for a destination. -/
def OutTok.isFor (t : OutTok) (d : Dest) : Bool :=
  match d, t.eng with
  | .engine die e i p, some to_ => decide (to_ = (e, i, p) ∧ t.tok.tag.die = die)
  | _, _ => false

/-- The credits of a seam token port that its cluster does not hold (R296): one for each token on its way to the port or in its queue, and
one for each token that an operation under way may still send there. -/
def State.seamTokens (s : State) (l : Nat) (d : Dest) : Nat :=
  let x := s.launch l
  let to_ := fun (t : OutTok) => t.isFor d
  let sum := fun (xs : List Nat) => xs.foldl (· + ·) 0
  sum (x.panel.all.map fun cl => sum ((s.cluster cl).stations.map fun e => (e.2.outq ++ e.2.lateToks).countP to_)) +
    (s.flits.countP fun f => decide (f.srcCl ∈ x.panel.all) && to_ f.out) +
    sum (s.dieArr.map fun e => e.2.countP fun a => decide (a.launch = l) && to_ a.out) +
    sum (x.panel.seamKeys.map fun k => sum ((s.seam k).ports.map fun p => p.2.queue.countP to_)) +
    sum ((s.openFirings l).map fun f => f.dests.count d)

/-- Whether a launch's clusters hold a credit for each token that a firing may emit to a seam token port: 16 for each port (R150,
R296). -/
def State.seamCredits (s : State) (f : Firing) : Bool :=
  f.dests.all fun d => !seamDest d || decide (s.seamTokens f.launch d + f.dests.count d ≤ 16)

/-! Where a token waits (R153 to R156). -/

/-- The stage image that is resident. -/
def State.image (s : State) (l : Nat) : Option StageImg := (s.pattern l).bind fun p => nth p.stages (s.launch l).stage

/-- X(c) of a cluster (R23). -/
def State.remnantLimit (s : State) (l cl : Nat) : Nat :=
  ((s.image l).bind fun g => nth g.remnant ((s.launch l).panel.footprint cl)).getD 0

/-- The cap of a station's table (R23). -/
def State.cap (s : State) (l : Nat) : Nat := ((s.pattern l).map Pattern.matchcap).getD 256

/-- Whether a parked operation is a KWAIT or BALLOC waiter (Table 7.3). -/
def Parked.waiter (p : Parked) : Bool :=
  match p.why with
  | .kwait _ _ _ => true
  | .balloc => true
  | _ => false

/-- Operands of a parked firing that stay in the remnant store, and in the station's table (KIND 3, R153). -/
def Parked.tierUse (p : Parked) (far : Bool) : Nat := p.firing.held.countP fun h => decide (h.far = far)

/-- Remnant entries that count towards R24: operands, row-stream tokens, parked KWAIT and BALLOC waiters, generators, and the operands of
parked firings that the store holds (Table 7.3, R36, R175, R255). -/
def State.remnantUse (s : State) (l cl : Nat) : Nat :=
  let x := s.launch l
  ((s.cluster cl).remnant.countP fun r => decide (r.kind ≠ .stageWait)) +
    (x.parked.countP fun p => p.waiter && decide (p.firing.cl = cl)) + (x.gens.countP fun g => decide (g.firing.cl = cl)) +
    ((x.parked.filter fun p => decide (p.firing.cl = cl) && !p.waiter).map fun p => p.tierUse true).foldl (· + ·) 0

/-- Remnant entries of tokens that wait at a stage (R140). -/
def Cluster.stageUse (c : Cluster) : Nat := c.remnant.countP fun r => decide (r.kind = .stageWait)

/-- Whether a cluster's remnant store has an entry for one more token under R24: within X(c), and one of its 8,192 free (R154, R155). -/
def State.remnantFree (s : State) (l cl : Nat) : Bool :=
  decide (s.remnantUse l cl < s.remnantLimit l cl ∧ s.remnantUse l cl + (s.cluster cl).stageUse < 8192)

/-- Keys of a station for which a firing is complete. -/
def completeKeys (launch cl n : Nat) (c : Cluster) : Nat :=
  let keys := (c.operands n).foldl (fun acc (h : Held) =>
    if (h.tok.slot, h.tok.tag) ∈ acc then acc else acc ++ [(h.tok.slot, h.tok.tag)]) []
  keys.countP fun k => (keyFiring launch cl n c k.1 k.2).isSome

/-- Occupied entries of a station's table (R154): a token that completes its firing takes none, and a parked firing keeps the
entries of its other operands that are there (R153; log 37). -/
def State.tableUse (s : State) (l cl n : Nat) : Nat :=
  let c := s.cluster cl
  (c.station n).table.length - completeKeys l cl n c +
    (((s.launch l).parked.filter fun p => decide (p.firing.cl = cl ∧ p.firing.st = n) && !p.waiter).map fun p =>
      p.tierUse false - 1).foldl (· + ·) 0

/-- A TENSION fault of the token network (R24): the token parks in the overflow area as KIND 5, and its fault names it. -/
def State.tensionPark (s : State) (l cl : Nat) (t : OutTok) : State :=
  let before := (s.launch l).ovf.length
  let s1 := s.overflow l ⟨0, .tension, t.tok, 0, 0, t.eng, none⟩
  match nth (s1.launch l).ovf before with
  | none => s1
  | some o =>
    let src : FaultSrc := ⟨6, t.tok.tag.die.toNat, t.tok.station.toNat, t.tok.slot.toNat, t.tok.phase, (s.launch l).stage,
      some t.tok.tag, 0, 0, 0, (s.launch l).panel.footprint cl⟩
    { s1.onLaunch l (fun x => { x with faults := x.faults ++
        [⟨s1.serial, 0, .tension, 0, 0, src, false, 1, .parked, 0, o.idx + 1, none, 0, []⟩] }) with serial := s1.serial + 1 }

/-- Whether an operand token finds an entry within the limits of R154: it completes a firing, or its table or its cluster's remnant
store has room. -/
def State.fits (s : State) (l cl : Nat) (t : OutTok) : Bool :=
  let n := t.tok.station.toNat % 16
  let h : Held := ⟨t.tok, (s.station cl n).arrseq, s.aCycle, false⟩
  let c1 := (s.cluster cl).onStation n fun x => { x with table := x.table ++ [h] }
  (!(keyFiring l cl n (s.cluster cl) t.tok.slot t.tok.tag).isSome && (keyFiring l cl n c1 t.tok.slot t.tok.tag).isSome) ||
    decide (s.tableUse l cl n < s.cap l) || s.remnantFree l cl

/-- An operand token placed at its station (R151, R154). -/
def State.placeOperand (s : State) (l cl : Nat) (t : OutTok) : State :=
  let n := t.tok.station.toNat % 16
  let seq := (s.station cl n).arrseq
  let h : Held := ⟨t.tok, seq, s.aCycle, false⟩
  let count := fun (s : State) => s.onStation cl n fun x => { x with arrseq := x.arrseq + 1 }
  let entered := (count s).onStation cl n fun x => { x with table := x.table ++ [h] }
  let c1 := entered.cluster cl
  let had := (keyFiring l cl n (s.cluster cl) t.tok.slot t.tok.tag).isSome
  if (!had && (keyFiring l cl n c1 t.tok.slot t.tok.tag).isSome) || decide (s.tableUse l cl n < s.cap l) then entered
  else if s.remnantFree l cl then
    (count s).onCluster cl fun c => { c with remnant := c.remnant ++ [⟨t.tok, seq, .operand, n, s.aCycle⟩] }
  else (count s).tensionPark l cl t

/-- Whether a token's slot is an entry of a stage that is not resident (R140), and of which. -/
def State.otherStage (s : State) (l : Nat) (t : Token) : Option Nat :=
  (s.pattern l).bind fun p => (p.entries.find? fun e => decide (e.stage ≠ (s.launch l).stage ∧ e.die = t.tag.die.toNat ∧
    e.station = t.station.toNat ∧ e.slot = t.slot.toNat)).map EntryRec.stage

/-- A token that waits at a stage: a remnant entry while they stay within 8,192 − X(c), else an overflow record (R140). -/
def State.stageWaitAt (s : State) (l cl stage : Nat) (t : OutTok) : State :=
  if (s.cluster cl).stageUse + 1 ≤ 8192 - s.remnantLimit l cl ∧ s.remnantUse l cl + (s.cluster cl).stageUse < 8192 then
    s.onCluster cl fun c => { c with remnant := c.remnant ++ [⟨t.tok, 0, .stageWait, t.tok.station.toNat % 16, s.aCycle⟩] }
  else s.overflow l ⟨0, .stage stage, t.tok, s.aCycle, 0, t.eng, none⟩

/-- The mark of a slot, tag and colour. -/
def Station.mark (x : Station) (slot : Nat) (tag : Tag) (c : BitVec 2) : ColourMark :=
  (x.marks.find? fun m => decide (m.slot = slot ∧ m.tag = tag ∧ m.colour = c)).getD ⟨slot, tag, c, [], [], false⟩

/-- Replaces the mark of a slot, tag and colour. -/
def Station.setMark (x : Station) (m : ColourMark) : Station :=
  { x with marks := (x.marks.filter fun n => !(decide (n.slot = m.slot ∧ n.tag = m.tag ∧ n.colour = m.colour))) ++ [m] }

/-- Removes the mark of a slot, tag and colour. -/
def Station.clearMark (x : Station) (slot : Nat) (tag : Tag) (c : BitVec 2) : Station :=
  { x with marks := x.marks.filter fun n => !(decide (n.slot = slot ∧ n.tag = tag ∧ n.colour = c)) }

/-- An operand token that reaches its station: annihilated under a kill mark (R27), held for its stage (R140), or placed. -/
def State.deliverOperand (s : State) (l cl : Nat) (t : OutTok) : State :=
  match s.otherStage l t.tok with
  | some g => s.stageWaitAt l cl g t
  | none =>
    if decide (t.tok.colour ≠ 0) &&
        ((s.station cl (t.tok.station.toNat % 16)).mark t.tok.slot.toNat t.tok.tag t.tok.colour).killed then s
    else s.placeOperand l cl t

/-- TOKEN_DELIVERED (R14, R151, R154): an operand token is looked up at its station; during a freeze one that finds no entry stays in
flight, and is saved so (R378). -/
def execTokenDelivered (cl k : Nat) (s : State) : Host.Outcome State Fault Refusal :=
  .next (match s.arrivalAt cl k with
    | none => s
    | some a =>
      if (s.launch a.launch).freeze.isSome ∧ s.otherStage a.launch a.out.tok = none ∧ s.fits a.launch cl a.out = false then s
      else if a.out.eng = none ∧ a.out.tok.cls.operand = true then (s.dropArrival cl k).deliverOperand a.launch cl a.out else s)

/-- REMNANT_PROMOTE (R154): the KIND 0 entry of a station with the lowest ARRSEQ moves into a free entry of its table. -/
def execRemnantPromote (cl st : Nat) (s : State) : Host.Outcome State Fault Refusal :=
  .next (match (s.cluster cl).owner with
    | none => s
    | some l =>
      if s.tableUse l cl st < s.cap l then
        match earliest (s.station cl st).arrseq (((s.cluster cl).remnant.filter fun r =>
            decide (r.kind = .operand ∧ r.stn = st)).map fun r => ⟨r.tok, r.seq, r.wstamp, false⟩) with
        | none => s
        | some h =>
          (s.onCluster cl fun c => { c with remnant := c.remnant.filter fun r =>
            !(decide (r.kind = .operand ∧ r.stn = st ∧ r.seq = h.seq)) }).onStation cl st fun x => { x with table := x.table ++ [h] }
      else s)

/-! Colours (R26 to R28). -/

/-- The ports of a slot that can carry a colour. -/
def State.carrying (s : State) (l : Nat) (t : Token) (c : BitVec 2) : List (BitVec 2) :=
  match s.pattern l with
  | none => []
  | some p => ((carriers p (s.launch l).stage c).filter fun q => decide (q.1 = t.tag.die.toNat ∧ q.2.1 = t.station.toNat ∧
      q.2.2.1 = t.slot.toNat)).map fun q => BitVec.ofNat 2 q.2.2.2

/-- Whether a firing is one of a slot's, under a tag and a colour. -/
def Firing.under (f : Firing) (cl n slot : Nat) (tag : Tag) (c : BitVec 2) : Bool :=
  decide (f.cl = cl ∧ f.st = n ∧ f.slot = slot ∧ f.tag = tag ∧ f.colour = c)

/-- An operand with its colour set to 0, if it has the colour. -/
def Held.plain (c : BitVec 2) (h : Held) : Held := if h.tok.colour = c then { h with tok := { h.tok with colour := 0 } } else h

/-- A firing with its colour set to 0. -/
def Firing.plain (f : Firing) : Firing :=
  let g := fun (h : Held) => { h with tok := { h.tok with colour := 0 } }
  { f with colour := 0, a := f.a.map g, b := f.b.map g, c := f.c.map g, p := f.p.map g }

/-- Whether a held token is of a slot, tag and colour. -/
def Token.under (t : Token) (n slot : Nat) (tag : Tag) (c : BitVec 2) : Bool :=
  decide (t.station.toNat % 16 = n ∧ t.slot.toNat = slot ∧ t.tag = tag ∧ t.colour = c)

/-- Whether a firing of a slot's, or a reply to one's request, is still to emit under a tag and colour, or a reply to the slot has still
to be taken there.  A source sends its control token after every coloured token that it emits (R27), so the wave waits at the slot
for what the slot sends, and at each slot for what has been sent to it (log 62). -/
def State.replyDue (s : State) (cl n slot : Nat) (tag : Tag) (c : BitVec 2) : Bool :=
  ((s.reqs.flatMap Req.parts).any fun o => o.2.under cl n slot tag c) || (s.kreqs.any fun q => q.firing.under cl n slot tag c) ||
    ((s.station cl n).busy.any fun f => f.under cl n slot tag c) || ((s.station cl n).late.any fun e => e.firing.under cl n slot tag c) ||
    (s.ums.any fun e => e.2.ctxs.any fun x => x.2.queue.any fun q => decide (q.tok = none) && q.firing.under cl n slot tag c) ||
    (s.cluster cl).arrivals.any fun a => decide (a.out.eng = none ∧ a.src = none) && a.out.tok.under n slot tag c

/-- Sets the colour of a slot's held entries to 0 (R27). -/
def State.uncolour (s : State) (l cl n slot : Nat) (tag : Tag) (c : BitVec 2) : State :=
  let fix := fun (t : Token) => if t.under n slot tag c then { t with colour := 0 } else t
  let s1 := (s.onCluster cl fun k =>
    let k := k.onStation n fun x => { x with table := x.table.map fun h => { h with tok := fix h.tok } }
    { k with remnant := k.remnant.map fun r => if r.kind = .operand then { r with tok := fix r.tok } else r }).onLaunch l fun x =>
      { x with parked := x.parked.map fun p => if p.firing.under cl n slot tag c then { p with firing := p.firing.plain } else p }
  s1.setOvf l ((s1.launch l).ovf.map fun o => if o.list = .tension then { o with tok := fix o.tok } else o)

/-- A parked operation is discarded: a waiter leaves its knot's count (R27, R339). -/
def State.discardParked (s : State) (l : Nat) (p : Parked) : State :=
  let s1 := s.unpark l p.id
  match p.why with
  | .kwait h _ _ => s1.addWaiters (knotKey (BitVec.ofNat 64 h)) false 1
  | _ => s1

/-- Annihilates a slot's held entries, effects and deferred faults of a tag and colour (R27). -/
def State.annihilate (s : State) (l cl n slot : Nat) (tag : Tag) (c : BitVec 2) : State :=
  let s1 := s.onCluster cl fun k =>
    let k := k.onStation n fun x => { x with
      table := x.table.filter fun h => !h.tok.under n slot tag c
      held := x.held.filter fun h => !h.firing.under cl n slot tag c
      deferred := x.deferred.filter fun d => !d.firing.under cl n slot tag c
      heldFlags := x.heldFlags.filter fun g => !(decide (g.slot = slot ∧ g.tag = tag ∧ g.colour = c)) }
    { k with remnant := k.remnant.filter fun r => !(decide (r.kind = .operand) && r.tok.under n slot tag c) }
  let s2 := s1.setOvf l ((s1.launch l).ovf.filter fun o => !(decide (o.list = .tension) && o.tok.under n slot tag c))
  ((s2.launch l).parked.filter fun p => p.firing.under cl n slot tag c).foldl (fun s p => s.discardParked l p) s2

/-- The routes of a slot that can carry a colour: where a control token of the colour is forwarded (R27). -/
def State.colourDests (s : State) (l cl : Nat) (t : Token) (c : BitVec 2) : List Dest :=
  let x := s.station cl (t.station.toNat % 16)
  match s.pattern l with
  | none => []
  | some p =>
    let g := (s.launch l).stage
    let known := carriers p g c
    let route := getAt x.routes t.slot.toNat 0
    let passes := match decode (getAt x.words t.slot.toNat 0) with
      | .ok (.commit _ _) => false
      | .ok (.kill _ _) => false
      | .ok i => !heldWhole i
      | .error _ => false
    if passes then
      (routeGroup route false ++ routeGroup route true).filter fun d => !crossesStage p g d && (match d with
        | .slot die st sl port => decide ((die.toNat, st.toNat, sl.toNat, port.toNat) ∈ known)
        | .engine _ _ _ _ => false)
    else []

/-- Forwards one control token on each route of a slot that can carry the colour (R27). -/
def State.forward (s : State) (l cl : Nat) (t : Token) (c : BitVec 2) : State :=
  let k : Carry := ⟨t.cls, c.setWidth 64, t.phase, 0, t.tag.bobbin, t.tag.iter⟩
  s.enqueue cl (t.station.toNat % 16) ((s.colourDests l cl t c).map (k.token s.stamp))

/-- Whether the control tokens that a slot forwards fit in its station's output queue (R150). -/
def State.mayForward (s : State) (l cl : Nat) (t : Token) (c : BitVec 2) : Bool :=
  s.room cl (t.station.toNat % 16) (s.colourDests l cl t c).length

/-- Parked SPECs whose colour has become free are performed again (R28). -/
def State.wakeSpecs (s : State) (l : Nat) (bob : BitVec 10) (it : BitVec 6) (c : BitVec 2) : State :=
  s.resumeParked l ((s.launch l).parked.filter fun p => decide (p.why = .colour ∧ p.firing.tag.bobbin = bob ∧ p.firing.tag.iter = it) &&
    (match decode p.firing.word with
      | .ok (.spec _ col) => decide (col = c)
      | _ => false))

/-- Held tokens of a colour that no slot of the wave holds, those of SPEC (R139): the colour is decided, and they are let go (colour 0) or
discarded. -/
def State.decideTokens (s : State) (l : Nat) (bob : BitVec 10) (it : BitVec 6) (c : BitVec 2) (kill : Bool) : State :=
  let mine := fun (h : HeldEffect) => h.tok.isSome && decide (h.firing.tag.bobbin = bob ∧ h.firing.tag.iter = it ∧ h.firing.colour = c)
  let free := fun (h : HeldEffect) => if mine h then { h with firing := { h.firing with colour := 0 } } else h
  (s.launch l).panel.all.foldl (fun s cl => s.onCluster cl fun k => { k with
    stations := k.stations.map fun e =>
      (e.1, { e.2 with held := if kill then e.2.held.filter (fun h => !mine h) else e.2.held.map free }) }) s

/-- The wave of a colour has passed a slot; once it has passed every slot that can carry it, the colour is free (R28). -/
def State.wavePassed (s : State) (l : Nat) (t : Token) (c : BitVec 2) : State :=
  let me := (t.tag.die.toNat, t.station.toNat, t.slot.toNat)
  let mine := fun (u : ColourUse) => decide (u.bobbin = t.tag.bobbin ∧ u.iter = t.tag.iter ∧ u.colour = c)
  let pass := fun (u : ColourUse) => if mine u ∧ me ∉ u.passed then { u with passed := u.passed ++ [me] } else u
  let s1 := s.onLaunch l fun x => { x with colours := x.colours.map pass }
  let slots := match s1.pattern l with
    | some p => (carriers p (s1.launch l).stage c).map fun (q : PortAt) => (q.1, q.2.1, q.2.2.1)
    | none => []
  let passed := (s1.launch l).colours.any fun u => mine u && slots.all fun q => decide (q ∈ u.passed)
  if passed then
    ((s1.onLaunch l fun x => { x with colours := x.colours.filter fun u => !mine u }).decideTokens l t.tag.bobbin t.tag.iter c
      (decide (t.cls = .kill))).wakeSpecs l t.tag.bobbin t.tag.iter c
  else s1

/-- A held effect as the commit issues it, under colour 0 (R26): a firing is parked, to be performed as soon as its station can; a token
stays, to be sent as soon as its output queue has room. -/
def HeldEffect.issue (s : State) (h : HeldEffect) : State :=
  match h.tok with
  | some _ => s.onStation h.firing.cl h.firing.st fun x => { x with
      held := x.held.map fun g => if g = h then { h with firing := h.firing.plain } else g }
  | none => (s.onStation h.firing.cl h.firing.st fun x => { x with held := x.held.erase h }).park { h.firing.plain with atCommit := true } .again

/-- Whether an effect that a commit has issued at a slot is still to be performed or sent. -/
def State.issuing (s : State) (l cl n slot : Nat) (tag : Tag) : Bool :=
  ((s.station cl n).held.any fun h => h.firing.under cl n slot tag 0) ||
    (s.launch l).parked.any fun p => decide (p.why = .again ∧ p.firing.atCommit = true) && p.firing.under cl n slot tag 0

/-- A held token whose colour has committed is sent, stamped then (R139; log 73). -/
def State.sendHeld (s : State) (h : HeldEffect) : State :=
  match h.tok with
  | some t =>
    if h.firing.colour = 0 && s.room h.firing.cl h.firing.st 1 then
      (s.onStation h.firing.cl h.firing.st fun x => { x with held := x.held.erase h }).enqueue h.firing.cl h.firing.st
        [{ t with tok := { t.tok with colour := 0, age := s.stamp } }]
    else s
  | none => s

/-- Raises a slot's deferred faults, as final records with DEFER set (R27, R371), and its held exception flags (R51). -/
def State.raiseDeferred (s : State) (l cl n slot : Nat) (tag : Tag) (c : BitVec 2) : State :=
  let x := s.station cl n
  let mine := fun (d : Deferred) => d.firing.under cl n slot tag c
  let fl := fun (g : HeldFlags) => decide (g.slot = slot ∧ g.tag = tag ∧ g.colour = c)
  let s1 := (x.deferred.filter mine).foldl (fun s d => s.newFault l d.kind d.detail d.addr (s.srcOf d.firing) true 0 .final) s
  let exc := (x.heldFlags.filter fl).foldl (fun e g => e ||| g.exc) 0
  (s1.onCluster cl fun k => { k with exc := k.exc ||| exc }).onStation cl n
    fun y => { y with deferred := y.deferred.filter fun d => !mine d, heldFlags := y.heldFlags.filter fun g => !fl g }

/-- COMMIT_TOKEN_ARRIVAL (R27): the port is recorded; with every carrying port in, held entries lose their colour, held effects are issued
in order, one after another, deferred faults are raised, and the token is forwarded.  The token stands at the slot while it waits for
an effect to be performed, or for room. -/
def execCommitTokenArrival (cl k : Nat) (s : State) : Host.Outcome State Fault Refusal :=
  .next (match s.arrivalAt cl k with
    | none => s
    | some a =>
      let t := a.out.tok
      if a.out.eng ≠ none ∨ t.cls ≠ .commit then s
      else
        let l := a.launch
        let n := t.station.toNat % 16
        let slot := t.slot.toNat
        let c := BitVec.ofNat 2 t.payload.toNat
        let m := (s.station cl n).mark slot t.tag c
        let m := { m with commitPorts := union m.commitPorts [t.port] }
        if m.killed then s.dropArrival cl k
        else if !((s.carrying l t c).all fun p => decide (p ∈ m.commitPorts)) then
          (s.dropArrival cl k).onStation cl n fun x => x.setMark m
        else if s.replyDue cl n slot t.tag c then s
        else
          let s1 := s.uncolour l cl n slot t.tag c
          if s1.issuing l cl n slot t.tag then s1
          else
            match (s1.station cl n).held.find? fun h => h.firing.under cl n slot t.tag c with
            | some h => if h.tok.isSome || s1.seamCredits h.firing then h.issue s1 else s1
            | none =>
              if s1.mayForward l cl t c then
                ((((s1.dropArrival cl k).raiseDeferred l cl n slot t.tag c).forward l cl t c).onStation cl n fun x =>
                  x.clearMark slot t.tag c).wavePassed l t c
              else s1)

/-- KILL_TOKEN_ARRIVAL (R27): the first annihilates, forwards and sets the kill mark; each records its port, and the mark clears
once one has arrived on every carrying port. -/
def execKillTokenArrival (cl k : Nat) (s : State) : Host.Outcome State Fault Refusal :=
  .next (match s.arrivalAt cl k with
    | none => s
    | some a =>
      let t := a.out.tok
      if a.out.eng ≠ none ∨ t.cls ≠ .kill then s
      else
        let l := a.launch
        let n := t.station.toNat % 16
        let slot := t.slot.toNat
        let c := BitVec.ofNat 2 t.payload.toNat
        let m := (s.station cl n).mark slot t.tag c
        if s.replyDue cl n slot t.tag c || (!m.killed && !s.mayForward l cl t c) then s
        else
          let s1 := s.dropArrival cl k
          let s2 := if m.killed then s1 else (s1.annihilate l cl n slot t.tag c).forward l cl t c
          let m := { m with killed := true, killPorts := union m.killPorts [t.port] }
          if (s2.carrying l t c).all fun p => decide (p ∈ m.killPorts) then
            (s2.onStation cl n fun x => x.clearMark slot t.tag c).wavePassed l t c
          else s2.onStation cl n fun x => x.setMark m)

/-! Phases (R30, R183). -/

/-- The PHWAITs parked on a phase. -/
def Launch.phaseWaiters (x : Launch) (ph : Nat) : List Parked := x.parked.filter fun p => decide (p.why = .phwait ph)

/-- PHWAIT's emission (R183): SA's value on o0, or under PM 3 on the group that p selects. -/
def State.phwaitDone (s : State) (l : Nat) (p : Parked) : State :=
  match decode p.firing.word with
  | .ok (.phwait x _ _) => (s.unpark l p.id).emit0 p.firing x.pm (passClass x.sa p.firing.a) (s.opXA p.firing x)
  | _ => s

/-- PHASE_REDUCTION_WAVE (R30, R183): one wave reads the counts and touched bits of every cluster and clears the bits; when the
phase is closed, every PHWAIT parked on it emits, as soon as its output queue has room. -/
def execPhaseReductionWave (l ph : Nat) (s : State) : Host.Outcome State Fault Refusal :=
  .next (let ws := (s.launch l).phaseWaiters ph
    if ws = [] ∨ !(s.launch l).runs then s
    else
      let closed := s.phaseClosed l ph
      let s1 := (s.launch l).panel.all.foldl (fun s cl => s.onCluster cl fun c =>
        { c with touched := c.touched &&& ~~~(BitVec.ofNat 16 (2 ^ ph)) }) s
      let done := fun (p : Parked) => if p ∈ ws then { p with why := .phdone } else p
      if closed then s1.onLaunch l fun x => { x with parked := x.parked.map done } else s1)

/-! Generators and waiters (R173 to R177). -/

/-- Removes a generator. -/
def State.dropGen (s : State) (l g : Nat) : State :=
  s.onLaunch l fun x => { x with gens := x.gens.filter fun y => decide (y.id ≠ g) }

/-- A generator's next iteration, when its ITER is Free (R175). -/
def State.genIterate (s : State) (l : Nat) (g : Generator) (i : Instance) : State :=
  let k := i.nextIter
  let it := k % i.iters.length
  let last := decide (g.j + 1 = g.n)
  let i1 := { i.setIter it ⟨.live, k⟩ with nextIter := k + 1, endMark := if last then some k else i.endMark }
  let v := g.base + BitVec.ofNat 64 g.j * g.step.signExtend 64
  let s1 := (s.onLaunch l fun x => { x with
    insts := put x.insts g.inst i1
    gens := x.gens.map fun y => if y.id = g.id then { y with j := g.j + 1, last := s.aCycle + 1 } else y }).emitGroup g.firing false
      { g.firing.carry .value v with bobbin := BitVec.ofNat 10 g.inst, iter := BitVec.ofNat 6 it }
  if last then (s1.dropGen l g.id).emit1 g.firing .completion (BitVec.ofNat 64 g.n) else s1

/-- GENERATOR_STEP (R175): the first unfinished generator of its instance issues its next iteration, at most one in an A-cycle, or
ends. -/
def execGeneratorStep (l g : Nat) (s : State) : Host.Outcome State Fault Refusal :=
  .next (let x := s.launch l
    match x.gens.find? fun y => decide (y.id = g) with
    | none => s
    | some y =>
      let first := (x.gens.takeWhile fun z => decide (z.id ≠ g)).all fun z => decide (z.inst ≠ y.inst)
      if !x.runs || !first || !s.roomFor y.firing || !s.seamCredits y.firing || decide (s.aCycle < y.last) then s
      else if y.j = y.n then (s.dropGen l g).emit1 y.firing .completion (BitVec.ofNat 64 y.n)
      else if y.stale then (s.dropGen l g).trap y.firing 0x0101
      else
        match look x.insts y.inst with
        | none => s
        | some i =>
          if i.freeing ∨ (i.iter (i.nextIter % i.iters.length)).st ≠ .free then s else s.genIterate l y i)

/-- The parked operation of a number. -/
def Launch.parkedAt (x : Launch) (p : Nat) : Option Parked := x.parked.find? fun y => decide (y.id = p)

/-- NEXT_RELEASE (R176): a parked NEXT whose next iteration is Live emits there. -/
def execNextRelease (l p : Nat) (s : State) : Host.Outcome State Fault Refusal :=
  .next (match (s.launch l).parkedAt p with
    | none => s
    | some w =>
      match decode w.firing.word with
      | .ok (.next x) =>
        if w.why = .next ∧ (s.launch l).runs = true ∧ (s.launch l).nextStep w.firing ≠ .wait ∧ s.roomFor w.firing = true then
          (s.unpark l p).nextFiring w.firing (passClass x.sa w.firing.a) (s.opA w.firing x)
        else s
      | _ => s)

/-- BALLOC_WAKE (R173): a parked BALLOC allocates once its fan and the id pool allow. -/
def execBallocWake (l p : Nat) (s : State) : Host.Outcome State Fault Refusal :=
  .next (match (s.launch l).parkedAt p with
    | none => s
    | some w =>
      match decode w.firing.word with
      | .ok (.balloc x cls) =>
        if w.why = .balloc ∧ (s.launch l).runs = true ∧ s.ballocReady w.firing cls.toNat = true ∧ s.roomFor w.firing = true then
          (s.unpark l p).balloc w.firing x.pm cls.toNat
        else s
      | _ => s)

/-- A request that found the FIFO full enters it (R186). -/
def State.ticketEnter (s : State) (l cl arb : Nat) : State :=
  match (s.launch l).parked.find? fun p => decide (p.firing.cl = cl) && (match p.why with | .ticket a _ => decide (a = arb) | _ => false) with
  | some p =>
    match p.why with
    | .ticket _ arc => (s.unpark l p.id).ticketRequest p.firing arb arc
    | _ => s
  | none => s

/-- TICKET_GRANT (R186): an arbiter with no grant held grants the first request of its FIFO. -/
def execTicketGrant (cl arb : Nat) (s : State) : Host.Outcome State Fault Refusal :=
  .next (match (s.cluster cl).owner with
    | none => s
    | some l =>
      let a := (s.cluster cl).arbiter arb
      match a.holder, a.fifo with
      | none, (arc, f) :: rest =>
        if (s.launch l).runs = true ∧ a.released ≤ s.aCycle then
          match decode f.word with
          | .ok (.ticket x _ _) =>
            (((s.onCluster cl fun c => c.setArbiter arb { a with holder := some (arc, f), fifo := rest }).reply0 f .value
              (s.opXA f x))).ticketEnter l cl arb
          | _ => s
        else s
      | _, _ => s)

/-! Entries and seeds (R22, R121 to R124, R179). -/

/-- Delivers a token that the home cluster emits (R123). -/
def State.inject (s : State) (l : Nat) (t : OutTok) (src : Option Nat) : State := s.deliverFrom src l (s.launch l).panel.home t

/-- The group of an entry's queue that goes first: the oldest AGE, then the order of arrival (R22). -/
def oldestGroup : List OvfRec → Option OvfRec
  | [] => none
  | o :: os => match oldestGroup os with
    | none => some o
    | some p => if older p.tok.age o.tok.age then some p else some o

/-- ENTRY_ADMIT (R22, R179): the oldest waiting activation of an entry takes an instance and its tokens are sent. -/
def execEntryAdmit (l entry : Nat) (s : State) : Host.Outcome State Fault Refusal :=
  .next (let x := s.launch l
    match s.pattern l with
    | none => s
    | some p =>
      match nth p.entries entry, x.freeId, oldestGroup (x.ovf.filter fun o => decide (o.list = .entry entry)) with
      | some r, some id, some o =>
        if x.activations entry < r.tension ∧ x.runs = true then
          let mine := fun (q : OvfRec) => decide (q.list = .entry entry ∧ q.group = o.group)
          let b := BitVec.ofNat 10 id
          let s1 := (s.setOvf l (x.ovf.filter fun q => !mine q)).onLaunch l fun y => { (y.openRoot p entry id) with
            groups := y.groups.map fun g => if g.2 = 2 * o.group + 1 then (g.1, 2 * id) else g }
          (x.ovf.filter mine).foldl (fun s q =>
            s.inject l ⟨{ q.tok with tag := { q.tok.tag with bobbin := b, iter := 0 } }, q.eng⟩ q.src) s1
        else s
      | _, _, _ => s)

/-- The initial stage, as the launch packet names it (Table 5.2). -/
def Launch.firstStage (x : Launch) : Nat := bitsOf ((x.packet.drop 2).headD 0).toNat 0 4

/-- The entry that a seed addresses, in the initial stage (R122). -/
def seedEntry (p : Pattern) (stage : Nat) (d : Seed) : Option Nat :=
  indexOf (fun e => decide (e.stage = stage ∧ e.die = d.die.toNat ∧ e.station = d.station.toNat ∧ e.slot = d.slot.toNat ∧
    e.port = d.port.toNat)) p.entries 0

/-- The seed that the injector handles next: of the first group that appears (R123). -/
def nextSeed (ds : List Seed) (order : List Nat) : Option Seed :=
  match order.find? fun g => ds.any fun d => decide (d.group = g) with
  | some g => ds.find? fun d => decide (d.group = g)
  | none => ds.head?

/-- Whether a seed is discarded: it addresses no entry of the initial stage, or its slot does not read its port (R15, R122). -/
def State.seedBad (s : State) (l : Nat) (p : Pattern) (d : Seed) : Bool :=
  let x := s.launch l
  match seedEntry p x.firstStage d, (stageSlots p x.firstStage).find? fun i =>
      decide (i.die = d.die.toNat ∧ i.station = d.station.toNat ∧ i.slot = d.slot.toNat) with
  | some _, some i =>
    let r := readsOf i.word
    !(match d.port with | 0 => r.a | 1 => r.b | 2 => r.c | _ => r.p)
  | _, _ => true

/-- A seed's token (R123). -/
def Seed.token (d : Seed) (age : BitVec 16) (bob : BitVec 10) : OutTok :=
  ⟨⟨age, .seed, d.port, d.slot, d.station, d.phase, 0, ⟨d.die, bob, 0⟩, d.payload⟩, none⟩

/-- A seed of a group whose entry is known and that is not discarded (R123): its group's instance, or the entry's queue. -/
def State.seedGo (s : State) (l : Nat) (p : Pattern) (e : Nat) (d : Seed) : State :=
  match look (s.launch l).groups d.group with
  | some g =>
    if g % 2 = 0 then s.inject l (d.token s.stamp (BitVec.ofNat 10 (g / 2))) none
    else s.overflow l ⟨0, .entry e, (d.token s.stamp 0).tok, 0, g / 2, none, none⟩
  | none =>
    if (s.launch l).mayEnter p e then
      match (s.launch l).freeId with
      | some id =>
        (s.onLaunch l fun x => { (x.openRoot p e id) with groups := put x.groups d.group (2 * id) }).inject l
          (d.token s.stamp (BitVec.ofNat 10 id)) none
      | none => s
    else
      ({ s.onLaunch l (fun x => { x with groups := put x.groups d.group (2 * s.serial + 1) }) with serial := s.serial + 1 }).overflow l
        ⟨0, .entry e, (d.token s.stamp 0).tok, 0, s.serial, none, none⟩

/-- Whether seeds of one group address entries of different root classes: the whole group is discarded (R122). -/
def State.groupMixed (s : State) (l : Nat) (p : Pattern) (all_ : List Seed) (g : Nat) : Bool :=
  let cls := (all_.filter fun d => decide (d.group = g)).filterMap fun d =>
    ((seedEntry p (s.launch l).firstStage d).bind fun e => nth p.entries e).map EntryRec.cls
  match cls with
  | [] => false
  | c :: cs => cs.any fun x => decide (x ≠ c)

/-- SEED_INJECT (R122 to R124): the injector handles one seed in an A-cycle: it emits it, lets it wait at its entry, or discards it. -/
def execSeedInject (l : Nat) (s : State) : Host.Outcome State Fault Refusal :=
  .next (let x := s.launch l
    match s.pattern l, nextSeed x.seeds x.seedOrder with
    | some p, some d =>
      if !x.runs || decide (s.aCycle < x.seedAt) then s
      else
        let s1 := s.onLaunch l fun y =>
          { y with seeds := y.seeds.erase d, seedAt := s.aCycle + 1, wdogOn := true, startA := if y.wdogOn then y.startA else s.aCycle }
        if s.seedBad l p d || decide (d.group ∈ x.badGroups) then s1.onLaunch l fun y => { y with leftover := y.leftover + 1 }
        else
          match seedEntry p x.firstStage d with
          | some e => s1.seedGo l p (getAt x.groupEntry d.group e) d
          | none => s1
    | _, _ => s)

/-! The stamp counter (R12, R13). -/

/-- STAMP_COUNTER_TICK (R12): every die's stamp counter advances by one. -/
def execStampCounterTick (s : State) : Host.Outcome State Fault Refusal := .next { s with stamp := s.stamp + 1 }

/-- A token under the age clamp (R13). -/
def Token.clamp (stamp : BitVec 16) (t : Token) : Token :=
  if 16384 < (stamp - t.age).toNat then { t with age := stamp - 16384 } else t

/-- A held operand under the age clamp. -/
def Held.clamp (stamp : BitVec 16) (h : Held) : Held := { h with tok := h.tok.clamp stamp }

/-- A parked firing under the age clamp. -/
def Firing.clamp (stamp : BitVec 16) (f : Firing) : Firing :=
  { f with
    a := f.a.map (Held.clamp stamp)
    b := f.b.map (Held.clamp stamp)
    c := f.c.map (Held.clamp stamp)
    p := f.p.map (Held.clamp stamp) }

/-- A held effect under the age clamp. -/
def HeldEffect.clamp (stamp : BitVec 16) (h : HeldEffect) : HeldEffect := { h with firing := h.firing.clamp stamp }

/-- A cluster's held tokens under the age clamp. -/
def Cluster.clamp (stamp : BitVec 16) (c : Cluster) : Cluster :=
  { c with
    stations := c.stations.map fun x => (x.1, { x.2 with
      table := x.2.table.map (Held.clamp stamp), held := x.2.held.map (HeldEffect.clamp stamp) })
    remnant := c.remnant.map fun r => { r with tok := r.tok.clamp stamp } }

/-- A launch's parked operands, and those of its generators, under the age clamp; a saved launch's are in no station and in no remnant
store until its restore sets their ages (R381). -/
def Launch.clamp (stamp : BitVec 16) (x : Launch) : Launch :=
  if x.saved.isSome then x
  else { x with
    parked := x.parked.map fun p => { p with firing := p.firing.clamp stamp }
    gens := x.gens.map fun g => { g with firing := g.firing.clamp stamp } }

/-- The records of an overflow area under the age clamp (log 74). -/
def State.clampOvf (s : State) (l : Nat) : State :=
  if (s.launch l).saved.isSome then s
  else s.setOvf l ((s.launch l).ovf.map fun o => { o with tok := o.tok.clamp s.stamp })

/-- AGE_CLAMP_SWEEP (R13): every station and remnant store clamps the ages of its held tokens; the home clusters clamp those of the
overflow areas next, each in its own memory (log 74). -/
def execAgeClampSweep (s : State) : Host.Outcome State Fault Refusal :=
  .next { s with
    clusters := s.clusters.map fun k => (k.1, k.2.clamp s.stamp)
    launches := s.launches.map fun l => (l.1, l.2.clamp s.stamp)
    agenda := s.agenda ++ s.launches.map fun e => .clampOvf e.1 }

end Sys2Proof.Machine
end

