-- ==== Sys2Proof/Machine/Network.lean ====
section
/-! DEFINITION. Machine/Network.lean: the token network (spec 07: R157 to R165): routers, receiving ports, credits and the spine
switches.  An N-cycle's work is kept; latencies are not (log 10). -/

namespace Sys2Proof.Machine

/-! The mesh (R125). -/

/-- The neighbour of a cluster in direction 0 to 3: +x, +y, −x, −y. -/
def neighbour (cl d : Nat) : Option Nat :=
  let x := cl % 16
  let y := cl % 128 / 16
  match d with
  | 0 => if x < 15 then some (cl + 1) else none
  | 1 => if y < 7 then some (cl + 16) else none
  | 2 => if 0 < x then some (cl - 1) else none
  | _ => if 0 < y then some (cl - 16) else none

/-! Breadth-first order (R128, R160, R366). -/

/-- Breadth-first visiting of a set of clusters of one die, neighbours in the order +x, +y, −x, −y: each cluster with its
parent, in the order of the visit. -/
def bfsGo (cs : List Nat) : Nat → List Nat → List (Nat × Nat) → List (Nat × Nat)
  | 0, _, acc => acc
  | _ + 1, [], acc => acc
  | n + 1, q :: qs, acc =>
    let new := ((countFrom 0 4).filterMap (neighbour q)).filter fun c => decide (c ∈ cs) && acc.all fun e => decide (e.1 ≠ c)
    bfsGo cs n (qs ++ new) (acc ++ new.map fun c => (c, q))

/-- The breadth-first order of the connected part of a set around a cluster. -/
def bfsFrom (cs : List Nat) (root : Nat) : List (Nat × Nat) := bfsGo cs (cs.length + 1) [root] [(root, root)]

/-- The hops from the root of a breadth-first order to a cluster. -/
def hopsGo (tree : List (Nat × Nat)) : Nat → Nat → Nat
  | 0, _ => 0
  | n + 1, c => match look tree c with
    | some p => if p = c then 0 else hopsGo tree n p + 1
    | none => 0

/-- The hops that a wave takes from one cluster to another of the same die and panel. -/
def Panel.hops (p : Panel) (a b : Nat) : Nat :=
  let tree := bfsFrom (p.all.filter fun k => decide (k / 128 = a / 128)) a
  hopsGo tree tree.length b

/-- Productive directions towards a cluster of the same die: those whose link leads nearer, the x outputs first (R159).  A token never leaves
its panel (R126), so its distance is over the panel's links (log 169). -/
def Panel.productive (p : Panel) (cl dst : Nat) : List Nat :=
  let tree := bfsFrom (p.all.filter fun k => decide (k / 128 = cl / 128)) dst
  let far := hopsGo tree tree.length
  [0, 2, 1, 3].filter fun d => match neighbour cl d with
    | some n => decide (n ∈ p.all ∧ far n < far cl)
    | none => false

/-- The output that a token takes: a free productive one, else the first free panel link (R159). -/
def outputOf (p : Panel) (used : List Nat) (cl dst : Nat) : Option (Nat × Nat) :=
  (p.productive cl dst ++ [0, 1, 2, 3]).findSome? fun d =>
    match neighbour cl d with
    | some n => if n ∈ p.all ∧ (nth used d).getD 0 < 2 then some (d, n) else none
    | none => none

/-! Where an output queue's head goes (R158). -/

/-- The way of a token. -/
inductive Way where
  | near
  | mesh (dst : Nat)
  | spine (to_ : FlitTo)
  | lost
  deriving DecidableEq, Repr

/-- The way that a token takes from a cluster. -/
def State.way (s : State) (l cl : Nat) (t : OutTok) : Way :=
  let p := (s.launch l).panel
  match t.eng with
  | none => match p.cluster t.tok.tag.die t.tok.station with
    | none => .lost
    | some k => if k = cl then .near else if k / 128 = cl / 128 then .mesh k else .spine (.cluster k)
  | some (e, inst, ep) =>
    if e.toNat < 3 then .near
    else match nth p.dies t.tok.tag.die.toNat with
      | none => .lost
      | some d =>
        if e = 4 then .spine (.unmask d)
        else .spine (.seam d (((nth p.seams t.tok.tag.die.toNat).bind fun us => look us inst.toNat).getD inst.toNat) ep.toNat)

/-- Whether a source holds a credit for a destination: a window of 64 (R161). -/
def Cluster.credit (c : Cluster) (dst : Nat) : Bool := decide (getAt c.credits dst 0 < 64)

/-- Takes the next SEQ and one credit (R161). -/
def Cluster.depart (c : Cluster) (dst : Nat) : Nat × Cluster :=
  let q := getAt c.sendSeq dst 0
  (q, { c with sendSeq := setAt c.sendSeq dst ((q + 1) % 128) 0, credits := setAt c.credits dst (getAt c.credits dst 0 + 1) 0 })

/-- Removes the head of a station's output queue. -/
def State.popOut (s : State) (cl n : Nat) : State :=
  s.onStation cl n fun x => { x with outq := x.outq.drop 1, injectWait := 0 }

/-- Stations of a cluster whose head takes a given kind of way. -/
def State.heads (s : State) (l cl : Nat) (test : Way → Bool) : List (Nat × OutTok) :=
  (s.cluster cl).stations.filterMap fun e => match e.2.outq with
    | t :: _ => if test (s.way l cl t) then some (e.1, t) else none
    | [] => none

/-! The receiving port (R162). -/

/-- Delivers a flit to its cluster by a lane (R151): a credit becomes owed. -/
def State.portDeliver (s : State) (l cl : Nat) (f : Flit) (lane : Nat) : State :=
  ({ s with flits := s.flits.filter fun g => decide (g.id ≠ f.id) }).onCluster cl fun c =>
    { c with
      arrivals := c.arrivals ++ [(⟨l, f.out, some (f.srcCl * 16 + f.srcSt), s.nCycle, lane⟩ : Arrival)]
      expect := setAt c.expect f.srcCl ((f.seq + 1) % 128) 0
      owed := setAt c.owed f.srcCl (getAt c.owed f.srcCl 0 + 1) 0 }

/-- Flits in a cluster's reorder buffer of 64. -/
def State.reorderBuffer (s : State) (cl : Nat) : List Flit := s.flits.filter fun f => decide (f.at_ = .reorder cl)

/-- Whether a flit is the one that its receiving port expects. -/
def Cluster.expects (c : Cluster) (f : Flit) : Bool := decide (getAt c.expect f.srcCl 0 = f.seq)

/-- Whether the receiving port admits a flit (R162). -/
def State.admits (s : State) (cl : Nat) (f : Flit) : Bool :=
  let c := s.cluster cl
  let buf := s.reorderBuffer cl
  c.expects f || (decide (buf.length < 64) && !buf.any fun g => decide (g.srcCl = f.srcCl) && c.expects g)

/-- Moves a flit to a place, last in its order there. -/
def State.moveFlit (s : State) (f : Flit) (to_ : FlitAt) : State :=
  { s with flits := (s.flits.filter fun g => decide (g.id ≠ f.id)) ++ [{ f with at_ := to_, moved := true }] }

/-- A flit admitted at its receiving port: delivered in sequence, or held. -/
def State.receive (s : State) (l cl : Nat) (f : Flit) (lane : Nat) : State :=
  if (s.cluster cl).expects f then s.portDeliver l cl f lane else s.moveFlit f (.reorder cl)

/-! Routers (R159, R160). -/

/-- A router's outputs taken, and ejection lanes taken, in one N-cycle. -/
structure Router where
  used : List Nat
  eject : Nat
  deriving DecidableEq, Repr

/-- Whether flit f goes before flit g at a router: older, then the lower input. -/
def Flit.before (f g : Flit) : Bool :=
  let inp := fun (x : Flit) => match x.at_ with | .router _ i => i | _ => 4
  older f.out.tok.age g.out.tok.age || (!older g.out.tok.age f.out.tok.age && decide (inp f ≤ inp g))

/-- Inserts a flit in rank order. -/
def rankIn (f : Flit) : List Flit → List Flit
  | [] => [f]
  | g :: gs => if f.before g then f :: g :: gs else g :: rankIn f gs

/-- Flits ranked oldest first. -/
def ranked (fs : List Flit) : List Flit := fs.foldr rankIn []

/-- Assigns one flit to an output. -/
def State.assign (l cl : Nat) (acc : State × Router) (f : Flit) : State × Router :=
  let (s, r) := acc
  let dst := match f.to_ with | .cluster k => k | _ => cl
  if dst = cl ∧ r.eject < 2 ∧ s.admits cl f = true then
    ((s.receive l cl f ((s.cluster cl).lanes + 1)).onCluster cl fun c => { c with lanes := c.lanes + (if (s.cluster cl).expects f then 1 else 0) },
      { r with eject := r.eject + 1 })
  else
    match outputOf (s.launch l).panel r.used cl dst with
    | some (d, n) => (s.moveFlit f (.router n ((d + 2) % 4)), { r with used := setNth r.used d ((nth r.used d).getD 0 + 1) })
    | none => (s, r)

/-! Waves and injection (R159, R160). -/

/-- Whether the STARVE wave of another router, one hop further in each N-cycle, forbids injection; a router that itself starves injects
at its first free output (R160; log 63). -/
def State.starved (s : State) (l cl : Nat) : Bool :=
  let p := (s.launch l).panel
  (s.cluster cl).starve.isNone && p.all.any fun k => decide (k ≠ cl ∧ k / 128 = cl / 128) && (match (s.cluster k).starve with
    | some n => decide (p.hops k cl ≤ s.nCycle - n)
    | none => false)

/-- A router's injection: one head of its stations, freely chosen, when an output remains free (R159). -/
def State.injectMesh (s : State) (l cl : Nat) (r : Router) : State :=
  let hs := s.heads l cl fun w => match w with | .mesh k => (s.cluster cl).credit k | _ => false
  if hs = [] then s
  else
    let (i, s1) := s.choose hs.length
    let free := if s.starved l cl then none else
      (nth hs i).bind fun h => match s.way l cl h.2 with
        | .mesh k => (outputOf (s.launch l).panel r.used cl k).map fun o => (h, k, o)
        | _ => none
    match free with
    | none => hs.foldl (fun s h => s.onStation cl h.1 fun x => { x with injectWait := x.injectWait + 1 }) s1
    | some (h, k, d, n) =>
      let (q, c) := (s1.cluster cl).depart k
      let f : Flit := ⟨s1.serial, h.2, cl, h.1, .cluster k, q, .router n ((d + 2) % 4), true⟩
      let s2 := ({ s1 with serial := s1.serial + 1, flits := s1.flits ++ [f] }).setCluster cl { c with starve := none }
      (hs.filter fun g => decide (g.1 ≠ h.1)).foldl (fun s g => s.onStation cl g.1 fun x => { x with injectWait := x.injectWait + 1 })
        (s2.popOut cl h.1)

/-- Tokens in one input FIFO of a spine switch. -/
def State.spineFifo (s : State) (die input : Nat) : List Flit := s.flits.filter fun f => decide (f.at_ = .spine die input)

/-- A cluster's uplink: one head of its stations, freely chosen, for another die or an engine of a die (R158, R164). -/
def State.injectSpine (s : State) (l cl : Nat) : State :=
  let hs := s.heads l cl fun w => match w with
    | .spine (.cluster k) => (s.cluster cl).credit k
    | .spine _ => true
    | _ => false
  if hs = [] ∨ 16 ≤ (s.spineFifo (cl / 128) (cl % 128)).length then s
  else
    let (i, s1) := s.choose hs.length
    match nth hs i with
    | none => s1
    | some h =>
      match s.way l cl h.2 with
      | .spine to_ =>
        let (q, c) := match to_ with
          | .cluster k => (s1.cluster cl).depart k
          | _ => (0, s1.cluster cl)
        let f : Flit := ⟨s1.serial, h.2, cl, h.1, to_, q, .spine (cl / 128) (cl % 128), true⟩
        (({ s1 with serial := s1.serial + 1, flits := s1.flits ++ [f] }).setCluster cl c).popOut cl h.1
      | _ => s1

/-- The local path (R158): each station's head for its own cluster is delivered in order. -/
def State.localPath (s : State) (l cl : Nat) : State :=
  (s.heads l cl fun w => decide (w = .near) || decide (w = .lost)).foldl (fun s h =>
    let s1 := s.popOut cl h.1
    if s.way l cl h.2 = .near then s1.arrive cl ⟨l, h.2, some (cl * 16 + h.1), s.nCycle, 0⟩ else s1) s

/-- ROUTER_CYCLE (R158, R159): once in an N-cycle a router assigns its through tokens, then injects; the uplink and the local
path take theirs. -/
def execRouterCycle (cl : Nat) (s : State) : Host.Outcome State Fault Refusal :=
  .next (match (s.cluster cl).owner with
    | none => s
    | some l =>
      if (s.cluster cl).routed ∨ !(s.launch l).moves then s
      else
        let through := s.flits.filter fun f => !f.moved && (match f.at_ with | .router k _ => decide (k = cl) | _ => false)
        let (s1, r) := (ranked through).foldl (State.assign l cl) (s, ⟨[0, 0, 0, 0], 0⟩)
        ((((s1.injectMesh l cl r).injectSpine l cl).localPath l cl).onCluster cl fun c => { c with routed := true }))

/-- STARVE (R160): a router whose injection token has waited 64 N-cycles raises STARVE. -/
def execStarve (cl : Nat) (s : State) : Host.Outcome State Fault Refusal :=
  .next (if (s.cluster cl).starve.isNone && (s.cluster cl).stations.any fun e => decide (64 ≤ e.2.injectWait) then
      s.onCluster cl fun c => { c with starve := some s.nCycle }
    else s)

/-- The flit that a receiving port releases: the oldest of those that follow in sequence. -/
def State.releasable (s : State) (cl : Nat) : Option Flit :=
  (ranked ((s.reorderBuffer cl).filter fun f => (s.cluster cl).expects f)).head?

/-- Releases from the reorder buffer while the N-cycle's two lanes allow (R162). -/
def State.releases (l cl : Nat) : Nat → State → State
  | 0, s => s
  | n + 1, s =>
    if (s.cluster cl).lanes < 2 then
      match s.releasable cl with
      | some f => State.releases l cl n ((s.portDeliver l cl f ((s.cluster cl).lanes + 1)).onCluster cl fun c => { c with lanes := c.lanes + 1 })
      | none => s
    else s

/-- RECEIVE_PORT_DELIVERY (R162): after the router's work of the N-cycle, the downlink's head is taken in, then the reorder buffer
releases what follows in sequence. -/
def execReceivePortDelivery (cl : Nat) (s : State) : Host.Outcome State Fault Refusal :=
  .next (match (s.cluster cl).owner with
    | none => s
    | some l =>
      if !(s.cluster cl).routed || !(s.launch l).moves then s
      else
        let s1 := match s.flits.find? fun f => decide (f.at_ = .downlink cl) with
          | some f =>
            if !(s.cluster cl).down && s.admits cl f then (s.receive l cl f 3).onCluster cl fun c => { c with down := true } else s
          | none => s
        State.releases l cl 2 s1)

/-- CREDIT_RETURN (R161): a destination returns 1 to 16 of the credits that it owes a source. -/
def execCreditReturn (src dst : Nat) (s : State) : Host.Outcome State Fault Refusal :=
  .next (let owed := getAt (s.cluster dst).owed src 0
    if owed = 0 then s
    else
      let (k, s1) := s.choose (min owed 16)
      let n := k + 1
      (s1.onCluster dst fun c => { c with owed := setAt c.owed src (owed - n) 0 }).onCluster src fun c =>
        { c with credits := setAt c.credits dst (getAt c.credits dst 0 - n) 0 })

/-! Spine switches (R164). -/

/-- The die that a token goes to next: diagonal dies are reached through a die of the panel. -/
def nextDie (dies : List Nat) (cur dst : Nat) : Nat :=
  if cur + dst = 3 then
    if cur = 0 ∨ cur = 3 then (if 1 ∈ dies then 1 else 2) else (if 0 ∈ dies then 0 else 3)
  else dst

/-- Where a flit goes from a spine switch. -/
def Flit.spineOut (p : Panel) (die : Nat) (f : Flit) : FlitAt :=
  let to_ := match f.to_ with | .cluster k => k / 128 | .seam d _ _ => d | .unmask d => d
  if to_ = die then
    match f.to_ with
    | .cluster k => .downlink k
    | .seam _ u _ => .spine die (256 + u)
    | .unmask _ => .spine die 260
  else .spine (nextDie p.dies die to_) (128 + die)

/-- The heads of a spine switch's input FIFOs, by input. -/
def State.spineHeads (s : State) (die : Nat) : List Flit :=
  let fs := s.flits.filter fun f => match f.at_ with | .spine d _ => decide (d = die) | _ => false
  fs.foldl (fun acc f => if acc.any fun g => decide (g.at_ = f.at_) then acc else acc ++ [f]) []

/-- Whether flit f goes before flit g at a spine output: older, then the lower input. -/
def Flit.spineBefore (f g : Flit) : Bool :=
  let inp := fun (x : Flit) => match x.at_ with | .spine _ i => i | _ => 0
  older f.out.tok.age g.out.tok.age || (!older g.out.tok.age f.out.tok.age && decide (inp f ≤ inp g))

/-- The first of a list of flits at a spine output. -/
def firstAtSpine : List Flit → Option Flit
  | [] => none
  | f :: fs => match firstAtSpine fs with
    | none => some f
    | some g => if f.spineBefore g then some f else some g

/-- The launch that a flit belongs to. -/
def State.flitLaunch (s : State) (f : Flit) : Nat := ((s.cluster f.srcCl).owner).getD 0

/-- Takes one flit through its output, where hop-by-hop credits allow. -/
def State.spineTake (s : State) (die : Nat) (f : Flit) : State :=
  let l := s.flitLaunch f
  let gone := { s with flits := s.flits.filter fun g => decide (g.id ≠ f.id) }
  let arr : Arrival := ⟨l, f.out, some (f.srcCl * 16 + f.srcSt), s.nCycle, 4⟩
  match f.spineOut (s.launch l).panel die with
  | .downlink k => if s.flits.any fun g => decide (g.at_ = .downlink k) then s else s.moveFlit f (.downlink k)
  | .spine d i =>
    if d = die then gone.arriveDie die arr
    else if (s.spineFifo d i).length < 16 then (s.moveFlit f (.spine d i)).meter l die 11 16
    else s
  | _ => s

/-- SPINE_SWITCH_CYCLE (R164): each output takes the oldest token at the heads of the input FIFOs. -/
def execSpineSwitchCycle (die : Nat) (s : State) : Host.Outcome State Fault Refusal :=
  .next (let hs := (s.spineHeads die).filter fun f => (s.launch (s.flitLaunch f)).moves
    let p := fun (f : Flit) => (s.launch (s.flitLaunch f)).panel
    let outs := union [] (hs.map fun f => f.spineOut (p f) die)
    outs.foldl (fun s o => match firstAtSpine (hs.filter fun f => decide (f.spineOut (p f) die = o)) with
      | some f => s.spineTake die f
      | none => s) s)

end Sys2Proof.Machine
end

