-- ==== Sys2Proof/Machine/Access.lean ====
section
/-! DEFINITION. Machine/Access.lean: the accesses that engines make through swatches (R222, R235, R353), and the faults that
engines raise (R241, R242, R371, R373). -/

namespace Sys2Proof.Machine

/-! Swatches and ranges (R94 to R99). -/

/-- An all-zero swatch entry. -/
def Swatch.blank : Swatch := ⟨.region, .l, 0, 0, 0, 0, 0, 0, 0, 0⟩

/-- A swatch of a launch's pattern. -/
def State.swatch (s : State) (l n : Nat) : Swatch := ((s.pattern l).bind fun p => nth p.swatches n).getD Swatch.blank

/-- Bits of one element (Table 2.2). -/
def elemBits (e : Nat) : Nat := if e < 3 then 8 else if e < 5 then 16 else if e = 5 then 32 else if e = 6 then 8 else if e = 7 then 4 else 32

/-- Bytes of one row of a dense swatch (R95). -/
def Swatch.rowBytes (w : Swatch) : Nat := (w.cols * elemBits w.elem + 7) / 8
/-- STRIDE of a dense swatch. -/
def Swatch.stride (w : Swatch) : Nat := w.aux0 % 2 ^ 32
/-- LENGTH of a region. -/
def Swatch.length (w : Swatch) : Nat := w.aux0 % 2 ^ 48
/-- Whether a swatch is YB (ELEM 6 or 7). -/
def Swatch.yb (w : Swatch) : Bool := decide (w.elem = 6 ∨ w.elem = 7)
/-- Bytes of one row of the scale plane (R44). -/
def Swatch.scaleBytes (w : Swatch) : Nat := (w.cols + 31) / 32 * 2
/-- SCALE of a YB swatch. -/
def Swatch.scale (w : Swatch) : Nat := w.aux1 % 2 ^ 57

/-! One access. -/

/-- How an access ends: performed, waiting (for a full line, R211, a refresh window, R214, or an answer), now with the portal under a
number, or at fault. -/
inductive AccRes where
  | ok (got : List Byte) (s : State)
  | wait
  | sent (id : Nat) (s : State)
  | bad (k : FaultKind) (detail : Word) (s : State)
  deriving DecidableEq, Repr

/-- The range an access goes through. -/
def State.rangeOf (s : State) (c : Client) (a : Acc) : Option Range :=
  match c.launch, a.range with
  | some l, some r => (s.pattern l).bind fun p => nth p.ranges r
  | _, _ => none

/-- Whether a range grants an access (R222, check 1). -/
def Range.allows (r : Range) (a : Acc) : Bool :=
  r.has a.addr a.n && decide (r.space = a.space) && (match a.op with
    | .read => r.rd
    | .write _ => r.wr
    | .add _ _ => r.atom)

/-- The new value of an element under an engine's add (R230, R238). -/
def addValue (ty : AddTy) (x y : Nat) : Nat :=
  match ty with
  | .i32 => (x + y) % 2 ^ 32
  | .i64 => (x + y) % 2 ^ 64
  | .f32 => (fadd fp32 .rne (fp32.decode x) (fp32.decode y)).1

/-- What the leaf must grant an access (R222, check 4). -/
def Acc.need (a : Acc) (tgt : Nat) : Need :=
  match a.op with
  | .read => ⟨true, false, false, tgt⟩
  | .write _ => ⟨false, true, false, tgt⟩
  | .add _ _ => ⟨true, true, false, tgt⟩

/-- An access at a cluster-memory bank: a read waits at an empty line (R211). -/
def State.accBank (s : State) (c : Client) (a : Acc) (cl off : Nat) : AccRes :=
  let in_ := s.crossing c (c.cl / 128) (cl / 128) a.n
  match a.op with
  | .read =>
    if (s.cluster cl).lineEmpty (lineOf off) then .wait
    else if s.poisoned (clusterMark cl off) a.n then .bad .poison 0 s
    else .ok (s.memRead cl off a.n) (s.crossing c (cl / 128) (c.cl / 128) a.n)
  | .write bs => .ok [] (in_.memWrite cl off bs)
  | .add ty v =>
    if s.poisoned (clusterMark cl off) a.n then .bad .poison 0 s
    else .ok [] (in_.memWrite cl off (leBytes a.n (addValue ty (leNat (s.memRead cl off a.n)) v.toNat)))

/-- An access at a home slice. -/
def State.accSlice (s : State) (c : Client) (a : Acc) (t : GTarget) : AccRes :=
  match a.op with
  | .read => match s.readTarget c t a.n with
    | (.ok bs, s1) => .ok bs s1
    | (.error e, s1) => .bad e.1 e.2 s1
  | .write bs => .ok [] (s.writeTarget c t bs)
  | .add ty v => match s.readTarget c t a.n with
    | (.ok bs, s1) => .ok [] (s1.writeTarget c t (leBytes a.n (addValue ty (leNat bs) (v.toNat % 2 ^ (8 * a.n)))))
    | (.error e, s1) => .bad e.1 e.2 s1

/-- An access at a resolved global target: one for the host or a peer goes to the portal, and is performed once it is answered (R221,
R224). -/
def State.accTarget (s : State) (c : Client) (a : Acc) (t : GTarget) : AccRes :=
  match t with
  | .hbm pa _ => if s.stackHeld pa then .wait else s.accSlice c a t
  | t => .sent s.serial { s with
      serial := s.serial + 1
      portal := s.portal ++ [⟨s.serial, c, a.op, a.n, t, none, none⟩] }

/-- An access whose transfer is at the portal: it waits for the answer; an error faults with PROTECT (R349). -/
def State.accAnswer (s : State) (a : Acc) (x : PortalTx) : AccRes :=
  match x.answer with
  | none => .wait
  | some none => .bad .protect 0 (s.dropTx x.id)
  | some (some v) => .ok (match a.op with | .read => leBytes a.n v.toNat | _ => []) (s.dropTx x.id)

/-- The panel whose N space a client sees: its launch's, or for a queue packet the one that holds the serving cluster. -/
def State.clientPanel (s : State) (c : Client) : Option Panel :=
  match c.launch, (s.cluster c.cl).owner with
  | some l, _ => some (s.launch l).panel
  | none, some l => some (s.launch l).panel
  | none, none => none

/-- Check 1 of Table 10.4 for an engine's access: its address form, and its range when it has one (R207, R222). -/
def State.accGranted (s : State) (c : Client) (a : Acc) : Bool :=
  a.space.addrOk a.addr a.n && (match a.range with
    | none => true
    | some _ => match s.rangeOf c a with
      | some r => r.allows a
      | none => false)

/-- A global access: translated, with checks 3 to 5. -/
def State.accGlobal (s : State) (c : Client) (a : Acc) : AccRes :=
  match s.translate c.part a.addr (a.need (((s.rangeOf c a).map Range.tgt).getD 3)) with
  | (.error e, s1) => if s1.heldHit then .wait else .bad e.1 e.2 s1
  | (.ok t, s1) => if s1.heldHit then .wait else s1.accTarget c a t

/-- One access performed with the checks of Table 10.4 (R222). -/
def State.accPerform (s : State) (c : Client) (a : Acc) : AccRes :=
  match a.tx.bind s.tx with
  | some x => s.accAnswer a x
  | none =>
    if !s.accGranted c a then .bad .protect 0 s
    else if a.unit ≠ 0 ∧ a.addr % a.unit ≠ 0 then .bad .align 0 s
    else
      match a.space with
      | .l => s.accBank c a c.cl a.addr
      | .n =>
        match (s.clientPanel c).bind fun p => p.place a.addr with
        | some (cl, off) => s.accBank c a cl off
        | none => .bad .protect 0 s
      | .w =>
        match a.op with
        | .read =>
          if s.refreshing (groupOf a.addr) then .wait
          else if s.poisoned (weightMark a.addr) a.n then .bad .poison 0 s
          else .ok (readBytes s.wstore a.addr a.n)
            ((s.meterOf c (a.addr / 2 ^ 28) 9 a.n).crossing c (a.addr / 2 ^ 28) (c.cl / 128) a.n)
        | _ => .bad .weightWindow 0 s
      | .g => s.accGlobal c a

/-! Lists of accesses. -/

/-- A read of up to one aligned word. -/
def Acc.rd (space : Space) (addr n : Nat) (range : Option Nat) : Acc := ⟨space, addr, n, .read, range, [], false, 0, none⟩
/-- A write within one aligned word. -/
def Acc.wr (space : Space) (addr : Nat) (bs : List Byte) (range : Option Nat) : Acc := ⟨space, addr, bs.length, .write bs, range, [], false, 0, none⟩
/-- The read of one element: its address must be a multiple of its width (R222, check 2). -/
def Acc.rdElem (space : Space) (addr n : Nat) (range : Option Nat) : Acc := { Acc.rd space addr n range with unit := n }
/-- The write of one element. -/
def Acc.wrElem (space : Space) (addr : Nat) (bs : List Byte) (range : Option Nat) : Acc :=
  { Acc.wr space addr bs range with unit := bs.length }
/-- An update of one element. -/
def Acc.update (space : Space) (addr n : Nat) (ty : AddTy) (v : Word) (range : Option Nat) : Acc :=
  ⟨space, addr, n, .add ty v, range, [], false, n, none⟩

/-- The reads of a span, one for each aligned word that it touches. -/
def readSpan (space : Space) (range : Option Nat) : Nat → Nat → Nat → List Acc
  | 0, _, _ => []
  | _ + 1, _, 0 => []
  | fuel + 1, a, n =>
    let k := min (8 - a % 8) n
    .rd space a k range :: readSpan space range fuel (a + k) (n - k)

/-- The writes of a span of bytes, one for each aligned word that it touches. -/
def writeSpan (space : Space) (range : Option Nat) : Nat → Nat → List Byte → List Acc
  | 0, _, _ => []
  | _ + 1, _, [] => []
  | fuel + 1, a, bs =>
    let k := min (8 - a % 8) bs.length
    .wr space a (bs.take k) range :: writeSpan space range fuel (a + k) (bs.drop k)

/-- Reads of `n` bytes at an address. -/
def readsAt (space : Space) (range : Option Nat) (a n : Nat) : List Acc := readSpan space range (n / 8 + 2) a n
/-- Writes of bytes at an address. -/
def writesAt (space : Space) (range : Option Nat) (a : Nat) (bs : List Byte) : List Acc :=
  writeSpan space range (bs.length / 8 + 2) a bs

/-- Whether every access of a list is performed. -/
def allDone (as_ : List Acc) : Bool := as_.all fun a => a.done

/-- The bytes that a list of reads returned, in order. -/
def gotOf (as_ : List Acc) : List Byte := as_.flatMap fun a => a.got

/-- How one step of a list of accesses ends: one was performed or none could be, or one faulted at an address. -/
inductive AccsRes where
  | moved (as_ : List Acc) (s : State)
  | bad (k : FaultKind) (detail : Word) (addr : Nat) (s : State)
  deriving DecidableEq, Repr

/-- Whether an access of a list other than the one at a place is at the portal. -/
def othersSent (as_ : List Acc) (i : Nat) : Bool :=
  ((as_.zip (countFrom 0 as_.length)).filter fun e => decide (e.2 ≠ i) && !e.1.done).any fun e => e.1.tx.isSome

/-- Performs one access of a list, freely chosen among those not done (R235, R357).  A fault is raised once no other of them is at the
portal, so that what parks has no access in flight (R364). -/
def State.accsStep (s : State) (c : Client) (as_ : List Acc) : AccsRes :=
  let open_ := (countFrom 0 as_.length).filter fun i => ((nth as_ i).map fun a => !a.done).getD false
  if open_ = [] then .moved as_ s
  else
    let (k, s1) := s.choose open_.length
    match nth open_ k with
    | none => .moved as_ s1
    | some i =>
      match nth as_ i with
      | none => .moved as_ s1
      | some a =>
        match s1.accPerform c a with
        | .ok got s2 => .moved (setNth as_ i { a with got := got, done := true, tx := none }) s2
        | .wait => .moved as_ s1
        | .sent id s2 => .moved (setNth as_ i { a with tx := some id }) s2
        | .bad k d s2 => if othersSent as_ i then .moved as_ s1 else .bad k d a.addr s2

/-! Faults of engines. -/

/-- A fault of an engine's command that parks it: a TRANSLATE fault joins an unresumed record of its granule (R373).  Answers the
number of the fault. -/
def State.engineFault (s : State) (l : Nat) (k : FaultKind) (detail : Word) (addr : Nat) (src : FaultSrc) (deferFlag : Bool)
    (who : Parker) : Nat × State :=
  let a := BitVec.ofNat 64 addr
  match (if k = .translate then (s.launch l).granuleFault a else none) with
  | some r => (r.id, s.cover l r.id 1 who)
  | none => (s.serial, (s.newFault l k detail a src deferFlag 1 .parked).cover l s.serial 0 who)

/-- The source fields of a fault of an engine's command that a firing issued. -/
def State.engineSrc (s : State) (f : Firing) (srck : Nat) : FaultSrc :=
  { s.srcOf f with srck := srck, fcl := (s.launch f.launch).panel.footprint f.cl }

/-- The source fields of a queue packet's fault (R241). -/
def queueSrc (q : Nat) : FaultSrc := ⟨1, 0, 0x7FF, 0xFF, 0, 0, none, q, 0, 0, 0⟩

/-- A final fault of a completion add (R242). -/
def State.addFault (s : State) (l : Option Nat) (r : AddRes) (h : Word) (src : FaultSrc) : State :=
  match l, r.kind with
  | some l, some k => s.newFault l k h 0 src false 0 .final
  | _, _ => s

/-- A reply of an engine on a group of its command's slot (R163), unless replies are discarded (R185). -/
def State.engineReply (s : State) (f : Firing) (o1 : Bool) (cls : TokClass) (v : Word) : State := s.knotReply f o1 cls v

/-- The launch that holds a cluster. -/
def State.ownerOf (s : State) (cl : Nat) : Option Nat := (s.cluster cl).owner

/-- Whether a launch's engines have their panel. -/
def Launch.engines (x : Launch) : Bool := decide (x.st = .running ∨ x.st = .freezing ∨ x.st = .retiring)

/-- Whether a launch's engines go no further than their stop points: during a freeze, and once a retirement is forced (R185, R378). -/
def Launch.halting (x : Launch) : Bool := x.freeze.isSome || decide (x.ending ≠ none ∧ x.ending ≠ some .normal)

end Sys2Proof.Machine
end

