-- ==== Sys2Proof/Machine/Copy.lean ====
section
/-! DEFINITION. Machine/Copy.lean: copy engines, their instructions, copy queues, the spawn slot and weight loads (spec 11; R184,
R210, R215). -/

namespace Sys2Proof.Machine

/-! Building packets (R243, R244). -/

/-- What a member of the copy family asks of the engine. -/
structure CopyPlan where
  op : Nat
  sop : Nat
  sspace : Space
  dspace : Space
  runs : List CopyRun
  srange : Option Nat
  drange : Option Nat
  idxLimit : Option Nat
  aux : Nat
  /-- the destination rows that the command covers (R210) -/
  covers : List CopyRun
  deriving DecidableEq, Repr

/-- A lone run of one plan. -/
def planOf (op sop : Nat) (w1 w2 : Swatch) (runs : List CopyRun) (aux : Nat) (lim : Option Nat) (covers : List CopyRun) : CopyPlan :=
  ⟨op, sop, w1.space, w2.space, runs, some w1.range, some w2.range, lim, aux, covers⟩

/-- The scale-plane run that COPY, COPYR and OVERLAY of YB swatches append. -/
def scaleRun (w1 w2 : Swatch) (srow drow dblock rows : Nat) : List CopyRun :=
  if w1.yb then
    [⟨w1.scale + srow * w1.scaleBytes, w2.scale + drow * w2.scaleBytes + 2 * dblock, rows, w1.scaleBytes, w1.scaleBytes, w2.scaleBytes⟩]
  else []

/-- COPY's packet (Table 11.4). -/
def planCopy (w1 w2 : Swatch) (a b : Nat) : Except Nat CopyPlan :=
  if w1.kind = .region then
    if a < w1.length ∧ b + w1.length - a ≤ w2.length then
      let rs : List CopyRun := [⟨w1.base + a, w2.base + b, 1, w1.length - a, 0, 0⟩]
      .ok (planOf 0 0 w1 w2 rs 0 none rs)
    else .error 0x0201
  else if a = 0 ∧ b = 0 then
    let rs := ⟨w1.base, w2.base, w1.rows, w1.rowBytes, w1.stride, w2.stride⟩ :: scaleRun w1 w2 0 0 0 w1.rows
    .ok (planOf 0 0 w1 w2 rs 0 none rs)
  else .error 0x0201

/-- COPYR's packet (Table 11.4). -/
def planCopyr (w1 w2 : Swatch) (a b : Nat) : Except Nat CopyPlan :=
  let row0 := a % 2 ^ 24
  let count := a / 2 ^ 24 % 2 ^ 24
  if row0 + count ≤ w1.rows ∧ b + count ≤ w2.rows then
    let rs := ⟨w1.base + row0 * w1.stride, w2.base + b * w2.stride, count, w1.rowBytes, w1.stride, w2.stride⟩ ::
      scaleRun w1 w2 row0 b 0 count
    .ok (planOf 1 0 w1 w2 rs 0 none rs)
  else .error 0x0201

/-- FILL's packet (Table 11.4). -/
def planFill (w2 : Swatch) (a : Nat) : Except Nat CopyPlan :=
  let rs : List CopyRun :=
    if w2.kind = .region then [⟨0, w2.base, 1, w2.length, 0, 0⟩] else [⟨0, w2.base, w2.rows, w2.rowBytes, 0, w2.stride⟩]
  .ok (planOf 2 0 w2 w2 rs (a % 2 ^ 32) none rs)

/-- GATHR's packet (Table 11.4). -/
def planGathr (w1 w2 : Swatch) (a b : Nat) : Except Nat CopyPlan :=
  if b ≤ w2.rows ∧ a + 4 * b ≤ 2 ^ 20 then
    let rs : List CopyRun := [⟨w1.base, w2.base, b, w2.rowBytes, w1.stride, w2.stride⟩]
    .ok (planOf 3 0 w1 w2 rs a (some w1.rows) rs)
  else .error 0x0202

/-- SCATR's packet, plain or in add mode (Table 11.4): it covers every row of the destination swatch (R210). -/
def planScatr (op sop : Nat) (w1 w2 : Swatch) (a b : Nat) : Except Nat CopyPlan :=
  if b ≤ w1.rows ∧ a + 4 * b ≤ 2 ^ 20 then
    .ok (planOf op sop w1 w2 [⟨w1.base, w2.base, b, w1.rowBytes, w1.stride, w2.stride⟩] a (some w2.rows)
      [⟨0, w2.base, w2.rows, w2.rowBytes, 0, w2.stride⟩])
  else .error 0x0202

/-- OVERLAY's packet (Table 11.4). -/
def planOverlay (w1 w2 : Swatch) (a : Nat) : Except Nat CopyPlan :=
  let row0 := a % 2 ^ 24
  let col0 := a / 2 ^ 24 % 2 ^ 24
  if row0 + w1.rows ≤ w2.rows ∧ col0 + w1.cols ≤ w2.cols ∧ (w1.yb = false ∨ col0 % 32 = 0) then
    let rs := ⟨w1.base, w2.base + row0 * w2.stride + col0 * elemBits w1.elem / 8, w1.rows, w1.rowBytes, w1.stride, w2.stride⟩ ::
      scaleRun w1 w2 0 row0 (col0 / 32) w1.rows
    .ok (planOf 6 0 w1 w2 rs 0 none rs)
  else .error 0x0201

/-! Tracked destination lines (R210). -/

/-- The cluster and offset of a destination byte, if it is cluster memory. -/
def State.lineAt (s : State) (c : Client) (space : Space) (addr : Nat) : Option (Nat × Nat) :=
  match space with
  | .l => if addr < 2 ^ 20 then some (c.cl, lineOf addr) else none
  | .n => ((s.clientPanel c).bind fun p => p.place addr).map fun x => (x.1, lineOf x.2)
  | _ => none

/-- Every tracked line that destination rows span. -/
def State.coverLines (s : State) (c : Client) (space : Space) (runs : List CopyRun) : List (Nat × Nat) :=
  let bytes := fun (r : CopyRun) (i : Nat) =>
    let d := r.dst + i * r.dstride
    (countFrom 0 (r.rowBytes / 128 + 2)).filterMap fun k =>
      let a := d / 128 * 128 + 128 * k
      if a < d + r.rowBytes then s.lineAt c space a else none
  let lines := runs.flatMap fun r => (countFrom 0 r.rows).flatMap (bytes r)
  (union [] lines).filter fun x => match s.ownerOf x.1 with
    | some l => s.tracked l x.1 x.2
    | none => false

/-- Sets lines empty or full. -/
def State.setLines (s : State) (ls : List (Nat × Nat)) (isEmpty : Bool) : State := ls.foldl (fun s x => s.setLine x.1 x.2 isEmpty) s

/-- The packet that a firing builds (R244). -/
def CopyPlan.packet (p : CopyPlan) (id : Nat) (f : Firing) (c : Client) (h : Word) (add : Nat) (token ord : Bool)
    (cover : List (Nat × Nat)) : CopyPk :=
  ⟨id, some { f with opId := some id }, none, c, f.st + 1, p.op, p.sop, p.sspace, p.dspace, p.runs, p.srange, p.drange, p.idxLimit,
    p.aux, h, add, token, ord, false, [], 0, 0, 0, 0, [], cover, [], none, none, none⟩

/-- A copy-family firing (R244): the handle's bits, the member's limits, the tracked lines, then the FIFO. -/
def State.copyCmd (s : State) (x : FormE) (ord : Bool) (plan : State → Firing → Except Nat CopyPlan) :
    Host.Outcome State Fault Refusal :=
  s.fireHeld x.pm fun s f =>
    let h := f.knotOf x
    if badHandle h then s.faultFiring f .knotHandle h 0
    else
      match plan s f with
      | .error code => s.trap f code
      | .ok p =>
        let c := s.clientOf f
        if p.dspace = .w then s.faultFiring f .weightWindow 0 (BitVec.ofNat 64 ((p.runs.head?.map CopyRun.dst).getD 0))
        else
          let cover := s.coverLines c p.dspace p.covers
          let id := f.opId.getD s.serial
          let pk := p.packet id f c h (s.addOf f x) x.og0 ord cover
          { (s.setLines cover true).onCluster f.cl (fun k => { k with copy := { k.copy with fifo := k.copy.fifo ++ [pk] } }) with
            serial := s.serial + 1 }

/-- SW1 of a format E slot. -/
def State.sw1 (s : State) (f : Firing) (x : FormE) : Swatch := s.swatch f.launch x.sw1.toNat
/-- SW2 of a format E slot. -/
def State.sw2 (s : State) (f : Firing) (x : FormE) : Swatch := s.swatch f.launch x.sw2.toNat

/-- COPY (R243, R244). -/
def execCopy (x : FormE) (ord : Bool) (s : State) : Host.Outcome State Fault Refusal :=
  s.copyCmd x ord fun s f => planCopy (s.sw1 f x) (s.sw2 f x) (s.opEA f x).toNat (s.opEB f x).toNat
/-- COPYR (R243, R244). -/
def execCopyr (x : FormE) (ord : Bool) (s : State) : Host.Outcome State Fault Refusal :=
  s.copyCmd x ord fun s f => planCopyr (s.sw1 f x) (s.sw2 f x) (s.opEA f x).toNat (s.opEB f x).toNat
/-- FILL (R243, R244). -/
def execFill (x : FormE) (ord : Bool) (s : State) : Host.Outcome State Fault Refusal :=
  s.copyCmd x ord fun s f => planFill (s.sw2 f x) (s.opEA f x).toNat
/-- GATHR (R243, R244). -/
def execGathr (x : FormE) (ord : Bool) (s : State) : Host.Outcome State Fault Refusal :=
  s.copyCmd x ord fun s f => planGathr (s.sw1 f x) (s.sw2 f x) (s.opEA f x).toNat (s.opEB f x).toNat
/-- SCATR with FN 0 (R243, R244). -/
def execScatr (x : FormE) (ord : Bool) (s : State) : Host.Outcome State Fault Refusal :=
  s.copyCmd x ord fun s f => planScatr 4 0 (s.sw1 f x) (s.sw2 f x) (s.opEA f x).toNat (s.opEB f x).toNat
/-- SCATR with FN 1 (R243, R244): SOP 0, 1 or 2 for i32, i64 or f32. -/
def execScatrAdd (x : FormE) (ord : Bool) (s : State) : Host.Outcome State Fault Refusal :=
  s.copyCmd x ord fun s f =>
    planScatr 5 (match x.ty with | .i64 => 1 | .f32 => 2 | _ => 0) (s.sw1 f x) (s.sw2 f x) (s.opEA f x).toNat (s.opEB f x).toNat
/-- OVERLAY (R243, R244). -/
def execOverlay (x : FormE) (ord : Bool) (s : State) : Host.Outcome State Fault Refusal :=
  s.copyCmd x ord fun s f => planOverlay (s.sw1 f x) (s.sw2 f x) (s.opEA f x).toNat

/-! Performing packets (R234, R235, R238). -/

/-- The element width of a scatter-add. -/
def CopyPk.width (p : CopyPk) : Nat := if p.sop = 1 then 8 else 4
/-- The type of a scatter-add's adds. -/
def CopyPk.addTy (p : CopyPk) : AddTy := if p.sop = 0 then .i32 else if p.sop = 1 then .i64 else .f32

/-- Moves the cursor past empty runs. -/
def CopyPk.normal : Nat → CopyPk → CopyPk
  | 0, p => p
  | n + 1, p =>
    match nth p.runs p.run with
    | some r => if r.rows ≤ p.row ∨ r.rowBytes = 0 then CopyPk.normal n { p with run := p.run + 1, row := 0, byte := 0 } else p
    | none => p

/-- Whether every piece has been issued. -/
def CopyPk.issuedAll (p : CopyPk) : Bool := (nth (p.normal (p.runs.length + 1)).runs (p.normal (p.runs.length + 1)).run).isNone

/-- Whether every write of a packet has been performed (R237). -/
def CopyPk.finished (p : CopyPk) : Bool := p.issuedAll && p.todo.all fun q => q.done

/-- Whether a packet names rows by an index list (R232). -/
def CopyPk.indexed (p : CopyPk) : Bool := decide (p.op = 3 ∨ p.op = 4 ∨ p.op = 5)

/-- The first index that the next piece needs and that has not been read: those of a vector of 32 positions are read before its rows are
applied (R238). -/
def CopyPk.needsIdx (p : CopyPk) (r : CopyRun) : Option Nat :=
  let first := p.row / 32 * 32
  if p.indexed then (countFrom first (min 32 (r.rows - first))).find? fun i => (look p.idx i).isNone else none

/-- Addresses modulo 2^64. -/
def rowAddr (base stride row : Nat) : Nat := (base + row * stride) % 2 ^ 64

/-- The pieces of one line access: `n` bytes at a destination, one for each aligned word that they touch (R353). -/
def linePieces (pos row d src n : Nat) (data : Nat → Nat → List Byte) : List Piece :=
  (countFrom (d / 8) ((d + n + 7) / 8 - d / 8)).map fun k =>
    let a := max d (8 * k)
    let m := min (d + n) (8 * k + 8) - a
    ⟨pos, row, a, src + (a - d), m, data (a - d) m, none, false, none⟩

/-- Issues the next line access of a packet whose indices are known (R235), or for scatter-add one element of each position of the
vector. -/
def CopyPk.issue (p : CopyPk) (r : CopyRun) : CopyPk :=
  if p.op = 5 then
    let ps := (countFrom p.row (min 32 (r.rows - p.row))).map fun i =>
      let j := getAt p.idx i 0
      (⟨i, j, rowAddr r.dst r.dstride j + p.byte, rowAddr r.src r.sstride i + p.byte, p.width, [], none, false, none⟩ : Piece)
    let p := { p with todo := ps, issued := p.issued + 1 }
    if p.byte + p.width < r.rowBytes then { p with byte := p.byte + p.width }
    else { p with byte := 0, row := p.row + 32 }
  else
    let srow := if p.op = 3 then getAt p.idx p.row 0 else p.row
    let drow := if p.op = 4 then getAt p.idx p.row 0 else p.row
    let d := rowAddr r.dst r.dstride drow + p.byte
    let n := min (128 - d % 128) (r.rowBytes - p.byte)
    let fillByte := fun j => BitVec.ofNat 8 (p.aux / 2 ^ (8 * ((p.byte + j) % 4)))
    let data := fun off m => if p.op = 2 then (countFrom off m).map fillByte else []
    let ps := linePieces p.issued p.row d (rowAddr r.src r.sstride srow + p.byte) n data
    let p := { p with todo := p.todo ++ ps, issued := p.issued + 1 }
    if p.byte + n < r.rowBytes then { p with byte := p.byte + n } else { p with byte := 0, row := p.row + 1 }

/-- Whether a packet may issue its next line access, or its next vector, as far as its own order goes. -/
def CopyPk.mayIssue (p : CopyPk) : Bool := !p.issuedAll && (decide (p.op ≠ 5) || p.todo.isEmpty)

/-- The line accesses, or elements of a vector, that the next issue puts in flight. -/
def CopyPk.nextLines (p : CopyPk) : Nat :=
  match p.op, nth (p.normal (p.runs.length + 1)).runs (p.normal (p.runs.length + 1)).run with
  | 5, some r => min 32 (r.rows - (p.normal (p.runs.length + 1)).row)
  | _, _ => 1

/-- Merges a vector's elements by destination row, in ascending position (R238). -/
def mergeVector (ty : AddTy) (ps : List Piece) : List Piece :=
  ps.map fun q =>
    if ps.any fun o => decide (o.row = q.row ∧ o.pos < q.pos) then { q with done := true }
    else
      let rest := ps.filter fun o => decide (o.row = q.row ∧ q.pos < o.pos)
      { q with add := some (BitVec.ofNat 64 (rest.foldl (fun v o => addValue ty v (leNat o.data)) (leNat q.data))) }

/-- Merges a scatter-add's vector once all its elements are read. -/
def CopyPk.merge (p : CopyPk) : CopyPk :=
  if p.op = 5 ∧ p.todo.all (fun q => decide (q.data.length = q.n)) = true ∧ p.todo.all (fun q => q.add.isNone && !q.done) = true then
    { p with todo := mergeVector p.addTy p.todo }
  else p

/-- Whether every index of a scatter's list has been read: until then the engine cannot tell that it has written its last byte to a line
(log 167). -/
def CopyPk.indicesRead (p : CopyPk) : Bool :=
  decide (p.op ≠ 4 ∧ p.op ≠ 5) || p.runs.all fun r => (countFrom 0 r.rows).all fun i => (look p.idx i).isSome

/-- Whether a packet will still write to a line: a piece not done, or one still to be issued. -/
def CopyPk.writesLine (s : State) (p : CopyPk) (ln : Nat × Nat) : Bool :=
  let at_ := fun a => decide (s.lineAt p.client p.dspace a = some ln)
  (p.todo.any fun q => !q.done && at_ q.dst) ||
  ((countFrom 0 p.runs.length).any fun k =>
    match nth p.runs k with
    | none => false
    | some r => decide (p.run ≤ k) && (countFrom 0 r.rows).any fun i =>
        let begun := if p.op = 5 then decide (p.row ≤ i ∧ i < p.row + 32) else decide (i = p.row)
        let from_ := if k = p.run ∧ begun = true then p.byte else 0
        let d := rowAddr r.dst r.dstride (if p.op = 4 ∨ p.op = 5 then getAt p.idx i 0 else i)
        (decide (p.run < k) || decide (p.row ≤ i)) &&
          (countFrom 0 ((r.rowBytes + 127) / 128 + 1)).any fun j =>
            let a := (d + from_) / 128 * 128 + 128 * j
            decide (a < d + r.rowBytes ∧ from_ < r.rowBytes) && at_ a)

/-- Fills the covered lines that a packet has finished with (R210): once it is performed, all of them; before, those that have had their last
byte. -/
def State.fillLines (s : State) (p : CopyPk) (whole : Bool) (written : List Nat) : State × CopyPk :=
  let hit := written.filterMap fun a => s.lineAt p.client p.dspace a
  let p := { p with wrote := union p.wrote (hit.filter fun ln => decide (ln ∈ p.cover)) }
  let full := p.cover.filter fun ln => whole || (p.indicesRead && decide (ln ∈ p.wrote) && !p.writesLine s ln)
  (s.setLines full false, { p with cover := p.cover.filter fun ln => decide (ln ∉ full) })

/-- Drops the finished pieces at the front of the window. -/
def CopyPk.trim (p : CopyPk) : CopyPk := { p with todo := p.todo.dropWhile fun q => q.done }

/-- Puts a packet back among the active ones. -/
def State.putActive (s : State) (cl : Nat) (p : CopyPk) : State :=
  s.onCluster cl fun k => { k with copy := { k.copy with active := k.copy.active.map fun q => if q.id = p.id then p else q } }

/-- The launch that a packet's faults go to (R241); none for the scheduler's own. -/
def State.packetLaunch (s : State) (cl : Nat) (p : CopyPk) : Option Nat :=
  match p.client.launch with
  | some l => some l
  | none => if p.sched.isSome then none else s.ownerOf cl

/-- The launch under which a packet's completion add is made: its issuer's, or that of the trigger that issued it (R333). -/
def State.packetReach (s : State) (p : CopyPk) : Option Nat :=
  match p.client.launch with
  | some l => some l
  | none => p.reach.filter fun l => (look s.launches l).isSome

/-- The source of a packet's fault (R241, Table 18.2). -/
def State.packetSrc (s : State) (cl : Nat) (p : CopyPk) : FaultSrc :=
  let base := match p.firing, p.queue with
    | some f, _ => s.engineSrc f 1
    | none, some q => queueSrc q.2.1
    | none, none => queueSrc 0
  { base with fcl := ((s.packetLaunch cl p).map fun l => (s.launch l).panel.footprint cl).getD 0 }

/-- A packet parks at its faulting line (R241): later lines already written will be written again.  Where no launch is there to hold the
record, and for the scheduler's own packets, the access is made again until it passes (log 151). -/
def State.parkPacket (s : State) (cl : Nat) (p : CopyPk) (pos : Nat) (k : FaultKind) (d : Word) (addr : Nat) : State :=
  let redo := fun (q : Piece) => if p.op ≠ 5 ∧ pos < q.pos then { q with done := false } else q
  let p := { p with todo := p.todo.map redo }
  match s.packetLaunch cl p with
  | some l =>
    let (id, s1) := s.engineFault l k d addr (s.packetSrc cl p) ((p.firing.map fun f => f.atCommit).getD false) (.copy cl p.id)
    s1.putActive cl { p with parked := some id }
  | none => s

/-- Whether an earlier piece to the same bytes is still to be written, which a scatter's later position must follow (R238). -/
def CopyPk.blockedBy (p : CopyPk) (q : Piece) : Bool :=
  decide (p.op = 4) && p.todo.any fun o => decide (o.pos < q.pos ∧ o.dst / 8 = q.dst / 8) && !o.done

/-- Whether a packet can park at a position: what it applies in ascending position before it is done (R238, R241). -/
def CopyPk.parksAt (p : CopyPk) (pos : Nat) : Bool := decide (p.op = 5) || p.todo.all fun o => o.done || decide (pos ≤ o.pos)

/-- The read of a source word: that of a pattern or weight image needs X (R217). -/
def State.pieceRead (s : State) (p : CopyPk) (a n : Nat) (q : Piece) : AccRes :=
  match p.sched with
  | some _ => match s.gRead p.client a n Need.image with
    | (.ok bs, s1) => .ok bs s1
    | (.error e, s1) => .bad e.1 e.2 s1
  | none => s.accPerform p.client { Acc.rd p.sspace a n p.srange with tx := q.tx }

/-- Where the image of a stage stands in a pattern store: the spec gives no place (log 155). -/
def storeAt (stage : Nat) : Nat := stage * 262144

/-- The write of a piece, or its add.  The scheduler's packets write the weight store, or the pattern store (R146, R215). -/
def State.pieceWrite (s : State) (p : CopyPk) (op : AccOp) (q : Piece) : AccRes :=
  match p.sched with
  | some (.weight _ _) => .ok [] ({ s with wstore := writeBytes s.wstore q.dst q.data }.heal (weightMark q.dst) q.n)
  | some (.fill g) => .ok [] (s.onCluster p.client.cl fun c => { c with storeMem := writeBytes c.storeMem (storeAt g + q.dst) q.data })
  | none => s.accPerform p.client ⟨p.dspace, q.dst, q.n, op, p.drange, [], false, if p.op = 5 then q.n else 0, q.tx⟩

/-- What a piece whose bytes are read does: its add, once merged, or its write. -/
def CopyPk.pieceOp (p : CopyPk) (q : Piece) : Option AccOp :=
  match p.op, q.add with
  | 5, some v => some (.add p.addTy v)
  | 5, none => none
  | _, _ => some (.write q.data)

/-- The die on which a packet's bytes are written: that of its engine, or of the weight store (meter 10). -/
def CopyPk.writeDie (p : CopyPk) (cl : Nat) (q : Piece) : Nat :=
  match p.sched with
  | some (.weight _ _) => q.dst / 2 ^ 28
  | _ => cl / 128

/-- The piece of the same line access after piece i: what one source word holds of it is read with piece i (R353). -/
def CopyPk.neighbour (p : CopyPk) (i : Nat) (q : Piece) : Option Piece :=
  (nth p.todo (i + 1)).filter fun o => decide (p.op ≠ 5 ∧ o.pos = q.pos ∧ o.row = q.row ∧ o.data = [])

/-- The bytes that the next read of a piece takes: the rest of the aligned source word, as far as the line access goes. -/
def CopyPk.readSize (p : CopyPk) (i : Nat) (q : Piece) : Nat :=
  let a := q.src + q.data.length
  min (8 - a % 8) (q.n - q.data.length + ((p.neighbour i q).map Piece.n).getD 0)

/-- Whether a piece's first bytes stand in the source word that the piece before it reads. -/
def CopyPk.sharesWord (p : CopyPk) (i : Nat) (q : Piece) : Bool :=
  decide (0 < i ∧ q.data = [] ∧ q.src % 8 ≠ 0) && ((nth p.todo (i - 1)).map fun o =>
    decide (p.op ≠ 5 ∧ o.pos = q.pos ∧ o.row = q.row ∧ o.data.length < o.n)).getD false

/-- A piece takes what one read returned, and the one after it what is left. -/
def CopyPk.takeRead (p : CopyPk) (i : Nat) (q : Piece) (bs : List Byte) : CopyPk :=
  let k := q.n - q.data.length
  let p1 := { p with todo := setNth p.todo i { q with data := q.data ++ bs.take k, tx := none } }
  match p.neighbour i q with
  | some o => { p1 with todo := setNth p1.todo (i + 1) { o with data := bs.drop k } }
  | none => p1

/-- One access of a piece: a source word, or its write or add. -/
def State.pieceStep (s : State) (cl : Nat) (p : CopyPk) (i : Nat) (q : Piece) : State :=
  let put := fun (s : State) (q : Piece) => s.putActive cl { p with todo := setNth p.todo i q }
  if q.data.length < q.n then
    let a := q.src + q.data.length
    match s.pieceRead p a (p.readSize i q) q with
    | .ok bs s1 => s1.putActive cl (p.takeRead i q bs).merge
    | .wait => s
    | .sent id s1 => put s1 { q with tx := some id }
    | .bad k d s1 => if p.parksAt q.pos then s1.parkPacket cl p q.pos k d a else s
  else
    match p.pieceOp q with
    | none => s
    | some op =>
      match s.pieceWrite p op q with
      | .ok _ s1 =>
        let s1 := s1.meterOf p.client (p.writeDie cl q) 10 q.n
        let p1 := ({ p with todo := setNth p.todo i { q with done := true, tx := none } }).trim
        let (s2, p2) := s1.fillLines p1 false [q.dst]
        s2.putActive cl p2
      | .wait => s
      | .sent id s1 => put s1 { q with tx := some id }
      | .bad k d s1 => if p.parksAt q.pos then s1.parkPacket cl p q.pos k d q.dst else s

/-- Reads the index of a position from the engine's own cluster (R232, R244). -/
def State.idxStep (s : State) (cl : Nat) (p : CopyPk) (i : Nat) : State :=
  let a := p.aux + 4 * i
  match s.accPerform p.client (.rdElem .l a 4 none) with
  | .ok bs s1 =>
    let v := leNat bs
    if (p.idxLimit.map fun m => decide (m ≤ v)).getD false then
      if p.parksAt p.issued then s1.parkPacket cl p p.issued .trap 0x0203 i else s
    else
      let (s2, p2) := s1.fillLines { p with idx := put p.idx i v } false []
      s2.putActive cl p2
  | .wait => s
  | .sent _ _ => s
  | .bad k d s1 => if p.parksAt p.issued then s1.parkPacket cl p p.issued k d a else s

/-- What a packet may do next: nothing read or written yet needs its turn (R234). -/
inductive CopyAct where
  | start (src : Nat)
  | issue (id : Nat)
  | piece (id pos : Nat)
  deriving DecidableEq, Repr

/-- Whether a packet waits for its ordering token or for earlier packets of its queue (R234). -/
def CopyEng.holds (e : CopyEng) (p : CopyPk) : Bool :=
  (p.ord && !(e.ord.any fun t => decide (p.firing.map (fun f => f.tag) = some t.tag))) ||
    (p.fence && (match p.queue with
      | some (pt, q, i) => e.active.any fun o => match o.queue with
          | some (pt', q', i') => decide (pt' = pt ∧ q' = q ∧ i' < i)
          | none => false
      | none => false))

/-- Whether an engine takes a packet: it performs up to four at once, parked ones among them (R234, R241). -/
def CopyEng.room (e : CopyEng) : Bool := decide (e.active.length < 4)

/-- Whether a piece can only wait: for a line, a window or an answer, or for the other elements of its vector. -/
def State.pieceWaits (s : State) (p : CopyPk) (i : Nat) (q : Piece) : Bool :=
  let waits := fun (r : AccRes) => match r with
    | .wait => true
    | _ => false
  if q.data.length < q.n then waits (s.pieceRead p (q.src + q.data.length) (p.readSize i q) q)
  else match p.pieceOp q with
    | some op => waits (s.pieceWrite p op q)
    | none => true

/-- The line accesses that a packet has in flight (R235): a parked packet has none, nor is one that waits for a line counted, while which
the engine performs its other packets. -/
def State.linesOf (s : State) (p : CopyPk) : Nat :=
  if p.parked.isSome then 0
  else (union [] (((p.todo.zip (countFrom 0 p.todo.length)).filter fun e => !e.1.done && !s.pieceWaits p e.2 e.1).map fun e => e.1.pos)).length

/-- The line accesses that an engine has in flight. -/
def State.linesInFlight (s : State) (cl : Nat) : Nat := ((s.cluster cl).copy.active.map s.linesOf).foldl (· + ·) 0

/-- What an engine may do next for a packet that it performs; `used` are the line accesses in flight, at most 32 (R235). -/
def CopyEng.packetActs (e : CopyEng) (used : Nat) (p : CopyPk) : List CopyAct :=
  if p.parked.isSome || e.holds p then []
  else
    (if p.mayIssue && decide (used + p.nextLines ≤ 32) then [CopyAct.issue p.id] else []) ++
      ((countFrom 0 p.todo.length).filter fun i => match nth p.todo i with
        | some q => !q.done && !p.blockedBy q && !p.sharesWord i q && (decide (p.op ≠ 5) || decide (q.data.length < q.n) || q.add.isSome)
        | none => false).map (CopyAct.piece p.id)

/-- Everything an engine may do next: take a packet from the FIFO or one issued to it, where it is that source's turn, or go on with a
packet that it performs. -/
def CopyEng.acts (e : CopyEng) (used : Nat) (next : Option Nat) : List CopyAct :=
  (match next with
    | some k => if e.room && decide (k < 2) then [CopyAct.start k] else []
    | none => []) ++ e.active.flatMap (e.packetActs used)

/-- The number of a copy queue among an engine's sources (R234). -/
def queueSource (part q : Nat) : Nat := 2 + part * 16 + q

/-- The client of a queue's accesses that no launch makes. -/
def queueClient (part cl : Nat) : Client := ⟨none, part, cl, false⟩

/-- Reads slot i of a ring: word 0 first, words 1 to 7 once VALID is 1 (R114). -/
def State.queuePeek (s : State) (c : Client) (q i log2 : Nat) : Option (List Word) × State :=
  let slot := q + 64 + i % ringSize log2 * 64
  match s.gRead c slot 8 Need.read with
  | (.error _, s1) => (none, s1)
  | (.ok w0, s1) =>
    if leNat w0 < 2 ^ 63 then (none, s1)
    else
      match s1.gRead c (slot + 8) 56 Need.read with
      | (.error _, s2) => (none, s2)
      | (.ok rest, s2) => (some (BitVec.ofNat 64 (leNat w0 - 2 ^ 63) :: wordsOf rest), s2)

/-- Whether a copy queue has a packet for its engine: published, and VALID (R114, R239). -/
def State.queueReady (s : State) (part cl : Nat) (e : Nat × QueueHdr) : Bool :=
  let p := s.part part
  match look p.cq e.1 with
  | some v => p.enable && v.getLsbD 0 && decide (e.2.recbase = cl ∧ e.2.read < s.knotValue e.2.publish) &&
      (s.queuePeek (queueClient part cl) (entryAddr v) e.2.read e.2.log2).1.isSome
  | none => false

/-- Whether the engines of a cluster go on: it serves a panel that runs, or none. -/
def State.enginesRun (s : State) (cl : Nat) : Bool :=
  match s.ownerOf cl with
  | some l => (s.launch l).engines
  | none => true

/-- Whether the engines of a cluster go no further than their stop points. -/
def State.enginesHalt (s : State) (cl : Nat) : Bool :=
  match s.ownerOf cl with
  | some l => (s.launch l).halting
  | none => false

/-- The sources of an engine that have a packet that it may take now: while its panel is not running, the scheduler's alone, and during a
halt none; a copy queue of a partition that a migration has stopped has none (R406). -/
def State.readySources (s : State) (cl : Nat) : List Nat :=
  let e := (s.cluster cl).copy
  let runs := s.enginesRun cl
  if s.enginesHalt cl then []
  else
    (if e.fifo.isEmpty || !runs then [] else [0]) ++
      (if (match e.queued with | p :: _ => runs || p.sched.isSome | [] => false) then [1] else []) ++
      if runs then (s.parts.filter fun p => !p.2.migrating).flatMap fun p => (p.2.cqHdr.filter (s.queueReady p.1 cl)).map fun h => queueSource p.1 h.1
      else []

/-- The source whose turn it is: the next after the last one, in rotation (R234). -/
def State.nextSource (s : State) (cl : Nat) : Option Nat :=
  let ks := s.readySources cl
  match smallest (ks.filter fun k => decide ((s.cluster cl).copy.turn < k)) with
  | some k => some k
  | none => smallest ks

/-- A packet takes the ordering token that it waited for (R234). -/
def CopyEng.takeOrd (e : CopyEng) (p : CopyPk) : CopyEng :=
  if p.ord then
    match e.ord.find? fun t => decide (p.firing.map (fun f => f.tag) = some t.tag) with
    | some t => { e with ord := e.ord.erase t, active := e.active.map fun q => if q.id = p.id then { q with ord := false } else q }
    | none => e
  else e

/-- Takes a packet from a source. -/
def CopyEng.begin (e : CopyEng) (src : Nat) : CopyEng :=
  match (if src = 0 then e.fifo else e.queued) with
  | [] => e
  | p :: rest =>
    if src = 0 then { e with fifo := rest, active := e.active ++ [p], turn := 0 }
    else { e with queued := rest, active := e.active ++ [p], turn := 1 }

/-! Weight loads (R215). -/

/-- Whether a W span overlaps a W range of a launch that is admitted and not yet retired (R215). -/
def State.weightInUse (s : State) (a len : Nat) : Bool :=
  s.launches.any fun e => match look s.patterns e.2.pat with
    | some p => p.ranges.any fun r => decide (r.space = .w ∧ a < r.base + r.len ∧ r.base < a + len)
    | none => false

/-- Whether a packet's destination rows overlap such a range. -/
def State.weightClash (s : State) (p : CopyPk) : Bool :=
  p.runs.any fun r => (countFrom 0 r.rows).any fun i => s.weightInUse (rowAddr r.dst r.dstride i) r.rowBytes

/-- A weight-load command refused with WEIGHT_WINDOW: WLERR and WLADDR, and no further command of this load of its
image (R215). -/
def State.refuseWeight (s : State) (image load : Nat) (p : CopyPk) : State :=
  s.onPart p.client.part fun x => { x with
    wlerr := true
    wladdr := if x.wlerr then x.wladdr else BitVec.ofNat 64 ((p.runs.head?.map CopyRun.dst).getD 0)
    wrefused := union x.wrefused [(image, load)] }

/-- The tracked lines that a packet of eight words covers, all its rows being named in it; a scatter's are not (R210, R235). -/
def State.packetCover (s : State) (p : CopyPk) : List (Nat × Nat) :=
  if p.op = 4 ∨ p.op = 5 then [] else s.coverLines p.client p.dspace p.runs

/-- A trigger's packet is consumed as a queue packet is: the engine takes it, with its tracked lines emptied (R210, R235, R343). -/
def State.beginTriggered (s : State) (cl : Nat) (p : CopyPk) : State :=
  let cover := s.packetCover p
  ((s.setLines cover true).onCluster cl fun k => { k with copy := k.copy.begin 1 }).putActive cl { p with cover := cover }

/-- A packet is taken; a weight load that meets an admitted launch's range is refused instead (R215). -/
def State.startPacket (s : State) (cl src : Nat) : State :=
  match (if src = 1 then (s.cluster cl).copy.queued.head? else none) with
  | some p =>
    match p.sched with
    | some (.weight image load) =>
      if s.weightClash p then
        (s.refuseWeight image load p).onCluster cl fun k => { k with copy := { k.copy with queued := k.copy.queued.drop 1, turn := 1 } }
      else s.onCluster cl fun k => { k with copy := k.copy.begin src }
    | some (.fill _) => s.onCluster cl fun k => { k with copy := k.copy.begin src }
    | none => s.beginTriggered cl p
  | none => s.onCluster cl fun k => { k with copy := k.copy.begin src }

/-- The load of a weight image that a packet belongs to, once a launch with an overlapping W range has been admitted (R215). -/
def State.weightStopped (s : State) (p : CopyPk) : Option (Nat × Nat) :=
  match p.sched with
  | some (.weight image load) => if s.weightClash p then some (image, load) else none
  | _ => none

/-- A weight-load command being performed stops: nothing more of it is written (R215). -/
def State.stopWeight (s : State) (cl : Nat) (p : CopyPk) (w : Nat × Nat) : State :=
  (s.refuseWeight w.1 w.2 p).onCluster cl fun k => { k with
    copy := { k.copy with active := k.copy.active.filter fun q => decide (q.id ≠ p.id) } }

/-- One thing that a copy engine does. -/
def State.copyAct (s : State) (cl : Nat) (a : CopyAct) : State :=
  match a with
  | .start src => s.startPacket cl src
  | .issue id =>
    match (s.cluster cl).copy.active.find? fun p => decide (p.id = id) with
    | none => s
    | some p =>
      match s.weightStopped p with
      | some w => s.stopWeight cl p w
      | none =>
      let s1 := s.onCluster cl fun k => { k with copy := k.copy.takeOrd p }
      let p := ({ p with ord := false }).normal (p.runs.length + 1)
      match nth p.runs p.run with
      | none => s1
      | some r =>
        match p.needsIdx r with
        | some i => s1.idxStep cl p i
        | none => s1.putActive cl (p.issue r)
  | .piece id i =>
    match (s.cluster cl).copy.active.find? fun p => decide (p.id = id) with
    | none => s
    | some p =>
      match s.weightStopped p, nth p.todo i with
      | some w, _ => s.stopWeight cl p w
      | none, some q => s.pieceStep cl p i q
      | none, none => s

/-- The packet that an act of an engine is for; the scheduler's own first, where its turn is. -/
def CopyEng.packetOfAct (e : CopyEng) : CopyAct → Option CopyPk
  | .start src => if src = 0 then e.fifo.head? else e.queued.head?
  | .issue id => e.active.find? fun p => decide (p.id = id)
  | .piece id _ => e.active.find? fun p => decide (p.id = id)

/-- Whether an act completes the line, or the vector, that a packet is at: the rest waits at a stop point (Table 18.3). -/
def CopyEng.ofLine (e : CopyEng) : CopyAct → Bool
  | .piece id i => match e.active.find? fun p => decide (p.id = id) with
    | some p => decide (p.op = 5) || (match p.todo.find? (fun q => !q.done), nth p.todo i with
      | some h, some q => decide (q.pos = h.pos)
      | _, _ => false)
    | none => false
  | _ => false

/-- Whether a migration stops a packet at its line: one of a copy queue of the partition (R406). -/
def State.stopsHere (s : State) (p : CopyPk) : Bool := p.queue.isSome && (s.part p.client.part).migrating

/-- What a copy engine may do now: during a halt it completes the line of each packet, as it does of those that a migration stops, and
without a running panel it performs the scheduler's packets alone (R146, R406, Table 18.3). -/
def State.copyActs (s : State) (cl : Nat) : List CopyAct :=
  let e := (s.cluster cl).copy
  let all := e.acts (s.linesInFlight cl) (s.nextSource cl)
  if s.enginesHalt cl then all.filter e.ofLine
  else
    let moves := all.filter fun a => !((e.packetOfAct a).map s.stopsHere).getD false || e.ofLine a
    if s.enginesRun cl then moves else moves.filter fun a => ((e.packetOfAct a).bind CopyPk.sched).isSome

/-- COPY_PACKET_START (R234, R235, R238): the engine takes a packet in rotation, or goes on with one of those it performs; which, is
free (log 3). -/
def execCopyPacketStart (cl : Nat) (s : State) : Host.Outcome State Fault Refusal :=
  .next (let acts := s.copyActs cl
    if acts = [] then s
    else
      let (k, s1) := s.choose acts.length
      match nth acts k with
      | some a => s1.copyAct cl a
      | none => s1)

/-- COPY_ORD_TOKEN (R234): a token at `copy.ord` is held until a packet consumes it; what one at `copy.cmd` does is not stated, and it
is consumed (log 38). -/
def execCopyOrdToken (cl k : Nat) (s : State) : Host.Outcome State Fault Refusal :=
  .next (match s.arrivalAt cl k with
    | none => s
    | some a =>
      match a.out.eng with
      | some (e, _, port) =>
        if e = 1 then
          (s.dropArrival cl k).onCluster cl fun c =>
            if port = 1 then { c with copy := { c.copy with ord := c.copy.ord ++ [a.out.tok] } } else c
        else s
      | none => s)

/-- A pattern store holds one more image (R146). -/
def Cluster.storeImage (c : Cluster) (p : CopyPk) : Cluster :=
  match p.sched with
  | some (.fill g) => { c with store := union c.store [g] }
  | _ => c

/-- A performed packet leaves the engine; it consumes the ordering token that it waited for. -/
def CopyEng.finish (e : CopyEng) (p : CopyPk) : CopyEng :=
  { e.takeOrd p with active := (e.takeOrd p).active.filter fun q => decide (q.id ≠ p.id) }

/-- COPY_PACKET_PERFORMED (R237, R242): covered lines become full, then the knot add and the token; an image is in its pattern store. -/
def execCopyPacketPerformed (cl p : Nat) (s : State) : Host.Outcome State Fault Refusal :=
  .next (match (s.cluster cl).copy.active.find? fun q => decide (q.id = p) with
    | none => s
    | some pk =>
      if !pk.finished || pk.parked.isSome || (s.cluster cl).copy.holds pk || !(s.enginesRun cl || pk.sched.isSome) then s
      else
        let (s1, pk) := s.fillLines pk true []
        let s2 := s1.onCluster cl fun k => { k with copy := k.copy.finish pk }.storeImage pk
        let (r, s3) := s2.engineAdd (cl / 128) (s.packetReach pk) pk.client.part pk.knot pk.add
        match r, pk.firing with
        | .done, some f => if pk.token then s3.engineReply f false .completion 0 else s3
        | .done, none => s3
        | _, _ => s3.addFault (s.packetLaunch cl pk) r pk.knot (s.packetSrc cl pk))

/-! Copy queues (R239, R240). -/

/-- Takes packet i of a ring: copies it, writes 0 to word 0 of its slot, then READ := i + 1 (R114). -/
def State.queueTake (s : State) (c : Client) (q i log2 : Nat) (p : List Word) : Except (FaultKind × Word) (List Word × State) :=
  let slot := q + 64 + i % ringSize log2 * 64
  match s.gWrite c slot (leBytes 8 0) Need.write with
  | .error e => .error e
  | .ok s1 =>
    match s1.gWrite c (q + 16) (leBytes 8 (i + 1)) Need.write with
    | .error e => .error e
    | .ok s2 => .ok (p, s2)

/-- Records a queue packet's error in the queue's header unless ERRV is set, and makes its add if the handle is valid (R240). -/
def State.copyQueueError (s : State) (c : Client) (q i code : Nat) (p : List Word) : State :=
  let s1 := match s.gRead c (q + 32) 8 Need.read with
    | (.error _, s1) => s1
    | (.ok bs, s1) =>
      if (leNat bs).testBit 40 then s1
      else
        match s1.gWrite c (q + 32) (leBytes 8 (i % 2 ^ 32 + code * 2 ^ 32 + 2 ^ 40)) Need.write with
        | .error _ => s1
        | .ok s2 => s2
  (s1.engineAdd (c.cl / 128) none c.part (wordAt p 6) (bitsOf (wordAt p 7).toNat 0 32)).2

/-- A consumed queue packet: refused, or taken by its engine with its tracked lines emptied (R210, R235, R240). -/
def State.takeQueued (s : State) (part q i cl a : Nat) (p : List Word) : State :=
  let c := queueClient part cl
  let s := s.onCluster cl fun k => { k with copy := { k.copy with turn := queueSource part q } }
  match s.packetError part none p with
  | some code => s.copyQueueError c a i code p
  | none =>
    let pk := packetOf s.serial { c with counts := true } (some (part, q, i)) p
    let cover := s.packetCover pk
    { (s.setLines cover true).onCluster cl (fun k =>
      { k with copy := { k.copy with active := k.copy.active ++ [{ pk with cover := cover }] } }) with
      serial := s.serial + 1 }

/-- COPY_QUEUE_PACKET (R112, R114, R234, R239, R240): in its queue's turn, the serving engine consumes the next packet of a copy queue. -/
def execCopyQueuePacket (part q : Nat) (s : State) : Host.Outcome State Fault Refusal :=
  .next (let pt := s.part part
    match look pt.cq q, look pt.cqHdr q with
    | some v, some h =>
      let a := entryAddr v
      let cl := h.recbase
      let c := queueClient part cl
      let i := h.read
      if !pt.enable || !v.getLsbD 0 then s
      else if s.published h then
        let (h1, s1) := s.reread c a h (s.copyHeader part)
        s1.onPart part fun x => { x with cqHdr := put x.cqHdr q h1 }
      else if !(s.cluster cl).copy.room || decide (s.nextSource cl ≠ some (queueSource part q)) then s
      else
        match s.queuePeek c a i h.log2 with
        | (none, s1) => s1
        | (some p, s1) =>
          match s1.queueTake c a i h.log2 p with
          | .error _ => s1
          | .ok (p, s2) => (s2.onPart part fun x => { x with cqHdr := put x.cqHdr q { h with read := i + 1 } }).takeQueued part q i cl a p
    | _, _ => s)

/-- Whether a packet is one that the scheduler issues for a weight image of a partition (R215, R232, R233). -/
def weightPacketOk (part : Nat) (p : List Word) : Bool :=
  let w := fun i => (wordAt p i).toNat
  let rows := bitsOf (w 3) 0 24
  decide (w 0 % 256 = 2 ∧ bitsOf (w 0) 32 6 = part) && copyPacketClean p && decide (bitsOf (w 3) 48 4 = 7 ∧ bitsOf (w 1) 57 3 = 3) &&
    decide (bitsOf (w 2) 57 3 = 2 ∧ bitsOf (w 3) 24 24 ≠ 0) &&
    (countFrom 0 rows).all fun i => Space.w.addrOk (rowAddr (bitsOf (w 2) 0 57) (w 5) i) (bitsOf (w 3) 24 24)

/-- WEIGHT_LOAD_COMMAND (R215): in one load of a registered weight image the scheduler issues one command of it to a cluster's copy engine;
refused with WEIGHT_WINDOW it sets WLERR and WLADDR, and no further command of that load is issued. -/
def execWeightLoadCommand (part image load cl : Nat) (packet : List Word) (s : State) : Host.Outcome State Fault Refusal :=
  .next (if (image, load) ∈ (s.part part).wrefused ∨ weightPacketOk part packet = false ∨ 512 ≤ cl then s
    else
      let pk := { packetOf s.serial { queueClient part cl with counts := true } none packet with sched := some (.weight image load) }
      if s.weightClash pk then s.refuseWeight image load pk
      else { s.onCluster cl (fun k => { k with copy := { k.copy with queued := k.copy.queued ++ [pk] } }) with serial := s.serial + 1 })

/-! The spawn slot (R184, R245). -/

/-- A SPAWN or CQPUSH firing, checked against the partition's queue table, joins the spawn slot's queue, in which there is always room
(R33; log 163). -/
def State.spawnCmd (s : State) (x : FormE) (queue : State → Firing → Nat) (launchQueue : Bool) (code : Nat) :
    Host.Outcome State Fault Refusal :=
  s.fireHeld x.pm fun s f =>
    let h := f.knotOf x
    let p := s.part (s.launch f.launch).part
    if badHandle h then s.faultFiring f .knotHandle h 0
    else if !enabledIn (if launchQueue then p.lq else p.cq) (queue s f) then s.trap f code
    else
      let id := f.opId.getD s.serial
      { s.onCluster f.cl (fun k => { k with copy := { k.copy with spawn := k.copy.spawn ++ [⟨{ f with opId := some id }, 0, [], 0, [], none⟩] } })
        with serial := s.serial + 1 }

/-- SPAWN (R184). -/
def execSpawn (x : FormE) (_setSeed : Bool) (s : State) : Host.Outcome State Fault Refusal :=
  s.spawnCmd x (fun s f => (s.opEB f x).toNat) true 0x0104

/-- CQPUSH (R245). -/
def execCqpush (x : FormE) (_patch : CqPatch) (s : State) : Host.Outcome State Fault Refusal :=
  s.spawnCmd x (fun s f => (s.opEA f x).toNat) false 0x0204

/-- The form of a spawn-slot command, the address of its queue, and its packet made from the template. -/
def State.spawnParts (s : State) (f : Firing) (tmpl : List Word) : Option (FormE × Nat × List Word × Bool) :=
  let setLow := fun (w : Word) (n : Nat) (v : Word) => BitVec.ofNat 64 (w.toNat / 2 ^ n * 2 ^ n + v.toNat % 2 ^ n)
  match decode f.word with
  | .ok (.spawn x seed) =>
    some (x, (s.opEB f x).toNat, if seed then setNth tmpl 7 (setLow (wordAt tmpl 7) 40 (s.opEA f x)) else tmpl,
      seed && (wordAt tmpl 0).getLsbD 8)
  | .ok (.cqpush x patch) =>
    some (x, (s.opEA f x).toNat, (match patch with
      | .none => tmpl
      | .src => setNth tmpl 1 (setLow (wordAt tmpl 1) 57 (s.opEB f x))
      | .dst => setNth tmpl 2 (setLow (wordAt tmpl 2) 57 (s.opEB f x))), false)
  | _ => none

/-- Replaces the head of the spawn slot's queue. -/
def State.putSpawn (s : State) (cl : Nat) (c : SpawnCmd) : State :=
  s.onCluster cl fun k => { k with copy := { k.copy with spawn := c :: k.copy.spawn.drop 1 } }

/-- The command at the head of the spawn slot parks (R184). -/
def State.parkSpawn (s : State) (cl : Nat) (c : SpawnCmd) (k : FaultKind) (d : Word) (addr : Nat) : State :=
  let (id, s1) := s.engineFault c.firing.launch k d addr (s.engineSrc c.firing 1) c.firing.atCommit (.spawn cl)
  s1.putSpawn cl { c with parked := some id }

/-- One step of the command at the head of the spawn slot: reading the template, the claim, the wait for room, the publication, and the
completion (R184, R245). -/
def State.spawnStep (s : State) (cl : Nat) (c : SpawnCmd) : State :=
  let f := c.firing
  let cl' := s.clientOf f
  match s.spawnParts f (wordsOf c.tmpl) with
  | none => s
  | some (x, q, packet, clash) =>
    match c.step with
    | 0 =>
      let w := s.sw1 f x
      let as_ := if c.accs.isEmpty then readsAt w.space (some w.range) w.base 64 else c.accs
      match s.accsStep cl' as_ with
      | .moved bs s1 => s1.putSpawn cl (if allDone bs then { c with step := 1, tmpl := gotOf bs, accs := [] } else { c with accs := bs })
      | .bad k d a s1 => s1.parkSpawn cl { c with accs := as_ } k d a
    | 1 =>
      if clash then s.parkSpawn cl { c with step := 0 } .trap 0x0105 0
      else
        match s.queueClaim cl' q with
        | .error e => s.parkSpawn cl c e.1 e.2.1 e.2.2
        | .ok (i, s1) => s1.putSpawn cl { c with step := 2, index := i }
    | 2 =>
      match s.queueRoom cl' q c.index with
      | .error e => s.parkSpawn cl c e.1 e.2.1 e.2.2
      | .ok (room, s1) => if room then s1.putSpawn cl { c with step := 3 } else s1
    | 3 =>
      match s.queuePublish cl' q c.index packet with
      | .error e => s.parkSpawn cl c e.1 e.2.1 e.2.2
      | .ok (r, h, s1) => (s1.addFault (some f.launch) r h (s.engineSrc f 1)).putSpawn cl { c with step := 4 }
    | _ =>
      let s0 := s.onCluster cl fun k => { k with copy := { k.copy with spawn := k.copy.spawn.drop 1 } }
      let h := f.knotOf x
      let (r, s1) := s0.engineAdd (cl / 128) (some f.launch) (s.launch f.launch).part h (s.addOf f x)
      (s1.addFault (some f.launch) r h (s.engineSrc f 1)).engineReply f false .value (BitVec.ofNat 64 c.index)

/-- SPAWN_SLOT_STEP (R184, R245): the command at the head of the spawn slot takes its next step. -/
def execSpawnSlotStep (cl : Nat) (s : State) : Host.Outcome State Fault Refusal :=
  .next (match (s.cluster cl).copy.spawn with
    | c :: _ => if c.parked.isNone && s.enginesRun cl && !(s.enginesHalt cl && c.accs.isEmpty) then s.spawnStep cl c else s
    | [] => s)

/-! Resumes (R376). -/

/-- A packet that a fault parked is retried from its faulting point. -/
def CopyEng.retry (e : CopyEng) (id pk : Nat) : CopyEng :=
  { e with active := e.active.map fun q => if q.id = pk ∧ q.parked = some id then { q with parked := none } else q }

/-- The spawn command that a fault parked is retried from its faulting point. -/
def CopyEng.retrySpawn (e : CopyEng) (id : Nat) : CopyEng :=
  { e with spawn := e.spawn.map fun q => if q.parked = some id then { q with parked := none } else q }

/-- The packets and spawn commands of a cluster that a fault parked are abandoned; their writes stay performed. -/
def CopyEng.discard (e : CopyEng) (id : Nat) : CopyEng :=
  { e with
    active := e.active.filter fun q => decide (q.parked ≠ some id)
    spawn := e.spawn.filter fun q => decide (q.parked ≠ some id) }

/-- As `CopyEng.discard`; the lines that an abandoned packet covers become full (R185, R210). -/
def State.discardCopy (s : State) (cl id : Nat) : State :=
  let gone := (s.cluster cl).copy.active.filter fun q => decide (q.parked = some id)
  (s.setLines (gone.flatMap fun q => q.cover) false).onCluster cl fun c => { c with copy := c.copy.discard id }

end Sys2Proof.Machine
end

