-- ==== Sys2Proof/Machine/TensorNum.lean ====
section
/-! DEFINITION. Machine/TensorNum.lean: the arithmetic of the tensor unit: element decoding (R43, R45, R55), its sum (R56), its
roundings (R46 to R49, R58), quantising to YB (R52 to R54) and the functions of TACT (R264). -/

namespace Sys2Proof.Machine

/-- The flags that the tensor unit sets (R50): NV, OF, INF_SAT and QNAN. -/
def tensorFlags (e : Exc) : Exc := e &&& (excNV ||| excOF ||| excINFSAT ||| excQNAN)

/-! Element values. -/

/-- An integer as an exact value. -/
def FVal.ofInt (i : Int) : FVal := .fin (decide (i < 0)) i.natAbs 0

/-- A YB element under its block's exponents (R43): `mbits` magnitude bits and `u` = log2 of the unit. -/
def ybVal (mbits u raw ehi elo : Nat) : FVal :=
  let m := raw % 2 ^ mbits
  let e := if raw.testBit (mbits + 1) then ehi else elo
  if e = 255 then .nan false else .fin (raw.testBit mbits) m ((e : Int) - 127 - u)

/-- The value of an element of a code (Table 2.2), with its block's exponents for YB. -/
def elemVal (code raw ehi elo : Nat) : FVal :=
  match code with
  | 0 => e4m3.decode raw
  | 1 => e5m2.decode raw
  | 2 => .ofInt (sext 8 raw)
  | 3 => fp16.decode raw
  | 4 => bf16.decode raw
  | 5 => fp32.decode raw
  | 6 => ybVal 6 5 raw ehi elo
  | 7 => ybVal 2 1 raw ehi elo
  | _ => .ofInt (sext 32 raw)

/-- The floating format of a code. -/
def codeFmt (code : Nat) : Fmt :=
  match code with
  | 0 => e4m3 | 1 => e5m2 | 3 => fp16 | 4 => bf16 | _ => fp32

/-- A floating pattern widened exactly to FP32 (R283, R325): a NaN keeps its sign and its payload, from the fraction's highest bit down
(log 147). -/
def Fmt.widen (m : Fmt) (bits : Nat) : Nat :=
  let x := m.decode bits
  if x.isNan then fp32.signed (bits.testBit (m.e + m.f)) (fp32.infBits + bits % 2 ^ m.f * 2 ^ (23 - m.f))
  else (roundVal fp32 .rne x).1

/-! Roundings. -/

/-- A value rounded to E4M3 (R48). -/
def toE4m3 (rm : RM) (x : FVal) : FRes :=
  match x with
  | .nan s => (e4m3.nanBits, excIf s excNV)
  | .inf n => (e4m3.signed n e4m3.maxBits, excINFSAT)
  | .fin n m e => roundRes e4m3 rm n m e

/-- The integer limits of INT8 and INT32. -/
def elemLimits (code : Nat) : Int × Int := if code = 2 then (-128, 127) else intLimits .i32

/-- A value rounded to an element of a code (R47 to R49, R58): pattern and flags. -/
def toElem (code : Nat) (rm : RM) (x : FVal) : FRes :=
  match code with
  | 0 => (toE4m3 rm x).map id tensorFlags
  | 2 | 8 =>
    let (i, e) := toInt (elemLimits code) rm x
    ((i % (2 ^ (if code = 2 then 8 else 32) : Nat)).toNat, tensorFlags e)
  | _ => (arith (codeFmt code) [x] false (roundVal (codeFmt code) rm x)).map id tensorFlags

/-- The exact sum of two values: none when it is ∞ − ∞. -/
def exactAdd (x y : FVal) : Option FVal :=
  match x, y with
  | .inf a, .inf b => if a = b then some (.inf a) else none
  | .inf a, _ => some (.inf a)
  | _, .inf b => some (.inf b)
  | .fin n1 m1 e1, .fin n2 m2 e2 =>
    let (s, e) := alignSum n1 m1 e1 n2 m2 e2
    if s = 0 then some (.fin (decide (m1 = 0 ∧ m2 = 0 ∧ n1 = n2) && n1) 0 0) else some (.fin (decide (s < 0)) s.natAbs e)
  | _, _ => some (.nan false)

/-- An elementwise result (R263): a NaN operand or an invalid operation gives the canonical NaN. -/
def elemResult (code : Nat) (xs : List FVal) (r : Option FVal) : FRes :=
  let nan := (toElem code .rne (.nan false)).1
  match r with
  | none => (nan, excNV)
  | some v => if xs.any FVal.isNan then (nan, snanFlag xs) else toElem code .rne v

/-- TADD of one element. -/
def elemAdd (code : Nat) (x y : FVal) : FRes := elemResult code [x, y] (exactAdd x y)
/-- A product of two integers has no negative zero (R57). -/
def FVal.plainZero (x : FVal) : FVal :=
  match x with
  | .fin n m e => if m = 0 then .fin false 0 0 else .fin n m e
  | _ => x
/-- The exact product of two elements; `ints` says that both are integers. -/
def elemProduct (ints : Bool) (x y : FVal) : Option FVal := if ints then (mulVals x y).map FVal.plainZero else mulVals x y
/-- TMUL of one element. -/
def elemMul (ints : Bool) (code : Nat) (x y : FVal) : FRes := elemResult code [x, y] (elemProduct ints x y)
/-- TSCALE of one element: x × s + o with one rounding. -/
def elemScale (code : Nat) (x sc o : FVal) : FRes :=
  match mulVals x sc with
  | none => elemResult code [x, sc, o] none
  | some p => if [x, sc, o].any FVal.isNan then elemResult code [x, sc, o] (some p) else elemResult code [x, sc, o] (exactAdd p o)

/-! The sum (R56). -/

/-- floor(log2 |t|) of a finite non-zero value. -/
def topBit (m : Nat) (e : Int) : Int := (Nat.log2 m : Int) + e

/-- The finite non-zero terms. -/
def nonZero (ts : List FVal) : List (Bool × Nat × Int) :=
  ts.filterMap fun t => match t with
    | .fin n m e => if m = 0 then none else some (n, m, e)
    | _ => none

/-- The largest of a list of integers. -/
def greatest : List Int → Int
  | [] => 0
  | [x] => x
  | x :: xs => if greatest xs ≤ x then x else greatest xs

/-- The window sum: signed count of 2^lsb, and the sticky bit. -/
def windowSum (lsb : Int) : List (Bool × Nat × Int) → Int × Bool
  | [] => (0, false)
  | (n, m, e) :: ts =>
    let (s, st) := windowSum lsb ts
    let (k, r) := if lsb ≤ e then (m * 2 ^ (e - lsb).toNat, false) else
      (m / 2 ^ (lsb - e).toNat, decide (m % 2 ^ (lsb - e).toNat ≠ 0))
    ((if n then s - k else s + k), st || r)

/-- The sum of products and the accumulator value, if present, rounded once to FP32 (R56). -/
def tensorSum (ints : Bool) (pairs : List (FVal × FVal)) (q : Option FVal) : FRes :=
  let prods := pairs.map fun p => elemProduct ints p.1 p.2
  let ts := prods.filterMap id ++ q.toList
  let inNan := pairs.any fun p => p.1.isNan || p.2.isNan
  let qNan := (q.map FVal.isNan).getD false
  let snan := pairs.any fun p => p.1.isSnan || p.2.isSnan
  let inv := prods.any Option.isNone
  let pos := ts.any fun t => decide (t = .inf false)
  let neg := ts.any fun t => decide (t = .inf true)
  if inNan || qNan || inv || (pos && neg) then (fp32.nanBits, excIf (snan || (!inNan && !qNan)) excNV)
  else if pos || neg then infRes fp32 neg
  else
    let nz := nonZero ts
    if nz = [] then zeroRes fp32 (ts.all FVal.neg && !ts.isEmpty)
    else
      let lsb := greatest (nz.map fun t => topBit t.2.1 t.2.2) - 79
      let (s, st) := windowSum lsb nz
      if s = 0 then zeroRes fp32 false
      else
        let (r, e) := roundRes fp32 .rne (decide (s < 0)) (s.natAbs * 2 ^ 32 + (if st then 1 else 0)) (lsb - 32)
        (r, tensorFlags e)

/-! Quantising (R52 to R54). -/

/-- bitrev5(j) (R53). -/
def dither (j : Nat) : Nat := brevBits (j % 32) 5

/-- A value in units of 2^−149: exact for FP32, FP16 and BF16. -/
def scaled (x : FVal) : Nat :=
  match x with
  | .fin _ m e => m * 2 ^ (e + 149).toNat
  | _ => 0

/-- The constants of a YB format: mmax and log2 of the unit. -/
def ybConst (code : Nat) : Nat × Nat := if code = 6 then (63, 5) else (3, 1)

/-- top(e), in units of 2^−149. -/
def ybTop (code e : Nat) : Nat := (ybConst code).1 * 2 ^ (e + 22 - (ybConst code).2)

/-- RM codes of TQNT (R46): 5 is dither. -/
def rmOf (n : Nat) : RM :=
  match n with
  | 1 => .rz | 2 => .ru | 3 => .rd | 4 => .rna | _ => .rne

/-- round_mag (R52) of num / den. -/
def roundMag (num den rm : Nat) (neg : Bool) (j : Nat) : Nat :=
  let k := num / den
  let r := num % den
  if r = 0 then k
  else match rm with
    | 0 => if den < 2 * r ∨ (2 * r = den ∧ k % 2 = 1) then k + 1 else k
    | 1 => k
    | 2 => if neg then k else k + 1
    | 3 => if neg then k + 1 else k
    | 4 => if den ≤ 2 * r then k + 1 else k
    | _ => if dither j * den < r * 32 then k + 1 else k

/-- A quantised block: E_HI, E_LO, the codes and the flags (R52). -/
structure YbBlock where
  ehi : Nat
  elo : Nat
  codes : List Nat
  exc : Exc
  deriving DecidableEq, Repr

/-- The smallest e from `i` with amax ≤ top(e). -/
def leastTop (code amax i : Nat) : Nat → Nat
  | 0 => i
  | n + 1 => if amax ≤ ybTop code i then i else leastTop code amax (i + 1) n

/-- One block (R52). -/
def quantBlock (code delta ph rm : Nat) (xs : List FVal) : YbBlock :=
  if xs.any FVal.isNan then
    ⟨255, 255, xs.map fun _ => 0, excQNAN ||| excIf (xs.any FVal.isSnan) excNV⟩
  else
    let infs := xs.any FVal.isInf
    let mags := xs.map fun x => if x.isInf then ybTop code 254 else scaled x
    let amax := mags.foldl (fun a b => if a ≤ b then b else a) 0
    let e0 := excIf infs excINFSAT
    if amax = 0 then ⟨0, 0, xs.map fun _ => 0, e0⟩
    else
      let big := decide (ybTop code 254 < amax)
      let ehi := if big then 254 else leastTop code amax 0 254
      let elo := ehi - delta
      let (_, u) := ybConst code
      let mb := if code = 6 then 6 else 2
      let codes := ((xs.zip mags).zip (countFrom 0 xs.length)).map fun p =>
        let x := p.1.1
        let a := p.1.2
        let sel := decide (ybTop code elo < a)
        let e := if sel then ehi else elo
        let s := if a ≤ ybTop code e then a else ybTop code e
        let m := roundMag s (2 ^ (e + 22 - u)) rm x.neg ((p.2 + ph) % 32)
        if m = 0 then 0 else m + (if x.neg then 2 ^ mb else 0) + (if sel then 2 ^ (mb + 1) else 0)
      ⟨ehi, elo, codes, e0 ||| excIf big excOF⟩

/-! TACT (R264), on f32 patterns. -/

/-- A pattern with the flags of the steps so far. -/
abbrev Step32 := Nat × Exc

/-- One f32 addition. -/
def sAdd (x y : Step32) : Step32 :=
  let (r, e) := fadd fp32 .rne (fp32.decode x.1) (fp32.decode y.1)
  (r, x.2 ||| y.2 ||| e)
/-- One f32 multiplication. -/
def sMul (x y : Step32) : Step32 :=
  let (r, e) := fmul fp32 .rne (fp32.decode x.1) (fp32.decode y.1)
  (r, x.2 ||| y.2 ||| e)
/-- One f32 division. -/
def sDiv (x y : Step32) : Step32 :=
  let (r, e) := fdiv fp32 .rne (fp32.decode x.1) (fp32.decode y.1)
  (r, x.2 ||| y.2 ||| e)
/-- One f32 fused multiply-add. -/
def sFma (x y z : Step32) : Step32 :=
  let (r, e) := fma fp32 .rne false (fp32.decode x.1) (fp32.decode y.1) (fp32.decode z.1)
  (r, x.2 ||| y.2 ||| z.2 ||| e)
/-- The sign inverted. -/
def sNeg (x : Step32) : Step32 := (fnegBits fp32 x.1, x.2)

/-- c_0 to c_7 of R264: rne((ln 2)^k / k!). -/
def cConst : List Nat := [0x3f800000, 0x3f317218, 0x3e75fdf0, 0x3d635847, 0x3c1d955b, 0x3aaec3ff, 0x39218489, 0x377fe5fe]
/-- d_0 to d_7 of R264: rne(1 / (2k + 1)). -/
def dConst : List Nat := [0x3f800000, 0x3eaaaaab, 0x3e4ccccd, 0x3e124925, 0x3de38e39, 0x3dba2e8c, 0x3d9d89d9, 0x3d888889]
/-- ℓ, rne(1 / ln 2). -/
def ellConst : Nat := 0x3fb8aa3b
/-- λ, rne(ln 2). -/
def lamConst : Nat := 0x3f317218
/-- l2, rne(2 / ln 2). -/
def l2Const : Nat := 0x4038aa3b
/-- γ, rne(√(2/π)). -/
def gamConst : Nat := 0x3f4c422a
/-- κ, rne(0.044715). -/
def kapConst : Nat := 0x3d372713

/-- A polynomial in f, by Horner from the highest coefficient down. -/
def horner (cs : List Nat) (f : Step32) : Step32 :=
  match cs.reverse with
  | [] => (0, 0)
  | c :: rest => rest.foldl (fun p k => sFma p f (k, 0)) (c, 0)

/-- e2(y) (R264). -/
def sExp2 (y : Step32) : Step32 :=
  match fp32.decode y.1 with
  | .nan _ => (fp32.nanBits, y.2)
  | .inf true => (0, y.2)
  | .inf false => (fp32.infBits, y.2 ||| excOF)
  | .fin s m e =>
    let v := FVal.fin s m e
    if !ltVals v (.fin false 128 0) then (fp32.infBits, y.2 ||| excOF)
    else if ltVals v (.fin true 150 0) then (0, y.2)
    else
      let n := (roundInt .rne s m e).1
      let f : Step32 := match exactAdd v (FVal.ofInt (-n)) with
        | some x => ((roundVal fp32 .rne x).1, 0)
        | none => (0, 0)
      let p := horner cConst f
      match fp32.decode p.1 with
      | .fin ps pm pe =>
        let (r, ex) := roundRes fp32 .rne ps pm (pe + n)
        (r, y.2 ||| p.2 ||| ex)
      | _ => (p.1, y.2 ||| p.2)

/-- The f32 pattern of 1. -/
def one32 : Step32 := (0x3f800000, 0)
/-- The f32 pattern of 2. -/
def two32 : Step32 := (0x40000000, 0)

/-- lg(v) (R264). -/
def sLog2 (v : Step32) : Step32 :=
  let s := sDiv (sAdd v (sNeg one32)) (sAdd v one32)
  let z := sMul s s
  sMul (sMul s (horner dConst z)) (l2Const, 0)

/-- sg(x) (R264). -/
def sSig (x : Step32) : Step32 := sDiv one32 (sAdd one32 (sExp2 (sMul (sNeg x) (ellConst, 0))))

/-- tanh (R264). -/
def sTanh (x : Step32) : Step32 := sFma two32 (sSig (sMul two32 x)) (sNeg one32)

/-- gelu (R264). -/
def sGelu (x : Step32) : Step32 :=
  let u := sMul (sMul x x) x
  let u := sMul (sFma (kapConst, 0) u x) (gamConst, 0)
  let r := sMul x (0x3f000000, 0)
  sFma r (sTanh u) r

/-- Whether an f32 value is greater than 0. -/
def isPos32 (x : Nat) : Bool := ltVals (.fin false 0 0) (fp32.decode x)

/-- softp (R264). -/
def sSoftp (x : Step32) : Step32 :=
  let a : Step32 := (fabsBits fp32 x.1, x.2)
  sFma (sLog2 (sAdd one32 (sExp2 (sMul (sNeg a) (ellConst, 0))))) (lamConst, 0) (if isPos32 x.1 then x.1 else 0, x.2)

/-- One function of TACT on an f32 pattern that is not a NaN. -/
def actStep (fn : ActFn) (x : Step32) : Step32 :=
  match fn with
  | .relu => if isPos32 x.1 then x else (0, x.2)
  | .gelu => sGelu x
  | .silu => sMul x (sSig x)
  | .sigm => sSig x
  | .tanh => sTanh x
  | .exp2 => sExp2 x
  | .softp => sSoftp x

/-- TACT of one element (R264): rounded to FP32, the steps, then rounded to the result's code. -/
def elemAct (fn : ActFn) (code : Nat) (x : FVal) : FRes :=
  if x.isNan then elemResult code [x] (some x)
  else
    let (r, e) := actStep fn ((roundVal fp32 .rne x).1, 0)
    let (w, e') := toElem code .rne (fp32.decode r)
    (w, tensorFlags e ||| e')

/-! Reductions (R266). -/

/-- A sum of elements: the sum of R56 with q absent, rounded to FP32 and then to the code. -/
def reduceSum (code : Nat) (xs : List FVal) : FRes :=
  let (r, e) := tensorSum false (xs.map fun x => (x, FVal.fin false 1 0)) none
  let (w, e') := toElem code .rne (fp32.decode r)
  (w, e ||| e')

/-- Whether x is less than y as a maximum takes them: −0 counts as less than +0. -/
def lessMax (x y : FVal) : Bool := ltVals x y || (x.isZero && y.isZero && x.neg && !y.neg)

/-- A maximum of elements decoded to FP32. -/
def reduceMax (code : Nat) (xs : List FVal) : FRes :=
  if xs.any FVal.isNan then elemResult code xs (some (.nan false))
  else
    let ys := xs.map fun x => fp32.decode (roundVal fp32 .rne x).1
    match ys with
    | [] => (0, 0)
    | y :: rest => toElem code .rne (rest.foldl (fun m v => if lessMax m v then v else m) y)

/-- One step of TSCAN (R272): fma of exact values, rounded once to f32. -/
def scanStep (a hp b : FVal) : FRes :=
  match mulVals a hp with
  | none => (fp32.nanBits, excNV)
  | some p =>
    if [a, hp, b].any FVal.isNan then (fp32.nanBits, snanFlag [a, hp, b])
    else match exactAdd p b with
      | none => (fp32.nanBits, excNV)
      | some v => (roundVal fp32 .rne v).map id tensorFlags

end Sys2Proof.Machine
end

