-- ==== Sys2Proof/Machine/Tensor.lean ====
section
/-! DEFINITION. Machine/Tensor.lean: the tensor unit (spec 12): its registers, its command FIFO, each command's effect, row
streams and the set-aside TSCAN. -/

namespace Sys2Proof.Machine

/-! Shapes (R247). -/

/-- A shape register's fields. -/
structure Shape where
  rows : Nat
  cols : Nat
  elem : Nat
  fe : Bool
  deriving DecidableEq, Repr

/-- The fields of a shape word (Table 12.2). -/
def shapeOf (w : Word) : Shape :=
  ⟨bitsOf w.toNat 0 8, bitsOf w.toNat 8 9, bitsOf w.toNat 20 4, w.getLsbD 24⟩

/-- The shape word of fields. -/
def Shape.word (h : Shape) : Word := BitVec.ofNat 64 (h.rows + h.cols * 2 ^ 8 + h.elem * 2 ^ 20 + (if h.fe then 2 ^ 24 else 0))

/-- Row bytes of a shape. -/
def Shape.rowBytes (h : Shape) : Nat := (h.cols * elemBits h.elem + 7) / 8

/-- Blocks of one row. -/
def Shape.blocks (h : Shape) : Nat := (h.cols + 31) / 32

/-- Whether a shape is YB. -/
def Shape.yb (h : Shape) : Bool := decide (h.elem = 6 ∨ h.elem = 7)

/-- Scale bytes of one row. -/
def Shape.scaleBytes (h : Shape) : Nat := if h.yb then 2 * h.blocks else 0

/-- Whether a shape is set. -/
def Shape.set (h : Shape) : Bool := decide (h.rows ≠ 0)

/-- Whether a shape is legal (R247), its reserved bits aside. -/
def Shape.legal (h : Shape) : Bool :=
  decide (1 ≤ h.rows ∧ h.rows ≤ 192 ∧ 1 ≤ h.cols ∧ h.cols ≤ 256 ∧ h.elem ≤ 8 ∧ h.rows * h.rowBytes ≤ 16384) &&
    (!h.yb || decide (h.rows * h.blocks ≤ 512))

/-- Whether a shape word is legal, reserved bits included. -/
def shapeWordOk (w : Word) : Bool := (shapeOf w).legal && zeroBits w 25 63 && zeroBits w 17 19

/-! Registers (R246, R248). -/

/-- The shape of a tile register. -/
def TensorUnit.shape (u : TensorUnit) (t : Nat) : Shape := shapeOf (getAt u.shapes t 0)

/-- Whether a row of a tile is full: every row of a tile with FE 0 is. -/
def TensorUnit.full (u : TensorUnit) (t i : Nat) : Bool := !(u.shape t).fe || !getAt u.rowEmpty (t * 192 + i) false

/-- Sets every row of a tile empty or full. -/
def TensorUnit.setRows (u : TensorUnit) (t : Nat) (isEmpty : Bool) : TensorUnit :=
  { u with rowEmpty := (countFrom (t * 192) 192).foldl (fun m k => setAt m k isEmpty false) u.rowEmpty }

/-- Sets one row of a tile empty or full. -/
def TensorUnit.setRow (u : TensorUnit) (t i : Nat) (isEmpty : Bool) : TensorUnit :=
  { u with rowEmpty := setAt u.rowEmpty (t * 192 + i) isEmpty false }

/-- Writes a shape (R248). -/
def TensorUnit.setShape (u : TensorUnit) (t : Nat) (h : Shape) : TensorUnit :=
  { u with shapes := setAt u.shapes t h.word 0 }.setRows t h.fe

/-- The bytes of a row's elements. -/
def TensorUnit.rowData (u : TensorUnit) (t i : Nat) : List Byte :=
  readBytes u.tiles (t * 16384 + i * (u.shape t).rowBytes) (u.shape t).rowBytes

/-- The scale bytes of a row. -/
def TensorUnit.rowScale (u : TensorUnit) (t i : Nat) : List Byte :=
  readBytes u.sides (t * 1024 + i * (u.shape t).scaleBytes) (u.shape t).scaleBytes

/-- Writes a row's bytes and sets it full. -/
def TensorUnit.putRow (u : TensorUnit) (t i : Nat) (bs sc : List Byte) : TensorUnit :=
  ({ u with
    tiles := writeBytes u.tiles (t * 16384 + i * (u.shape t).rowBytes) bs
    sides := writeBytes u.sides (t * 1024 + i * (u.shape t).scaleBytes) sc }).setRow t i false

/-- The pattern of element (i, j). -/
def TensorUnit.raw (u : TensorUnit) (t i j : Nat) : Nat :=
  let h := u.shape t
  let base := t * 16384 + i * h.rowBytes
  match elemBits h.elem with
  | 4 => (getAt u.tiles (base + j / 2) 0).toNat / 2 ^ (4 * (j % 2)) % 16
  | b => leNat (readBytes u.tiles (base + j * (b / 8)) (b / 8))

/-- The value of element (i, j). -/
def TensorUnit.elem (u : TensorUnit) (t i j : Nat) : FVal :=
  let h := u.shape t
  let s := t * 1024 + i * h.scaleBytes + 2 * (j / 32)
  elemVal h.elem (u.raw t i j) (if h.yb then (getAt u.sides s 0).toNat else 0) (if h.yb then (getAt u.sides (s + 1) 0).toNat else 0)

/-- Packs the patterns of a row into bytes. -/
def packRow (bits : Nat) (raws : List Nat) : List Byte :=
  let n := (raws.length * bits + 7) / 8
  let v := (raws.zip (countFrom 0 raws.length)).foldl (fun acc p => acc + p.1 % 2 ^ bits * 2 ^ (bits * p.2)) 0
  leBytes n v

/-- Writes a whole tile: its shape, its rows' patterns and its scale bytes. -/
def TensorUnit.putTile (u : TensorUnit) (t : Nat) (h : Shape) (rows : List (List Nat)) (scales : List (List Byte)) : TensorUnit :=
  let u := u.setShape t h
  ((rows.zip scales).zip (countFrom 0 rows.length)).foldl (fun u p => u.putRow t p.2 (packRow (elemBits h.elem) p.1.1) p.1.2) u

/-- An accumulator element. -/
def TensorUnit.acc (u : TensorUnit) (q i j : Nat) : BitVec 32 := getAt u.accs (q * 16384 + i * 128 + j) 0
/-- Writes an accumulator element. -/
def TensorUnit.putAcc (u : TensorUnit) (q i j : Nat) (v : BitVec 32) : TensorUnit :=
  { u with accs := setAt u.accs (q * 16384 + i * 128 + j) v 0 }
/-- A carry element. -/
def TensorUnit.car (u : TensorUnit) (h j : Nat) : BitVec 32 := getAt u.carry (h * 128 + j) 0
/-- Writes 128 carry elements. -/
def TensorUnit.putCarry (u : TensorUnit) (h : Nat) (vs : List Nat) : TensorUnit :=
  { u with carry := (vs.zip (countFrom 0 vs.length)).foldl (fun m p => setAt m (h * 128 + p.2) (BitVec.ofNat 32 p.1) 0) u.carry }
/-- The swap knot of a slot. -/
def TensorUnit.swapHandle (u : TensorUnit) (h : Nat) : Word := noKnot ^^^ getAt u.swapKnot h 0
/-- Records a swap knot and the SWAPPED bit. -/
def TensorUnit.setSwap (u : TensorUnit) (h : Nat) (swapped : Bool) (k : Word) : TensorUnit :=
  { u with
    swapKnot := setAt u.swapKnot h (noKnot ^^^ k) 0
    swapped := if swapped then u.swapped ||| BitVec.ofNat 8 (2 ^ h) else u.swapped &&& ~~~(BitVec.ofNat 8 (2 ^ h)) }

/-! Register commands (R256, R258, R263 to R270). -/

/-- How a command that only works on registers ends. -/
inductive RegRes where
  | wait
  | trap (detail : Nat)
  | done (u : TensorUnit) (e : Exc)
  deriving DecidableEq, Repr

/-- BAD_SHAPE with the shape register's number (Table 12.4). -/
def badShape (t : Nat) : RegRes := .trap (0x0304 + t * 2 ^ 16)

/-- Whether every row of a set tile is full. -/
def TensorUnit.allFull (u : TensorUnit) (t : Nat) : Bool := (countFrom 0 (u.shape t).rows).all fun i => u.full t i

/-- Builds a result tile from a function of (i, j), with its flags: rows are of patterns, no scale bytes. -/
def TensorUnit.build (u : TensorUnit) (t : Nat) (h : Shape) (f : Nat → Nat → FRes) : RegRes :=
  if !h.legal then badShape t
  else
    let rows := (countFrom 0 h.rows).map fun i => (countFrom 0 h.cols).map (f i)
    .done (u.putTile t h (rows.map fun r => r.map Prod.fst) (rows.map fun _ => []))
      (rows.foldl (fun e r => r.foldl (fun e p => e ||| p.2) e) 0)

/-- A command over one source tile that must be set and full. -/
def TensorUnit.withTile (u : TensorUnit) (a : Nat) (ok : Shape → Bool) (k : Shape → RegRes) : RegRes :=
  let h := u.shape a
  if !h.set || !ok h then .trap 0x0303 else if !u.allFull a then .wait else k h

/-- TADD and TMUL (R263): TB broadcasts. -/
def TensorUnit.binary (u : TensorUnit) (d a b code : Nat) (f : FVal → FVal → FRes) : RegRes :=
  let hb := u.shape b
  u.withTile a (fun h => hb.set && decide ((hb.rows = 1 ∨ hb.rows = h.rows) ∧ (hb.cols = 1 ∨ hb.cols = h.cols))) fun h =>
    if !u.allFull b then .wait
    else
      u.build d ⟨h.rows, h.cols, code, false⟩ fun i j =>
        f (u.elem a i j) (u.elem b (if hb.rows = 1 then 0 else i) (if hb.cols = 1 then 0 else j))

/-- Whether a code is that of an integer element. -/
def intCode (code : Nat) : Bool := decide (code = 2 ∨ code = 8)

/-- A command that takes one element to one element. -/
def TensorUnit.unary (u : TensorUnit) (d a code : Nat) (ok : Shape → Bool) (f : FVal → FRes) : RegRes :=
  u.withTile a ok fun h => u.build d ⟨h.rows, h.cols, code, false⟩ fun i j => f (u.elem a i j)

/-- TRED (R266). -/
def TensorUnit.reduce (u : TensorUnit) (d a code : Nat) (col : Bool) (f : List FVal → FRes) : RegRes :=
  u.withTile a (fun _ => true) fun h =>
    if col then u.build d ⟨1, h.cols, code, false⟩ fun _ j => f ((countFrom 0 h.rows).map fun i => u.elem a i j)
    else u.build d ⟨h.rows, 1, code, false⟩ fun i _ => f ((countFrom 0 h.cols).map fun j => u.elem a i j)

/-- TQNT (R267): blocks of 32, padding taken as 0. -/
def TensorUnit.quant (u : TensorUnit) (d a code delta rm : Nat) : RegRes :=
  u.withTile a (fun h => decide (h.elem = 3 ∨ h.elem = 4 ∨ h.elem = 5)) fun h =>
    let r : Shape := ⟨h.rows, h.cols, code, false⟩
    if !r.legal then badShape d
    else
      let block := fun i b => quantBlock code delta u.dither.toNat rm
        ((countFrom (32 * b) 32).map fun j => if j < h.cols then u.elem a i j else .fin false 0 0)
      let rows := (countFrom 0 h.rows).map fun i => (countFrom 0 h.blocks).map (block i)
      let u1 := u.putTile d r (rows.map fun bs => (bs.flatMap YbBlock.codes).take h.cols)
        (rows.map fun bs => bs.flatMap fun b => [BitVec.ofNat 8 b.ehi, BitVec.ofNat 8 b.elo])
      .done (if rm = 5 then { u1 with dither := u1.dither + 1 } else u1)
        (rows.foldl (fun e bs => bs.foldl (fun e b => e ||| b.exc) e) 0)

/-- TMOVQ (R269). -/
def TensorUnit.movq (u : TensorUnit) (d q row0 nrows ncols code : Nat) (rm : RM) : RegRes :=
  if nrows = 0 ∨ ncols = 0 ∨ 128 < ncols ∨ 128 < row0 + nrows then .trap 0x0306
  else u.build d ⟨nrows, ncols, code, false⟩ fun i j => toElem code rm (fp32.decode (u.acc q (row0 + i) j).toNat)

/-- TTRN (R270). -/
def TensorUnit.transpose (u : TensorUnit) (d a : Nat) : RegRes :=
  u.withTile a (fun h => !h.yb) fun h => u.build d ⟨h.cols, h.rows, h.elem, false⟩ fun j i => (u.raw a i j, 0)

/-- TZERO (R258). -/
def TensorUnit.zeroTile (u : TensorUnit) (t : Nat) : TensorUnit :=
  ({ u with
    tiles := u.tiles.filter fun e => decide (e.1 / 16384 ≠ t)
    sides := u.sides.filter fun e => decide (e.1 / 1024 ≠ t) }).setRows t false

/-- The form and tile codes: the element code that a format T slot's TY holds. -/
def codeOf (e : Elem) : Nat :=
  match e with
  | .e4m3 => 0 | .e5m2 => 1 | .i8 => 2 | .f16 => 3 | .bf16 => 4 | .f32 => 5 | .yb8 => 6 | .yb4 => 7

/-- The result code of TCVT and TMOVQ: INT32 under I32. -/
def cvtCode (x : FormT) : Nat := if x.flg.getLsbD 3 then 8 else codeOf x.ty

/-- The carry slot that FLG[2:0] names. -/
def slotOf (x : FormT) : Nat := x.flg.toNat % 8

/-- DELTA of a TQNT: the swatch's under DSW, and the default when it is 0 or DSW is 0 (R52, R267). -/
def deltaOf (x : FormT) (w : Swatch) : Nat :=
  let d := if x.flg.getLsbD 3 then w.delta else 0
  if d = 0 then (if x.ty = .yb4 then 2 else 3) else d

/-- The low 32 bits of a word as an FP32 value. -/
def f32Of (w : Word) : FVal := fp32.decode (w.toNat % 2 ^ 32)

/-- The result of a command that only works on registers: none for the other commands. -/
def State.regCommand (s : State) (u : TensorUnit) (f : Firing) : Option RegRes :=
  match decode f.word with
  | .ok (.tshape x) =>
    let w := s.opTA f x
    some (if shapeWordOk w then .done (u.setShape x.td.val (shapeOf w)) 0 else badShape x.td.val)
  | .ok (.trdsh _) => some (.done u 0)
  | .ok (.tzeroTile x) => some (.done (u.zeroTile x.td.val) 0)
  | .ok (.tzeroAcc x) => some (.done { u with accs := u.accs.filter fun e => decide (e.1 / 16384 ≠ x.qa.val) } 0)
  | .ok (.tzeroCarry x) =>
    let h := slotOf x
    let keep := fun (g : Firing) => match decode g.word with
      | .ok (.tscan y) => decide (slotOf y ≠ h)
      | _ => true
    some (.done (({ u with
      carry := u.carry.filter fun e => decide (e.1 / 128 ≠ h)
      aside := u.aside.filter keep }).setSwap h false noKnot) 0)
  | .ok (.tadd x) => some (u.binary x.td.val x.ta.val x.tb.val (codeOf x.ty) (elemAdd (codeOf x.ty)))
  | .ok (.tmul x) => some (u.binary x.td.val x.ta.val x.tb.val (codeOf x.ty)
    (elemMul (intCode (u.shape x.ta.val).elem && intCode (u.shape x.tb.val).elem) (codeOf x.ty)))
  | .ok (.tscale x) =>
    some (u.unary x.td.val x.ta.val (codeOf x.ty) (fun _ => true) fun v =>
      elemScale (codeOf x.ty) v (f32Of (s.opTA f x)) (f32Of (s.opTB f x)))
  | .ok (.tact x fn) => some (u.unary x.td.val x.ta.val (codeOf x.ty) (fun _ => true) (elemAct fn (codeOf x.ty)))
  | .ok (.tredSum x) => some (u.reduce x.td.val x.ta.val (codeOf x.ty) (x.flg.getLsbD 0) (reduceSum (codeOf x.ty)))
  | .ok (.tredMax x) => some (u.reduce x.td.val x.ta.val (codeOf x.ty) (x.flg.getLsbD 0) (reduceMax (codeOf x.ty)))
  | .ok (.tqnt x) =>
    some (u.quant x.td.val x.ta.val (codeOf x.ty) (deltaOf x (s.swatch f.launch x.sw.toNat)) (x.flg.toNat % 8))
  | .ok (.tdq x) => some (u.unary x.td.val x.ta.val (codeOf x.ty) Shape.yb (toElem (codeOf x.ty) .rne))
  | .ok (.tcvt x) =>
    some (u.unary x.td.val x.ta.val (cvtCode x) (fun h => !h.yb) (toElem (cvtCode x) (rmOf (x.flg.toNat % 8))))
  | .ok (.ttrn x) => some (u.transpose x.td.val x.ta.val)
  | .ok (.tmovq x) =>
    let w := (s.opTA f x).toNat
    some (u.movq x.td.val x.qa.val (bitsOf w 0 7) (bitsOf w 8 8) (s.opTB f x).toNat (cvtCode x) (rmOf (x.flg.toNat % 8)))
  | _ => none

/-! The unit and its launch. -/

/-- A cluster's tensor unit. -/
def State.unit (s : State) (cl : Nat) : TensorUnit := (s.cluster cl).tensor
/-- Changes a cluster's tensor unit. -/
def State.onUnit (s : State) (cl : Nat) (f : TensorUnit → TensorUnit) : State :=
  s.onCluster cl fun k => { k with tensor := f k.tensor }

/-- Flags of the unit go to its cluster's (R50, R251). -/
def State.unitFlags (s : State) (cl : Nat) (e : Exc) : State := s.onCluster cl fun k => { k with exc := k.exc ||| e }

/-- The current command parks at its fault (R254). -/
def State.parkCommand (s : State) (cl : Nat) (r : TRun) (k : FaultKind) (d : Word) (addr : Nat) : State :=
  let f := r.firing
  let (id, s1) := s.engineFault f.launch k d addr (s.engineSrc f 2) f.atCommit (.tensor cl)
  s1.onUnit cl fun u => { u with cur := some { r with parked := some id, accs := [] } }

/-- The current command ends: its o0 token leaves (R250). -/
def State.endCommand (s : State) (cl : Nat) (f : Firing) (cls : TokClass) (v : Word) : State :=
  (s.onUnit cl fun u => { u with cur := none }).engineReply f false cls v

/-- Replaces the current command. -/
def State.putRun (s : State) (cl : Nat) (r : TRun) : State := s.onUnit cl fun u => { u with cur := some r }

/-- The row selector's ROW0 and NROWS (R252). -/
def selRow0 (w : Word) : Nat := bitsOf w.toNat 0 8
/-- NROWS of a row selector. -/
def selRows (w : Word) : Nat := bitsOf w.toNat 8 8

/-! Circuits (R279, R280). -/

/-- An endpoint (Table 13.1). -/
def endpoint (fcl unit inst port : Nat) : Nat := fcl * 2 ^ 15 + unit * 2 ^ 10 + inst * 2 ^ 6 + port

/-- The consumer of a producer's circuit. -/
def StreamFab.consumer (b : StreamFab) (producer : Nat) : Option Nat :=
  (b.circuits.find? fun c => decide (c.1 = producer)).map Prod.snd
/-- The producer of a consumer's circuit. -/
def StreamFab.producer (b : StreamFab) (consumer : Nat) : Option Nat :=
  (b.circuits.find? fun c => decide (c.2 = consumer)).map Prod.fst
/-- The free-slot counter of a producer. -/
def StreamFab.free (b : StreamFab) (producer : Nat) : Nat := 16 - getAt b.credits producer 0
/-- The queue of a consumer. -/
def StreamFab.queue (b : StreamFab) (consumer : Nat) : List SWord := getAt b.queues consumer []
/-- Whether a producer can send. -/
def StreamFab.canSend (b : StreamFab) (producer : Nat) : Bool := decide (0 < b.free producer)

/-- A word sent: it takes one slot and joins the queue, in order. -/
def StreamFab.send (b : StreamFab) (producer : Nat) (w : SWord) : StreamFab :=
  match b.consumer producer with
  | none => b
  | some to_ =>
    { b with
      queues := setAt b.queues to_ (b.queue to_ ++ [w]) []
      credits := setAt b.credits producer (getAt b.credits producer 0 + 1) 0 }

/-- A word consumed: its slot is freed, and reported later. -/
def StreamFab.take (b : StreamFab) (to_ : Nat) : StreamFab :=
  { b with queues := setAt b.queues to_ ((b.queue to_).drop 1) [], freed := setAt b.freed to_ (getAt b.freed to_ 0 + 1) 0 }

/-- Changes the fabric of a launch. -/
def State.onFab (s : State) (l : Nat) (f : StreamFab → StreamFab) : State := s.onLaunch l fun x => { x with fab := f x.fab }
/-- The fabric of a launch. -/
def State.fab (s : State) (l : Nat) : StreamFab := (s.launch l).fab

/-- Whether the output row of a tensor unit waits for a free slot of its circuit (R262). -/
def State.rowStalled (s : State) (l cl : Nat) : Bool :=
  !(s.unit cl).outRow.isEmpty && !(s.fab l).canSend (endpoint ((s.launch l).panel.footprint cl) 15 0 0)

/-! TMMA (R259, R260). -/

/-- K of a TY (Table 2.2). -/
def chunkK (code : Nat) : Nat := if code = 5 then 12 else if code = 3 ∨ code = 4 then 48 else if code = 7 then 192 else 96

/-- kc of a command. -/
def TensorUnit.kc (u : TensorUnit) (code b : Nat) : Nat :=
  (u.shape b).rows + if code = 7 then (u.shape (b + 1)).rows else 0

/-- The conditions of R259 that raise a TRAP. -/
def TensorUnit.mmaTrap (u : TensorUnit) (code a b row0 nrows acol qrow : Nat) : Option Nat :=
  let ha := u.shape a
  let hb := u.shape b
  let hc := u.shape (b + 1)
  let bok := fun (h : Shape) => h.set && (decide (h.elem = code) || decide (code < 2 ∧ h.elem < 2))
  if !ha.set || decide (ha.elem ≠ code) || !bok hb || (decide (code = 7) && (!bok hc || decide (hc.cols ≠ hb.cols))) then some 0x0303
  else if 128 < hb.cols ∨ chunkK code < u.kc code b then some 0x0303
  else if nrows = 0 ∨ ha.rows < row0 + nrows ∨ 128 < qrow + nrows ∨ ha.cols ≤ acol ∨ (ha.yb ∧ acol % 32 ≠ 0) then some 0x0306
  else none

/-- Element (k, j) of the B chunk. -/
def TensorUnit.bElem (u : TensorUnit) (code b k j : Nat) : FVal :=
  let n := (u.shape b).rows
  if code = 7 ∧ n ≤ k then u.elem (b + 1) (k - n) j else u.elem b k j

/-- One row firing: the accumulator row's new values and the flags.  A chunk shorter than K is extended with zero elements (R55; log
153). -/
def TensorUnit.rowFiring (u : TensorUnit) (code a b q arow acol qrow : Nat) (acc : Bool) : List FRes :=
  let n := u.kc code b
  let ca := (u.shape a).cols
  let zero := FVal.fin false 0 0
  let as_ := (countFrom 0 n).map fun k => if acol + k < ca then u.elem a arow (acol + k) else zero
  (countFrom 0 (u.shape b).cols).map fun j =>
    tensorSum (decide (code = 2))
      (as_.zip ((countFrom 0 n).map fun k => u.bElem code b k j) ++ List.replicate (chunkK code - n) (zero, zero))
      (if acc then some (fp32.decode (u.acc q qrow j).toNat) else none)

/-- The words of a stream row (R262): the columns that are not ±0, then MARK 1. -/
def streamRow (vals : List (Nat × Bool)) (coord : Nat) : List SWord :=
  ((vals.zip (countFrom 0 vals.length)).filterMap fun p =>
    if p.1.2 then none else some ⟨BitVec.ofNat 32 p.1.1, BitVec.ofNat 32 p.2, 0⟩) ++ [⟨0, BitVec.ofNat 32 coord, 1⟩]

/-- The meter of a TMMA's MACs (Table 19.3). -/
def macMeter (code : Nat) : Nat :=
  if code < 2 then 0 else if code = 6 then 1 else if code = 7 then 2 else if code = 2 then 3 else if code < 5 then 4 else 5

/-- One row firing of the current TMMA, or its end. -/
def State.mmaStep (s : State) (cl : Nat) (r : TRun) (x : FormT) : State :=
  let u := s.unit cl
  let f := r.firing
  let sel := s.opTA f x
  let code := codeOf x.ty
  let (a, b, q) := (x.ta.val, x.tb.val, x.qa.val)
  let row0 := selRow0 sel
  let n := selRows sel
  let acol := bitsOf sel.toNat 16 9
  let qrow := bitsOf (s.opTB f x).toNat 0 7
  match (if r.started then none else u.mmaTrap code a b row0 n acol qrow) with
  | some t => s.parkCommand cl r .trap (BitVec.ofNat 64 t) 0
  | none =>
    let i := r.row
    let bFull := u.allFull b && (decide (code ≠ 7) || u.allFull (b + 1))
    if !u.full a (row0 + i) || !bFull || (x.flg.getLsbD 1 && !u.outRow.isEmpty) then s.putRun cl { r with started := true }
    else
      let vs := u.rowFiring code a b q (row0 + i) acol (qrow + i) (x.flg.getLsbD 0)
      let u1 := (vs.zip (countFrom 0 vs.length)).foldl (fun u p => u.putAcc q (qrow + i) p.2 (BitVec.ofNat 32 p.1.1)) u
      let u2 := if x.flg.getLsbD 2 ∧ (u.shape a).fe = true then u1.setRow a (row0 + i) true else u1
      let u3 := if x.flg.getLsbD 1 then { u2 with outRow := streamRow (vs.map fun v => (v.1, decide (v.1 % 2 ^ 31 = 0))) (qrow + i) } else u2
      let s1 := ((s.onUnit cl fun _ => u3).unitFlags cl (vs.foldl (fun e p => e ||| p.2) 0)).meter f.launch (cl / 128) (macMeter code)
        (u.kc code b * (u.shape b).cols)
      if i + 1 = n then s1.endCommand cl f .completion 0 else s1.putRun cl { r with started := true, row := i + 1 }

/-! TLD, TST and TROW (R257, R271). -/

/-- The accesses of one row and its scale bytes in a swatch. -/
def rowReads (w : Swatch) (row : Nat) : List Acc :=
  readsAt w.space (some w.range) (rowAddr w.base w.stride row) w.rowBytes ++
    if w.yb then readsAt w.space (some w.range) (rowAddr w.scale w.scaleBytes row) w.scaleBytes else []

/-- The bytes of a YB row's padding columns, as far as STRIDE leaves room for them within the swatch: none after its last row (R44,
log 152). -/
def Swatch.rowPad (w : Swatch) (row : Nat) : Nat :=
  if w.yb ∧ row + 1 < w.rows then min w.stride ((w.cols + 31) / 32 * 4 * elemBits w.elem) - w.rowBytes else 0

/-- The writes of one row, its YB padding as 0, and its scale bytes. -/
def rowWrites (w : Swatch) (row : Nat) (bs sc : List Byte) : List Acc :=
  writesAt w.space (some w.range) (rowAddr w.base w.stride row) (bs ++ List.replicate (w.rowPad row) 0) ++
    if w.yb then writesAt w.space (some w.range) (rowAddr w.scale w.scaleBytes row) sc else []

/-- One access of the current command's row; `k` goes on when all are done. -/
def State.rowAccs (s : State) (cl : Nat) (r : TRun) (as_ : List Acc) (k : State → List Acc → State) : State :=
  match s.accsStep (s.clientOf r.firing) as_ with
  | .moved bs s1 => if allDone bs then k s1 bs else s1.putRun cl { r with accs := bs }
  | .bad kd d a s1 => s1.parkCommand cl r kd d a

/-- One access or row of the current TLD. -/
def State.tldStep (s : State) (cl : Nat) (r : TRun) (x : FormT) : State :=
  let f := r.firing
  let w := s.swatch f.launch x.sw.toNat
  let row0 := (s.opTA f x).toNat
  let n := (s.opTB f x).toNat
  let h : Shape := ⟨n, w.cols, w.elem, false⟩
  let t := x.td.val
  if !r.started then
    if n < 1 ∨ 192 < n ∨ w.rows < row0 + n then s.parkCommand cl r .trap 0x0306 0
    else if !h.legal then s.parkCommand cl r .trap (BitVec.ofNat 64 (0x0304 + t * 2 ^ 16)) 0
    else (s.onUnit cl fun u => u.setShape t h).putRun cl { r with started := true }
  else
    let as_ := if r.accs.isEmpty then rowReads w (row0 + r.row) else r.accs
    s.rowAccs cl r as_ fun s1 bs =>
      let got := gotOf bs
      let s2 := s1.onUnit cl fun u => u.putRow t r.row (got.take h.rowBytes) (got.drop h.rowBytes)
      if r.row + 1 = n then s2.endCommand cl f .completion 0 else s2.putRun cl { r with row := r.row + 1, accs := [] }

/-- A row's bytes as TST writes them: the bits of the last byte beyond COLS are 0 (R257). -/
def TensorUnit.cleanRow (u : TensorUnit) (t i : Nat) : List Byte :=
  let h := u.shape t
  packRow (elemBits h.elem) ((countFrom 0 h.cols).map fun j => u.raw t i j)

/-- One access or row of the current TST. -/
def State.tstStep (s : State) (cl : Nat) (r : TRun) (x : FormT) : State :=
  let f := r.firing
  let w := s.swatch f.launch x.sw.toNat
  let row0 := (s.opTA f x).toNat
  let u := s.unit cl
  let t := x.ta.val
  let h := u.shape t
  if !r.started then
    if !h.set || decide (h.elem ≠ w.elem ∨ h.cols ≠ w.cols) then s.parkCommand cl r .trap 0x0303 0
    else if w.rows < row0 + h.rows then s.parkCommand cl r .trap 0x0306 0
    else s.putRun cl { r with started := true }
  else if !u.full t r.row then s
  else
    let as_ := if r.accs.isEmpty then rowWrites w (row0 + r.row) (u.cleanRow t r.row) (u.rowScale t r.row) else r.accs
    s.rowAccs cl r as_ fun s1 _ =>
      if r.row + 1 = h.rows then s1.endCommand cl f .completion 0 else s1.putRun cl { r with row := r.row + 1, accs := [] }

/-- The tile handle of a row (R255). -/
def tileHandle (w : Swatch) (drow row : Nat) : Word :=
  BitVec.ofNat 64 (rowAddr w.base w.stride drow % 2 ^ 20 + row % 2 ^ 8 * 2 ^ 20 +
    (if w.yb then rowAddr w.scale w.scaleBytes drow % 2 ^ 20 * 2 ^ 28 else 0))

/-- One access or row of the current TROW with FN 0: each row written emits its handle. -/
def State.trowStep (s : State) (cl : Nat) (r : TRun) (x : FormT) : State :=
  let f := r.firing
  let w := s.swatch f.launch x.sw.toNat
  let sel := s.opTA f x
  let drow0 := (s.opTB f x).toNat
  let u := s.unit cl
  let t := x.ta.val
  let h := u.shape t
  let n := selRows sel
  if !r.started then
    if !h.set || decide (h.elem ≠ w.elem ∨ h.cols ≠ w.cols) then s.parkCommand cl r .trap 0x0303 0
    else if n = 0 ∨ h.rows < selRow0 sel + n ∨ w.rows < drow0 + selRow0 sel + n then s.parkCommand cl r .trap 0x0306 0
    else s.putRun cl { r with started := true }
  else
    let i := selRow0 sel + r.row
    if !u.full t i then s
    else
      let as_ := if r.accs.isEmpty then rowWrites w (drow0 + i) (u.cleanRow t i) (u.rowScale t i) else r.accs
      s.rowAccs cl r as_ fun s1 _ =>
        let s2 := s1.engineReply f false .tile (tileHandle w (drow0 + i) i)
        if r.row + 1 = n then s2.onUnit cl fun u => { u with cur := none } else s2.putRun cl { r with row := r.row + 1, accs := [] }

/-- A stream value of a tile element: its FP32 value, or the raw bits of an INT32 tile; and whether it is ±0.  A NaN keeps its sign and
payload (R50, R271, log 147). -/
def TensorUnit.streamElem (u : TensorUnit) (t i j : Nat) : Nat × Bool :=
  let c := (u.shape t).elem
  if c = 8 then (u.raw t i j, decide (u.raw t i j = 0))
  else
    let v := u.elem t i j
    (if c = 2 ∨ 6 ≤ c then (roundVal fp32 .rne v).1 else (codeFmt c).widen (u.raw t i j), v.isZero)

/-- One row of the current TROW with FN 1. -/
def State.trowStrStep (s : State) (cl : Nat) (r : TRun) (x : FormT) : State :=
  let f := r.firing
  let sel := s.opTA f x
  let u := s.unit cl
  let t := x.ta.val
  let h := u.shape t
  let n := selRows sel
  if !r.started then
    if !h.set then s.parkCommand cl r .trap 0x0303 0
    else if n = 0 ∨ h.rows < selRow0 sel + n then s.parkCommand cl r .trap 0x0306 0
    else s.putRun cl { r with started := true }
  else
    let i := selRow0 sel + r.row
    if !u.full t i || !u.outRow.isEmpty then s
    else
      let last := decide (r.row + 1 = n)
      let row := streamRow ((countFrom 0 h.cols).map fun j => u.streamElem t i j) i ++
        if last && x.flg.getLsbD 0 then [⟨0, 0, 15⟩] else []
      let s1 := s.onUnit cl fun u => { u with outRow := row }
      if last then s1.endCommand cl f .completion 0 else s1.putRun cl { r with row := r.row + 1 }

/-! TSCAN and TCARRY (R272 to R274). -/

/-- The conditions of TSCAN that raise a TRAP. -/
def TensorUnit.scanTrap (u : TensorUnit) (x : FormT) (row0 n : Nat) : Option Nat :=
  let ha := u.shape x.ta.val
  let hb := u.shape x.tb.val
  let hd := u.shape x.td.val
  let out := x.flg.getLsbD 3
  if !ha.set || !hb.set || decide (ha.cols ≠ 128 ∨ hb.cols ≠ 128) ||
      (out && (!hd.set || decide (hd.cols ≠ 128 ∨ hd.elem ≠ codeOf x.ty))) then some 0x0303
  else if n < 1 ∨ 64 < n ∨ ha.rows < row0 + n ∨ hb.rows < row0 + n ∨ (out ∧ hd.rows < row0 + n) then some 0x0306
  else none

/-- One row of the current TSCAN. -/
def State.scanRow (s : State) (cl : Nat) (r : TRun) (x : FormT) : State :=
  let f := r.firing
  let u := s.unit cl
  let sel := s.opTA f x
  let t := selRow0 sel + r.row
  let n := selRows sel
  match (if r.started then none else u.scanTrap x (selRow0 sel) n) with
  | some c => s.parkCommand cl r .trap (BitVec.ofNat 64 c) 0
  | none =>
    if !u.full x.ta.val t || !u.full x.tb.val t then s.putRun cl { r with started := true }
    else
      let h := slotOf x
      let vs := (countFrom 0 128).map fun j =>
        let hp := if (s.opTB f x).getLsbD r.row then FVal.fin false 0 0 else fp32.decode (u.car h j).toNat
        scanStep (u.elem x.ta.val t j) hp (u.elem x.tb.val t j)
      let outs := vs.map fun v => toElem (codeOf x.ty) .rne (fp32.decode v.1)
      let u1 := u.putCarry h (vs.map Prod.fst)
      let out := x.flg.getLsbD 3
      let u2 := if out then u1.putRow x.td.val t (packRow (elemBits (codeOf x.ty)) (outs.map Prod.fst)) [] else u1
      let e := (vs ++ if out then outs else []).foldl (fun e p => e ||| p.2) 0
      let s1 := (s.onUnit cl fun _ => u2).unitFlags cl e
      if r.row + 1 = n then s1.endCommand cl f .completion 0 else s1.putRun cl { r with started := true, row := r.row + 1 }

/-- Whether a TCARRY's operands are out of range (R273). -/
def carryRange (off len : Nat) : Bool := decide (off % 8 ≠ 0) || decide (len < off + 512)

/-- One access of the current TCARRY save, or its end. -/
def State.saveStep (s : State) (cl : Nat) (r : TRun) (x : FormT) : State :=
  let f := r.firing
  let w := s.swatch f.launch x.sw.toNat
  let off := (s.opTA f x).toNat
  let k := s.opTB f x
  let h := slotOf x
  let u := s.unit cl
  if !r.started then
    if u.swapped.getLsbD h then s.parkCommand cl r .trap 0x0305 0
    else if carryRange off w.length then s.parkCommand cl r .trap 0x0306 0
    else if badHandle k then s.parkCommand cl r .knotHandle k 0
    else s.putRun cl { r with started := true }
  else
    let bytes := (countFrom 0 128).flatMap fun j => leBytes 4 (u.car h j).toNat
    let as_ := if r.accs.isEmpty then writesAt w.space (some w.range) (w.base + off) bytes else r.accs
    s.rowAccs cl r as_ fun s1 _ =>
      (s1.onUnit cl fun u => ({ u with carry := u.carry.filter fun e => decide (e.1 / 128 ≠ h) }).setSwap h true k).endCommand cl f
        .completion 0

/-- The slot of a set-aside TSCAN. -/
def asideOn (h : Nat) (g : Firing) : Bool :=
  match decode g.word with
  | .ok (.tscan y) => decide (slotOf y = h)
  | _ => false

/-- The TSCANs set aside on a slot wait no longer at the knot that was recorded there. -/
def State.leaveWait (s : State) (u : TensorUnit) (h : Nat) (k : Word) : State :=
  let n := u.aside.countP (asideOn h)
  if n = 0 ∨ k = noKnot then s else s.addWaiters (knotKey k) false n

/-- TZERO of a slot discards its set-aside TSCAN, which waits no longer (R258). -/
def State.leaveAside (s : State) (u : TensorUnit) (h : Nat) : State := s.leaveWait u h (u.swapHandle h)

/-- The reloading TCARRY releases the TSCAN set aside on its slot (R274). -/
def State.releaseAside (s : State) (cl h : Nat) (k : Word) : State :=
  let u := s.unit cl
  let s1 := if u.aside.any (asideOn h) then s.onUnit cl fun u => { u with ready := u.ready ||| BitVec.ofNat 8 (2 ^ h) } else s
  s1.leaveWait u h k

/-- One access of the current TCARRY load, or its end: the add to the recorded knot, then the token (R242, R273). -/
def State.loadStep (s : State) (cl : Nat) (r : TRun) (x : FormT) : State :=
  let f := r.firing
  let w := s.swatch f.launch x.sw.toNat
  let off := (s.opTA f x).toNat
  let h := slotOf x
  if !r.started then
    if carryRange off w.length then s.parkCommand cl r .trap 0x0306 0 else s.putRun cl { r with started := true }
  else
    let as_ := if r.accs.isEmpty then readsAt w.space (some w.range) (w.base + off) 512 else r.accs
    s.rowAccs cl r as_ fun s1 bs =>
      let u := s1.unit cl
      let k := u.swapHandle h
      let was := u.swapped.getLsbD h
      let s2 := s1.onUnit cl fun u => ({ u.putCarry h ((chunks 4 128 (gotOf bs)).map leNat) with cur := none }).setSwap h false k
      if !was then s2.engineReply f false .completion 0
      else
        match s2.engineAdd (cl / 128) (some f.launch) (s.launch f.launch).part k 1 with
        | (.done, s3) => (s3.releaseAside cl h k).engineReply f false .completion 0
        | (res, s3) => s3.addFault (some f.launch) res k (s.engineSrc f 2)

/-! The FIFO (R249, R274). -/

/-- The tiles and the carry slot that a command names. -/
def namesOf (f : Firing) : List Nat × Option Nat :=
  match decode f.word with
  | .ok (.tshape x) => ([x.td.val], none)
  | .ok (.trdsh x) => ([x.ta.val], none)
  | .ok (.tld x) => ([x.td.val], none)
  | .ok (.tst x) => ([x.ta.val], none)
  | .ok (.tzeroTile x) => ([x.td.val], none)
  | .ok (.tmma x) => (if x.ty = .yb4 then [x.ta.val, x.tb.val, x.tb.val + 1] else [x.ta.val, x.tb.val], none)
  | .ok (.tadd x) => ([x.td.val, x.ta.val, x.tb.val], none)
  | .ok (.tmul x) => ([x.td.val, x.ta.val, x.tb.val], none)
  | .ok (.tscale x) => ([x.td.val, x.ta.val], none)
  | .ok (.tact x _) => ([x.td.val, x.ta.val], none)
  | .ok (.tredSum x) => ([x.td.val, x.ta.val], none)
  | .ok (.tredMax x) => ([x.td.val, x.ta.val], none)
  | .ok (.tqnt x) => ([x.td.val, x.ta.val], none)
  | .ok (.tdq x) => ([x.td.val, x.ta.val], none)
  | .ok (.tcvt x) => ([x.td.val, x.ta.val], none)
  | .ok (.ttrn x) => ([x.td.val, x.ta.val], none)
  | .ok (.trow x) => ([x.ta.val], none)
  | .ok (.trowStr x) => ([x.ta.val], none)
  | .ok (.tscan x) => ([x.td.val, x.ta.val, x.tb.val], some (slotOf x))
  | .ok (.tcarrySave x) => ([], some (slotOf x))
  | .ok (.tmovq x) => ([x.td.val], none)
  | _ => ([], none)

/-- Whether a command waits behind a set-aside TSCAN: it names one of its tiles or its slot.  The reloading TCARRY load does not,
nor does TZERO of the slot, which discards it (R258, R274). -/
def TensorUnit.waitsBehind (u : TensorUnit) (f : Firing) : Bool :=
  let n := namesOf f
  u.aside.any fun g =>
    let m := namesOf g
    (n.1.any fun t => decide (t ∈ m.1)) || (n.2.isSome && decide (n.2 = m.2))

/-- Whether a command is a TSCAN whose slot is SWAPPED. -/
def TensorUnit.setsAside (u : TensorUnit) (f : Firing) : Bool :=
  match decode f.word with
  | .ok (.tscan x) => u.swapped.getLsbD (slotOf x)
  | _ => false

/-- Takes the command at the head of the FIFO. -/
def State.takeCommand (s : State) (cl : Nat) : State :=
  let u := s.unit cl
  match u.fifo with
  | [] => s
  | f :: rest =>
    if u.ready ≠ 0 ∨ u.waitsBehind f then s
    else if u.setsAside f then
      let k := match decode f.word with
        | .ok (.tscan x) => u.swapHandle (slotOf x)
        | _ => noKnot
      let s1 := s.onUnit cl fun u => { u with fifo := rest, aside := u.aside ++ [f] }
      if k = noKnot then s1 else s1.addWaiters (knotKey k) true 1
    else s.onUnit cl fun u => { u with fifo := rest, cur := some ⟨f, false, 0, [], none⟩ }

/-- One step of the current command. -/
def State.commandStep (s : State) (cl : Nat) (r : TRun) : State :=
  let f := r.firing
  match s.regCommand (s.unit cl) f with
  | some .wait => s
  | some (.trap d) => s.parkCommand cl r .trap (BitVec.ofNat 64 d) 0
  | some (.done u e) =>
    let s1 := (s.onUnit cl fun _ => u).unitFlags cl e
    match decode f.word with
    | .ok (.trdsh x) => s1.endCommand cl f .value (getAt u.shapes x.ta.val 0)
    | .ok (.tzeroCarry x) => (s1.leaveAside (s.unit cl) (slotOf x)).endCommand cl f .completion 0
    | _ => s1.endCommand cl f .completion 0
  | none =>
    match decode f.word with
    | .ok (.tmma x) => s.mmaStep cl r x
    | .ok (.tld x) => s.tldStep cl r x
    | .ok (.tst x) => s.tstStep cl r x
    | .ok (.trow x) => s.trowStep cl r x
    | .ok (.trowStr x) => s.trowStrStep cl r x
    | .ok (.tscan x) => s.scanRow cl r x
    | .ok (.tcarrySave x) => s.saveStep cl r x
    | .ok (.tcarryLoad x) => s.loadStep cl r x
    | _ => s.onUnit cl fun u => { u with cur := none }

/-! Row streams (R255). -/

/-- OFFSET, ROW and SOFF of a tile handle. -/
def handleParts (w : Word) : Nat × Nat × Nat := (bitsOf w.toNat 0 20, bitsOf w.toNat 20 8, bitsOf w.toNat 28 20)

/-- The TRAP of a token at `tensor.rowN`, if it raises one (Table 12.4); of a tile handle that meets both rows, the unset shape's (log
170). -/
def TensorUnit.rowTrap (u : TensorUnit) (t : Nat) (k : Token) : Option Nat :=
  let h := u.shape t
  let (off, row, _) := handleParts k.payload
  if k.cls ≠ .tile then some 0x0302
  else if !h.fe then some 0x0301
  else if h.rows ≤ row ∨ off % 8 ≠ 0 ∨ bitsOf k.payload.toNat 48 16 ≠ 0 then some 0x0302
  else none

/-- The L range that grants a read of a span, if there is one. -/
def State.readRange (s : State) (l a n : Nat) : Option Nat :=
  (s.pattern l).bind fun p => indexOf (fun r => decide (r.space = .l) && r.rd && r.has a n) p.ranges 0

/-- A row-stream token's run parks at its fault (R254). -/
def State.parkRow (s : State) (l cl : Nat) (r : RowRun) (k : FaultKind) (d : Word) (addr : Nat) : State :=
  let src : FaultSrc := ⟨2, r.tok.tag.die.toNat, 0x7FF, r.tile, r.tok.phase, (s.launch l).stage, some r.tok.tag, 0, 0, 0,
    (s.launch l).panel.footprint cl⟩
  let (id, s1) := s.engineFault l k d addr src false (.row cl)
  s1.onUnit cl fun u => { u with rows := u.rows ++ [{ r with accs := [], parked := some id }] }

/-- Whether a row-stream token has to wait for its row: it is full, being written, or waited for. -/
def State.rowWaits (s : State) (cl t row : Nat) : Bool :=
  let u := s.unit cl
  u.full t row || (u.rows.any fun r => decide (r.tile = t ∧ (handleParts r.tok.payload).2.1 = row)) ||
    (s.cluster cl).remnant.any fun e => decide (e.kind = .rowWait (t * 192 + row))

/-- Whether a row-stream token is taken without a TENSION fault: it faults otherwise, starts, or finds a remnant entry to wait in. -/
def State.rowFits (s : State) (l cl t : Nat) (k : Token) : Bool :=
  ((s.unit cl).rowTrap t k).isSome || !s.rowWaits cl t (handleParts k.payload).2.1 || s.remnantFree l cl

/-- Takes a row-stream token: it faults, waits for its row to become empty, or starts to write it. -/
def State.rowToken (s : State) (l cl t : Nat) (k : OutTok) : State :=
  let row := (handleParts k.tok.payload).2.1
  match (s.unit cl).rowTrap t k.tok with
  | some c => s.parkRow l cl ⟨k.tok, t, [], none⟩ .trap (BitVec.ofNat 64 c) 0
  | none =>
    if !s.rowFits l cl t k.tok then s.tensionPark l cl k
    else if s.rowWaits cl t row then
      s.onCluster cl fun c => { c with remnant := c.remnant ++ [⟨k.tok, 0, .rowWait (t * 192 + row), 0, s.aCycle⟩] }
    else s.onUnit cl fun u => { u with rows := u.rows ++ [⟨k.tok, t, [], none⟩] }

/-- The tile register of a token at `tensor.rowN`. -/
def OutTok.rowPort (t : OutTok) : Option Nat := t.eng.bind fun e => if e.1 = 2 then some (e.2.2.toNat % 16) else none

/-- ROW_STREAM_TOKEN (R255): a token reaches `tensor.rowN`; during a freeze one that finds no entry stays in flight, and is saved so
(R378). -/
def execRowStreamToken (cl k : Nat) (s : State) : Host.Outcome State Fault Refusal :=
  .next (match s.arrivalAt cl k with
    | none => s
    | some a =>
      match a.out.rowPort with
      | some t =>
        if (s.launch a.launch).freeze.isSome ∧ s.rowFits a.launch cl t a.out.tok = false then s
        else (s.dropArrival cl k).rowToken a.launch cl t a.out
      | none => s)

/-- Row-stream tokens that wait for a row that has become empty. -/
def State.rowReady (s : State) (cl : Nat) : Option (RemEntry × Nat) :=
  let u := s.unit cl
  (s.cluster cl).remnant.findSome? fun e => match e.kind with
    | .rowWait n =>
      let t := n / 192
      let busy := u.rows.any fun r => decide (r.tile = t ∧ (handleParts r.tok.payload).2.1 = n % 192)
      if !u.full t (n % 192) && !busy then some (e, t) else none
    | _ => none

/-- One access of a row-stream token's run; the row is written and set full once all are done. -/
def State.rowRunStep (s : State) (l cl i : Nat) (r : RowRun) : State :=
  let u := s.unit cl
  let h := u.shape r.tile
  let (off, row, soff) := handleParts r.tok.payload
  let gone := fun (s : State) => s.onUnit cl fun u => { u with rows := dropNth u.rows i }
  match u.rowTrap r.tile r.tok with
  | some c => (gone s).parkRow l cl r .trap (BitVec.ofNat 64 c) 0
  | none =>
    match s.readRange l off h.rowBytes, (if h.yb then s.readRange l soff h.scaleBytes else some 0) with
    | some ra, some rb =>
      let as_ := if r.accs.isEmpty then
          readsAt .l (some ra) off h.rowBytes ++ (if h.yb then readsAt .l (some rb) soff h.scaleBytes else [])
        else r.accs
      match s.accsStep ⟨some l, (s.launch l).part, cl, true⟩ as_ with
      | .bad k d a s1 => (gone s1).parkRow l cl r k d a
      | .moved bs s1 =>
        if allDone bs then
          (gone s1).onUnit cl fun u => u.putRow r.tile row ((gotOf bs).take h.rowBytes) ((gotOf bs).drop h.rowBytes)
        else s1.onUnit cl fun u => { u with rows := setNth u.rows i { r with accs := bs } }
    | none, _ => (gone s).parkRow l cl r .protect 0 off
    | _, none => (gone s).parkRow l cl r .protect 0 soff

/-- What a tensor unit may do next. -/
inductive UnitAct where
  | take
  | command
  | startRow
  | row (i : Nat)
  deriving DecidableEq, Repr

/-- Everything a tensor unit may do next.  While the output row waits for a free slot, no command goes on beyond the row in progress
(R262). -/
def State.unitActs (s : State) (cl : Nat) : List UnitAct :=
  let u := s.unit cl
  let cmd := match u.cur with
    | some r => if r.parked.isNone then [UnitAct.command] else []
    | none => if u.fifo.isEmpty then [] else [UnitAct.take]
  let halt := s.enginesHalt cl
  let cmds := if halt || s.rowStalled ((s.ownerOf cl).getD 0) cl then cmd.filter fun _ => u.cur.any fun r => !r.accs.isEmpty else cmd
  let start := if !halt && (s.rowReady cl).isSome then [UnitAct.startRow] else []
  cmds ++ start ++ ((countFrom 0 u.rows.length).filter fun i => ((nth u.rows i).map fun r => r.parked.isNone).getD false).map UnitAct.row

/-- TENSOR_COMMAND_PERFORM (R249, R255): the unit takes its next command, goes on with the current one, or writes a row-stream token's
row. -/
def execTensorCommandPerform (cl : Nat) (s : State) : Host.Outcome State Fault Refusal :=
  .next (match s.ownerOf cl with
    | none => s
    | some l =>
      let acts := s.unitActs cl
      if acts = [] ∨ !(s.launch l).engines then s
      else
        let (k, s1) := s.choose acts.length
        match nth acts k with
        | some .take => s1.takeCommand cl
        | some .command => match (s1.unit cl).cur with
          | some r => s1.commandStep cl r
          | none => s1
        | some .startRow => match s1.rowReady cl with
          | some (e, t) =>
            ({ s1 with } : State).onCluster cl fun c => { c with
              remnant := c.remnant.erase e
              tensor := { c.tensor with rows := c.tensor.rows ++ [⟨e.tok, t, [], none⟩] } }
          | none => s1
        | some (.row i) => match nth (s1.unit cl).rows i with
          | some r => s1.rowRunStep l cl i r
          | none => s1
        | none => s1)

/-- TSCAN_SET_ASIDE_RELEASE (R274): the TSCAN that the reloading TCARRY released is performed, before any later command. -/
def execTscanSetAsideRelease (cl slot : Nat) (s : State) : Host.Outcome State Fault Refusal :=
  .next (let u := s.unit cl
    if !u.ready.getLsbD slot || u.cur.isSome || !s.enginesRun cl || s.enginesHalt cl then s
    else
      match u.aside.find? (asideOn slot) with
      | none => s
      | some f => s.onUnit cl fun u => { u with
          aside := u.aside.erase f
          ready := u.ready &&& ~~~(BitVec.ofNat 8 (2 ^ slot))
          cur := some ⟨f, false, 0, [], none⟩ })

/-! The instructions (R249, R251): each sends one command. -/

/-- A format T firing: one command to the unit's FIFO. -/
def State.tensorCmd (s : State) (x : FormT) : Host.Outcome State Fault Refusal :=
  s.fireHeld x.pm fun s f =>
    let id := f.opId.getD s.serial
    { s.onUnit f.cl (fun u => { u with fifo := u.fifo ++ [{ f with opId := some id }] }) with serial := s.serial + 1 }

/-- TSHAPE (R256). -/
def execTshape (x : FormT) (s : State) : Host.Outcome State Fault Refusal := s.tensorCmd x
/-- TRDSH (R256). -/
def execTrdsh (x : FormT) (s : State) : Host.Outcome State Fault Refusal := s.tensorCmd x
/-- TLD (R257). -/
def execTld (x : FormT) (s : State) : Host.Outcome State Fault Refusal := s.tensorCmd x
/-- TST (R257). -/
def execTst (x : FormT) (s : State) : Host.Outcome State Fault Refusal := s.tensorCmd x
/-- TZERO with FN 0 (R258). -/
def execTzeroTile (x : FormT) (s : State) : Host.Outcome State Fault Refusal := s.tensorCmd x
/-- TZERO with FN 1 (R258). -/
def execTzeroAcc (x : FormT) (s : State) : Host.Outcome State Fault Refusal := s.tensorCmd x
/-- TZERO with FN 2 (R258). -/
def execTzeroCarry (x : FormT) (s : State) : Host.Outcome State Fault Refusal := s.tensorCmd x
/-- TMMA (R259, R260). -/
def execTmma (x : FormT) (s : State) : Host.Outcome State Fault Refusal := s.tensorCmd x
/-- TADD (R263). -/
def execTadd (x : FormT) (s : State) : Host.Outcome State Fault Refusal := s.tensorCmd x
/-- TMUL (R263). -/
def execTmul (x : FormT) (s : State) : Host.Outcome State Fault Refusal := s.tensorCmd x
/-- TSCALE (R263). -/
def execTscale (x : FormT) (s : State) : Host.Outcome State Fault Refusal := s.tensorCmd x
/-- TACT (R264). -/
def execTact (x : FormT) (_fn : ActFn) (s : State) : Host.Outcome State Fault Refusal := s.tensorCmd x
/-- TRED with FN 0 (R266). -/
def execTredSum (x : FormT) (s : State) : Host.Outcome State Fault Refusal := s.tensorCmd x
/-- TRED with FN 1 (R266). -/
def execTredMax (x : FormT) (s : State) : Host.Outcome State Fault Refusal := s.tensorCmd x
/-- TQNT (R267). -/
def execTqnt (x : FormT) (s : State) : Host.Outcome State Fault Refusal := s.tensorCmd x
/-- TDQ (R268). -/
def execTdq (x : FormT) (s : State) : Host.Outcome State Fault Refusal := s.tensorCmd x
/-- TCVT (R268). -/
def execTcvt (x : FormT) (s : State) : Host.Outcome State Fault Refusal := s.tensorCmd x
/-- TTRN (R270). -/
def execTtrn (x : FormT) (s : State) : Host.Outcome State Fault Refusal := s.tensorCmd x
/-- TROW with FN 0 (R271). -/
def execTrow (x : FormT) (s : State) : Host.Outcome State Fault Refusal := s.tensorCmd x
/-- TROW with FN 1 (R271). -/
def execTrowStr (x : FormT) (s : State) : Host.Outcome State Fault Refusal := s.tensorCmd x
/-- TSCAN (R272). -/
def execTscan (x : FormT) (s : State) : Host.Outcome State Fault Refusal := s.tensorCmd x
/-- TCARRY with FN 0 (R273). -/
def execTcarrySave (x : FormT) (s : State) : Host.Outcome State Fault Refusal := s.tensorCmd x
/-- TCARRY with FN 1 (R273). -/
def execTcarryLoad (x : FormT) (s : State) : Host.Outcome State Fault Refusal := s.tensorCmd x
/-- TMOVQ (R269). -/
def execTmovq (x : FormT) (s : State) : Host.Outcome State Fault Refusal := s.tensorCmd x

/-! Resumes (R376). -/

/-- The command that a fault parked is retried from its faulting row. -/
def TensorUnit.retry (u : TensorUnit) (id : Nat) : TensorUnit :=
  { u with cur := u.cur.map fun r => if r.parked = some id then { r with parked := none } else r }

/-- The first of the row-stream tokens that a fault parked is retried. -/
def TensorUnit.retryRow (u : TensorUnit) (id : Nat) : TensorUnit :=
  match indexOf (fun (r : RowRun) => decide (r.parked = some id)) u.rows 0 with
  | some i => { u with rows := (u.rows.zip (countFrom 0 u.rows.length)).map fun e => if e.2 = i then { e.1 with parked := none } else e.1 }
  | none => u

/-- What a fault parked in a unit is abandoned. -/
def TensorUnit.discard (u : TensorUnit) (id : Nat) : TensorUnit :=
  { u with
    cur := u.cur.filter fun r => decide (r.parked ≠ some id)
    rows := u.rows.filter fun r => decide (r.parked ≠ some id) }

end Sys2Proof.Machine
end

