-- ==== Sys2Proof/Machine/Stream.lean ====
section
/-! DEFINITION. Machine/Stream.lean: stream words, circuits, the twelve operator kinds and the stream instructions (spec 13). -/

namespace Sys2Proof.Machine

/-! Parked firings (R289). -/

/-- The injector or receive queue that a firing's CH names. -/
def State.stationEnd (s : State) (f : Firing) (unit ch : Nat) : Nat :=
  endpoint ((s.launch f.launch).panel.footprint f.cl) unit f.st ch

/-- The stream endpoint that a parked firing waits at: the injector of SEMIT and SMARK, the receive queue of SRECV. -/
def State.waitsAt (s : State) (f : Firing) : Option Nat :=
  match decode f.word with
  | .ok (.semit _ ch) => some (s.stationEnd f 13 ch.toNat)
  | .ok (.smark _ ch _) => some (s.stationEnd f 13 ch.toNat)
  | .ok (.srecv _ ch) => some (s.stationEnd f 14 ch.toNat)
  | _ => none

/-- The firings parked at an endpoint, in the order in which they were chosen. -/
def State.parkedAtEnd (s : State) (l ep : Nat) : List Parked :=
  (s.launch l).parked.filter fun p => decide (p.why = .stream) && decide (s.waitsAt p.firing = some ep)

/-- The firings parked at an endpoint are performed again, as their station can (R289, R292). -/
def State.wakeAt (s : State) (l ep : Nat) : State := s.resumeParked l (s.parkedAtEnd l ep)

/-- Whether a parked firing has waited longer for what a firing needs: firings are served in the order in which they were chosen (R288 to
R290). -/
def Parked.ahead (p : Parked) (f : Firing) : Bool :=
  decide (p.why = .stream ∨ p.why = .again) && (match f.opId with
    | some i => decide (p.id < i)
    | none => true)

/-- Whether another firing comes first at a stream endpoint. -/
def State.aheadAtEnd (s : State) (f : Firing) (ep : Nat) : Bool :=
  (s.launch f.launch).parked.any fun p => p.ahead f && decide (s.waitsAt p.firing = some ep)

/-- The die on which an endpoint's cluster lies. -/
def State.dieOfEnd (s : State) (l ep : Nat) : Nat := ((nth (s.launch l).panel.all (ep / 2 ^ 15)).getD 0) / 128

/-- The bytes of a stream word in meter 11: its 68 bits in whole bytes (log 32). -/
def wordBytes : Nat := 9

/-- Sends a word on a circuit; a station that waits for it receives it (R289), and its bytes are counted where it crosses dies (R396). -/
def State.sendWord (s : State) (l producer : Nat) (w : SWord) : State :=
  match (s.fab l).consumer producer with
  | none => s
  | some to_ =>
    let frm := s.dieOfEnd l producer
    ((s.onFab l fun b => b.send producer w).crossing ⟨some l, (s.launch l).part, frm * 128, true⟩ frm (s.dieOfEnd l to_) wordBytes).wakeAt
      l to_

/-- CIRCUIT_SLOT_RETURN (R280): a consumer reports up to seven freed slots, and firings that wait for one are performed. -/
def execCircuitSlotReturn (l ep : Nat) (s : State) : Host.Outcome State Fault Refusal :=
  .next (let b := s.fab l
    let n := min 7 (getAt b.freed ep 0)
    match b.producer ep with
    | none => s
    | some from_ =>
      if n = 0 ∨ (s.launch l).moves = false then s
      else
        let b1 : StreamFab := { b with
          freed := setAt b.freed ep (getAt b.freed ep 0 - n) 0
          credits := setAt b.credits from_ (getAt b.credits from_ 0 - n) 0 }
        (s.onFab l fun _ => b1).wakeAt l from_)

/-- STREAM_OUTPUT_ROW (R262): the next word of a tensor unit's output row enters its circuit. -/
def execStreamOutputRow (cl : Nat) (s : State) : Host.Outcome State Fault Refusal :=
  .next (match s.ownerOf cl, (s.unit cl).outRow with
    | some l, w :: ws =>
      let from_ := endpoint ((s.launch l).panel.footprint cl) 15 0 0
      if (s.launch l).engines && (s.fab l).canSend from_ then
        (s.onUnit cl fun u => { u with outRow := ws }).sendWord l from_ w
      else s
    | _, _ => s)

/-! Values (R278, R282). -/

/-- VT, NOEMPTY, MODE and SW of P0. -/
def OpInst.vt (o : OpInst) : Nat := bitsOf o.p0.toNat 0 2
/-- NOEMPTY. -/
def OpInst.noEmpty (o : OpInst) : Bool := o.p0.getLsbD 2
/-- MODE. -/
def OpInst.mode (o : OpInst) : Nat := bitsOf o.p0.toNat 4 4
/-- SW. -/
def OpInst.sw (o : OpInst) : Nat := bitsOf o.p0.toNat 8 8

/-- Whether a value is zero in a VT. -/
def zeroIn (vt : Nat) (v : BitVec 32) : Bool := if vt = 0 then decide (v.toNat % 2 ^ 31 = 0) else decide (v = 0)

/-- Whether x comes before y in the order of a VT: −0 is below +0. -/
def lessIn (vt : Nat) (x y : BitVec 32) : Bool :=
  if vt = 0 then lessMax (fp32.decode x.toNat) (fp32.decode y.toNat) else decide (x.toInt < y.toInt)

/-- Whether a value is a NaN under VT 0. -/
def nanIn (vt : Nat) (v : BitVec 32) : Bool := decide (vt = 0) && (fp32.decode v.toNat).isNan

/-- Addition under a VT. -/
def addIn (vt : Nat) (x y : BitVec 32) : BitVec 32 :=
  if vt = 0 then BitVec.ofNat 32 (fadd fp32 .rne (fp32.decode x.toNat) (fp32.decode y.toNat)).1 else x + y

/-- Multiplication under a VT. -/
def mulIn (vt : Nat) (x y : BitVec 32) : BitVec 32 :=
  if vt = 0 then BitVec.ofNat 32 (fmul fp32 .rne (fp32.decode x.toNat) (fp32.decode y.toNat)).1 else x * y

/-- A combination: 0 add, 1 min, 2 max, 3 first. -/
def combineIn (vt mode : Nat) (x y : BitVec 32) : BitVec 32 :=
  if mode = 0 then addIn vt x y
  else if mode = 3 then x
  else if nanIn vt x || nanIn vt y then BitVec.ofNat 32 fp32.nanBits
  else if lessIn vt x y then (if mode = 1 then x else y)
  else (if mode = 1 then y else x)

/-- Whether FILTER passes a word (Table 13.3). -/
def OpInst.passes (o : OpInst) (w : SWord) : Bool :=
  let lo := o.p1.setWidth 32
  let hi := o.p2.setWidth 32
  let inside := decide (lo ≤ w.coord ∧ w.coord ≤ hi)
  if o.mode = 0 then inside
  else if o.mode = 3 then !inside
  else if o.vt = 0 then
    let v := if o.mode = 2 then BitVec.ofNat 32 (fabsBits fp32 w.value.toNat) else w.value
    !nanIn 0 v && !nanIn 0 lo && !lessIn 0 v lo
  else
    let v := if o.mode = 2 ∧ w.value.toInt < 0 then 0 - w.value else w.value
    decide (lo.toInt ≤ v.toInt)

/-- An element of memory widened (R283). -/
def widen (code raw : Nat) : BitVec 32 :=
  if code = 2 then BitVec.ofInt 32 (sext 8 raw)
  else if code = 8 then BitVec.ofNat 32 raw
  else BitVec.ofNat 32 ((codeFmt code).widen raw)

/-! The operators (Table 13.3). -/

/-- Inputs and outputs of a kind. -/
def opPorts (kind : Nat) : Nat × Nat :=
  match kind with
  | 3 => (2, 2) | 4 => (2, 1) | 5 => (2, 1) | 6 => (2, 1) | 12 => (1, 2) | _ => (1, 1)

/-- Instances of a kind in a cluster. -/
def opCount (kind : Nat) : Nat :=
  match kind with
  | 1 => 2 | 2 => 2 | 3 => 2 | 5 => 2 | 6 => 2 | 8 => 2 | 12 => 2
  | 4 => 1 | 7 => 1 | 9 => 1 | 10 => 1 | 11 => 1
  | _ => 0

/-- The highest MODE of a kind. -/
def opModes (kind : Nat) : Nat :=
  match kind with
  | 1 => 1 | 4 => 3 | 7 => 3 | 8 => 3 | 10 => 1 | _ => 0

/-- Whether a P0 is one that a kind allows, over the swatches of its pattern (R282, R283). -/
def p0Ok (kind : Nat) (p0 : Word) (swatches : List Swatch) : Bool :=
  let vt := bitsOf p0.toNat 0 2
  let mode := bitsOf p0.toNat 4 4
  let sw := bitsOf p0.toNat 8 8
  let w := (nth swatches sw).getD Swatch.blank
  let exists_ := decide (sw < swatches.length)
  zeroBits p0 16 63 && !p0.getLsbD 3 && decide (vt ≤ 1) && decide (mode ≤ opModes kind) && !(decide (kind = 1 ∧ vt = 1)) &&
    (match kind with
    | 1 => exists_ && decide (w.kind = .csr)
    | 11 => exists_ && decide (w.kind = .csr)
    | 10 => exists_ && decide (w.kind = .dense ∧ w.space ≠ .w) && decide (w.elem = if vt = 0 then 5 else 8)
    | 2 | 9 => exists_ && decide (w.kind = .dense) &&
        decide (if vt = 0 then w.elem = 0 ∨ w.elem = 1 ∨ w.elem = 3 ∨ w.elem = 4 ∨ w.elem = 5 else w.elem = 2 ∨ w.elem = 8)
    | _ => decide (sw = 0))

/-- The endpoint of an operator's input. -/
def OpInst.input (o : OpInst) (port : Nat) : Nat := endpoint o.fcl o.kind o.inst port
/-- The endpoint of an operator's output. -/
def OpInst.output (o : OpInst) (port : Nat) : Nat := endpoint o.fcl o.kind o.inst (32 + port)

/-- Puts a word on its way out of an operator: no zero value, no empty fibre's marker under NOEMPTY, and nothing on an output
that is on no circuit (R278, R282). -/
def OpInst.emit (o : OpInst) (b : StreamFab) (port : Nat) (w : SWord) : OpInst :=
  let k := w.mark.toNat
  let bit := fun (j : Nat) => 4 * port + j - 1
  let all : BitVec 8 := BitVec.ofNat 8 (15 * 2 ^ (4 * port))
  let lower : BitVec 8 := BitVec.ofNat 8 ((2 ^ k - 1) * 2 ^ (4 * port))
  let placed := fun (o : OpInst) => if (b.consumer (o.output port)).isSome then { o with out := o.out ++ [(port, w)] } else o
  if k = 0 then
    if zeroIn o.vt w.value then o else placed { o with since := o.since ||| all }
  else if k ≤ 4 then
    if o.noEmpty && !o.since.getLsbD (bit k) then o else placed { o with since := o.since &&& ~~~lower }
  else
    placed { o with since := o.since &&& ~~~all }

/-- A word on every output of an operator. -/
def OpInst.emitAll (o : OpInst) (b : StreamFab) (w : SWord) : OpInst :=
  if (opPorts o.kind).2 = 2 then (o.emit b 0 w).emit b 1 w else o.emit b 0 w

/-- A reset on all inputs (R282, R286): partial state is discarded, and one reset leaves on each output; words that stand behind
the reset are no part of that state. -/
def OpInst.resetAll (o : OpInst) (b : StreamFab) : OpInst :=
  ({ o with
    prev0 := none, prev1 := none, drop := 0, part := none, cnt := 0, word := none, base := 0, rowDone := 0, begun := false,
    phase := 0, accs := [] }).emitAll b ⟨0, 0, 0xE⟩

/-- The partial state of a fibre is left behind, as at a marker. -/
def OpInst.endFibre (o : OpInst) : OpInst := { o with prev0 := none, prev1 := none }

/-- A data word taken at an input. -/
def OpInst.noted (o : OpInst) (port : Nat) (w : SWord) : OpInst :=
  let c := if w.mark = 0 then some w.coord else none
  if port = 0 then { o with prev0 := c } else { o with prev1 := c }

/-- What an operator does with the words at its inputs: nothing, take words from in0 and in1, discard one, or meet an error at an
input. -/
inductive OpTurn where
  | idle
  | took (in0 in1 : Bool) (o : OpInst)
  | error (code port : Nat)
  deriving DecidableEq, Repr

/-- Whether an input is ordered (R277). -/
def orderedIn (kind : Nat) : Bool := decide (kind = 3 ∨ kind = 4 ∨ kind = 11)

/-- The error of a word by itself: a reserved MARK, or a COORD that does not ascend at an ordered input (R286). -/
def OpInst.wordError (o : OpInst) (port : Nat) (w : SWord) : Option Nat :=
  let m := w.mark.toNat
  if 5 ≤ m ∧ m ≤ 13 then some 2
  else if m = 0 && orderedIn o.kind then
    match if port = 0 then o.prev0 else o.prev1 with
    | some c => if w.coord ≤ c then some 1 else none
    | none => none
  else none

/-- A reset taken at an input (R282). -/
def OpInst.takeReset (o : OpInst) (b : StreamFab) (port : Nat) : OpTurn :=
  if (opPorts o.kind).1 = 1 then .took true false (o.resetAll b)
  else
    let o1 := { o with prev0 := none, prev1 := none, word := none, drop := if port = 0 then 2 else 1 }
    .took (decide (port = 0)) (decide (port = 1)) o1

/-- INTERSECT, UNION and MULT with a word at each input. -/
def OpInst.pair (o : OpInst) (b : StreamFab) (x y : SWord) (tie : Nat) : OpTurn :=
  let dx := decide (x.mark = 0)
  let dy := decide (y.mark = 0)
  if !dx && !dy then
    if x.mark ≠ y.mark then .error 3 tie
    else .took true true (o.endFibre.emitAll b ⟨0, x.coord, x.mark⟩)
  else if (x.mark = 15) || (y.mark = 15) then .error 3 (if dx then 0 else 1)
  else if o.kind = 6 then
    if !dx then .error 3 1
    else if !dy then .error 3 0
    else if x.coord ≠ y.coord then .error 3 tie
    else .took true true (o.emit b 0 ⟨mulIn o.vt x.value y.value, x.coord, 0⟩)
  else
    let second := !dx || (dy && decide (y.coord < x.coord))
    let first := !dy || (dx && decide (x.coord < y.coord))
    if second then .took false true (if o.kind = 4 then (o.noted 1 y).emit b 0 y else o.noted 1 y)
    else if first then .took true false (if o.kind = 4 then (o.noted 0 x).emit b 0 x else o.noted 0 x)
    else
      let o1 := (o.noted 0 x).noted 1 y
      if o.kind = 4 then .took true true (o1.emit b 0 ⟨combineIn o.vt o.mode x.value y.value, x.coord, 0⟩)
      else .took true true ((o1.emit b 0 x).emit b 1 y)

/-- REPEAT: a held word of in0 goes over one fibre of in1; markers pair with the next level (Table 13.3).  A marker of level 2 to 4 that
closes a fibre directly (R276) ends the held word's fibre, and is then paired. -/
def OpInst.repeat (o : OpInst) (b : StreamFab) (x y : Option SWord) : OpTurn :=
  match o.word, x, y with
  | some h, _, some y =>
    if y.mark = 0 then .took false true (o.emit b 0 ⟨h.value, y.coord, 0⟩)
    else if y.mark = 1 then .took false true ({ o with word := none }.emit b 0 ⟨0, h.coord, 1⟩)
    else if y.mark.toNat ≤ 4 then .took false false { o with word := none }
    else .error 3 1
  | none, some x, some y =>
    if x.mark = 0 then
      if y.mark = 0 ∨ y.mark = 1 then .took true false { o with word := some x } else .error 3 1
    else
      let want := if x.mark = 15 then 15 else x.mark.toNat + 1
      if y.mark.toNat = want then .took true true (o.emit b 0 ⟨0, x.coord, y.mark⟩) else .error 3 1
  | _, _, _ => .idle

/-- REDUCE (Table 13.3). -/
def OpInst.reduceWord (o : OpInst) (b : StreamFab) (w : SWord) : OpInst :=
  if w.mark = 0 then
    let v := match o.part with
      | none => if o.mode = 3 then 1 else w.value
      | some a => if o.mode = 3 then a + 1 else combineIn o.vt o.mode a w.value
    { o with part := some v }
  else if w.mark = 15 then ({ o with part := none }).emit b 0 ⟨0, 0, 15⟩
  else
    let o1 := match o.part with
      | some v => { o with part := none }.emit b 0 ⟨v, w.coord, 0⟩
      | none => o
    if w.mark = 1 then o1 else o1.emit b 0 ⟨0, w.coord, w.mark - 1⟩

/-- Begins work on a word that stays at the input until its accesses are done. -/
def OpInst.start (o : OpInst) (w : SWord) (phase cnt base : Nat) (accs : List Acc) : OpTurn :=
  .took false false { o with word := some w, phase := phase, cnt := cnt, base := base, accs := accs }

/-- Reads through a swatch. -/
def Swatch.readsFrom (w : Swatch) (off n : Nat) : List Acc := readsAt w.space (some w.range) (w.base + off) n
/-- The read of one element through a swatch (R222, check 2). -/
def Swatch.elemFrom (w : Swatch) (off n : Nat) : List Acc := [.rdElem w.space (w.base + off) n (some w.range)]
/-- The write of one element through a swatch. -/
def Swatch.elemTo (w : Swatch) (off : Nat) (bs : List Byte) : List Acc := [.wrElem w.space (w.base + off) bs (some w.range)]
/-- The write of a 32-bit value through a swatch. -/
def Swatch.puts32 (w : Swatch) (off v : Nat) : List Acc := w.elemTo off (leBytes 4 v)

/-- COORD, CAP and VALUE of a CSR swatch. -/
def Swatch.coordOff (w : Swatch) : Nat := w.aux0 % 2 ^ 32
/-- CAP. -/
def Swatch.csrCap (w : Swatch) : Nat := w.aux0 / 2 ^ 32
/-- VALUE. -/
def Swatch.valueOff (w : Swatch) : Nat := w.aux1 % 2 ^ 32
/-- Bytes of a CSR value. -/
def Swatch.valueBytes (w : Swatch) : Nat := if w.elem = 4 then 2 else 4

/-- EXPAND and SCAN at a word (phase 1: row pointers; 2: entries). -/
def OpInst.expandWord (o : OpInst) (b : StreamFab) (sw : Swatch) (w : SWord) : OpTurn :=
  if w.mark = 15 then .took true false (o.emit b 0 w)
  else if w.mark = 4 then .error 5 0
  else if w.mark ≠ 0 then .took true false (o.emit b 0 ⟨0, w.coord, w.mark + 1⟩)
  else
    let row := if o.kind = 1 ∧ o.mode = 1 then o.p1.toNat % 2 ^ 24 else w.coord.toNat
    if sw.rows ≤ row then .error 4 0
    else if o.kind = 1 then o.start w 1 0 0 (sw.elemFrom (4 * row) 4 ++ sw.elemFrom (4 * row + 4) 4)
    else o.start w 2 0 sw.cols []

/-- GATHER and SCATTER at a word (R285): the word joins those pending. -/
def OpInst.pendWord (o : OpInst) (sw : Swatch) (w : SWord) : OpTurn :=
  if 16 ≤ o.pend.length then .idle
  else if w.mark ≠ 0 then .took true false { o with pend := o.pend ++ [⟨w, []⟩] }
  else
    let row := o.p1.toNat % 2 ^ 24
    let eb := elemBits sw.elem / 8
    let off := row * sw.stride + w.coord.toNat * eb
    if sw.rows ≤ row ∨ sw.cols ≤ w.coord.toNat then .error 4 0
    else
      let as_ := if o.kind = 9 then sw.elemFrom off eb
        else if o.mode = 0 then sw.elemTo off (leBytes 4 w.value.toNat)
        else [.update sw.space (sw.base + off) 4 (if o.vt = 0 then .f32 else .i32) (w.value.setWidth 64) (some sw.range)]
      .took true false { o with pend := o.pend ++ [⟨w, as_⟩] }

/-- COMPRESS at a word (R284).  Phase 1 writes ptr[0]; 2 an entry; 3 the pointers of a row; 4 those after the last row. -/
def OpInst.compressWord (o : OpInst) (b : StreamFab) (sw : Swatch) (w : SWord) : OpTurn :=
  if !o.begun then .took false false { o with begun := true, phase := 1, accs := sw.puts32 0 0 }
  else if w.mark = 0 then
    if sw.cols ≤ w.coord.toNat then .error 4 0
    else if sw.csrCap ≤ o.cnt then .error 6 0
    else
      let num := if o.vt = 0 then fp32.decode w.value.toNat else .ofInt w.value.toInt
      let v := if sw.elem = 4 then leBytes 2 (roundVal bf16 .rne num).1 else leBytes 4 w.value.toNat
      o.start w 2 o.cnt o.base (sw.puts32 (sw.coordOff + 4 * o.cnt) w.coord.toNat ++
        sw.elemTo (sw.valueOff + sw.valueBytes * o.cnt) v)
  else if w.mark = 15 then o.start w 4 o.cnt o.base []
  else if w.mark = 1 ∨ o.base < o.cnt then
    if sw.rows ≤ w.coord.toNat then .error 4 0
    else if w.coord.toNat < o.rowDone then .error 6 0
    else o.start w 3 o.cnt o.base []
  else .took true false (o.endFibre.emit b 0 w)

/-- Whether both outputs have a free slot: FORK consumes a word only then. -/
def OpInst.bothFree (o : OpInst) (b : StreamFab) : Bool := b.canSend (o.output 0) && b.canSend (o.output 1)

/-- What an operator does next with the words at its inputs. -/
def OpInst.turn (o : OpInst) (b : StreamFab) (sw : Swatch) (tie : Nat) : OpTurn :=
  let x := (b.queue (o.input 0)).head?
  let y := if (opPorts o.kind).1 = 2 then (b.queue (o.input 1)).head? else none
  let errX := x.bind (o.wordError 0)
  let errY := y.bind (o.wordError 1)
  let isReset := fun (w : Option SWord) => (w.map fun v => decide (v.mark = 14)).getD false
  if o.drop = 1 then
    match x with
    | some w => .took true false (if w.mark = 14 then o.resetAll b else o)
    | none => .idle
  else if o.drop = 2 then
    match y with
    | some w => .took false true (if w.mark = 14 then o.resetAll b else o)
    | none => .idle
  else if isReset x then
    (if o.pend.isEmpty && (decide (o.kind ≠ 12) || o.bothFree b) then o.takeReset b 0 else .idle)
  else if isReset y then o.takeReset b 1
  else
    match errX, errY with
    | some c, _ => .error c 0
    | none, some c => .error c 1
    | none, none =>
      if o.kind = 5 then o.repeat b x y
      else
        match x, y with
        | some x, some y => o.pair b x y tie
        | none, _ => .idle
        | some w, none =>
          match o.kind with
          | 1 => o.expandWord b sw w
          | 2 => o.expandWord b sw w
          | 7 => .took true false (if w.mark = 0 && !o.passes w then o else o.emit b 0 w)
          | 8 => .took true false (o.reduceWord b w)
          | 9 => o.pendWord sw w
          | 10 => o.pendWord sw w
          | 11 => o.compressWord b sw w
          | 12 => if o.bothFree b then .took true false (o.emitAll b w) else .idle
          | _ => .idle

/-- The next thing that an operator working on a word does, its accesses being done: none while words wait at its outputs. -/
def OpInst.advance (o : OpInst) (b : StreamFab) (sw : Swatch) : OpTurn :=
  let done := fun (o : OpInst) => { o with word := none, phase := 0, accs := [] }
  match o.kind, o.phase, o.word with
  | 1, 1, some _ =>
    let v := leNat (gotOf o.accs)
    .took false false { o with phase := 2, cnt := v % 2 ^ 32, base := v / 2 ^ 32, accs := [] }
  | 1, _, some w =>
    if o.accs = [] then
      if o.base ≤ o.cnt then .took true false ((done o).emit b 0 ⟨0, w.coord, 1⟩)
      else
        let as_ := sw.elemFrom (sw.coordOff + 4 * o.cnt) 4 ++ sw.elemFrom (sw.valueOff + sw.valueBytes * o.cnt) sw.valueBytes
        .took false false { o with accs := as_ }
    else
      let g := gotOf o.accs
      let raw := leNat (g.drop 4)
      let v := BitVec.ofNat 32 (if sw.elem = 4 then raw * 2 ^ 16 else raw)
      .took false false ({ o with accs := [], cnt := o.cnt + 1 }.emit b 0 ⟨v, BitVec.ofNat 32 (leNat (g.take 4)), 0⟩)
  | 2, _, some w =>
    let eb := elemBits sw.elem / 8
    if o.accs = [] then
      if o.base ≤ o.cnt then .took true false ((done o).emit b 0 ⟨0, w.coord, 1⟩)
      else .took false false { o with accs := sw.readsFrom (w.coord.toNat * sw.stride + o.cnt * eb) (min 8 ((o.base - o.cnt) * eb)) }
    else
      let raws := (chunks eb (8 / eb) (gotOf o.accs)).filter fun c => !c.isEmpty
      let o1 := (raws.zip (countFrom o.cnt raws.length)).foldl
        (fun o p => o.emit b 0 ⟨widen sw.elem (leNat p.1), BitVec.ofNat 32 p.2, 0⟩) { o with accs := [] }
      .took false false { o1 with cnt := o.cnt + raws.length }
  | 11, 1, _ => .took false false { o with phase := 0, accs := [] }
  | 11, 2, some w => .took true false ((done { o with cnt := o.cnt + 1 }).noted 0 w)
  | 11, 3, some w =>
    if o.accs ≠ [] then
      if o.rowDone = w.coord.toNat then
        let o1 := (done { o with rowDone := o.rowDone + 1, base := o.cnt }).endFibre
        .took true false (if w.mark = 1 then o1 else o1.emit b 0 w)
      else .took false false { o with rowDone := o.rowDone + 1, accs := [] }
    else if o.rowDone = w.coord.toNat then .took false false { o with accs := sw.puts32 (4 * (o.rowDone + 1)) o.cnt }
    else .took false false { o with accs := sw.puts32 (4 * (o.rowDone + 1)) o.base }
  | 11, 4, some w =>
    if o.accs ≠ [] then .took false false { o with rowDone := o.rowDone + 1, accs := [] }
    else if o.rowDone < sw.rows then .took false false { o with accs := sw.puts32 (4 * (o.rowDone + 1)) o.cnt }
    else .took true false ((done { o with cnt := 0, base := 0, rowDone := 0, begun := false }).endFibre.emit b 0 w)
  | _, _, _ => .idle

/-! One step of an instance. -/

/-- Replaces an instance. -/
def State.putOp (s : State) (l i : Nat) (o : OpInst) : State := s.onFab l fun b => { b with ops := setNth b.ops i o }

/-- Whose accesses an operator makes. -/
def State.opClient (s : State) (l : Nat) (o : OpInst) : Client :=
  ⟨some l, (s.launch l).part, (nth (s.launch l).panel.all o.fcl).getD 0, true⟩

/-- An instance parks at a fault (R285, R286). -/
def State.parkOp (s : State) (l i : Nat) (o : OpInst) (k : FaultKind) (d : Word) (addr port : Nat) : State :=
  let per := ((nth (s.launch l).panel.clusters 0).map List.length).getD 1
  let src : FaultSrc := ⟨3, o.fcl / per, 0x7FF, 0xFF, 0, (s.launch l).stage, none, o.kind, 0, o.inst, o.fcl⟩
  let (id, s1) := s.engineFault l k d addr src false (.stream i)
  s1.putOp l i { o with parked := some id, pport := port }

/-- Words taken at an operator's inputs. -/
def State.takeWords (s : State) (l : Nat) (o : OpInst) (in0 in1 : Bool) : State :=
  s.onFab l fun b =>
    let b := if in0 then b.take (o.input 0) else b
    if in1 then b.take (o.input 1) else b

/-- A turn carried out.  An instance parks at an offending word once the words before it have left (R285, R286; log 76). -/
def State.opTurn (s : State) (l i : Nat) (o : OpInst) (t : OpTurn) : State :=
  match t with
  | .idle => s
  | .took in0 in1 o1 => (s.takeWords l o in0 in1).putOp l i (if in0 then { o1 with inw := o1.inw + 1 } else o1)
  | .error code port => if o.pend = [] then s.parkOp l i o .streamProtocol (BitVec.ofNat 64 code) 0 port else s

/-- Whether a firing is a SPARM to an instance. -/
def State.namesOp (s : State) (f : Firing) (o : OpInst) : Bool :=
  match decode f.word with
  | .ok (.sparm _ k i _) => decide (k.toNat = o.kind ∧ i.toNat = o.inst ∧ (s.launch f.launch).panel.footprint f.cl = o.fcl)
  | _ => false

/-- SPARMs parked until an instance is idle (R290). -/
def State.parkedAtOp (s : State) (l : Nat) (o : OpInst) : List Parked :=
  (s.launch l).parked.filter fun p => decide (p.why = .stream) && s.namesOp p.firing o

/-- An instance that has become idle lets its SPARMs be performed. -/
def State.wakeSparm (s : State) (l i : Nat) : State :=
  match nth (s.fab l).ops i with
  | none => s
  | some o =>
    if o.idle then s.resumeParked l (s.parkedAtOp l o) else s

/-- What an instance can do at one moment. -/
inductive OpAct where
  | send (port : Nat) (w : SWord)
  | access
  | pending (k : Nat)
  | emit
  | advance
  | words
  deriving DecidableEq, Repr

/-- The first word waiting at an output. -/
def OpInst.waiting (o : OpInst) (port : Nat) : Option SWord := (o.out.find? fun e => decide (e.1 = port)).map Prod.snd

/-- Removes the first word waiting at an output. -/
def dropFirst (port : Nat) : List (Nat × SWord) → List (Nat × SWord)
  | [] => []
  | e :: es => if e.1 = port then es else e :: dropFirst port es

/-- The acts open to an instance; `fresh` is whether it may take another word (R292: not once a freeze has begun). -/
def OpInst.acts (o : OpInst) (b : StreamFab) (fresh : Bool) : List OpAct :=
  let sends := [0, 1].filterMap fun p => match o.waiting p with
    | some w => if b.canSend (o.output p) then some (.send p w) else none
    | none => none
  let pends := ((countFrom 0 o.pend.length).filter fun k => ((nth o.pend k).map fun e => !allDone e.accs).getD false).map .pending
  let emits := match o.pend with
    | e :: _ => if allDone e.accs ∧ o.out = [] then [.emit] else []
    | [] => []
  let rest := if !allDone o.accs then [.access]
    else if o.out ≠ [] then []
    else if o.phase ≠ 0 then [.advance]
    else if fresh then [.words]
    else []
  sends ++ pends ++ emits ++ rest

/-- A word whose accesses are done leaves GATHER or SCATTER in its turn. -/
def OpInst.emitPend (o : OpInst) (b : StreamFab) (sw : Swatch) : OpInst :=
  match o.pend with
  | [] => o
  | e :: es =>
    let o1 := { o with pend := es }
    if e.word.mark ≠ 0 then o1.emit b 0 e.word
    else if o.kind = 9 then o1.emit b 0 ⟨widen sw.elem (leNat (gotOf e.accs)), e.word.coord, 0⟩
    else o1

/-- One act of an instance; an access that faults for a word that is not the next to leave is made again in its turn (log 76). -/
def State.opAct (s : State) (l i : Nat) (o : OpInst) (a : OpAct) : State :=
  let b := s.fab l
  let sw := s.swatch l o.sw
  match a with
  | .send port w =>
    let n := if w.mark = 15 then o.eosn + 1 else o.eosn
    (s.putOp l i { o with out := dropFirst port o.out, eosn := n }).sendWord l (o.output port) w
  | .access =>
    match s.accsStep (s.opClient l o) o.accs with
    | .moved as_ s1 => s1.putOp l i { o with accs := as_ }
    | .bad k d addr s1 => s1.parkOp l i o k d addr 0
  | .pending k =>
    match nth o.pend k with
    | none => s
    | some e =>
      match s.accsStep (s.opClient l o) e.accs with
      | .moved as_ s1 => s1.putOp l i { o with pend := setNth o.pend k { e with accs := as_ } }
      | .bad kd d addr s1 => if k = 0 then s1.parkOp l i o kd d addr 0 else s
  | .emit => s.putOp l i (o.emitPend b sw)
  | .advance => s.opTurn l i o (o.advance b sw)
  | .words =>
    let (tie, s1) := s.choose 2
    s1.opTurn l i o (o.turn b sw tie)

/-- STREAM_OPERATOR_STEP (R282 to R286): an instance that is not parked does one of the things open to it. -/
def execStreamOperatorStep (l op : Nat) (s : State) : Host.Outcome State Fault Refusal :=
  .next (match nth (s.fab l).ops op with
    | none => s
    | some o =>
      if o.parked.isSome || !(s.launch l).engines then s
      else
        let acts := o.acts (s.fab l) (!(s.launch l).halting)
        if acts = [] then s
        else
          let (k, s1) := s.choose acts.length
          match nth acts k with
          | none => s1
          | some a => (s1.opAct l op o a).wakeSparm l op)

/-! The instructions (R287 to R291). -/

/-- A word injected: the firing completes once it has entered the circuit, and parks while no slot is free (R288). -/
def State.injectWord (s : State) (f : Firing) (pm : Pred) (ch : Nat) (w : SWord) : State :=
  let from_ := s.stationEnd f 13 ch
  if (s.fab f.launch).canSend from_ && !s.aheadAtEnd f from_ then
    let s1 := s.sendWord f.launch from_ w
    (if (s1.fab f.launch).canSend from_ then s1.wakeAt f.launch from_ else s1).emit0 f pm .completion 0
  else s.park f .stream

/-- SEMIT (R288). -/
def execSemit (x : FormX) (ch : BitVec 2) (s : State) : Host.Outcome State Fault Refusal :=
  s.fireHeld x.pm fun s f =>
    let v := (s.opXB f x).setWidth 32
    if zeroIn (if x.ty = .f32 then 0 else 1) v then s.emit0 f x.pm .completion 0
    else s.injectWord f x.pm ch.toNat ⟨v, (s.opXA f x).setWidth 32, 0⟩

/-- SMARK (R288). -/
def execSmark (x : FormX) (ch : BitVec 2) (mark : BitVec 4) (s : State) : Host.Outcome State Fault Refusal :=
  s.fireHeld x.pm fun s f => s.injectWord f x.pm ch.toNat ⟨0, (s.opXA f x).setWidth 32, mark⟩

/-- SRECV (R289): a data word on o0, any other on o1; while words are left, the next firing that waits receives one. -/
def execSrecv (x : FormX) (ch : BitVec 2) (s : State) : Host.Outcome State Fault Refusal :=
  s.fireHeld x.pm fun s f =>
    let to_ := s.stationEnd f 14 ch.toNat
    match (s.fab f.launch).queue to_, s.aheadAtEnd f to_ with
    | w :: _, false =>
      let s0 := s.onFab f.launch fun b => b.take to_
      let s1 := if (s0.fab f.launch).queue to_ = [] then s0 else s0.wakeAt f.launch to_
      if w.mark = 0 then s1.emit0 f x.pm .value (w.value.setWidth 64 ||| (w.coord.setWidth 64) <<< 32)
      else s1.emit1 f .value (w.coord.setWidth 64 ||| (w.mark.setWidth 64) <<< 32)
    | _, _ => s.park f .stream

/-- The operator of the issuing cluster that an instruction names, by index. -/
def State.opIndex (s : State) (f : Firing) (kind inst : Nat) : Option Nat :=
  let fcl := (s.launch f.launch).panel.footprint f.cl
  indexOf (fun (o : OpInst) => decide (o.fcl = fcl ∧ o.kind = kind ∧ o.inst = inst)) (s.fab f.launch).ops 0

/-- A parameter register written. -/
def OpInst.setParam (o : OpInst) (preg : Nat) (v : Word) : OpInst :=
  if preg = 0 then { o with p0 := v } else if preg = 1 then { o with p1 := v } else { o with p2 := v }

/-- SPARM (R290): parks until the instance is idle. -/
def execSparm (x : FormX) (kind : BitVec 4) (inst : BitVec 1) (preg : BitVec 2) (s : State) :
    Host.Outcome State Fault Refusal :=
  s.fireHeld x.pm fun s f =>
    match s.opIndex f kind.toNat inst.toNat with
    | none => s
    | some i =>
      match nth (s.fab f.launch).ops i with
      | none => s
      | some o =>
        let v := s.opXA f x
        if o.idle && !(s.launch f.launch).parked.any fun p => p.ahead f && s.namesOp p.firing o then
          if preg = 0 ∧ p0Ok o.kind v (((s.pattern f.launch).map Pattern.swatches).getD []) = false then s.trap f 0x0401
          else ((s.putOp f.launch i (o.setParam preg.toNat v)).wakeSparm f.launch i).emit0 f x.pm .completion 0
        else s.park f .stream

/-- Whether an access waits for its line to be full (R211). -/
def State.lineWaits (s : State) (c : Client) (a : Acc) : Bool :=
  decide (a.op = .read) && !a.done && (match s.lineAt c a.space a.addr with
    | some (cl, ln) => (s.cluster cl).lineEmpty ln
    | none => false)

/-- STATE of the status word (R291). -/
def State.opStatus (s : State) (l : Nat) (o : OpInst) : Nat :=
  let c := s.opClient l o
  if o.parked.isSome then 2
  else if (o.accs ++ o.pend.flatMap fun e => e.accs).any (s.lineWaits c) then 3
  else if (o.out.any fun e => !(s.fab l).canSend (o.output e.1)) ||
      (decide (o.kind = 12) && !((s.fab l).queue (o.input 0)).isEmpty && !o.bothFree (s.fab l)) then 4
  else if o.idle then 0
  else 1

/-- SSTAT (R291). -/
def execSstat (x : FormX) (kind : BitVec 4) (inst : BitVec 1) (s : State) : Host.Outcome State Fault Refusal :=
  s.fire x.pm fun s f =>
    match (s.opIndex f kind.toNat inst.toNat).bind fun i => nth (s.fab f.launch).ops i with
    | none => s
    | some o =>
      let st := s.opStatus f.launch o
      let pp := if st = 2 then o.pport else 0
      s.emit0 f x.pm .value (o.inw.setWidth 64 ||| (o.eosn.setWidth 64) <<< 32 ||| BitVec.ofNat 64 (st * 2 ^ 48 + pp * 2 ^ 52))

/-! Resumes (R285, R286, R376). -/

/-- A memory fault of an instance is retried at its access. -/
def State.retryOp (s : State) (l i id : Nat) : State :=
  match nth (s.fab l).ops i with
  | some o => if o.parked = some id then s.putOp l i { o with parked := none } else s
  | none => s

/-- The parked word of an instance is discarded, and it acts as on a reset on all its inputs; `atQueue` is whether the word stands
at its input still; else it is the first of those that GATHER or SCATTER has taken, and the words behind it go on (R285; log 76). -/
def State.discardOp (s : State) (l i : Nat) (o : OpInst) (protocol : Bool) : State :=
  let atQueue := protocol || !(decide (o.kind = 9 ∨ o.kind = 10))
  let in0 := atQueue && decide (o.pport = 0)
  let in1 := atQueue && decide (o.pport = 1)
  let o1 := { o with parked := none, pport := 0, pend := o.pend.drop 1, inw := if in0 then o.inw + 1 else o.inw }
  ((s.takeWords l o in0 in1).putOp l i (o1.resetAll (s.fab l))).wakeSparm l i

/-- Every instance parked at a fault discards its word. -/
def State.discardOps (s : State) (l id : Nat) (protocol : Bool) : State :=
  (countFrom 0 (s.fab l).ops.length).foldl (fun s i => match nth (s.fab l).ops i with
    | some o => if o.parked = some id then s.discardOp l i o protocol else s
    | none => s) s

end Sys2Proof.Machine
end

