-- ==== Sys2Proof/Machine/Seam.lean ====
section
/-! DEFINITION. Machine/Seam.lean: the seam network (spec 14): ports, merge contexts, the merge tree, and the seam instructions. -/

namespace Sys2Proof.Machine

/-! Units, contexts and handles (R293 to R295). -/

/-- A context of a unit. -/
def SeamUnit.ctx (u : SeamUnit) (c : Nat) : SeamCtx := getAt u.ctxs c (SeamCtx.free 0)
/-- Replaces a context. -/
def SeamUnit.setCtx (u : SeamUnit) (c : Nat) (x : SeamCtx) : SeamUnit := { u with ctxs := setAt u.ctxs c x (SeamCtx.free 0) }
/-- A port of a unit. -/
def SeamUnit.port (u : SeamUnit) (p : Nat) : SeamPort := getAt u.ports p SeamPort.blank
/-- Replaces a port. -/
def SeamUnit.setPort (u : SeamUnit) (p : Nat) (x : SeamPort) : SeamUnit := { u with ports := setAt u.ports p x SeamPort.blank }

/-- The physical unit that INST names on a panel die (R129). -/
def State.seamKey (s : State) (l die inst : Nat) : Option Nat :=
  let p := (s.launch l).panel
  match nth p.dies die, (nth p.seams die).bind fun us => look us inst with
  | some d, some u => some (d * 4 + u)
  | _, _ => none

/-- A context. -/
def State.seamCtx (s : State) (key c : Nat) : SeamCtx := (s.seam key).ctx c
/-- Replaces a context. -/
def State.putSeam (s : State) (key c : Nat) (x : SeamCtx) : State := s.onSeam key fun u => u.setCtx c x

/-- A context handle (R294). -/
def seamHandle (ctx inst die : Nat) (gen : BitVec 8) : Word := BitVec.ofNat 64 (ctx + inst * 4 + die * 16 + gen.toNat * 2 ^ 8)

/-- What a current handle names: the unit and the context. -/
def State.seamNamed (s : State) (l : Nat) (h : Word) : Option (Nat × Nat) :=
  let n := h.toNat
  if !(zeroBits h 16 63 && zeroBits h 6 7) then none
  else
    match s.seamKey l (bitsOf n 4 2) (bitsOf n 2 2) with
    | none => none
    | some key =>
      let x := s.seamCtx key (n % 4)
      if x.st ≠ .free ∧ x.gen.toNat = bitsOf n 8 8 then some (key, n % 4) else none

/-- Whose accesses a context makes: an L address is in the cluster of its SMOPEN. -/
def State.seamClient (s : State) (x : SeamCtx) : Client := s.clientOf x.firing
/-- The output and spill swatches of a context. -/
def State.seamOut (s : State) (x : SeamCtx) : Swatch := s.swatch x.firing.launch x.sw1
/-- SW2. -/
def State.seamSpill (s : State) (x : SeamCtx) : Swatch := s.swatch x.firing.launch x.sw2
/-- The group size m of a context's pattern (R299). -/
def State.seamGroup (s : State) (x : SeamCtx) : Nat := ((s.pattern x.firing.launch).map Pattern.seamGroup).getD 32

/-! The merge tree (R299). -/

/-- ceil(n / m). -/
def ceilDiv (n m : Nat) : Nat := (n + m - 1) / m

/-- The number of groups of a level. -/
def groupsAt (n m : Nat) : Nat → Nat
  | 0 => ceilDiv n m
  | l + 1 => ceilDiv (groupsAt n m l) m

/-- Whether a level is the last. -/
def SeamCtx.lastLevel (x : SeamCtx) (m : Nat) : Bool := decide (groupsAt x.n m x.level = 1)

/-- The groups of the level below that a group merges. -/
def SeamCtx.members (x : SeamCtx) (m level group : Nat) : List Nat :=
  let all := match level with
    | 0 => x.n
    | l + 1 => groupsAt x.n m l
  countFrom (group * m) (min m (all - group * m))

/-- The runs of a group: those that its merge wrote, or, with a single member, that member's. -/
def SeamCtx.runsOf (x : SeamCtx) (m : Nat) : Nat → Nat → List SeamRun
  | 0, g => x.runs.filter fun r => decide (r.level = 0 ∧ r.group = g)
  | l + 1, g =>
    match x.members m (l + 1) g with
    | [h] => x.runsOf m l h
    | _ => x.runs.filter fun r => decide (r.level = l + 1 ∧ r.group = g)

/-- The inputs of the level-0 group being merged, ascending. -/
def SeamCtx.groupInputs (x : SeamCtx) (m : Nat) : List SeamIn :=
  (x.members m 0 x.group).filterMap fun i => x.inputs.find? fun e => decide (e.idx = i)

/-- comb of R300: 0 add, 1 max, 2 min, 3 first. -/
def seamComb (op : Nat) (a v : BitVec 32) : BitVec 32 :=
  combineIn 0 (if op = 1 then 2 else if op = 2 then 1 else op) a v

/-- Folds one value into the entries of a row, which are in column order. -/
def foldEntry (op c : Nat) (v : BitVec 32) : List (Nat × BitVec 32) → List (Nat × BitVec 32)
  | [] => [(c, v)]
  | (d, a) :: es =>
    if c < d then (c, v) :: (d, a) :: es
    else if c = d then (c, seamComb op a v) :: es
    else (d, a) :: foldEntry op c v es

/-- Folds a member's entries into a row's, in member order. -/
def foldEntries (op : Nat) (acc es : List (Nat × BitVec 32)) : List (Nat × BitVec 32) :=
  es.foldl (fun acc e => foldEntry op e.1 e.2 acc) acc

/-- The entries of run bytes (Table 14.3). -/
def entriesOf (bs : List Byte) : List (Nat × BitVec 32) :=
  (chunks 8 (bs.length / 8) bs).map fun c => (leNat (c.take 4), BitVec.ofNat 32 (leNat (c.drop 4)))

/-- The smallest of a list of rows. -/
def leastRow : List Nat → Option Nat
  | [] => none
  | x :: xs => match leastRow xs with
    | none => some x
    | some y => some (if x ≤ y then x else y)

/-! Ending (R303, R304). -/

/-- STATUS (Table 14.4). -/
def SeamCtx.status (x : SeamCtx) : Nat :=
  match x.endWith with
  | none => 0
  | some .ok => if x.ovcount = 0 then 1 else 2
  | some .order => 3
  | some .spill => 4
  | some .aborted => 5

/-- The ports of an ended context: each goes on to discard the words of the inputs that have not ended (R304). -/
def SeamUnit.drain (u : SeamUnit) (x : SeamCtx) : SeamUnit :=
  (x.inputs.filter fun i => !i.ended).foldl (fun u i => u.setPort i.port { u.port i.port with discard := (u.port i.port).discard + 1 }) u

/-- The long-fibre runs of an input that are written and not counted: its rows that no merge has taken (R303, log 79). -/
def SeamIn.longRows (i : SeamIn) : Nat := i.rows.countP fun f => f.long.isSome && !f.counted

/-- The accesses of a list that are in flight: sent, and not answered. -/
def inFlight (as_ : List Acc) : List Acc := as_.filter fun a => a.tx.isSome && !a.done

/-- A context stops and begins to end: its buffers are discarded. -/
def State.stopSeam (s : State) (key c : Nat) (x : SeamCtx) (e : SeamEnd) : State :=
  s.onSeam key fun u => (u.drain x).setCtx c { x with
    st := .ending
    phase := if x.begun then .record else .first
    endWith := some e
    inputs := x.inputs.map fun i => { i with ended := true, cur := [], curLong := none, held := [], late := [], rows := [] }
    idx := 0
    accs := []
    nruns := x.nruns + (if e = .aborted then (x.inputs.map SeamIn.longRows).foldl (· + ·) 0 else 0)
    left := x.left ++ inFlight (x.accs ++ x.inputs.flatMap SeamIn.late)
    parked := none }

/-- Asks a context to end at its next row boundary. -/
def SeamCtx.stopWith (x : SeamCtx) (e : SeamEnd) : SeamCtx := if x.endWith = none then { x with endWith := some e } else x

/-- The INST by which a context's panel knows its unit (R129). -/
def State.panelInst (s : State) (x : SeamCtx) (key : Nat) : Nat :=
  let p := (s.launch x.firing.launch).panel
  ((nth p.seams (p.locate x.firing.cl).1).bind fun us => (us.find? fun e => decide (e.2 = key % 4)).map Prod.fst).getD 0

/-- A context parks at a memory fault (R305); `eng` is the input whose run it was writing (Table 18.2). -/
def State.parkSeam (s : State) (key c : Nat) (x : SeamCtx) (k : FaultKind) (d : Word) (addr eng : Nat) : State :=
  let l := x.firing.launch
  let (id, s1) := s.engineFault l k d addr { s.engineSrc x.firing 4 with ctx := c, inst := s.panelInst x key, eng := eng } false (.seam key c)
  s1.putSeam key c { x with parked := some id }

/-! Ports (R296 to R298, R304, R313). -/

/-- A word at the head of a port; `bad` is a token of the wrong class. -/
structure PortHead where
  word : SWord
  bad : Bool
  deriving DecidableEq, Repr

/-- The word that a token carries to a port (R296). -/
def Token.portWord (t : Token) : PortHead :=
  let v := t.payload.toNat
  match t.cls with
  | .value => ⟨⟨BitVec.ofNat 32 v, BitVec.ofNat 32 (v / 2 ^ 32), 0⟩, false⟩
  | .completion => ⟨⟨0, BitVec.ofNat 32 v, BitVec.ofNat 4 (v / 2 ^ 32)⟩, false⟩
  | _ => ⟨⟨0, 0, 0⟩, true⟩

/-- The circuit that delivers to a port, by its consumer endpoint. -/
def State.portCircuit (s : State) (l die inst port : Nat) : Option Nat :=
  let per := ((nth (s.launch l).panel.clusters 0).map List.length).getD 1
  ((s.fab l).circuits.find? fun c =>
    decide (bitsOf c.2 10 5 = 16 ∧ bitsOf c.2 6 4 = inst ∧ bitsOf c.2 0 6 = port ∧ c.2 / 2 ^ 15 / per = die)).map Prod.snd

/-- The word at the head of a port's queue. -/
def State.portHead (s : State) (l key die inst port : Nat) : Option PortHead :=
  match s.portCircuit l die inst port with
  | some ep => ((s.fab l).queue ep).head?.map fun w => ⟨w, false⟩
  | none => ((s.seam key).port port).queue.head?.map fun t => t.tok.portWord

/-- The head of a port's queue consumed. -/
def State.portTake (s : State) (l key die inst port : Nat) : State :=
  match s.portCircuit l die inst port with
  | some ep => s.onFab l fun b => b.take ep
  | none => s.onSeam key fun u => u.setPort port { u.port port with queue := (u.port port).queue.drop 1 }

/-- A port's queue discarded (R315); a MARK 0xF in it is one of those that the port was to discard (R304). -/
def State.dropPort (s : State) (l key die inst port : Nat) : State :=
  (countFrom 0 16).foldl (fun s _ =>
    match s.portHead l key die inst port with
    | none => s
    | some h =>
      (s.portTake l key die inst port).onSeam key fun u => u.setPort port { u.port port with
        discard := (u.port port).discard - (if h.bad = false ∧ h.word.mark = 15 then 1 else 0) }) s

/-- A context ends.  Its ports discard the words of the inputs that have not ended (R304); an SMABORT discards their queues too
(R315). -/
def State.endSeam (s : State) (key c : Nat) (x : SeamCtx) (e : SeamEnd) : State :=
  let l := x.firing.launch
  let s1 := s.stopSeam key c x e
  if e = .aborted ∧ x.aborters ≠ [] then
    (x.inputs.map SeamIn.port).eraseDups.foldl
      (fun s p => s.dropPort l key ((s.launch l).panel.locate x.firing.cl).1 (s.panelInst x key) p) s1
  else s1

/-- SEAM_TOKEN_ARRIVAL (R296, R313): a token for a seam port joins its port's queue. -/
def execSeamTokenArrival (die k : Nat) (s : State) : Host.Outcome State Fault Refusal :=
  .next (let as_ := getAt s.dieArr die []
    match (if behindSame as_ k then none else nth as_ k) with
    | none => s
    | some a =>
      match a.out.eng with
      | none => s
      | some (e, inst, p) =>
        match s.seamKey a.launch a.out.tok.tag.die.toNat inst.toNat with
        | none => s
        | some key =>
          if e ≠ 3 ∨ (s.launch a.launch).moves = false then s
          else
            let s1 := { s with dieArr := setAt s.dieArr die (dropNth as_ k) [] }
            s1.onSeam key fun u => u.setPort p.toNat { u.port p.toNat with queue := (u.port p.toNat).queue ++ [a.out] })

/-- Replaces an input of a context. -/
def SeamCtx.putIn (x : SeamCtx) (i : SeamIn) : SeamCtx := { x with inputs := x.inputs.map fun e => if e.idx = i.idx then i else e }

/-- A SEAM_ORDER error (R304): a final record for the first of a context; the row is a free value where the word does not give it.
The context ends where its merge comes to need the input, so that its status record depends on no arrival timing (log 79). -/
def State.seamOrder (s : State) (key c : Nat) (x : SeamCtx) (i : SeamIn) (code : Nat) (row : Option Nat) : State :=
  let y := { x with left := x.left ++ inFlight i.late }
  let s0 := s.putSeam key c (y.putIn { i with cur := [], curLong := none, held := [], late := [], broken := true })
  if x.inputs.any SeamIn.broken then s0
  else
    let (v, s1) := match row with
      | some r => (BitVec.ofNat 64 r, s0)
      | none => s0.freeWord
    let src := { s.engineSrc x.firing 4 with ctx := c, inst := s.panelInst x key, eng := i.idx }
    s1.newFault x.firing.launch .seamOrder (BitVec.ofNat 64 code) v src false 0 .final

/-- One 8-byte write to the spill swatch. -/
def spillAcc (w : Swatch) (off v : Nat) : Acc := .wr w.space (w.base + off) (leBytes 8 v) (some w.range)

/-- An access of the writes in progress for an input's word. -/
def State.lateStep (s : State) (key c : Nat) (x : SeamCtx) (i : SeamIn) : State :=
  match s.accsStep (s.seamClient x) i.late with
  | .moved as_ s1 => s1.putSeam key c (x.putIn { i with late := as_ })
  | .bad k d addr s1 => s1.parkSeam key c x k d addr i.idx

/-- Whether a long-fibre run is being written, whose extent is as large as it may yet become. -/
def SeamCtx.growing (x : SeamCtx) : Bool := x.inputs.any fun i => i.curLong.isSome

/-- The end of the extents taken in a run area that begins at `base`. -/
def areaEnd (base : Nat) (es : List (Nat × Nat)) : Nat := es.foldl (fun e x => max e (x.1 + x.2)) base

/-- The first gap of a size between the extents taken, and below the area's end. -/
def gapFor (size limit : Nat) : Nat → List (Nat × Nat) → Option Nat
  | base, [] => if base + size ≤ limit then some base else none
  | base, (off, n) :: es => if base + size ≤ off then some base else gapFor size limit (off + n) es

/-- Where an extent of a size lies: after all that are taken, or else in a gap between them (log 79). -/
def State.placeRun (s : State) (x : SeamCtx) (size : Nat) : Option Nat :=
  let base := 32 + 8 * x.ovcap
  let limit := (s.seamSpill x).length
  let e := areaEnd base x.taken
  if e + size ≤ limit then some e else gapFor size limit base x.taken

/-- An extent is taken. -/
def SeamCtx.take (x : SeamCtx) (off size : Nat) : SeamCtx :=
  { x with taken := x.taken.filter (fun e => decide (e.1 < off)) ++ (off, size) :: x.taken.filter fun e => decide (off < e.1) }

/-- The entries for which the extent at an offset has room. -/
def SeamCtx.roomAt (x : SeamCtx) (off : Nat) : Nat :=
  (((x.taken.find? fun e => decide (e.1 = off)).map Prod.snd).getD 16 - 16) / 8

/-- The place of a long-fibre run whose 1,025th word has arrived: an extent for all the columns that may follow, or for as many as the
end of the area has room for (log 79). -/
def State.longPlace (s : State) (x : SeamCtx) : Option (Nat × Nat) :=
  let sw := s.seamSpill x
  let full := 16 + 8 * ((s.seamOut x).cols - 1024)
  match s.placeRun x full with
  | some off => some (off, full)
  | none =>
    let e := areaEnd (32 + 8 * x.ovcap) x.taken
    if e + 24 ≤ sw.length then some (e, 16 + 8 * ((sw.length - e - 16) / 8)) else none

/-- The entry of a word that the extent at `off` with `len` entries takes next: its write is begun, goes on, or is done. -/
def State.longEntry (s : State) (key c : Nat) (x : SeamCtx) (i : SeamIn) (off len col : Nat) (v : BitVec 32) (done : State) : State :=
  if i.late = [] then
    s.putSeam key c (x.putIn { i with late := [spillAcc (s.seamSpill x) (off + 16 + 8 * len) (col + v.toNat * 2 ^ 32)] })
  else if allDone i.late then done
  else s.lateStep key c x i

/-- The words held beyond the fibre buffer (R298): an extent is reserved for them at `place`, or the oldest is written; `stuck` is
what happens where neither can be. -/
def State.longHeld (s : State) (key c : Nat) (x : SeamCtx) (i : SeamIn) (place : Option (Nat × Nat)) (stuck : State) : State :=
  match i.curLong, i.held with
  | none, _ =>
    match place with
    | none => stuck
    | some (off, size) => s.putSeam key c ((x.putIn { i with curLong := some (off, 0) }).take off size)
  | some (off, len), (col, v) :: ws =>
    if x.roomAt off ≤ len then stuck
    else s.longEntry key c x i off len col v (s.putSeam key c (x.putIn { i with curLong := some (off, len + 1), held := ws, late := [] }))
  | some _, [] => stuck

/-- A data word beyond the 1,024th of its row (R298).  At the first an extent of the run area is reserved, and each entry is written as
its word arrives.  While there is no place, words are held, and written once there is one (log 79).  Nothing is written before ptr[0]
(R301). -/
def State.longWord (s : State) (l key die inst c : Nat) (x : SeamCtx) (i : SeamIn) (w : SWord) : State :=
  let take := s.portTake l key die inst i.port
  let col := w.coord.toNat
  let hold := take.putSeam key c (x.putIn { i with held := i.held ++ [(col, w.value)], lastCol := col + 1 })
  if x.begun = false then s
  else
    match i.curLong, i.held with
    | some (off, len), [] =>
      if x.roomAt off ≤ len then hold
      else s.longEntry key c x i off len col w.value
        (take.putSeam key c (x.putIn { i with curLong := some (off, len + 1), late := [], lastCol := col + 1 }))
    | _, _ => s.longHeld key c x i (s.longPlace x) hold

/-- The header of a run (Table 14.3). -/
def runHeader (sw : Swatch) (off len row level group : Nat) : List Acc :=
  [spillAcc sw off (len * 2 ^ 32 + row), spillAcc sw (off + 8) (level * 2 ^ 16 + group)]

/-- A row closed at an input: what is held of it is written, then its long-fibre run's header, and the run keeps no more of its extent
than it needs (R298). -/
def State.closeRow (s : State) (l key die inst c : Nat) (x : SeamCtx) (i : SeamIn) (r : Nat) : State :=
  let shut := (s.portTake l key die inst i.port).putSeam key c
    ((i.curLong.map fun e => x.take e.1 (16 + 8 * e.2)).getD x |>.putIn { i with
      cur := [], curLong := none, held := [], late := [], lastCol := 0, lastRow := r + 1
      rows := i.rows ++ [⟨r, i.cur, i.curLong, i.held, false⟩] })
  let header := match i.curLong with
    | none => shut
    | some (off, len) =>
      if i.late = [] then s.putSeam key c (x.putIn { i with late := runHeader (s.seamSpill x) off len r 0xFF i.idx })
      else if allDone i.late then shut
      else s.lateStep key c x i
  let size := 16 + 8 * i.held.length
  if i.held = [] then header else s.longHeld key c x i ((s.placeRun x size).map fun off => (off, size)) header

/-- Data words in an input's fibre buffer. -/
def SeamIn.buffered (i : SeamIn) : Nat := i.cur.length + (i.rows.map fun r => r.entries.length).foldl (· + ·) 0

/-- A word consumed by an input of a context (R297, R298, R304).  While the context is parked, the input stalls at 1,024 buffered words
and at a word that needs the run area (R305). -/
def State.inputWord (s : State) (l key die inst c : Nat) (x : SeamCtx) (i : SeamIn) (h : PortHead) : State :=
  let w := h.word
  let out := s.seamOut x
  let m := w.mark.toNat
  let bad := fun (code : Nat) (row : Option Nat) (i : SeamIn) => (s.portTake l key die inst i.port).seamOrder key c x i code row
  if i.broken then
    (s.portTake l key die inst i.port).putSeam key c (x.putIn { i with ended := !h.bad && decide (m = 15) })
  else if h.bad then bad 5 none i
  else if m = 0 then
    if w.coord.toNat < i.lastCol then bad 2 none i
    else if out.cols ≤ w.coord.toNat then bad 3 none i
    else if i.cur.length < 1024 then
      if x.parked.isSome ∧ 1024 ≤ i.buffered then s
      else
        (s.portTake l key die inst i.port).putSeam key c
          (x.putIn { i with cur := i.cur ++ [(w.coord.toNat, w.value)], lastCol := w.coord.toNat + 1 })
    else if x.parked.isSome then s
    else s.longWord l key die inst c x i w
  else if m ≤ 4 then
    let r := w.coord.toNat
    if r < i.lastRow then bad 1 (some r) i
    else if out.rows ≤ r then bad 3 (some r) i
    else if i.curLong.isSome && x.parked.isSome then s
    else s.closeRow l key die inst c x i r
  else if m = 15 then
    if i.cur ≠ [] then bad 6 none { i with ended := true }
    else (s.portTake l key die inst i.port).putSeam key c (x.putIn { i with ended := true })
  else bad 4 none i

/-- The input bound to a port, in the group being merged, that takes the port's words, with its context. -/
def State.portInput (s : State) (key port : Nat) : Option (Nat × SeamCtx × SeamIn) :=
  (countFrom 0 4).findSome? fun c =>
    let x := s.seamCtx key c
    if x.st = .merging ∧ x.level = 0 ∧ x.endWith = none then
      ((x.groupInputs (s.seamGroup x)).find? fun i => decide (i.port = port) && !i.ended).map fun i => (c, x, i)
    else none

/-- SEAM_PORT_WORD (R293, R298, R304, R313): a port discards for an ended context, or delivers one word to the input of the group
being merged that is bound to it.  In a halt, the writes of the word at its head are completed, and no other is begun (Table 18.3). -/
def execSeamPortWord (l unit port : Nat) (s : State) : Host.Outcome State Fault Refusal :=
  .next (let die := unit / 4
    let inst := unit % 4
    match s.seamKey l die inst with
    | none => s
    | some key =>
      if !(s.launch l).engines then s
      else if (s.launch l).halting then
        match s.portInput key port with
        | some (c, x, i) => if x.parked.isSome || allDone i.late then s else s.lateStep key c x i
        | none => s
      else
        match s.portHead l key die inst port with
        | none => s
        | some h =>
          let q := (s.seam key).port port
          if q.discard ≠ 0 then
            let past := !h.bad && decide (h.word.mark = 15)
            (s.portTake l key die inst port).onSeam key fun u =>
              u.setPort port { u.port port with discard := if past then q.discard - 1 else q.discard }
          else
            match s.portInput key port with
            | none => s
            | some (c, x, i) => s.inputWord l key die inst c x i h)

/-! Merging (R300 to R302). -/

/-- An item of a phase: its accesses, the end of the phase, or a write that does not fit (R303). -/
inductive SeamItem where
  | accs (as_ : List Acc)
  | past
  | spill
  deriving DecidableEq, Repr

/-- The next item that a context writes. -/
def State.seamItem (s : State) (x : SeamCtx) : SeamItem :=
  let out := s.seamOut x
  let sw := s.seamSpill x
  let ptr := fun (j v : Nat) => SeamItem.accs (out.puts32 (4 * j) v)
  match x.phase with
  | .opening => if x.idx < 4 then .accs [spillAcc sw (8 * x.idx) 0] else .past
  | .first => if x.idx = 0 then ptr 0 0 else .past
  | .entries =>
    match nth x.ents x.idx with
    | none => .past
    | some (c, v) =>
      let e := x.entries + x.idx
      let raw := if out.elem = 4 then (roundVal bf16 .rne (fp32.decode v.toNat)).1 else v.toNat
      if e < out.csrCap then
        .accs (out.puts32 (out.coordOff + 4 * e) c ++
          out.elemTo (out.valueOff + out.valueBytes * e) (leBytes out.valueBytes raw))
      else if e - out.csrCap < x.ovcap then .accs [spillAcc sw (32 + 8 * (e - out.csrCap)) (c + raw * 2 ^ 32)]
      else .spill
  | .pointers =>
    if x.ptr ≤ x.row then ptr x.ptr x.entries
    else if x.ptr = x.row + 1 then ptr x.ptr (x.entries + x.ents.length)
    else .past
  | .run =>
    let n := x.ents.length
    if x.runAt = 0 then .past
    else if x.idx = 0 then .accs (runHeader sw x.runAt n x.row x.level x.group)
    else
      match nth x.ents (x.idx - 1) with
      | some (c, v) => .accs [spillAcc sw (x.runAt + 8 + 8 * x.idx) (c + v.toNat * 2 ^ 32)]
      | none => .past
  | .trailing => if x.ptr ≤ out.rows then ptr x.ptr x.entries else .past
  | .record =>
    match x.idx with
    | 0 => .accs [spillAcc sw 0 (x.rowsDone * 2 ^ 32 + x.status)]
    | 1 => .accs [spillAcc sw 8 x.entries]
    | 2 => .accs [spillAcc sw 16 (x.nruns * 2 ^ 32 + x.ovcount)]
    | 3 => .accs [spillAcc sw 24 x.used]
    | _ => .past
  | .reading | .boundary | .add => .past

/-- Counts entries written: those past CAP are in the overflow segment, and the partition's meter counts all (R301). -/
def State.countEntries (s : State) (key : Nat) (x : SeamCtx) (n : Nat) : SeamCtx × State :=
  ({ x with entries := x.entries + n, ovcount := x.entries + n - (s.seamOut x).csrCap }, s.meter x.firing.launch (key / 4) 16 n)

/-- The members' rows at level 0, once every member that has not ended has one ready (R300). -/
def readyRows (is : List SeamIn) : Option (List Nat) :=
  if is.all fun i => !i.rows.isEmpty || i.ended then some (is.filterMap fun i => i.rows.head?.map FibreRow.row) else none

/-- The reads of a run's entries. -/
def runReads (w : Swatch) (off len : Nat) : List Acc := readsAt w.space (some w.range) (w.base + off + 16) (8 * len)

/-- The first group at or after a group of its level that has more than one member; the last level's only group always counts. -/
def SeamCtx.nextGroup (x : SeamCtx) (m level : Nat) : Nat → Nat → Option Nat
  | 0, _ => none
  | n + 1, g =>
    if groupsAt x.n m level ≤ g then none
    else if level = 0 ∨ groupsAt x.n m level = 1 ∨ 1 < (x.members m level g).length then some g
    else x.nextGroup m level n (g + 1)

/-- A group has finished: the next of its level, the next level, or the end of the merge (R299). -/
def SeamCtx.groupDone (x : SeamCtx) (m : Nat) : SeamCtx :=
  match x.nextGroup m x.level x.n (x.group + 1) with
  | some g => { x with group := g, mrow := 0 }
  | none =>
    if x.lastLevel m then { x with phase := .trailing, ptr := x.rowsDone + 1, idx := 0 }
    else { x with level := x.level + 1, used := x.used + 1, mrow := 0, group := (x.nextGroup m (x.level + 1) x.n 0).getD 0 }

/-- The level-0 members' rows of a number. -/
def SeamCtx.rowsAt (x : SeamCtx) (m r : Nat) : List (SeamIn × FibreRow) :=
  (x.groupInputs m).filterMap fun i => (i.rows.head?.filter fun f => decide (f.row = r)).map fun f => (i, f)

/-- The data words of a row beyond the fibre buffer. -/
def FibreRow.beyond (f : FibreRow) : Nat := (f.long.map Prod.snd).getD 0 + f.held.length

/-- The runs of merged rows are charged in merge order, whatever the order in which extents were taken: SPILL depends on nothing else
(R303, R304, log 79). -/
def SeamCtx.charge (x : SeamCtx) (ns : List Nat) : SeamCtx :=
  { x with charged := ns.foldl (fun a n => a + 16 + 8 * n) x.charged }

/-- A level-0 row begins: its long-fibre runs are charged and counted, and read. -/
def State.beginFibres (s : State) (x : SeamCtx) (r : Nat) : SeamCtx :=
  let sw := s.seamSpill x
  let at_ := x.rowsAt (s.seamGroup x) r
  let ns := (at_.map fun p => p.2.beyond).filter fun n => decide (n ≠ 0)
  let y := x.charge ns
  if sw.length < y.charged then { x with endWith := some .spill }
  else
    { at_.foldl (fun y p => y.putIn { p.1 with rows := { p.2 with counted := true } :: p.1.rows.drop 1 }) y with
      phase := .reading
      row := r
      nruns := y.nruns + ns.length
      accs := at_.flatMap fun p => match p.2.long with
        | some (off, len) => runReads sw off len
        | none => [] }

/-- Whether a run of the row that the members hold has a place, however few columns they share. -/
def State.runFits (s : State) (x : SeamCtx) (r : Nat) : Bool :=
  let n := (((x.rowsAt (s.seamGroup x) r).map fun p => p.2.entries.length + p.2.beyond).foldl (· + ·) 0)
  (s.placeRun x (16 + 8 * n)).isSome

/-- A row begins (R300): its members' buffered entries are known, and those of runs are read.  At level 0 an input that has broken its
order and has no row left ends the merge, and a row whose run has no place waits for the long-fibre runs that are growing. -/
def State.beginRow (s : State) (x : SeamCtx) : SeamCtx :=
  let m := s.seamGroup x
  let sw := s.seamSpill x
  if x.level = 0 then
    let is := x.groupInputs m
    if is.any fun i => i.broken && decide (i.rows = []) then { x with endWith := some .order }
    else
      match readyRows is with
      | none => x
      | some rows =>
        match leastRow rows with
        | none => x.groupDone m
        | some r => if x.growing && !x.lastLevel m && !s.runFits x r then x else s.beginFibres x r
  else
    let runs := (x.members m x.level x.group).flatMap fun h => x.runsOf m (x.level - 1) h
    match leastRow ((runs.filter fun r => decide (x.mrow ≤ r.row)).map SeamRun.row) with
    | none => x.groupDone m
    | some r =>
      { x with phase := .reading, row := r
               accs := (runs.filter fun q => decide (q.row = r ∧ q.kept = [])).flatMap fun q => runReads sw q.off q.len }

/-- The entries of the runs that hold a row, in member order: those read, or those kept. -/
def mergeRuns (op : Nat) : List SeamRun → List (Nat × BitVec 32) → List (Nat × BitVec 32) → List (Nat × BitVec 32)
  | [], _, acc => acc
  | q :: qs, got, acc =>
    if q.kept = [] then mergeRuns op qs (got.drop q.len) (foldEntries op acc (got.take q.len))
    else mergeRuns op qs got (foldEntries op acc q.kept)

/-- The entries read for each long run, taken off in member order. -/
def mergeInputs (op r : Nat) : List SeamIn → List (Nat × BitVec 32) → List (Nat × BitVec 32) → List (Nat × BitVec 32)
  | [], _, acc => acc
  | i :: is, got, acc =>
    match i.rows.head? with
    | some f =>
      if f.row = r then
        let n := (f.long.map Prod.snd).getD 0
        mergeInputs op r is (got.drop n) (foldEntries op acc (f.entries ++ got.take n ++ f.held))
      else mergeInputs op r is got acc
    | none => mergeInputs op r is got acc

/-- The members' entries of a row are merged (R300), and the row is released. -/
def State.mergeRow (s : State) (x : SeamCtx) : SeamCtx :=
  let m := s.seamGroup x
  let got := entriesOf (gotOf x.accs)
  let is := x.groupInputs m
  let runs := (x.members m x.level x.group).flatMap fun h => x.runsOf m (x.level - 1) h
  let ents := if x.level = 0 then mergeInputs x.op x.row is got []
    else mergeRuns x.op (runs.filter fun q => decide (q.row = x.row)) got []
  let release := fun (i : SeamIn) =>
    if is.any (fun j => decide (j.idx = i.idx)) && decide (i.rows.head?.map FibreRow.row = some x.row) then
      { i with rows := i.rows.drop 1 }
    else i
  let x1 := { x with
    accs := [], ents := ents, idx := 0, ptr := x.rowsDone + 1, mrow := x.row + 1
    inputs := if x.level = 0 then x.inputs.map release else x.inputs }
  if x.lastLevel m then { x1 with phase := .entries }
  else if ents = [] then { x1 with phase := .boundary }
  else
    let y := x1.charge [ents.length]
    if (s.seamSpill x).length < y.charged then { x1 with phase := .boundary, ents := [] }.stopWith .spill
    else
      match s.placeRun y (16 + 8 * ents.length) with
      | some off => { y.take off (16 + 8 * ents.length) with phase := .run, runAt := off }
      | none => { y with phase := .run, runAt := 0 }

/-- A phase is over: what the context does next. -/
def State.phaseOver (s : State) (key c : Nat) (x : SeamCtx) : State :=
  match x.phase with
  | .opening =>
    let die := ((s.launch x.firing.launch).panel.locate x.firing.cl).1
    let y := { x with phase := .boundary, idx := 0 }
    let s1 := match x.endWith with
      | some e => s.endSeam key c y e
      | none => s.putSeam key c y
    s1.engineReply x.firing false .value (seamHandle c (s.panelInst x key) die x.gen)
  | .first => s.putSeam key c { x with phase := if x.st = .ending then .record else .boundary, idx := 0, begun := true }
  | .reading => s.putSeam key c (s.mergeRow x)
  | .entries => s.putSeam key c { x with phase := .pointers, idx := 0 }
  | .pointers =>
    let (x1, s1) := s.countEntries key x x.ents.length
    s1.putSeam key c { x1 with phase := .boundary, rowsDone := x.row + 1, ents := [] }
  | .run =>
    s.putSeam key c { x with
      phase := .boundary, idx := 0, ents := [], nruns := x.nruns + 1
      runs := x.runs ++ [⟨x.level, x.group, x.row, x.runAt, x.ents.length, if x.runAt = 0 then x.ents else []⟩] }
  | .trailing => s.endSeam key c { x with rowsDone := (s.seamOut x).rows } (x.endWith.getD .ok)
  | .record => s.putSeam key c { x with phase := .add, idx := 0 }
  | .boundary =>
    if x.st = .merging then
      match x.endWith with
      | some e => s.endSeam key c x e
      | none => if x.begun then s.putSeam key c (s.beginRow x) else s.putSeam key c { x with phase := .first, idx := 0 }
    else s
  | .add => s

/-- One act of a context: an access of the item in progress, the next item, or the next phase. -/
def State.seamStep (s : State) (key c : Nat) (x : SeamCtx) : State :=
  if !allDone x.accs then
    match s.accsStep (s.seamClient x) x.accs with
    | .moved as_ s1 => s1.putSeam key c { x with accs := as_ }
    | .bad k d addr s1 => s1.parkSeam key c x k d addr 0
  else if x.accs ≠ [] ∧ x.phase ≠ .reading then
    s.putSeam key c { x with
      accs := []
      idx := x.idx + 1
      ptr := if x.phase = .pointers ∨ x.phase = .trailing then x.ptr + 1 else x.ptr }
  else
    match s.seamItem x with
    | .accs as_ => s.putSeam key c { x with accs := as_ }
    | .past => s.phaseOver key c x
    | .spill =>
      let n := if x.phase = .entries then x.idx else 0
      let (x1, s1) := s.countEntries key x n
      s1.endSeam key c x1 .spill

/-- The context of an event, if it may act: under way, not parked, and not stopped by a freeze between rows (R316). -/
def State.seamActive (s : State) (l unit ctx : Nat) : Option (Nat × SeamCtx) :=
  match s.seamKey l (unit / 4) (unit % 4) with
  | none => none
  | some key =>
    let x := s.seamCtx key ctx
    if x.st = .free ∨ x.parked ≠ none ∨ (s.launch l).engines = false then none
    else if x.phase = .boundary ∧ (s.launch l).halting = true then none
    else some (key, x)

/-- SEAM_MERGE_ROW (R299 to R302, R310, R316): a context that is opening or merging does the next thing it can. -/
def execSeamMergeRow (l unit ctx : Nat) (s : State) : Host.Outcome State Fault Refusal :=
  .next (match s.seamActive l unit ctx with
    | none => s
    | some (key, x) => if x.st = .ending then s else s.seamStep key ctx x)

/-- The end of a context (R303): its completion add, a release, then Free, and the done tokens of its SMABORTs (R315). -/
def State.seamAdd (s : State) (key c : Nat) (x : SeamCtx) : State :=
  let l := x.firing.launch
  let (r, s1) := s.engineAdd (key / 4) (some l) (s.launch l).part x.knot x.add
  let s2 := (s1.addFault (some l) r x.knot { s.engineSrc x.firing 4 with ctx := c, inst := s.panelInst x key }).putSeam key c
    (SeamCtx.free x.gen)
  x.aborters.foldl (fun s f => s.engineReply f false .completion 0) s2

/-- SEAM_CONTEXT_END (R303, R306): a context that is ending writes its status record, then makes its completion add and is Free. -/
def execSeamContextEnd (l unit ctx : Nat) (s : State) : Host.Outcome State Fault Refusal :=
  .next (match s.seamActive l unit ctx with
    | none => s
    | some (key, x) =>
      if x.st ≠ .ending then s
      else if !allDone x.left then
        match s.accsStep (s.seamClient x) x.left with
        | .moved as_ s1 => s1.putSeam key ctx { x with left := as_ }
        | .bad _ _ addr s1 => s1.putSeam key ctx { x with left := x.left.filter fun a => decide (a.addr ≠ addr) }
      else if x.phase = .add then s.seamAdd key ctx x
      else s.seamStep key ctx x)

/-! The instructions (R308 to R315). -/

/-- SMOPEN (R310): `inst` and `ctx` are FN's. -/
def execSmopen (x : FormE) (inst ctx : BitVec 2) (s : State) : Host.Outcome State Fault Refusal :=
  s.fireHeld x.pm fun s f =>
    let cfg := s.opEA f x
    let n := bitsOf cfg.toNat 0 13
    let ovcap := (s.opEB f x).toNat % 2 ^ 32
    let die := ((s.launch f.launch).panel.locate f.cl).1
    if n = 0 ∨ 4096 < n ∨ !(zeroBits cfg 13 15 && zeroBits cfg 18 63) ∨ (s.sw2 f x).length < 32 + 8 * ovcap then s.trap f 0x0501
    else
      match s.seamKey f.launch die inst.toNat with
      | none => s.trap f 0x0501
      | some key =>
        let old := s.seamCtx key ctx.toNat
        let h := f.knotOf x
        if old.st ≠ .free then s.trap f 0x0502
        else if badHandle h then s.faultFiring f .knotHandle h 0
        else
          s.putSeam key ctx.toNat { SeamCtx.free (old.gen + 1) with
            st := .binding, firing := f, n := n, op := bitsOf cfg.toNat 16 2, sw1 := x.sw1.toNat, sw2 := x.sw2.toNat
            ovcap := ovcap, knot := h, add := s.addOf f x
            charged := 32 + 8 * ovcap, phase := .opening }

/-- Whether a port is held against a binding of input k (R309, 0x0504). -/
def SeamUnit.portHeld (u : SeamUnit) (c m k p : Nat) : Bool :=
  decide ((u.port p).discard ≠ 0) ||
    (u.ctxs.any fun e => decide (e.1 ≠ c ∧ e.2.st ≠ .free) && e.2.inputs.any fun i => decide (i.port = p)) ||
    (u.ctx c).inputs.any fun i => decide (i.port = p ∧ i.idx / m = k / m)

/-- SMFEED (R311). -/
def execSmfeed (x : FormE) (s : State) : Host.Outcome State Fault Refusal :=
  s.fireHeld x.pm fun s f =>
    match s.seamNamed f.launch (s.opEA f x) with
    | none => s.trap f 0x0503
    | some (key, c) =>
      let y := s.seamCtx key c
      let w := (s.opEB f x).toNat
      let k := bitsOf w 0 12
      let p := bitsOf w 16 5
      if y.st ≠ .binding then s.trap f 0x0505
      else if y.n ≤ k ∨ (y.inputs.any fun i => decide (i.idx = k)) ∨ (s.seam key).portHeld c (s.seamGroup y) k p then s.trap f 0x0504
      else (s.putSeam key c { y with inputs := y.inputs ++ [SeamIn.bind k p] }).engineReply f false .completion 0

/-- SMCLOSE (R312). -/
def execSmclose (x : FormE) (s : State) : Host.Outcome State Fault Refusal :=
  s.fireHeld x.pm fun s f =>
    match s.seamNamed f.launch (s.opEA f x) with
    | none => s.trap f 0x0503
    | some (key, c) =>
      let y := s.seamCtx key c
      if y.st ≠ .binding ∨ y.inputs.length < y.n then s.trap f 0x0505
      else (s.putSeam key c { y with st := .merging, used := 1 }).engineReply f false .completion 0

/-- The status word of a context (R314). -/
def SeamCtx.statWord (x : SeamCtx) : Word :=
  let st := match x.st with
    | .free => 0
    | .binding => 1
    | .merging => 2
    | .ending => 4
  BitVec.ofNat 64 (x.entries % 2 ^ 32 + x.nruns % 2 ^ 12 * 2 ^ 32 + x.level % 16 * 2 ^ 44 +
    (if x.parked.isSome then 3 else st) * 2 ^ 48 + x.group % 2 ^ 12 * 2 ^ 52)

/-- SMSTAT (R314): 0 for a handle that is not current. -/
def execSmstat (x : FormE) (s : State) : Host.Outcome State Fault Refusal :=
  s.fire x.pm fun s f =>
    match s.seamNamed f.launch (s.opEA f x) with
    | none => s.engineReply f false .value 0
    | some (key, c) => s.engineReply f false .value (s.seamCtx key c).statWord

/-- The record of a parked access that an abort discards. -/
def State.discardRecord (s : State) (l id : Nat) : State :=
  let up := fun (r : FaultRec) => if r.id = id ∧ r.state = .parked ∧ r.parked ≤ 1 then { r with state := .discarded } else r
  s.onLaunch l fun y => { y with faults := y.faults.map up }

/-- The parked access of a context that is ending, discarded: the status record, or what came before it, is left out. -/
def SeamCtx.skipParked (x : SeamCtx) : SeamCtx :=
  { x with parked := none, phase := if x.phase = .record then .add else .record, idx := 0, accs := [], left := x.left ++ inFlight x.accs }

/-- SMABORT (R315): at the next row boundary, or at once in Binding or while parked; done follows the completion add.  An SMOPEN that
has not finished finishes first: its handle is emitted. -/
def execSmabort (x : FormE) (s : State) : Host.Outcome State Fault Refusal :=
  s.fireHeld x.pm fun s f =>
    match s.seamNamed f.launch (s.opEA f x) with
    | none => s.engineReply f false .completion 0
    | some (key, c) =>
      let y := s.seamCtx key c
      let y1 := { y with aborters := y.aborters ++ [f] }
      match y.parked with
      | some id =>
        let s1 := s.discardRecord f.launch id
        if y.st = .ending then s1.putSeam key c y1.skipParked
        else if y.phase = .opening then s1.phaseOver key c { y1 with parked := none, accs := [], left := inFlight y.accs, endWith := some .aborted }
        else s1.endSeam key c y1 .aborted
      | none =>
        if y.st = .ending then s.putSeam key c y1
        else if y.phase = .boundary then s.endSeam key c y1 .aborted
        else s.putSeam key c (y1.stopWith .aborted)

/-! Resumes (R305, R376). -/

/-- A context parked at a fault is retried: a row of the output, or a run, is written again in full. -/
def SeamCtx.retry (x : SeamCtx) (id : Nat) : SeamCtx :=
  if x.parked ≠ some id then x
  else
    let y := { x with parked := none }
    match x.phase with
    | .entries | .pointers =>
      { y with phase := .entries, idx := 0, ptr := x.rowsDone + 1, accs := [], left := x.left ++ inFlight x.accs }
    | .run => { y with idx := 0, accs := [], left := x.left ++ inFlight x.accs }
    | _ => y

/-- A context parked at a fault is ended with ABORTED by a discard; a status record that could not be written is left out. -/
def State.discardSeam (s : State) (key c id : Nat) : State :=
  let x := s.seamCtx key c
  if x.parked ≠ some id then s
  else if x.st = .ending then s.putSeam key c { x.skipParked with endWith := some .aborted }
  else s.endSeam key c x .aborted

end Sys2Proof.Machine
end

