-- ==== Sys2Proof/Machine/Unmask.lean ====
section
/-! DEFINITION. Machine/Unmask.lean: the unmask engines (spec 15): contexts, their commands and the unmask instructions. -/

namespace Sys2Proof.Machine

/-! Contexts (R317 to R319). -/

/-- A context of an engine. -/
def UmEngine.ctx (e : UmEngine) (c : Nat) : UmCtx := getAt e.ctxs c UmCtx.blank
/-- Replaces a context. -/
def UmEngine.setCtx (e : UmEngine) (c : Nat) (x : UmCtx) : UmEngine := { e with ctxs := setAt e.ctxs c x UmCtx.blank }
/-- A context of a die's engine. -/
def State.umCtx (s : State) (d c : Nat) : UmCtx := (s.um d).ctx c
/-- Replaces a context. -/
def State.putUm (s : State) (d c : Nat) (x : UmCtx) : State := s.onUm d fun e => e.setCtx c x

/-- B, the blocks of a context. -/
def UmCtx.blocks (x : UmCtx) : Nat := ceilDiv x.len 16
/-- WB, the dirty words of a layer. -/
def UmCtx.dirtyWords (x : UmCtx) : Nat := ceilDiv x.blocks 64
/-- T, the offset of the tap table. -/
def UmCtx.taps (x : UmCtx) : Nat := 0x1000 + 128 * x.blocks
/-- D, the offset of the stored dirty bits. -/
def UmCtx.dirty (x : UmCtx) : Nat := x.taps + 64 * x.layers * x.blocks
/-- The bytes that the table needs. -/
def UmCtx.tableBytes (x : UmCtx) : Nat := x.dirty + 8 * x.layers * x.dirtyWords
/-- A context freed: its GEN is left as it is. -/
def UmCtx.freed (x : UmCtx) : UmCtx := { UmCtx.blank with gen := x.gen }

/-- A context handle (R317). -/
def umHandle (c die : Nat) (gen : BitVec 8) : Word := BitVec.ofNat 64 (c + die * 2 ^ 8 + gen.toNat * 2 ^ 16)

/-- What a current handle names: the physical die and the context. -/
def State.umNamed (s : State) (l : Nat) (h : Word) : Option (Nat × Nat) :=
  if !(zeroBits h 10 15 && zeroBits h 24 63) then none
  else
    match nth (s.launch l).panel.dies (bitsOf h.toNat 8 2) with
    | none => none
    | some d =>
      let c := bitsOf h.toNat 0 8
      let x := s.umCtx d c
      if x.holder = some l ∧ x.gen.toNat = bitsOf h.toNat 16 8 then some (d, c) else none

/-- A command of a firing, not yet begun. -/
def UmCmd.ofFiring (f : Firing) : UmCmd := ⟨f, none, f.cl * 16 + f.st, false, 0, 0, [], [], [], [], 0, false, none, none⟩
/-- A command that a token is. -/
def UmCmd.ofToken (f : Firing) (t : OutTok) (src : Nat) : UmCmd := ⟨f, some t, src, false, 0, 0, [], [], [], [], 0, false, none, none⟩

/-- A firing that stands for a launch's token. -/
def tokenFiring (l : Nat) (t : Token) : Firing := { Firing.blank with launch := l, tag := t.tag, phase := t.phase }

/-- Whose accesses a command makes. -/
def State.umClient (s : State) (c : UmCmd) : Client := s.clientOf c.firing

/-- The source fields of a command's fault. -/
def State.umSrc (s : State) (ctx : Nat) (c : UmCmd) : FaultSrc :=
  match c.tok with
  | none => { s.engineSrc c.firing 5 with ctx := ctx }
  | some t => ⟨5, t.tok.tag.die.toNat, 0x7FF, 0xFF, t.tok.phase, (s.launch c.firing.launch).stage, some t.tok.tag, 0, ctx, 0, 0⟩

/-! The queue of a context (R320). -/

/-- Replaces the command being performed. -/
def State.putCmd (s : State) (d c : Nat) (x : UmCtx) (q : UmCmd) : State := s.putUm d c { x with queue := q :: x.queue.drop 1 }

/-- The command being performed is over. -/
def State.dropCmd (s : State) (d c : Nat) : State :=
  let x := s.umCtx d c
  s.putUm d c { x with queue := x.queue.drop 1 }

/-- A token at unmask.in faults, and is the parked operation (R325). -/
def State.strayToken (s : State) (d ctx code : Nat) (a : Arrival) : State :=
  let src := s.umSrc ctx (UmCmd.ofToken (tokenFiring a.launch a.out.tok) a.out 0)
  (s.newFault a.launch .trap (BitVec.ofNat 64 code) 0 src false 1 .parked).onUm d fun e =>
    { e with strays := e.strays ++ [(s.serial, a)] }

/-- A command that a condition of Table 15.2 stops: it leaves the engine and its firing parks (R322). -/
def State.umTrap (s : State) (d ctx code : Nat) (q : UmCmd) : State :=
  match q.tok with
  | none => s.trap q.firing code
  | some t => s.strayToken d ctx code ⟨q.firing.launch, t, some q.src, s.nCycle, 4⟩

/-- The command being performed is stopped. -/
def State.stopCmd (s : State) (d c code : Nat) (q : UmCmd) : State := (s.dropCmd d c).umTrap d c code q

/-- Whether a command is a UMQRY. -/
def UmCmd.query (q : UmCmd) : Bool :=
  decide (q.tok = none) && (match decode q.firing.word with
    | .ok (.umqryInfo _) => true
    | .ok (.umqryMask _) => true
    | .ok (.umqryDirty _) => true
    | .ok (.umqryRound _) => true
    | _ => false)

/-- A command that finds its handle not current: a query gives 0, any other faults (R322, R330). -/
def State.umStale (s : State) (d c : Nat) (q : UmCmd) : State :=
  if q.query then s.engineReply q.firing false .value 0 else s.umTrap d c 0x0602 q

/-- A context returns to Free: what still waits there finds its handle no longer current (R324). -/
def State.freeCtx (s : State) (d c : Nat) (x : UmCtx) : State :=
  x.queue.foldl (fun s q => s.umStale d c q) (s.putUm d c x.freed)

/-- A command has been performed: its token leaves on o0. -/
def State.umDone (s : State) (d c : Nat) (q : UmCmd) (cls : TokClass) (v : Word) : State :=
  (s.dropCmd d c).engineReply q.firing false cls v

/-- A completion add of a command (R321): whether it was made. -/
def State.umAdd (s : State) (d c : Nat) (q : UmCmd) (h : Word) (amount : Nat) : Bool × State :=
  let l := q.firing.launch
  let (r, s1) := s.engineAdd d (some l) (s.launch l).part h amount
  (decide (r.kind = none), s1.addFault (some l) r h (s.umSrc c q))

/-! The commands, one act at a time: each function is entered with the accesses in progress done. -/

/-- Writes of bytes through a swatch. -/
def Swatch.writesTo (w : Swatch) (off : Nat) (bs : List Byte) : List Acc := writesAt w.space (some w.range) (w.base + off) bs

/-- The context that a table header describes, if it keeps Table 15.1 (R318, R324). -/
def headerCtx (x : UmCtx) (hd : List Byte) (len1 len2 : Nat) : Option UmCtx :=
  let w := fun (i n : Nat) => leNat ((hd.drop i).take n)
  let n0 := w 0 8
  let n1 := w 8 8
  let n2 := w 16 8
  let len := bitsOf n0 0 16
  let nl := bitsOf n0 16 8
  let maxc := if bitsOf n1 48 16 = 0 then 32768 else bitsOf n1 48 16
  let minc := bitsOf n1 32 16
  let y := { x with
    len := len, layers := nl, maxc := maxc, minc := minc, k := bitsOf n1 16 16, f := bitsOf n1 0 16
    theta := BitVec.ofNat 32 n2
    thetas := (countFrom 0 128).map fun l => (l, BitVec.ofNat 32 (w (64 + 4 * l) 4)) }
  if n0 / 2 ^ 24 = 0 ∧ n2 / 2 ^ 32 = 0 ∧ (((hd.drop 24).take 40).all fun b => decide (b = 0)) = true ∧ 1 ≤ len ∧ len ≤ 32768 ∧
      1 ≤ nl ∧ nl ≤ 128 ∧ maxc ≤ 32768 ∧ minc ≤ maxc ∧ y.tableBytes ≤ len1 ∧ ceilDiv len 8 ≤ len2 then some y
  else none

/-- The positions of a bitmap span that are masked. -/
def maskedIn (len base : Nat) (bs : List Byte) : List Nat :=
  (countFrom 0 (8 * bs.length)).filterMap fun i =>
    match nth bs (i / 8) with
    | some b => if b.getLsbD (i % 8) ∧ base + i < len then some (base + i) else none
    | none => none

/-- UMCTX open (R324). -/
def State.umOpen (s : State) (d c : Nat) (x : UmCtx) (q : UmCmd) : State :=
  let l := q.firing.launch
  let t := s.swatch l x.sw1
  let m := s.swatch l x.sw2
  match q.phase with
  | 0 => s.putCmd d c x { q with phase := 1, accs := t.readsFrom 0 576 }
  | 1 =>
    match headerCtx x (gotOf q.accs) t.length m.length with
    | none => (s.freeCtx d c { x with queue := x.queue.drop 1 }).umTrap d c 0x0601 q
    | some y => s.putCmd d c { y with gen := x.gen + 1 } { q with phase := 2, idx := 0, accs := [] }
  | 2 =>
    let off := if q.idx < x.len then 0x1000 + 8 * q.idx else x.taps + 8 * (q.idx - x.len)
    if q.accs ≠ [] then s.putCmd d c x { q with idx := q.idx + 1, accs := [] }
    else if q.idx < x.len + (x.tableBytes - x.taps) / 8 then s.putCmd d c x { q with accs := t.writesTo off (leBytes 8 0) }
    else s.putCmd d c x { q with phase := 3, idx := 0 }
  | _ =>
    let size := ceilDiv x.len 8
    if q.accs ≠ [] then
      s.putCmd d c x { q with idx := q.idx + 8, accs := [], count := q.count + (maskedIn x.len (8 * q.idx) (gotOf q.accs)).length }
    else if q.idx < size then s.putCmd d c x { q with accs := m.readsFrom q.idx (min 8 (size - q.idx)) }
    else
      let die := ((s.launch l).panel.dies.findIdx? fun e => decide (e = d)).getD 0
      (s.putUm d c { x with opened := true, remaining := q.count, round := [], queue := x.queue.drop 1 }).engineReply q.firing false
        .value (umHandle c die x.gen)

/-- UMSCORE (R325). -/
def State.umScore (s : State) (d c : Nat) (x : UmCtx) (q : UmCmd) (y : FormE) (f16 : Bool) : State :=
  let l := q.firing.launch
  let w := (s.opEB q.firing y).toNat
  let p0 := bitsOf w 0 16
  let n := bitsOf w 16 16
  let off := w / 2 ^ 32
  let src := s.swatch l y.sw1.toNat
  match q.phase with
  | 0 =>
    if n = 0 ∨ x.len < p0 + n ∨ off % 8 ≠ 0 ∨ src.length < off + 8 * n then s.stopCmd d c 0x0603 q
    else s.putCmd d c x { q with phase := 1 }
  | 1 =>
    if q.accs ≠ [] then
      let e := leNat (gotOf q.accs)
      let conf := if f16 then fp16.widen (e % 2 ^ 16) else e % 2 ^ 32
      s.putCmd d c x { q with
        phase := 2, accs := (s.swatch l x.sw1).writesTo (0x1000 + 8 * (p0 + q.idx)) (leBytes 8 (conf + e / 2 ^ 32 * 2 ^ 32)) }
    else if q.idx < n then s.putCmd d c x { q with accs := src.readsFrom (off + 8 * q.idx) 8 }
    else s.umDone d c q .completion 0
  | _ => s.putCmd d c x { q with phase := 1, idx := q.idx + 1, accs := [] }

/-- Whether a score goes before another in the ranking (R326): a NaN ranks below every number, and ties go to the lower position. -/
def ranksBefore (a b : Nat × Nat) : Bool :=
  let u := fp32.decode (a.2 % 2 ^ 32)
  let v := fp32.decode (b.2 % 2 ^ 32)
  if u.isNan || v.isNan then (if u.isNan && v.isNan then decide (a.1 < b.1) else v.isNan)
  else if ltVals v u then true
  else if ltVals u v then false
  else decide (a.1 < b.1)

/-- Inserts a score in ranking order. -/
def rankInto (a : Nat × Nat) : List (Nat × Nat) → List (Nat × Nat)
  | [] => [a]
  | b :: bs => if ranksBefore a b then a :: b :: bs else b :: rankInto a bs

/-- The number of positions to commit (R326). -/
def UmCtx.shareOf (x : UmCtx) (m : List (Nat × Nat)) : Nat :=
  let r := m.length
  let th := fp32.decode x.theta.toNat
  let nth := m.countP fun e =>
    let v := fp32.decode (e.2 % 2 ^ 32)
    !v.isNan && !th.isNan && !ltVals v th
  let c := max (max x.k (ceilDiv (x.f * r) 65536)) nth
  min (min (max c x.minc) x.maxc) r

/-- UMRANK (R326). -/
def State.umRank (s : State) (d c : Nat) (x : UmCtx) (q : UmCmd) (y : FormE) : State :=
  let l := q.firing.launch
  let lst := s.swatch l y.sw1.toNat
  let t := s.swatch l x.sw1
  let m := s.swatch l x.sw2
  let size := ceilDiv x.len 8
  match q.phase with
  | 0 => if lst.length < 8 * min x.maxc x.len then s.stopCmd d c 0x0603 q else s.putCmd d c x { q with phase := 1 }
  | 1 =>
    if q.accs ≠ [] then
      let bs := gotOf q.accs
      s.putCmd d c x { q with
        idx := q.idx + 8, accs := [], seeds := q.seeds ++ maskedIn x.len (8 * q.idx) bs
        read := q.read ++ (countFrom q.idx bs.length).zip bs }
    else if q.idx < size then s.putCmd d c x { q with accs := m.readsFrom q.idx (min 8 (size - q.idx)) }
    else s.putCmd d c x { q with phase := 2, idx := 0 }
  | 2 =>
    if q.accs ≠ [] then
      match q.seeds with
      | p :: ps => s.putCmd d c x { q with seeds := ps, list := q.list ++ [(p, leNat (gotOf q.accs))], accs := [] }
      | [] => s.putCmd d c x { q with accs := [] }
    else
      match q.seeds with
      | p :: _ => s.putCmd d c x { q with accs := t.readsFrom (0x1000 + 8 * p) 8 }
      | [] =>
        let n := x.shareOf q.list
        let order := q.list.foldl (fun acc e => rankInto e acc) []
        let chosen := (order.take n).map Prod.fst
        let picked := q.list.filter fun e => decide (e.1 ∈ chosen)
        s.putCmd d c x { q with phase := 3, idx := 0, count := q.list.length, list := picked }
  | 3 =>
    match nth q.list q.idx with
    | some (p, v) =>
      if q.accs = [] then s.putCmd d c x { q with accs := lst.writesTo (8 * q.idx) (leBytes 8 (p + v / 2 ^ 32 * 2 ^ 32)) }
      else
        let clear := fun (b : Byte) (e : Nat × Nat) => if e.1 / 8 = p / 8 then b &&& ~~~(BitVec.ofNat 8 (2 ^ (e.1 % 8))) else b
        s.putCmd d c x { q with
          phase := 4, accs := m.writesTo (p / 8) [(q.list.take (q.idx + 1)).foldl clear (getAt q.read (p / 8) 0)] }
    | none => s.putCmd d c { x with remaining := q.count - q.list.length } { q with phase := 5 }
  | 4 =>
    let block := ((nth q.list q.idx).map Prod.fst).getD 0 / 16
    s.putCmd d c { x with round := setAt x.round block true false } { q with phase := 3, idx := q.idx + 1, accs := [] }
  | _ =>
    let n := q.list.length
    let (made, s1) := (s.meter l d 17 n).umAdd d c q (q.firing.knotOf y) (s.addOf q.firing y)
    if made then s1.umDone d c q .value (BitVec.ofNat 64 n) else s1.dropCmd d c

/-- UMTAP (R327): the pairs past N have V clear and are otherwise left open. -/
def State.umTap (s : State) (d c : Nat) (x : UmCtx) (q : UmCmd) (y : FormE) : State :=
  let l := q.firing.launch
  let w := (s.opEB q.firing y).toNat
  let layer := bitsOf w 0 7
  let n := bitsOf w 8 4
  let qb := bitsOf w 16 11
  let off := w / 2 ^ 32
  let src := s.swatch l y.sw1.toNat
  match q.phase with
  | 0 =>
    if layer = 0 ∨ x.layers ≤ layer ∨ 8 < n ∨ x.blocks ≤ qb ∨ off % 8 ≠ 0 ∨ (n ≠ 0 ∧ src.length < off + 8 * n) then
      s.stopCmd d c 0x0603 q
    else s.putCmd d c x { q with phase := 1, accs := src.readsFrom off (8 * n) }
  | 1 =>
    let pairs := wordsOf (gotOf q.accs)
    if pairs.any fun p => decide (x.blocks ≤ p.toNat % 2 ^ 16) then s.stopCmd d c 0x0603 q
    else
      let rest := (countFrom 0 (8 - n)).foldl (fun (acc : List Word × State) _ =>
        let (v, s1) := acc.2.freeWord
        (acc.1 ++ [v &&& 0xFFFFFFFF0000FFFF], s1)) ([], s)
      let out := (pairs.map fun p => (p &&& 0xFFFFFFFF0000FFFF) ||| 0x80000000) ++ rest.1
      rest.2.putCmd d c x { q with
        phase := 2, accs := (s.swatch l x.sw1).writesTo (x.taps + 64 * (layer * x.blocks + qb)) (bytesOf out) }
  | _ => s.umDone d c q .completion 0

/-- The mass that reaches a tap entry from the dirty blocks of the layer below (R328). -/
def tapMass (blocks : Nat) (below : Nat → Bool) (pairs : List Word) : Nat :=
  pairs.foldl (fun ms p =>
    let kb := p.toNat % 2 ^ 16
    if p.getLsbD 31 ∧ kb < blocks ∧ below kb = true then (fadd fp32 .rne (fp32.decode ms) (fp32.decode (p.toNat / 2 ^ 32))).1
    else ms) 0

/-- One seed of UMDIRTY: an activation of the entry that o0 names, in colour 0 (R328, R123). -/
def State.umSeed (s : State) (d : Nat) (f : Firing) (payload : Nat) : State :=
  match s.pattern f.launch, routeGroup f.route false with
  | some p, dst :: _ =>
    match entryOf p (s.launch f.launch).stage dst with
    | none => s
    | some e =>
      let k : Carry := ⟨.seed, BitVec.ofNat 64 payload, f.phase, 0, 0, 0⟩
      let src := some (2 ^ 20 + d)
      if (s.launch f.launch).mayEnter p e then
        match (s.launch f.launch).freeId with
        | some id =>
          (s.onLaunch f.launch fun y => y.openRoot p e id).inject f.launch
            ({ k with bobbin := BitVec.ofNat 10 id }.token s.stamp dst) src
        | none => s
      else s.queueAtEntry f.launch e [k.token s.stamp dst] src
  | _, _ => s

/-- UMDIRTY (R328): an empty round set gives n = 0 and nothing else.  `seeds` are the dirty entries found so far. -/
def State.umDirty (s : State) (d c : Nat) (x : UmCtx) (q : UmCmd) (y : FormE) : State :=
  let l := q.firing.launch
  let t := s.swatch l x.sw1
  let b := x.blocks
  let wb := x.dirtyWords
  match q.phase with
  | 0 =>
    let first := (countFrom 0 b).filter fun i => getAt x.round i false
    if first = [] then (s.dropCmd d c).engineReply q.firing true .completion 0
    else s.putCmd d c x { q with phase := 1, idx := b, seeds := first }
  | 1 =>
    let layer := q.idx / b
    let blk := q.idx % b
    if x.layers * b ≤ q.idx then s.putCmd d c x { q with phase := 2, idx := 0 }
    else if q.accs = [] then s.putCmd d c x { q with accs := t.readsFrom (x.taps + 64 * q.idx) 64 }
    else
      let below := fun (k : Nat) => decide ((layer - 1) * 65536 + k ∈ q.seeds)
      let ms := fp32.decode (tapMass b below (wordsOf (gotOf q.accs)))
      let th := fp32.decode (getAt x.thetas layer 0).toNat
      let isDirty := below blk || (!ms.isNan && !th.isNan && !ltVals ms th)
      s.putCmd d c x { q with idx := q.idx + 1, accs := [], seeds := if isDirty then q.seeds ++ [layer * 65536 + blk] else q.seeds }
  | 2 =>
    let layer := q.idx / wb
    let word := q.idx % wb
    let mask := q.seeds.foldl (fun m e =>
      if e / 65536 = layer ∧ e % 65536 / 64 = word then Nat.lor m (2 ^ (e % 64)) else m) 0
    if x.layers * wb ≤ q.idx then s.putCmd d c x { q with phase := 4, count := 0 }
    else if mask = 0 then s.putCmd d c x { q with idx := q.idx + 1 }
    else if q.accs = [] then s.putCmd d c x { q with accs := t.readsFrom (x.dirty + 8 * q.idx) 8 }
    else
      let old := leNat (gotOf q.accs)
      s.putCmd d c x { q with phase := 3, accs := t.writesTo (x.dirty + 8 * q.idx) (leBytes 8 (Nat.lor old mask)) }
  | 3 => s.putCmd d c x { q with phase := 2, idx := q.idx + 1, accs := [] }
  | _ =>
    match q.seeds with
    | e :: es =>
      let s1 := s.umSeed d q.firing e
      let (made, s2) := if q.stopAdd then (true, s1) else s1.umAdd d c q (q.firing.knotOf y) 1
      s2.putCmd d c x { q with seeds := es, count := q.count + 1, stopAdd := q.stopAdd || !made }
    | [] =>
      ((s.putUm d c { x with round := [] }).dropCmd d c).engineReply q.firing true .completion (BitVec.ofNat 64 q.count)

/-- UMCLR (R329). -/
def State.umClr (s : State) (d c : Nat) (x : UmCtx) (q : UmCmd) (y : FormE) : State :=
  let t := s.swatch q.firing.launch x.sw1
  let w := (s.opEB q.firing y).toNat
  let blk := bitsOf w 0 16
  let layer := bitsOf w 16 7
  let off := x.dirty + 8 * (layer * x.dirtyWords + blk / 64)
  match q.phase with
  | 0 =>
    if x.layers ≤ layer ∨ x.blocks ≤ blk then s.stopCmd d c 0x0603 q
    else s.putCmd d c x { q with phase := 1, accs := t.readsFrom off 8 }
  | 1 =>
    let old := leNat (gotOf q.accs)
    let new := if old.testBit (blk % 64) then old - 2 ^ (blk % 64) else old
    s.putCmd d c x { q with phase := 2, accs := t.writesTo off (leBytes 8 new) }
  | _ => s.umDone d c q .completion 0

/-- UMQRY (R330): `fn` is 0 info, 1 mask, 2 dirty, 3 round. -/
def State.umQry (s : State) (d c : Nat) (x : UmCtx) (q : UmCmd) (y : FormE) (fn : Nat) : State :=
  let l := q.firing.launch
  let v := (s.opEB q.firing y).toNat
  let answer := fun (s : State) (n : Nat) => s.umDone d c q .value (BitVec.ofNat 64 n)
  let blk := bitsOf v 0 16
  let layer := bitsOf v 16 7
  match fn with
  | 0 => answer s (x.remaining % 2 ^ 16 + x.len % 2 ^ 16 * 2 ^ 16 + x.layers * 2 ^ 32 + x.round.length % 2 ^ 16 * 2 ^ 40)
  | 1 =>
    if x.len ≤ v then answer s 0
    else if q.phase = 0 then s.putCmd d c x { q with phase := 1, accs := (s.swatch l x.sw2).readsFrom (v / 8) 1 }
    else answer s (leNat (gotOf q.accs) / 2 ^ (v % 8) % 2)
  | 2 =>
    if x.layers ≤ layer ∨ x.blocks ≤ blk then answer s 0
    else if q.phase = 0 then
      s.putCmd d c x { q with
        phase := 1, accs := (s.swatch l x.sw1).readsFrom (x.dirty + 8 * (layer * x.dirtyWords + blk / 64)) 8 }
    else answer s (leNat (gotOf q.accs) / 2 ^ (blk % 64) % 2)
  | _ => answer s (if getAt x.round v false then 1 else 0)

/-- A confidence set by a token (R325): its ID is kept; a position at or beyond L faults and writes nothing. -/
def State.umToken (s : State) (d c : Nat) (x : UmCtx) (q : UmCmd) (t : Token) : State :=
  let v := t.payload.toNat
  if q.phase = 0 ∧ x.len ≤ bitsOf v 32 15 then s.stopCmd d c 0x0603 q
  else if q.phase = 0 then
    s.putCmd d c x { q with
      phase := 1, accs := (s.swatch q.firing.launch x.sw1).writesTo (0x1000 + 8 * bitsOf v 32 15) (leBytes 4 v) }
  else s.dropCmd d c

/-- What a command does next, its accesses being done. -/
def State.umAdvance (s : State) (d c : Nat) (x : UmCtx) (q : UmCmd) : State :=
  match q.tok with
  | some t => s.umToken d c x q t.tok
  | none =>
    match decode q.firing.word with
    | .ok (.umctxOpen _ _) => s.umOpen d c x q
    | .ok (.umctxRelease _) => ((s.dropCmd d c).freeCtx d c { x with queue := x.queue.drop 1 }).engineReply q.firing false .completion 0
    | .ok (.umscore y f16) => s.umScore d c x q y f16
    | .ok (.umrank y) => s.umRank d c x q y
    | .ok (.umtap y) => s.umTap d c x q y
    | .ok (.umdirty y) => s.umDirty d c x q y
    | .ok (.umqryInfo y) => s.umQry d c x q y 0
    | .ok (.umqryMask y) => s.umQry d c x q y 1
    | .ok (.umqryDirty y) => s.umQry d c x q y 2
    | .ok (.umqryRound y) => s.umQry d c x q y 3
    | .ok (.umclr y) => s.umClr d c x q y
    | _ => s.dropCmd d c

/-- One act of the command being performed. -/
def State.umStep (s : State) (d c : Nat) (x : UmCtx) (q : UmCmd) : State :=
  if allDone q.accs then s.umAdvance d c x q
  else
    match s.accsStep (s.umClient q) q.accs with
    | .moved as_ s1 => s1.putCmd d c x { q with accs := as_ }
    | .bad k dt addr s1 =>
      let (id, s2) := s1.engineFault q.firing.launch k dt addr (s1.umSrc c q) (decide (q.tok = none) && q.firing.atCommit) (.unmask d c)
      s2.putCmd d c x { q with parked := some id }

/-! Commands that a freeze saved (R331). -/

/-- The source number of a saved command. -/
def savedSrc : Nat := 2 ^ 25

/-- A launch's commands that have not begun, and its opens that wait, are saved in order: they go before its new ones. -/
def UmEngine.save (e : UmEngine) (l : Nat) : UmEngine :=
  let mark := fun (q : UmCmd) => if q.started then q else { q with src := savedSrc }
  { e with
    ctxs := e.ctxs.map fun x => if x.2.holder = some l then (x.1, { x.2 with queue := x.2.queue.map mark }) else x
    old := e.old ++ e.opens.filter fun f => decide (f.launch = l)
    opens := e.opens.filter fun f => decide (f.launch ≠ l) }

/-- The lowest-numbered free context (R317). -/
def UmEngine.freeCtx (e : UmEngine) : Option Nat := (countFrom 0 256).find? fun c => decide ((e.ctx c).holder = none)

/-- Whether an engine still has a saved command of a launch to perform, in a context that no parked command stops, or a saved open for
which a context is free. -/
def UmEngine.savedLeft (e : UmEngine) (l : Nat) : Bool :=
  (e.ctxs.any fun x => decide (x.2.holder = some l) && (x.2.queue.all fun q => decide (q.parked = none)) &&
    x.2.queue.any fun q => decide (q.src = savedSrc) && !q.started) ||
  ((e.old.any fun f => decide (f.launch = l)) && e.freeCtx.isSome)

/-- Whether a launch has a saved command left on any of its dies, behind which its new ones wait (R331). -/
def State.savedLeft (s : State) (l : Nat) : Bool := (s.launch l).panel.dies.any fun d => (s.um d).savedLeft l

/-- The commands of a context that may go next (R320, R331): those that no earlier command of their source precedes; a new one only when
its launch has no saved one left. -/
def UmCtx.heads (x : UmCtx) (savedLeft : Bool) : List Nat :=
  (countFrom 0 x.queue.length).filter fun k => match nth x.queue k with
    | some e => (x.queue.take k).all (fun b => decide (b.src ≠ e.src)) && (decide (e.src = savedSrc) || !savedLeft)
    | none => false

/-- Brings one waiting command to the front: one that no earlier command of its source precedes (R320). -/
def beginCmd (k : Nat) (qs : List UmCmd) : List UmCmd :=
  match nth qs k with
  | some q => { q with started := true } :: dropNth qs k
  | none => qs

/-- UNMASK_COMMAND_PERFORM (R320, R331): a context goes on with its command, or begins the next; one whose handle an open before it has
made out of date is stopped (R317, R322). -/
def execUnmaskCommandPerform (die ctx : Nat) (s : State) : Host.Outcome State Fault Refusal :=
  .next (let x := s.umCtx die ctx
    match x.queue with
    | [] => s
    | q :: _ =>
      let y := s.launch q.firing.launch
      if !y.engines || q.parked.isSome then s
      else if q.started then s.umStep die ctx x q
      else if y.halting then s
      else
        let heads := x.heads (x.holder.any s.savedLeft)
        let (i, s1) := s.choose heads.length
        match nth heads i with
        | some k =>
          match nth x.queue k with
          | some c =>
            if c.gen.any fun g => decide (g ≠ x.gen) then (s1.putUm die ctx { x with queue := dropNth x.queue k }).umStale die ctx c
            else s1.putUm die ctx { x with queue := beginCmd k x.queue }
          | none => s1
        | none => s1)

/-- UNMASK_CONTEXT_GRANT (R317, R331): the first open that waits takes the lowest-numbered free context; those that a freeze saved come
first, and a new one waits for its launch's saved commands. -/
def execUnmaskContextGrant (die : Nat) (s : State) : Host.Outcome State Fault Refusal :=
  .next (let e := s.um die
    let ready := fun (f : Firing) => (s.launch f.launch).engines && !(s.launch f.launch).halting
    let all := e.old.map (fun f => (f, ready f)) ++ e.opens.map fun f => (f, ready f && !s.savedLeft f.launch)
    match indexOf Prod.snd all 0, e.freeCtx with
    | some i, some c =>
      match nth all i with
      | some (f, _) =>
        match decode f.word with
        | .ok (.umctxOpen y _) =>
          let x := { e.ctx c with holder := some f.launch, sw1 := y.sw1.toNat, sw2 := y.sw2.toNat, queue := [{ UmCmd.ofFiring f with started := true }] }
          s.onUm die fun e => ({ e with
            old := if i < e.old.length then dropNth e.old i else e.old
            opens := if i < e.old.length then e.opens else dropNth e.opens (i - e.old.length) }).setCtx c x
        | _ => s
      | none => s
    | _, _ => s)

/-- UNMASK_IN_TOKEN (R322, R325): a token at unmask.in joins its context's commands, or faults. -/
def execUnmaskInToken (die k : Nat) (s : State) : Host.Outcome State Fault Refusal :=
  .next (let as_ := getAt s.dieArr die []
    match (if behindSame as_ k then none else nth as_ k) with
    | none => s
    | some a =>
      match a.out.eng with
      | none => s
      | some (e, _, _) =>
        if e ≠ 4 ∨ (s.launch a.launch).moves = false then s
        else
          let s1 := { s with dieArr := setAt s.dieArr die (dropNth as_ k) [] }
          let v := a.out.tok.payload
          let c := bitsOf v.toNat 47 8
          let x := s.umCtx die c
          if x.holder ≠ some a.launch then s1.strayToken die c 0x0602 a
          else if zeroBits v 55 63 = false then s1.strayToken die c 0x0603 a
          else
            let src := match a.src with
              | some n => 2 ^ 21 + n
              | none => 2 ^ 22 + s.serial
            let q := UmCmd.ofToken (tokenFiring a.launch a.out.tok) a.out src
            { s1.putUm die c { x with queue := x.queue ++ [q] } with serial := s.serial + 1 })

/-! The instructions (R320 to R330). -/

/-- A command sent to the engine and context that its handle names; UM_HANDLE when it is not current, or 0 for a query (R322,
R330). -/
def State.umSend (s : State) (f : Firing) (h : Word) (query : Bool) : State :=
  match s.umNamed f.launch h with
  | none => if query then s.engineReply f false .value 0 else s.trap f 0x0602
  | some (d, c) =>
    let x := s.umCtx d c
    s.putUm d c { x with queue := x.queue ++ [{ UmCmd.ofFiring f with gen := some x.gen }] }

/-- UMCTX with FN 0 (R324): the open goes to the die that FN names. -/
def execUmctxOpen (x : FormE) (die : BitVec 2) (s : State) : Host.Outcome State Fault Refusal :=
  s.fireHeld x.pm fun s f =>
    match nth (s.launch f.launch).panel.dies die.toNat with
    | none => s.trap f 0x0601
    | some d => s.onUm d fun e => { e with opens := e.opens ++ [f] }

/-- UMCTX with FN 1 (R324). -/
def execUmctxRelease (x : FormE) (s : State) : Host.Outcome State Fault Refusal :=
  s.fireHeld x.pm fun s f => s.umSend f (s.opEA f x) false
/-- UMSCORE (R325). -/
def execUmscore (x : FormE) (_f16 : Bool) (s : State) : Host.Outcome State Fault Refusal :=
  s.fireHeld x.pm fun s f => s.umSend f (s.opEA f x) false
/-- UMRANK (R326). -/
def execUmrank (x : FormE) (s : State) : Host.Outcome State Fault Refusal :=
  s.fireHeld x.pm fun s f =>
    if badHandle (f.knotOf x) then s.faultFiring f .knotHandle (f.knotOf x) 0 else s.umSend f (s.opEA f x) false
/-- UMTAP (R327). -/
def execUmtap (x : FormE) (s : State) : Host.Outcome State Fault Refusal :=
  s.fireHeld x.pm fun s f => s.umSend f (s.opEA f x) false
/-- UMDIRTY (R328). -/
def execUmdirty (x : FormE) (s : State) : Host.Outcome State Fault Refusal :=
  s.fireHeld x.pm fun s f =>
    if badHandle (f.knotOf x) then s.faultFiring f .knotHandle (f.knotOf x) 0 else s.umSend f (s.opEA f x) false
/-- UMQRY with FN 0 (R330). -/
def execUmqryInfo (x : FormE) (s : State) : Host.Outcome State Fault Refusal :=
  s.fire x.pm fun s f => s.umSend f (s.opEA f x) true
/-- UMQRY with FN 1 (R330). -/
def execUmqryMask (x : FormE) (s : State) : Host.Outcome State Fault Refusal :=
  s.fire x.pm fun s f => s.umSend f (s.opEA f x) true
/-- UMQRY with FN 2 (R330). -/
def execUmqryDirty (x : FormE) (s : State) : Host.Outcome State Fault Refusal :=
  s.fire x.pm fun s f => s.umSend f (s.opEA f x) true
/-- UMQRY with FN 3 (R330). -/
def execUmqryRound (x : FormE) (s : State) : Host.Outcome State Fault Refusal :=
  s.fire x.pm fun s f => s.umSend f (s.opEA f x) true
/-- UMCLR (R329). -/
def execUmclr (x : FormE) (s : State) : Host.Outcome State Fault Refusal :=
  s.fireHeld x.pm fun s f => s.umSend f (s.opEA f x) false

/-! Resumes and retirement (R320, R331, R376). -/

/-- A command parked at a fault goes on from its accesses. -/
def State.retryUm (s : State) (d c id : Nat) : State :=
  let x := s.umCtx d c
  s.putUm d c { x with queue := x.queue.map fun q => if q.parked = some id then { q with parked := none } else q }

/-- The tokens parked at a fault arrive again. -/
def State.retryStrays (s : State) (d id : Nat) : State :=
  let back := (s.um d).strays.filter fun a => decide (a.1 = id)
  let s1 := s.onUm d fun e => { e with strays := e.strays.filter fun a => decide (a.1 ≠ id) }
  { s1 with dieArr := setAt s1.dieArr d (getAt s1.dieArr d [] ++ back.map Prod.snd) [] }

/-- A context whose command is parked at a fault abandons it; an open's context is freed. -/
def State.discardCtx (s : State) (d id c : Nat) : State :=
  let x := s.umCtx d c
  let left := { x with queue := x.queue.filter fun q => decide (q.parked ≠ some id) }
  if left.queue = x.queue then s else if x.opened then s.putUm d c left else s.freeCtx d c left

/-- What is parked at a fault is abandoned. -/
def State.discardUm (s : State) (d id : Nat) : State :=
  let s1 := s.onUm d fun e => { e with strays := e.strays.filter fun a => decide (a.1 ≠ id) }
  ((s.um d).ctxs.map Prod.fst).foldl (fun s c => s.discardCtx d id c) s1

/-- A launch leaves an engine: its commands are discarded and its contexts are free (R331). -/
def UmEngine.release (e : UmEngine) (l : Nat) : UmEngine :=
  { e with
    ctxs := e.ctxs.map fun x => if x.2.holder = some l then (x.1, x.2.freed) else x
    opens := e.opens.filter fun f => decide (f.launch ≠ l)
    old := e.old.filter fun f => decide (f.launch ≠ l)
    strays := e.strays.filter fun a => decide (a.2.launch ≠ l) }

end Sys2Proof.Machine
end

