-- ==== Sys2Proof/Machine/Faults.lean ====
section
/-! DEFINITION. Machine/Faults.lean: fault records and the fault queue (R371 to R375), and resumes (R376, R377). -/

namespace Sys2Proof.Machine

/-! The fault queue (R372, R373). -/

/-- STATE (Table 18.2). -/
def RecState.code : RecState → Nat
  | .parked => 0 | .retried => 1 | .discarded => 2 | .final => 3

/-- What a record's copy in memory shows of its changing fields. -/
def FaultRec.showing (r : FaultRec) : Nat := 16 * r.parked + r.state.code

/-- A fault record's eight words (Table 18.2). -/
def FaultRec.words (r : FaultRec) : List Word :=
  let q := r.src
  let tag := match q.tag with
    | some t => t.iter.toNat + t.bobbin.toNat * 2 ^ 6 + 2 ^ 16
    | none => 0
  [BitVec.ofNat 64 (r.kind.code + q.srck * 2 ^ 8 + q.die * 2 ^ 16 + q.station * 2 ^ 18 + q.slot * 2 ^ 29 +
      (if r.deferFlag then 2 ^ 40 else 0)),
   BitVec.ofNat 64 (tag + q.stage * 2 ^ 20 + q.phase.toNat * 2 ^ 24),
   r.detail, r.addr,
   BitVec.ofNat 64 (r.parked % 2 ^ 32),
   BitVec.ofNat 64 (r.recid % 2 ^ 32 + r.state.code * 2 ^ 32),
   BitVec.ofNat 64 (q.fcl % 2 ^ 9 + q.inst % 16 * 2 ^ 12 + q.ctx % 2 ^ 8 * 2 ^ 16 + q.eng % 2 ^ 12 * 2 ^ 24),
   BitVec.ofNat 64 r.stampA]

/-- Whose accesses the writer of a fault queue makes. -/
def State.faultClient (s : State) (l : Nat) : Client := queueClient (s.launch l).part (s.launch l).panel.home

/-- RDIDX, the reader's half of the header's word 0; 0 where it cannot be read. -/
def State.rdidx (s : State) (l : Nat) : Nat × State :=
  match (s.launch l).ovArea with
  | none => (0, s)
  | some a =>
    match s.gRead (s.faultClient l) (a + 4) 4 .read with
    | (.ok bs, s1) => (leNat bs, s1)
    | (.error _, s1) => (0, s1)

/-- The byte address of record r of a fault queue. -/
def recordAddr (area r : Nat) : Nat := area + 64 * ((r - 1) % 255 + 1)

/-- Replaces a fault of a launch. -/
def State.putFault (s : State) (l : Nat) (r : FaultRec) : State :=
  let up := fun (q : FaultRec) => if q.id = r.id then r else q
  s.onLaunch l fun x => { x with faults := x.faults.map up }

/-- The source of fault tokens, whose order is that of their RECIDs (R374). -/
def faultSource : Nat := 2 ^ 23

/-- A record's delivery (R374): a token to the resident stage's fault slot, else the launch aborts; none once it is ending, and none
for WATCHDOG. -/
def State.deliverFault (s : State) (l : Nat) (r : FaultRec) : State :=
  let x := s.launch l
  if r.kind = .watchdog ∨ (x.ending ≠ none ∧ x.ending ≠ some .normal) then s
  else
    match (s.image l).bind StageImg.faultSlot with
    | some (die, st, slot) =>
      let tag : Tag := match r.src.tag with
        | some t => { t with die := BitVec.ofNat 2 die }
        | none => ⟨BitVec.ofNat 2 die, 0, 0⟩
      let v := BitVec.ofNat 64 (r.recid % 2 ^ 32 + r.kind.code * 2 ^ 32)
      s.inject l ⟨⟨s.stamp, .fault, 0, BitVec.ofNat 8 slot, BitVec.ofNat 11 st, r.src.phase, 0, tag, v⟩, none⟩ (some faultSource)
    | none => s.onLaunch l fun y => y.endBy .abortFault

/-- A record written to its queue, with the header's WRIDX; unchanged where the queue cannot be written. -/
def State.writeRecord (s : State) (l area : Nat) (r : FaultRec) : State :=
  let c := s.faultClient l
  let n := (s.launch l).wridx + 1
  let r1 : FaultRec := { r with recid := n, stampA := s.aCycle, shown := r.showing }
  match s.gWrite c (recordAddr area n) (bytesOf r1.words) .write with
  | .error _ => s
  | .ok s1 =>
    match s1.gWrite c area (leBytes 4 (n % 2 ^ 32)) .write with
    | .error _ => s
    | .ok s2 =>
      (((s2.onLaunch l fun x => { x with wridx := n }).putFault l r1).meter l (c.cl / 128) 20 1).deliverFault l r1

/-- A record's copy in memory rewritten in place (R373). -/
def State.rewriteRecord (s : State) (l area : Nat) (r : FaultRec) : State :=
  let r1 : FaultRec := { r with shown := r.showing }
  match s.gWrite (s.faultClient l) (recordAddr area r.recid) (bytesOf r1.words) .write with
  | .error _ => s
  | .ok s1 => s1.putFault l r1

/-- What the writer of a launch's fault queue does next: it rewrites a changed record, or writes the next fault's record while the
queue has room.  A new record waits while the launch is saved or being restored: its token needs the panel (R374, log 154). -/
def State.faultWrite (s : State) (l : Nat) : State :=
  let x := s.launch l
  match (if x.cfg.isSome then none else x.ovArea) with
  | none => s
  | some area =>
    match x.faults.find? fun r => decide (r.recid ≠ 0 ∧ r.shown ≠ r.showing ∧ x.wridx - r.recid < 255) with
    | some r => s.rewriteRecord l area r
    | none =>
      match x.faults.find? fun r => decide (r.recid = 0) with
      | none => s
      | some r =>
        let (rd, s1) := s.rdidx l
        if (x.st = .saved ∨ x.st = .restoring) ∧ x.ending = none then s
        else if (x.wridx + 2 ^ 32 - rd) % 2 ^ 32 < 255 then s1.writeRecord l area r else s

/-- FAULT_RECORD_WRITE (R370 to R374). -/
def execFaultRecordWrite (l : Nat) (s : State) : Host.Outcome State Fault Refusal := .next (s.faultWrite l)

/-! Resumes (R376, R377). -/

/-- The operations of a launch parked at a fault, in the order in which they parked. -/
def Launch.parkedAtFault (x : Launch) (id : Nat) : List Parked := x.parked.filter fun p => decide (p.why = .fault id)

/-- Notes operations as discarded: a release that captured one is never applied (R368; log 34). -/
def State.drop (s : State) (l : Nat) (ids : List Nat) : State := s.onLaunch l fun x => { x with dropped := x.dropped ++ ids }

/-- What an engine has parked at a fault goes on from there (R376). -/
def State.goOn (s : State) (l id : Nat) : Parker → State
  | .op _ => s
  | .copy cl pk => s.onCluster cl fun c => { c with copy := c.copy.retry id pk }
  | .spawn cl => s.onCluster cl fun c => { c with copy := c.copy.retrySpawn id }
  | .tensor cl => s.onCluster cl fun c => { c with tensor := c.tensor.retry id }
  | .row cl => s.onCluster cl fun c => { c with tensor := c.tensor.retryRow id }
  | .stream i => s.retryOp l i id
  | .seam key c => s.putSeam key c ((s.seamCtx key c).retry id)
  | .unmask d c => s.retryUm d c id

/-- Whether a panel carries a resume out: it is Running, and not being frozen (R377). -/
def Launch.resumes (x : Launch) : Bool := decide (x.st = .running ∧ x.ending = none) && x.freeze.isNone

/-- What a retried record has performed again next (R376). -/
def FaultRec.next (r : FaultRec) : Option Parker := if r.state = .retried ∧ r.pending = none then r.order.head? else none

/-- The first of what a retried record covers goes on, in the order of parking: an engine from its faulting point; an operation of a station
that is parked no more is passed over. -/
def State.resumeNext (s : State) (l id : Nat) : State :=
  match (s.launch l).faults.find? fun r => decide (r.id = id) with
  | none => s
  | some r =>
    match r.next with
    | none => s
    | some w => (s.putFault l { r with order := r.order.drop 1 }).goOn l id w

/-- Whether a parked operation of a station may be performed again as far as resumes go: one that a resume retries once it is the first of
its record, on a panel that is Running (R376, R377). -/
def Launch.inTurn (x : Launch) (p : Parked) : Bool :=
  x.faults.all fun r => decide (r.state ≠ .retried) || decide (Parker.op p.id ∉ r.order) ||
    (decide (r.next = some (.op p.id)) && x.resumes)

/-- A station's operation is performed again: it leaves the order of its record. -/
def State.leaveTurn (s : State) (l p : Nat) : State :=
  s.onLaunch l fun x => { x with faults := x.faults.map fun r =>
    if r.state = .retried then { r with order := r.order.filter fun w => decide (w ≠ .op p) } else r }

/-- A launch's engines abandon what is parked at a fault. -/
def State.discardEngines (s : State) (l id : Nat) (protocol : Bool) : State :=
  let p := (s.launch l).panel
  let s1 := p.all.foldl (fun s cl =>
    let gone := ((s.cluster cl).tensor.cur.filter fun r => decide (r.parked = some id)).bind fun r => r.firing.opId
    ((s.discardCopy cl id).onCluster cl fun c => { c with tensor := c.tensor.discard id }).drop l gone.toList) s
  let s2 := s1.discardOps l id protocol
  let s3 := p.seamKeys.foldl (fun s k => (countFrom 0 4).foldl (fun s c => s.discardSeam k c id) s) s2
  p.dies.foldl (fun s d => s.discardUm d id) s3

/-- A token parked by a TENSION fault is delivered again (R154, R255), or dropped (R376). -/
def State.resumeToken (s : State) (l : Nat) (r : FaultRec) (discard : Bool) : State :=
  let mine := fun (o : OvfRec) => decide (o.list = .tension ∧ o.idx + 1 = r.ovf)
  match (s.launch l).ovf.find? mine with
  | none => s
  | some o =>
    let s1 := s.setOvf l ((s.launch l).ovf.filter fun q => !mine q)
    if discard then s1
    else
      let t : OutTok := ⟨o.tok, o.eng⟩
      match nth (s1.launch l).panel.all r.src.fcl, t.rowPort with
      | some cl, none => s1.deliverOperand l cl t
      | some cl, some n => s1.rowToken l cl n t
      | none, _ => s1

/-- What a record covers is to be performed again, in its order (`State.resumeNext`), or is dropped (R376). -/
def State.carryOut (s : State) (l : Nat) (r : FaultRec) (discard : Bool) : State :=
  let ps := (s.launch l).parkedAtFault r.id
  let s1 := if discard then (ps.foldl (fun s p => s.discardParked l p) s).drop l (ps.map fun p => p.id) else s.resumeParked l ps
  let s2 := if r.ovf = 0 then s1 else s1.resumeToken l r discard
  if r.kind = .streamProtocol then s2.discardEngines l r.id true
  else if discard then s2.discardEngines l r.id false
  else (s.launch l).panel.dies.foldl (fun s d => s.retryStrays d r.id) s2

/-- A resume (R376, R377): it takes effect on a parked record once; while the panel is not Running it is recorded, and carried out
after the restore.  Once an abort or a forced retirement has begun it has no effect: what is parked is abandoned (R185, R368; log 90). -/
def State.resume (s : State) (l recid : Nat) (discard : Bool) : State :=
  let x := s.launch l
  match x.faults.find? fun r => decide (r.recid = recid ∧ recid ≠ 0) with
  | none => s
  | some r =>
    if r.state ≠ .parked ∨ x.ending ≠ none then s
    else
      let r1 := { r with state := if discard then .discarded else .retried }
      if x.st = .freezing ∨ x.st = .saved ∨ x.st = .restoring ∨ x.freeze.isSome then
        s.putFault l { r1 with pending := some discard }
      else if x.st = .running then (s.putFault l r1).carryOut l r discard
      else s

/-- The resumes recorded while a panel was not Running are carried out, in RECID order (R377). -/
def State.carryPending (s : State) (l : Nat) : State :=
  ((s.launch l).faults.filter fun r => r.pending.isSome).foldl (fun s r =>
    (s.putFault l { r with pending := none }).carryOut l r (r.pending.getD false)) s

/-- RESUME_RETRY (R376). -/
def execResumeRetry (l recid : Nat) (s : State) : Host.Outcome State Fault Refusal := .next (s.resume l recid false)
/-- RESUME_DISCARD (R376). -/
def execResumeDiscard (l recid : Nat) (s : State) : Host.Outcome State Fault Refusal := .next (s.resume l recid true)

/-- A resume word (R376): RECID and ACT. -/
def State.resumeWord (s : State) (l : Nat) (v : Word) : State := s.resume l (v.toNat % 2 ^ 32) (v.getLsbD 32)

end Sys2Proof.Machine
end

