-- ==== Sys2Proof/Machine/Integer.lean ====
section
/-! DEFINITION. Machine/Integer.lean: the integer and address instructions (R188 to R199, Table 9.1). -/

namespace Sys2Proof.Machine

/-- One firing of the scalar families: a CLASS 0 result on o0, and the flags it raised (R189). -/
def State.scalar (s : State) (f : Firing) (pm : Pred) (r : Word) (e : Exc) : State :=
  (s.raise f e).emit0 f pm .value r

/-- A two-operand row of Table 9.1. -/
def State.int2 (s : State) (x : FormA) (op : Ty → Word → Word → Word) : Host.Outcome State Fault Refusal :=
  s.fire x.pm fun s f => s.scalar f x.pm (op x.ty (s.opA f x) (s.opB f x)) 0

/-- A one-operand row of Table 9.1. -/
def State.int1 (s : State) (x : FormA) (op : Ty → Word → Word) : Host.Outcome State Fault Refusal :=
  s.fire x.pm fun s f => s.scalar f x.pm (op x.ty (s.opA f x)) 0

/-- A three-operand row of Table 9.1. -/
def State.int3 (s : State) (x : FormA) (op : Ty → Word → Word → Word → Word) : Host.Outcome State Fault Refusal :=
  s.fire x.pm fun s f => s.scalar f x.pm (op x.ty (s.opA f x) (s.opB f x) (s.opC f x)) 0

/-- A row that sets DIVZ on a zero divisor (R193). -/
def State.intDiv (s : State) (x : FormA) (op : Ty → Word → Word → Word × Bool) : Host.Outcome State Fault Refusal :=
  s.fire x.pm fun s f =>
    let r := op x.ty (s.opA f x) (s.opB f x)
    s.scalar f x.pm r.1 (excIf r.2 excDIVZ)

/-- ADD (Table 9.1). -/
def execAdd (x : FormA) (s : State) : Host.Outcome State Fault Refusal := s.int2 x (intBin (· + ·))

/-- SUB (Table 9.1). -/
def execSub (x : FormA) (s : State) : Host.Outcome State Fault Refusal := s.int2 x (intBin (· - ·))

/-- MUL (Table 9.1). -/
def execMul (x : FormA) (s : State) : Host.Outcome State Fault Refusal := s.int2 x (intBin (· * ·))

/-- MULH: the high half (Table 9.1). -/
def execMulh (x : FormA) (s : State) : Host.Outcome State Fault Refusal := s.int2 x (fun t a b => formInt t (mulhInt t (readInt t a) (readInt t b)))

/-- AND (Table 9.1). -/
def execAnd (x : FormA) (s : State) : Host.Outcome State Fault Refusal := s.int2 x (bitBin Nat.land)

/-- OR (Table 9.1). -/
def execOr (x : FormA) (s : State) : Host.Outcome State Fault Refusal := s.int2 x (bitBin Nat.lor)

/-- XOR (Table 9.1). -/
def execXor (x : FormA) (s : State) : Host.Outcome State Fault Refusal := s.int2 x (bitBin Nat.xor)

/-- ANDN: a AND NOT b (Table 9.1). -/
def execAndn (x : FormA) (s : State) : Host.Outcome State Fault Refusal := s.int2 x (fun t a b => formBits t (Nat.land (readBits t a) (2 ^ t.width - 1 - readBits t b)))

/-- SHL (Table 9.1). -/
def execShl (x : FormA) (s : State) : Host.Outcome State Fault Refusal := s.int2 x shlInt

/-- SHR (Table 9.1). -/
def execShr (x : FormA) (s : State) : Host.Outcome State Fault Refusal := s.int2 x shrInt

/-- SRA (Table 9.1). -/
def execSra (x : FormA) (s : State) : Host.Outcome State Fault Refusal := s.int2 x sraInt

/-- ROT (Table 9.1). -/
def execRot (x : FormA) (s : State) : Host.Outcome State Fault Refusal := s.int2 x rotInt

/-- MIN (Table 9.1). -/
def execMin (x : FormA) (s : State) : Host.Outcome State Fault Refusal := s.int2 x (intBin minInt)

/-- MAX (Table 9.1). -/
def execMax (x : FormA) (s : State) : Host.Outcome State Fault Refusal := s.int2 x (intBin maxInt)

/-- ABS (Table 9.1). -/
def execAbs (x : FormA) (s : State) : Host.Outcome State Fault Refusal := s.int1 x (fun t a => formInt t (if readInt t a < 0 then -(readInt t a) else readInt t a))

/-- NEG (Table 9.1). -/
def execNeg (x : FormA) (s : State) : Host.Outcome State Fault Refusal := s.int1 x (fun t a => formInt t (-(readInt t a)))

/-- CLZ (Table 9.1). -/
def execClz (x : FormA) (s : State) : Host.Outcome State Fault Refusal := s.int1 x clzInt

/-- CTZ (Table 9.1). -/
def execCtz (x : FormA) (s : State) : Host.Outcome State Fault Refusal := s.int1 x ctzInt

/-- POPC (Table 9.1). -/
def execPopc (x : FormA) (s : State) : Host.Outcome State Fault Refusal := s.int1 x popcInt

/-- BREV (Table 9.1). -/
def execBrev (x : FormA) (s : State) : Host.Outcome State Fault Refusal := s.int1 x brevInt

/-- DIV (R193). -/
def execDiv (x : FormA) (s : State) : Host.Outcome State Fault Refusal := s.intDiv x divInt

/-- REM (R193). -/
def execRem (x : FormA) (s : State) : Host.Outcome State Fault Refusal := s.intDiv x remInt

/-- CMP (R196). -/
def execCmp (x : FormA) (rel : CmpRel) (s : State) : Host.Outcome State Fault Refusal :=
  s.int2 x fun t a b => boolWord (cmpHolds rel (readInt t a) (readInt t b))

/-- SEL (R196). -/
def execSel (x : FormA) (s : State) : Host.Outcome State Fault Refusal := s.int3 x selWord

/-- EXT (R197). -/
def execExt (x : FormA) (s : State) : Host.Outcome State Fault Refusal := s.int2 x extInt

/-- INS (R197). -/
def execIns (x : FormA) (s : State) : Host.Outcome State Fault Refusal := s.int3 x insInt

/-- LEA (R198): IMM24 is the addend. -/
def execLea (x : FormA) (sh : BitVec 4) (s : State) : Host.Outcome State Fault Refusal :=
  s.int2 x fun t a b => leaInt t a b sh.toNat x.imm

/-- The rows of CONST and CONSTH (R199). -/
def State.constant (s : State) (x : FormX) (r : Word → Word) : Host.Outcome State Fault Refusal :=
  s.fire x.pm fun s f => s.scalar f x.pm (r (s.opXA f x)) 0

/-- CONST with FN 0 (R199). -/
def execConstLo (x : FormX) (imm : BitVec 24) (s : State) : Host.Outcome State Fault Refusal :=
  s.constant x fun _ => constLoWord x.ty imm

/-- CONST with FN 1 (R199). -/
def execConstMid (x : FormX) (imm : BitVec 24) (s : State) : Host.Outcome State Fault Refusal :=
  s.constant x fun a => constMidWord x.ty a imm

/-- CONST with FN 2 (R199). -/
def execConstHi (x : FormX) (imm : BitVec 16) (s : State) : Host.Outcome State Fault Refusal :=
  s.constant x fun a => constHiWord x.ty a imm

/-- CONSTH: exactly CONST with FN 1 (R199). -/
def execConsth (x : FormX) (imm : BitVec 24) (s : State) : Host.Outcome State Fault Refusal :=
  s.constant x fun a => constMidWord x.ty a imm

end Sys2Proof.Machine
end

