-- ==== Sys2Proof/Machine/Floating.lean ====
section
/-! DEFINITION. Machine/Floating.lean: the scalar floating-point instructions (R200 to R206, Table 9.3). -/

namespace Sys2Proof.Machine

/-- A value of a floating type in a PAYLOAD (R39). -/
def floatVal (ty : Ty) (w : Word) : FVal := (fmtOf ty).decode (readBits ty w)

/-- A floating result with its flags (R201). -/
def State.floatRes (s : State) (f : Firing) (x : FormA) (r : FRes) : State :=
  s.scalar f x.pm (formBits x.ty r.1) r.2

/-- A one-operand arithmetic row of Table 9.3. -/
def State.float1 (s : State) (x : FormA) (op : Fmt → RM → FVal → FRes) : Host.Outcome State Fault Refusal :=
  s.fire x.pm fun s f => s.floatRes f x (op (fmtOf x.ty) x.rm (floatVal x.ty (s.opA f x)))

/-- A two-operand arithmetic row of Table 9.3. -/
def State.float2 (s : State) (x : FormA) (op : Fmt → RM → FVal → FVal → FRes) : Host.Outcome State Fault Refusal :=
  s.fire x.pm fun s f =>
    s.floatRes f x (op (fmtOf x.ty) x.rm (floatVal x.ty (s.opA f x)) (floatVal x.ty (s.opB f x)))

/-- A three-operand arithmetic row of Table 9.3. -/
def State.float3 (s : State) (x : FormA) (op : Fmt → RM → FVal → FVal → FVal → FRes) :
    Host.Outcome State Fault Refusal :=
  s.fire x.pm fun s f =>
    s.floatRes f x (op (fmtOf x.ty) x.rm (floatVal x.ty (s.opA f x)) (floatVal x.ty (s.opB f x))
      (floatVal x.ty (s.opC f x)))

/-- A row on bit patterns, with no rounded result. -/
def State.floatBits (s : State) (x : FormA) (op : State → Firing → Fmt → Nat → Nat → FRes) :
    Host.Outcome State Fault Refusal :=
  s.fire x.pm fun s f =>
    s.floatRes f x (op s f (fmtOf x.ty) (readBits x.ty (s.opA f x)) (readBits x.ty (s.opB f x)))

/-- Whether a panel runs with PYR-E017's behaviour: its compatibility bit 0, or stepping A0 (R203). -/
def State.e017 (s : State) (f : Firing) : Bool :=
  decide (s.stepping = 0) || (s.launch f.launch).panel.compat.getLsbD 0

/-- FADD (Table 9.3). -/
def execFadd (x : FormA) (s : State) : Host.Outcome State Fault Refusal := s.float2 x fadd

/-- FSUB (Table 9.3). -/
def execFsub (x : FormA) (s : State) : Host.Outcome State Fault Refusal := s.float2 x fsub

/-- FMUL (Table 9.3). -/
def execFmul (x : FormA) (s : State) : Host.Outcome State Fault Refusal := s.float2 x fmul

/-- FMA (Table 9.3). -/
def execFma (x : FormA) (s : State) : Host.Outcome State Fault Refusal := s.float3 x (fun t r => fma t r false)

/-- FNMA (Table 9.3). -/
def execFnma (x : FormA) (s : State) : Host.Outcome State Fault Refusal := s.float3 x (fun t r => fma t r true)

/-- FDIV (Table 9.3). -/
def execFdiv (x : FormA) (s : State) : Host.Outcome State Fault Refusal := s.float2 x fdiv

/-- FSQRT (Table 9.3). -/
def execFsqrt (x : FormA) (s : State) : Host.Outcome State Fault Refusal := s.float1 x fsqrt

/-- FEXP2 (Table 9.3). -/
def execFexp2 (x : FormA) (s : State) : Host.Outcome State Fault Refusal := s.float1 x fexp2

/-- FLOG2 (Table 9.3). -/
def execFlog2 (x : FormA) (s : State) : Host.Outcome State Fault Refusal := s.float1 x flog2

/-- FRCP (Table 9.3). -/
def execFrcp (x : FormA) (s : State) : Host.Outcome State Fault Refusal := s.float1 x frcp

/-- FRSQ (Table 9.3). -/
def execFrsq (x : FormA) (s : State) : Host.Outcome State Fault Refusal := s.float1 x frsq

/-- FMIN (R203). -/
def execFmin (x : FormA) (s : State) : Host.Outcome State Fault Refusal :=
  s.floatBits x fun s f t a b => fminmax t false (s.e017 f) a b

/-- FMAX (R203). -/
def execFmax (x : FormA) (s : State) : Host.Outcome State Fault Refusal :=
  s.floatBits x fun _ _ t a b => fminmax t true false a b

/-- FABS (R204). -/
def execFabs (x : FormA) (s : State) : Host.Outcome State Fault Refusal :=
  s.floatBits x fun _ _ t a _ => (fabsBits t a, 0)

/-- FNEG (R204). -/
def execFneg (x : FormA) (s : State) : Host.Outcome State Fault Refusal :=
  s.floatBits x fun _ _ t a _ => (fnegBits t a, 0)

/-- FCMP (R204). -/
def execFcmp (x : FormA) (pred : FcmpPred) (s : State) : Host.Outcome State Fault Refusal :=
  s.floatBits x fun _ _ t a b =>
    let r := fcmpHolds t pred a b
    (if r.1 then 1 else 0, r.2)

/-- FCLASS (R204). -/
def execFclass (x : FormA) (s : State) : Host.Outcome State Fault Refusal :=
  s.floatBits x fun _ _ t a _ => (fclassMask t a, 0)

/-- FCVT (R205): reads the source format's own bits of SA. -/
def execFcvt (x : FormA) (src : CvtSrc) (s : State) : Host.Outcome State Fault Refusal :=
  s.fire x.pm fun s f => s.floatRes f x (fcvt (cvtFmt src) (fmtOf x.ty) x.rm (s.opA f x).toNat)

/-- FTOI (R205, R49): the result takes the integer type's form. -/
def execFtoi (x : FormA) (dst : IntTy) (s : State) : Host.Outcome State Fault Refusal :=
  s.fire x.pm fun s f =>
    let r := toInt (intLimits dst) x.rm (floatVal x.ty (s.opA f x))
    s.scalar f x.pm (formInt (tyOfInt dst) r.1) r.2

/-- ITOF (R205): SA is read as the integer type. -/
def execItof (x : FormA) (src : IntTy) (s : State) : Host.Outcome State Fault Refusal :=
  s.fire x.pm fun s f => s.floatRes f x (itof (fmtOf x.ty) x.rm (readInt (tyOfInt src) (s.opA f x)))

/-- FRINT with FN 0 (R205). -/
def execFrint (x : FormA) (s : State) : Host.Outcome State Fault Refusal :=
  s.floatBits x fun _ _ t a _ => frint t x.rm false a

/-- FRINT with FN 1 (R205). -/
def execFrintX (x : FormA) (s : State) : Host.Outcome State Fault Refusal :=
  s.floatBits x fun _ _ t a _ => frint t x.rm true a

end Sys2Proof.Machine
end

