-- ==== Sys2Proof/Machine/System.lean ====
section
/-! DEFINITION. Machine/System.lean: the system instructions (spec 18: R384 to R386) and hems (spec 17: R365, R366). -/

namespace Sys2Proof.Machine

/-! Traps, counters and flags. -/

/-- TRAP (R385): it faults with its code and SA's value; performed again by a retry, it emits SA's value (R376). -/
def execTrap (x : FormX) (code : BitVec 16) (s : State) : Host.Outcome State Fault Refusal :=
  s.fireHeld x.pm fun s f =>
    if f.retry then s.emit0 f x.pm .value (s.opXA f x)
    else s.faultFiring f .trap (code.setWidth 64) (s.opXA f x)

/-- BKPT (R385): a TRAP 0x0801 with its id while the partition's debug enable is set, SA's value otherwise. -/
def execBkpt (x : FormX) (id : BitVec 16) (s : State) : Host.Outcome State Fault Refusal :=
  s.fireHeld x.pm fun s f =>
    if (s.part (s.launch f.launch).part).debug && !f.retry then
      s.faultFiring f .trap (BitVec.ofNat 64 (0x0801 + id.toNat * 2 ^ 16)) (s.opXA f x)
    else s.emit0 f x.pm .value (s.opXA f x)

/-- CYCLE with FN 0 (R385): the A-cycle counter. -/
def execCycle (x : FormX) (s : State) : Host.Outcome State Fault Refusal :=
  s.fire x.pm fun s f => s.emit0 f x.pm .value (BitVec.ofNat 64 s.aCycle)

/-- CYCLE with FN 1 (R385): the stamp counter. -/
def execCycleStamp (x : FormX) (s : State) : Host.Outcome State Fault Refusal :=
  s.fire x.pm fun s f => s.emit0 f x.pm .value (s.stamp.setWidth 64)

/-- METER (R385): the partition's meter on the issuing cluster's die (log 39). -/
def execMeter (x : FormX) (idx : BitVec 5) (s : State) : Host.Outcome State Fault Refusal :=
  s.fire x.pm fun s f =>
    s.emit0 f x.pm .value (getAt s.meters (((s.launch f.launch).part * 4 + f.cl / 128) * 32 + idx.toNat) 0)

/-- YIELD (R385): parks for n A-cycles. -/
def execYield (x : FormX) (n : BitVec 24) (s : State) : Host.Outcome State Fault Refusal :=
  s.fire x.pm fun s f => s.park f (.yield (s.aCycle + n.toNat))

/-- FLAG (R385): ORs its mask into the launch's USER flags, and emits SA's value. -/
def execFlag (x : FormX) (mask : BitVec 16) (s : State) : Host.Outcome State Fault Refusal :=
  s.fireHeld x.pm fun s f =>
    (s.onLaunch f.launch fun y => { y with user := y.user ||| mask }).emit0 f x.pm .value (s.opXA f x)

/-- YIELD_EXPIRY (R385): a YIELD whose A-cycles have passed emits SA's value. -/
def execYieldExpiry (l p : Nat) (s : State) : Host.Outcome State Fault Refusal :=
  .next (match (s.launch l).parkedAt p with
    | none => s
    | some w =>
      match w.why, decode w.firing.word with
      | .yield t, .ok (.yield x _) =>
        if t ≤ s.aCycle ∧ (s.launch l).runs = true ∧ s.roomFor w.firing = true then
          (s.unpark l p).emit0 w.firing x.pm .value (s.opXA w.firing x)
        else s
      | _, _ => s)

/-! System registers (Table 18.5). -/

/-- N-cycles in one microsecond (R5). -/
def perMicro : Nat := 2100

/-- PANEL: the footprint, and the home cluster by its physical place. -/
def State.panelWord (s : State) (l : Nat) : Word :=
  let h := (s.launch l).panel.home
  match s.pattern l with
  | some p => BitVec.ofNat 64 (p.fw + p.fh * 2 ^ 8 + p.fdies * 2 ^ 16 + h / 128 * 2 ^ 24 + h % 128 * 2 ^ 32)
  | none => BitVec.ofNat 64 (h / 128 * 2 ^ 24 + h % 128 * 2 ^ 32)

/-- WDOG: the microseconds before expiry; all ones without a limit (R124). -/
def Launch.wdogLeft (x : Launch) : Word :=
  match x.wdog with
  | some n => BitVec.ofNat 64 ((n * perMicro - x.wdogUsed) / perMicro)
  | none => 0xFFFFFFFF

/-- What SYSRD reads. -/
def State.sysReg (s : State) (f : Firing) (reg : Nat) : Word × State :=
  let x := s.launch f.launch
  match reg with
  | 0 => (BitVec.ofNat 64 (x.qidx + x.pkt % 2 ^ 32 * 2 ^ 16), s)
  | 1 => (BitVec.ofNat 64 x.part, s)
  | 2 => (s.panelWord f.launch, s)
  | 3 => (BitVec.ofNat 64 x.stage, s)
  | 4 => (BitVec.ofNat 64 (3 + s.stepping * 2 ^ 8 + x.panel.compat.toNat * 2 ^ 16), s)
  | 5 => ((s.cluster f.cl).exc.setWidth 64, s)
  | 6 => let (rd, s1) := s.rdidx f.launch
    (BitVec.ofNat 64 (x.wridx % 2 ^ 32 + rd % 2 ^ 32 * 2 ^ 32), s1)
  | 7 => (0, s)
  | 8 => (BitVec.ofNat 64 x.doneTally, s)
  | 9 => (x.wdogLeft, s)
  | 10 => (BitVec.ofNat 64 (x.ovArea.getD 0), s)
  | r => (if 0x100 ≤ r ∧ r < 0x120 then getAt f.consts (r - 0x100) 0 else 0, s)

/-- A write of RDIDX: up to WRIDX, and never lower than it is. -/
def State.writeRdidx (s : State) (l : Nat) (n : Nat) : State :=
  let (rd, s1) := s.rdidx l
  match (s.launch l).ovArea with
  | none => s1
  | some a =>
    if n < rd then s1
    else
      match s1.gWrite (s.faultClient l) (a + 4) (leBytes 4 (min n ((s.launch l).wridx % 2 ^ 32))) .write with
      | .ok s2 => s2
      | .error _ => s1

/-- What SYSWR writes. -/
def State.setSysReg (s : State) (f : Firing) (reg : Nat) (v : Word) : State :=
  if reg = 6 then s.writeRdidx f.launch (v.toNat / 2 ^ 32)
  else if reg = 7 then s.resumeWord f.launch v
  else if 0x100 ≤ reg ∧ reg < 0x120 then
    let n := reg - 0x100
    s.onStation f.cl f.st fun x => { x with consts := setAt x.consts n v 0, modified := x.modified ||| BitVec.ofNat 32 (2 ^ n) }
  else s

/-- SYSRD (R385). -/
def execSysrd (x : FormX) (reg : BitVec 12) (s : State) : Host.Outcome State Fault Refusal :=
  s.fire x.pm fun s f =>
    let (v, s1) := s.sysReg f reg.toNat
    s1.emit0 f x.pm .value v

/-- SYSWR (R385). -/
def execSyswr (x : FormX) (reg : BitVec 12) (s : State) : Host.Outcome State Fault Refusal :=
  s.fireHeld x.pm fun s f => (s.setSysReg f reg.toNat (s.opXA f x)).emit0 f x.pm .completion 0

/-! Hems (R365, R366). -/

/-- The hem tree: each cluster of a panel with its parent, the home cluster being its own. -/
def Panel.hemTree (p : Panel) : List (Nat × Nat) :=
  p.clusters.flatMap fun cs =>
    match smallest cs with
    | none => []
    | some r => (bfsFrom cs r).map fun e => if e.1 = r then (r, p.home) else e

/-- The children of a cluster in the hem tree. -/
def Panel.hemChildren (p : Panel) (cl : Nat) : List Nat :=
  (p.hemTree.filter fun e => decide (e.2 = cl ∧ e.1 ≠ cl)).map Prod.fst

/-- Whether a cluster is the lowest-numbered of its panel on its die. -/
def Panel.lowestOfDie (p : Panel) (cl : Nat) : Bool := p.all.all fun c => decide (c / 128 ≠ cl / 128 ∨ cl ≤ c)

/-- A hem token for a cluster: DIR 0 outbound, 1 inbound (R366). -/
def State.hemToken (s : State) (l cl dir : Nat) (seq : BitVec 8) : Token :=
  let q := (s.launch l).panel.locate cl
  ⟨s.stamp, .hem, 0, 0, BitVec.ofNat 11 (q.2 * 16), 0, 0, ⟨BitVec.ofNat 2 q.1, 0, 0⟩, BitVec.ofNat 64 (dir + seq.toNat * 2 ^ 8)⟩

/-- A hem token sent from one cluster to another: it joins the output queue of the sender's station 0, and travels as every token does
(R159; log 95). -/
def State.sendHem (s : State) (l src cl dir : Nat) (seq : BitVec 8) : State :=
  s.onStation src 0 fun x => { x with outq := x.outq ++ [⟨s.hemToken l cl dir seq, none⟩] }

/-- The home cluster begins a hem. -/
def State.beginHem (s : State) (l : Nat) (why : HemWhy) : State :=
  let x := s.launch l
  let h : Hem := ⟨x.hemSeq, why, x.panel.all.map fun cl => ⟨cl, false, [], [], [], 0, false⟩, false⟩
  (s.onLaunch l fun y => { y with hemSeq := y.hemSeq + 1, hems := y.hems ++ [h] }).arrive x.panel.home
    ⟨l, ⟨s.hemToken l x.panel.home 0 x.hemSeq, none⟩, none, s.nCycle, 4⟩

/-- HEM (R385). -/
def execHem (x : FormX) (s : State) : Host.Outcome State Fault Refusal :=
  s.fireHeld x.pm fun s f => s.beginHem f.launch (.instr f)

/-- Whether a station's instruction is a write (R358). -/
def isWrite (f : Firing) : Bool :=
  match decode f.word with
  | .ok (.stl _ _) => true
  | .ok (.stn _ _) => true
  | .ok (.stg _ _) => true
  | .ok (.feclr _ _) => true
  | .ok (.feset _ _) => true
  | .ok (.amol _ _ _ _) => true
  | .ok (.amog _ _ _ _) => true
  | .ok (.updg _ _ _) => true
  | _ => false

/-- The writes of a cluster's stations that are chosen and not yet performed, and those that its engines have at the portal (R365). -/
def State.openWrites (s : State) (l cl : Nat) : List Nat :=
  (((s.issuedOps l).filter fun o => decide (o.2.cl = cl) && isWrite o.2).map Prod.fst) ++
    (s.portal.filter fun t => decide (t.client.launch = some l ∧ t.client.cl = cl ∧ t.op ≠ .read) && t.answer.isNone).map fun t => t.id

/-- The commands of a cluster's copy engine, spawn slot and tensor unit, by number. -/
def Cluster.openCommands (c : Cluster) : List Nat :=
  ((c.copy.fifo ++ c.copy.active).filter fun p => p.firing.isSome).map (fun p => p.id) ++
    (c.copy.spawn.filterMap fun x => x.firing.opId) ++
    ((c.tensor.fifo ++ c.tensor.aside ++ (c.tensor.cur.map fun r => r.firing).toList).filterMap fun f => f.opId)

/-- An access as an issued write that is not performed. -/
def Acc.issuedWrite (a : Acc) : Option Acc :=
  match a.op with
  | .read => none
  | _ => if a.done then none else some { a with got := [], tx := none }

/-- The issued writes of a list of accesses, with the engine that made them. -/
def issuedWrites (engine : Nat) (as_ : List Acc) : List (Nat × Acc) := (as_.filterMap Acc.issuedWrite).map fun a => (engine, a)

/-- The writes that a cluster's stream operators have issued and, at the lowest-numbered cluster of its die, those of the launch's seam and
unmask contexts there (R365). -/
def State.openEngines (s : State) (l cl : Nat) : List (Nat × Acc) :=
  let x := s.launch l
  let ops := (List.zip (countFrom 0 x.fab.ops.length) x.fab.ops).flatMap fun o =>
    if nth x.panel.all o.2.fcl = some cl then issuedWrites o.1 (o.2.accs ++ o.2.pend.flatMap fun e => e.accs) else []
  let seams := (x.panel.seamKeys.filter fun k => decide (k / 4 = cl / 128)).flatMap fun k => (s.seam k).ctxs.flatMap fun c =>
    issuedWrites (2 ^ 20 + k * 4 + c.1) (c.2.accs ++ c.2.left ++ c.2.inputs.flatMap SeamIn.late)
  let ums := ((s.um (cl / 128)).ctxs.filter fun c => decide (c.2.holder = some l)).flatMap fun c =>
    issuedWrites (2 ^ 21 + c.1) (c.2.queue.flatMap UmCmd.accs)
  if x.panel.lowestOfDie cl then ops ++ seams ++ ums else ops

/-- Changes what a cluster holds of the first hem of a number that meets a test. -/
def Hem.onCl (h : Hem) (cl : Nat) (g : HemCl → HemCl) : Hem :=
  { h with cls := h.cls.map fun c => if c.cl = cl then g c else c }

/-- Whether a hem has been seen at a cluster, or has reported from it. -/
def Hem.at (h : Hem) (cl : Nat) : Option HemCl := h.cls.find? fun c => decide (c.cl = cl)

/-- Replaces the hem at a position. -/
def State.putHem (s : State) (l i : Nat) (h : Hem) : State := s.onLaunch l fun x => { x with hems := setNth x.hems i h }

/-- DIR and HSEQ of a hem token. -/
def Token.hem (t : Token) : Nat × BitVec 8 := (t.payload.toNat % 2, BitVec.ofNat 8 (t.payload.toNat / 2 ^ 8))

/-- HEM_TOKEN_OUTBOUND (R366): a cluster notes its stations' writes, places its marks, and forwards the token to its children;
hems are taken in their order.  The tokens wait for room in the output queue that they join (R150). -/
def execHemTokenOutbound (cl k : Nat) (s : State) : Host.Outcome State Fault Refusal :=
  .next (match nth (s.cluster cl).arrivals k with
    | none => s
    | some a =>
      if a.out.tok.cls ≠ .hem ∨ a.out.tok.hem.1 ≠ 0 then s
      else
        let l := a.launch
        let seq := a.out.tok.hem.2
        let unseen := fun (h : Hem) => match h.at cl with | some c => !c.seen | none => false
        let hs := (s.launch l).hems
        match indexOf unseen hs 0 with
        | none => s.dropArrival cl k
        | some i =>
          match nth hs i with
          | none => s
          | some h =>
            if h.seq ≠ seq then (if hs.any fun g => unseen g && decide (g.seq = seq) then s else s.dropArrival cl k)
            else
              let next := (s.launch l).panel.hemChildren cl
              let g := fun (c : HemCl) =>
                { c with seen := true, notes := s.openWrites l cl, marks := (s.cluster cl).openCommands, writes := s.openEngines l cl }
              if !s.room cl 0 next.length then s
              else next.foldl (fun s c => s.sendHem l cl c 0 seq) ((s.dropArrival cl k).putHem l i (h.onCl cl g)))

/-- A hem completes (R365): HEM emits SA's value, a retirement goes on, a stage switch goes on. -/
def State.hemDone (s : State) (l i : Nat) (h : Hem) : State :=
  let s1 := s.onLaunch l fun x => { x with hems := dropNth x.hems i }
  match h.why with
  | .instr f =>
    match decode f.word with
    | .ok (.hem x) => if s.delivers l then s1.emit0 f x.pm .value (s.opXA f x) else s1
    | _ => s1
  | .retire => s1.onLaunch l fun x => { x with retire := 2 }
  | .stage => s1

/-- What a cluster still waits for of what it noted and marked. -/
def State.hemLeft (s : State) (l : Nat) (c : HemCl) : HemCl :=
  let w := s.openWrites l c.cl
  let m := (s.cluster c.cl).openCommands
  let e := s.openEngines l c.cl
  { c with
    notes := c.notes.filter fun n => decide (n ∈ w)
    marks := c.marks.filter fun n => decide (n ∈ m)
    writes := c.writes.filter fun a => decide (a ∈ e) }

/-- An inbound hem token of a sequence number that has reached a cluster. -/
def State.inboundAt (s : State) (cl hseq : Nat) : Option Nat :=
  indexOf (fun (a : Arrival) => decide (a.out.tok.cls = .hem ∧ a.out.tok.hem.1 = 1 ∧ a.out.tok.hem.2.toNat = hseq)) (s.cluster cl).arrivals 0

/-- The hem of a sequence number that a cluster has seen and not reported, and what the cluster holds of it. -/
def Launch.hemAt (x : Launch) (cl hseq : Nat) : Option (Nat × Hem × HemCl) :=
  (indexOf (fun (h : Hem) => decide (h.seq.toNat = hseq) && (match h.at cl with | some c => c.seen && !c.sent | none => false))
    x.hems 0).bind fun i => (nth x.hems i).bind fun h => (h.at cl).map fun c => (i, h, c)

/-- HEM_TOKEN_INBOUND (R366): a cluster takes in the inbound tokens of its children; once all have come, its noted writes are performed
and its marks have reported, it sends its own, and at the home cluster the hem completes.  A saved launch's hem waits for the restore
(R381). -/
def execHemTokenInbound (l cl hseq : Nat) (s : State) : Host.Outcome State Fault Refusal :=
  .next (let x := s.launch l
    match s.inboundAt cl hseq, (if x.saved.isSome then none else x.hemAt cl hseq) with
    | some k, some (i, h, _) => (s.dropArrival cl k).putHem l i (h.onCl cl fun c => { c with inn := c.inn + 1 })
    | some k, none => s.dropArrival cl k
    | none, none => s
    | none, some (i, h, c) =>
      let c1 := s.hemLeft l c
      let h1 := h.onCl cl fun _ => c1
      if c1.notes = [] ∧ c1.marks = [] ∧ c1.writes = [] ∧ c1.inn = (x.panel.hemChildren cl).length then
        if cl = x.panel.home then s.hemDone l i h1
        else if !s.room cl 0 1 then s.putHem l i h1
        else
          let up := ((x.panel.hemTree.find? fun e => decide (e.1 = cl)).map Prod.snd).getD x.panel.home
          (s.putHem l i (h1.onCl cl fun d => { d with sent := true })).sendHem l cl up 1 h.seq
      else s.putHem l i h1)

end Sys2Proof.Machine
end

