-- ==== Sys2Proof/Machine/Retire.lean ====
section
/-! DEFINITION. Machine/Retire.lean: stop points (Table 18.3), the release of a panel, and retirement (spec 08 R185; spec 19 R387 to
R391). -/

namespace Sys2Proof.Machine

/-! Stop points (R379). -/

/-- Whether a step left the machine as it was, but for the free choices it drew. -/
def State.same (s t : State) : Bool := decide ({ t with freeCtr := s.freeCtr } = s)

/-- Whether a list of accesses in progress cannot go on: each is performed or waits. -/
def State.accsStuck (s : State) (c : Client) (as_ : List Acc) : Bool :=
  !allDone as_ && as_.all fun a => a.done || (match s.accPerform c a with | .wait => true | _ => false)

/-- Whether a cluster's engines have reached their stop points. -/
def State.clusterStopped (s : State) (l cl : Nat) : Bool :=
  let c := s.cluster cl
  let spawn := match c.copy.spawn with
    | k :: _ => k.parked.isSome || k.accs.isEmpty || s.accsStuck (s.clientOf k.firing) k.accs
    | [] => true
  let cur := match c.tensor.cur with
    | some r => r.parked.isSome || r.accs.isEmpty || s.accsStuck (s.clientOf r.firing) r.accs
    | none => true
  c.stations.all (fun e => e.2.slow.isEmpty && e.2.late.isEmpty) && (s.copyActs cl).all (fun a => s.same (s.copyAct cl a)) && spawn && cur &&
    c.tensor.rows.all (fun r => r.parked.isSome || s.accsStuck ⟨some l, (s.launch l).part, cl, true⟩ r.accs) &&
    (c.tensor.outRow.isEmpty || !(s.fab l).canSend (endpoint ((s.launch l).panel.footprint cl) 15 0 0))

/-- Whether a stream operator has reached its stop point. -/
def State.opStopped (s : State) (l : Nat) (o : OpInst) : Bool :=
  o.parked.isSome || (o.acts (s.fab l) false).all fun a => match a with
    | .access => s.accsStuck (s.opClient l o) o.accs
    | .pending k => match nth o.pend k with
      | some e => s.accsStuck (s.opClient l o) e.accs
      | none => true
    | _ => false

/-- Whether a seam context has reached its stop point. -/
def State.seamStopped (s : State) (x : SeamCtx) : Bool :=
  let late := x.inputs.all fun i => allDone i.late || s.accsStuck (s.seamClient x) i.late
  let left := allDone x.left || s.accsStuck (s.seamClient x) x.left
  decide (x.st = .free) || x.parked.isSome || (late && left && (decide (x.phase = .boundary) || s.accsStuck (s.seamClient x) x.accs))

/-- Whether an unmask context has reached its stop point. -/
def State.umStopped (s : State) (x : UmCtx) : Bool :=
  match x.queue with
  | [] => true
  | q :: _ => !q.started || q.parked.isSome || s.accsStuck (s.umClient q) q.accs

/-- Whether every engine of a launch has reached its stop point. -/
def State.stopped (s : State) (l : Nat) : Bool :=
  let x := s.launch l
  x.panel.all.all (s.clusterStopped l) && x.fab.ops.all (s.opStopped l) &&
    x.panel.seamKeys.all (fun k => (s.seam k).ctxs.all fun c => s.seamStopped c.2) &&
    x.panel.dies.all fun d => (s.um d).ctxs.all fun c => decide (c.2.holder ≠ some l) || s.umStopped c.2

/-! Held tokens (Table 7.3). -/

/-- How many tokens a launch holds: what a retirement discards (R185). -/
def State.heldCount (s : State) (l : Nat) : Nat := ((s.items l).countP fun i => i.token) + (s.launch l).gens.length

/-! The release of a panel (R131, R388). -/

/-- Whether a packet belongs to no panel: a queue packet or a weight load, not one that fills a pattern store (R146). -/
def CopyPk.ofQueue (p : CopyPk) : Bool :=
  p.firing.isNone && (match p.sched with
    | some (.fill _) => false
    | _ => true)

/-- The queue packets of an engine that parked on records that are no more are performed again from their faulting line (R241; log 151). -/
def CopyEng.unparkQueue (e : CopyEng) (ids : List Nat) : CopyEng :=
  { e with active := e.active.map fun p => if p.ofQueue && p.parked.any (fun i => decide (i ∈ ids)) then { p with parked := none } else p }

/-- What a copy engine holds of packets that belong to no panel. -/
def CopyEng.queuePart (e : CopyEng) : CopyEng :=
  { CopyEng.blank with queued := e.queued.filter CopyPk.ofQueue, active := e.active.filter CopyPk.ofQueue, turn := e.turn }

/-- The keys of a launch's pool knots (R130). -/
def State.poolKeys (s : State) (l : Nat) : List Nat :=
  (countFrom 0 (((s.pattern l).map Pattern.knots).getD 0)).map (s.launch l).panel.poolKey

/-- A cluster of no panel, in the state of R131; its bank's standing knots, its queue packets and its translation cache stay. -/
def Cluster.vacate (c : Cluster) (pool : List Nat) : Cluster :=
  { Cluster.clear with
    dir := c.dir.filter fun d => decide (d.knot ∉ pool)
    triggers := c.triggers.filter fun t => decide (t.knot ∉ pool)
    fired := c.fired
    tcache := c.tcache
    slots := c.slots
    copy := c.copy.queuePart
    routed := c.routed }

/-- Waiters of a launch leave their knots' counts, and its clusters leave the banks' directories (R339, R382). -/
def State.leaveKnots (s : State) (l : Nat) : State :=
  let cls := (s.launch l).panel.all
  let s1 := (s.launch l).parked.foldl (fun s p => match p.why with
    | .kwait h _ _ => s.addWaiters (knotKey (BitVec.ofNat 64 h)) false 1
    | _ => s) s
  let cut := fun (c : Cluster) => { c with dir := c.dir.filter fun d => decide (d.cl ∉ cls) }
  { s1 with clusters := (s1.clusters.map fun c => (c.1, cut c.2)).filter fun c => decide (c.2 ≠ Cluster.clear) }

/-- Releases a panel's clusters, seam units and pool knots. -/
def State.freePanel (s : State) (l : Nat) : State :=
  let pool := s.poolKeys l
  let p := (s.launch l).panel
  let s1 := p.all.foldl (fun s cl => s.onCluster cl fun c => c.vacate pool) s
  let s2 := p.seamKeys.foldl (fun s k => s.onSeam k fun _ => SeamUnit.blank) s1
  pool.foldl (fun s k => s.setKnot k Knot.blank) s2

/-- Removes everything of a launch that is under way outside its clusters. -/
def State.dropTraffic (s : State) (l : Nat) : State :=
  let cls := (s.launch l).panel.all
  let mine := fun (a : Arrival) => decide (a.launch ≠ l)
  let arr := (s.dieArr.map fun d => (d.1, d.2.filter mine)).filter fun d => decide (d.2 ≠ [])
  { s with
    flits := s.flits.filter fun f => decide (f.srcCl ∉ cls)
    dieArr := arr }

/-! The launch record (R389) and the delta block (R390). -/

/-- The client of a launch queue's scheduler: the home die of the queue (R394). -/
def State.schedClient (s : State) (part q : Nat) : Client := queueClient part (getAt (s.part part).hdie q 0 * 128)

/-- Writes bytes for the scheduler; where the page cannot be written nothing is. -/
def State.schedWrite (s : State) (c : Client) (a : Nat) (bs : List Byte) : State :=
  match s.gWriteAll c a bs with
  | .ok s1 => s1
  | .error _ => s

/-- RACE, ERRATUM and DEPRECATED of a record: what registration warned of the pattern, and the compatibility word in use (Table 19.1). -/
def warnBits (warn : BitVec 8) (compat : BitVec 32) : Nat :=
  (if warn.getLsbD 1 then 2 ^ 18 else 0) + (if compat ≠ 0 then 2 ^ 19 else 0) + (if warn.getLsbD 0 then 2 ^ 20 else 0)

/-- How a launch ended, as its record says (Table 19.1). -/
def Launch.status (x : Launch) : Nat :=
  match x.ending with
  | some .abortFault => 4
  | some .wdogSaved => 5
  | some .drained => 5
  | _ => if x.leftover = 0 then 0 else 1

/-- The words of a retired launch's record (Table 19.1). -/
def Launch.record (x : Launch) (p : Option Pattern) (now : Nat) : List Word :=
  let warn := (p.map Pattern.warn).getD 0
  let extra := x.doneTally - (p.map Pattern.done).getD 0
  [BitVec.ofNat 64 (x.status + (if x.ending = some .wdogSaved then 2 ^ 16 else 0) + (if x.ending = some .drained then 2 ^ 17 else 0) +
      warnBits warn x.panel.compat + x.exc.toNat * 2 ^ 32 + x.user.toNat * 2 ^ 48),
   wordAt x.packet 1,
   BitVec.ofNat 64 (x.leftover % 2 ^ 32 + extra % 2 ^ 32 * 2 ^ 32),
   BitVec.ofNat 64 (x.pkt % 2 ^ 32 + x.qidx * 2 ^ 32 + x.stage * 2 ^ 36),
   BitVec.ofNat 64 x.startA, BitVec.ofNat 64 now,
   BitVec.ofNat 64 ((x.mseq.getD 0xFFFFFFFF) % 2 ^ 32 + x.wridx % 2 ^ 32 * 2 ^ 32),
   BitVec.ofNat 64 (x.preempts % 2 ^ 16)]

/-- The words of a delta block (R390). -/
def Launch.deltaBlock (x : Launch) : List Word :=
  BitVec.ofNat 64 (x.pkt % 2 ^ 32 + x.qidx * 2 ^ 32) :: List.replicate 7 0 ++ (countFrom 0 24).map fun i => getAt x.delta i 0

/-- Writes a launch's delta block when MDRING is set (R390); its energy is an estimate, a free value (log 158). -/
def State.writeDelta (s : State) (l : Nat) : State :=
  let x := s.launch l
  let p := s.part x.part
  let log2 := p.mdring.toNat % 64
  if log2 = 0 then s
  else
    let (mj, s0) := s.choose (2 ^ 32)
    let s1 := s0.onLaunch l fun y => { y with
      delta := setAt (setAt y.delta 18 (BitVec.ofNat 64 mj) 0) 21 (BitVec.ofNat 64 (y.clusterTime / (1000 * perMicro))) 0
      mseq := some p.deltaN }
    (s1.schedWrite (s.schedClient x.part x.qidx) (entryAddr p.mdring + p.deltaN % 2 ^ log2 * 256)
      (bytesOf (s1.launch l).deltaBlock)).onPart x.part fun q => { q with deltaN := q.deltaN + 1 }

/-- The completion knot's add of a launch: KNOTERR is set where the knot is no longer a standing knot of the partition, or is at its
limit (R120).  `frm` is the die of the scheduler that makes it. -/
def State.completionAdd (s : State) (part frm : Nat) (h : Word) : State :=
  match s.engineAdd frm none part h 1 with
  | (.done, s1) => s1
  | (_, s1) => s1.onPart part fun p => { p with knoterr := true }

/-! Handles that a release has made stale once nothing names them (R106). -/

/-- Whether a packet of an enabled launch queue that is published and not consumed names a handle. -/
def State.queuedHandle (s : State) (part : Nat) (h : Word) : Bool :=
  let p := s.part part
  p.lq.any fun e => e.2.getLsbD 0 && (match look p.lqHdr e.1 with
    | some hd =>
      let n := min (ringSize hd.log2) ((s.knot (knotKey hd.publish)).value.toNat - hd.read)
      (countFrom hd.read n).any fun i => match (s.queuePeek (s.schedClient part e.1) (entryAddr e.2) i hd.log2).1 with
        | some w => decide (wordAt w 1 = h)
        | none => false
    | none => false)

/-- A pattern handle (R106). -/
def handleWord (idx part gen : Nat) : Word := BitVec.ofNat 64 (idx + part * 2 ^ 12 + gen * 2 ^ 18)

/-- Frees released patterns that nothing names any more. -/
def State.freeHandles (s : State) : State :=
  let keep := fun (e : Nat × Pattern) => !e.2.released || s.launches.any (fun l => decide (l.2.pat = e.1)) ||
    s.queuedHandle e.2.part (handleWord e.1 e.2.part e.2.gen)
  { s with patterns := s.patterns.filter keep }

/-! Retirement (R387, R388). -/

/-- A launch leaves the machine with its requests and its unmask contexts (R331); what its requests carry for other launches stays
(R347), and queue packets that parked on its records go on. -/
def State.dropLaunch (s : State) (l : Nat) : State :=
  let x := s.launch l
  let ids := x.faults.map fun r => r.id
  let s0 := x.panel.all.foldl (fun s cl => s.onCluster cl fun c => { c with copy := c.copy.unparkQueue ids }) s
  let s1 := x.panel.dies.foldl (fun s d => s.onUm d fun e => e.release l) s0
  { s1 with
    launches := del s1.launches l
    reqs := s1.reqs.filterMap fun q => q.without l
    kreqs := s1.kreqs.filter fun q => decide (q.firing.launch ≠ l)
    portal := s1.portal.filter fun t => decide (t.client.launch ≠ some l) }

/-- Steps 2 to 6 of R388: the flags, the delta block, the record, the release, the completion add. -/
def State.finish (s : State) (l : Nat) (exc : Exc) : State :=
  let x := s.launch l
  let home := x.panel.home / 128
  let s1 := (s.onLaunch l fun y => { y with exc := y.exc ||| exc }).writeDelta l
  let rec_ := !((wordAt x.packet 0).getLsbD 9 && decide (x.status = 0))
  let s2 := if rec_ then
      (s1.schedWrite (s1.schedClient x.part x.qidx) x.recAddr (bytesOf ((s1.launch l).record (s1.pattern l) s1.aCycle))).meterPart
        x.part home 22 1
    else s1
  let s3 := if x.st = .saved then s2 else (s2.leaveKnots l).freePanel l
  let s4 := s3.dropTraffic l
  let mine := fun (a : Nat × Nat × Nat × Nat) => decide (a.2.2 = (x.qidx, x.pkt))
  let s5 := if x.status < 2 ∧ (s4.part x.part).keepovf = false then
      s4.onPart x.part fun p => { p with ovAreas := p.ovAreas.filter fun a => !mine a }
    else s4
  ((s5.dropLaunch l).completionAdd x.part ((s.schedClient x.part x.qidx).cl / 128) (wordAt x.packet 6)).freeHandles

/-- The exception flags of a panel's clusters, and those that its save holds, ORed (R50). -/
def State.panelExc (s : State) (l : Nat) : Exc :=
  let saved := ((s.launch l).saved.map Saved.clusters).getD []
  saved.foldl (fun e c => e ||| c.2.exc) ((s.launch l).panel.all.foldl (fun e cl => e ||| (s.cluster cl).exc) 0)

/-- Writes the fault records that wait, while the queue has room. -/
def State.flushFaults (l : Nat) : Nat → State → State
  | 0, s => s
  | n + 1, s => State.flushFaults l n (s.faultWrite l)

/-- Every fault's record written or rewritten, while the queue has room. -/
def State.flush (s : State) (l : Nat) : State := State.flushFaults l (2 * (s.launch l).faults.length) s

/-- A cluster whose held tokens, commands and effects have been discarded (R185). -/
def Cluster.discardAll (c : Cluster) : Cluster :=
  { c with
    empty := []
    remnant := []
    arrivals := []
    stations := c.stations.map fun x => (x.1, { x.2 with
      table := [], outq := [], slow := [], late := [], marks := [], held := [], deferred := [], heldFlags := [] })
    arbs := []
    copy := c.copy.queuePart
    tensor := { c.tensor with fifo := [], cur := none, aside := [], ready := 0, outRow := [], rows := [] } }

/-- Parked records of a launch become discarded (R185, step 4). -/
def Launch.discardFaults (x : Launch) : Launch :=
  { x with faults := x.faults.map fun r => if r.state = .parked then { r with state := .discarded } else r }

/-- Parked operations are performed next, in the order in which they parked: the loads and atomics that waited for a line (R185, step 4),
whose replies are discarded. -/
def State.performParked (s : State) (l : Nat) (ps : List Parked) : State :=
  let ids := ps.map fun p => p.id
  { s.onLaunch l (fun x => { x with parked := x.parked.filter fun p => decide (p.id ∉ ids) }) with
    agenda := s.agenda ++ ps.map fun p => .perform { p.firing with retry := true } }

/-- Steps 4 to 6 of R185: lines become full and what waited for them is performed, parked operations are abandoned, and held tokens
and effects are discarded and counted; a release that waits for an abandoned write, or whose sweep would have captured one, is never
applied (R359, R368). -/
def State.abandon (s : State) (l : Nat) : State :=
  let line := fun (p : Parked) => match p.why with
    | .line _ _ => true
    | _ => false
  let s1 := s.performParked l ((s.launch l).parked.filter line)
  let x := s1.launch l
  let cmds := x.panel.all.flatMap fun cl => (s1.cluster cl).openCommands
  let gone := x.parked.map (fun p => p.id) ++ cmds ++ x.dropped
  let n := s1.heldCount l
  let s2 := x.parked.foldl (fun s p => s.discardParked l p) s1
  let s3 := x.panel.all.foldl (fun s cl => s.onCluster cl Cluster.discardAll) (s2.dropTraffic l)
  let s4 := x.panel.seamKeys.foldl (fun s k => s.onSeam k fun _ => SeamUnit.blank) s3
  let s5 := x.panel.dies.foldl (fun s d => s.onUm d fun e => e.release l) s4
  let never := fun (q : KReq) => decide (q.firing.launch = l) &&
    (q.captured.getD (if q.release then s1.capture q.firing q.handle else [])).any fun i => decide (i ∈ gone)
  { s5.onLaunch l (fun y => { y.discardFaults with
      leftover := y.leftover + n, gens := [], ovf := [], hems := [], cfg := none, freeze := none, fab := StreamFab.blank }) with
    kreqs := s5.kreqs.filter fun q => !never q }

/-- Whether a launch's DONE tally has reached its declared count (R387). -/
def State.tallied (s : State) (l : Nat) : Bool :=
  match s.pattern l with
  | some p => decide (p.done ≤ (s.launch l).doneTally)
  | none => false

/-- Whether a launch meets R387. -/
def State.mayRetire (s : State) (l : Nat) : Bool :=
  s.tallied l && s.quiescent l && !s.stageWaits l && (s.launch l).cfg.isNone && decide ((s.launch l).ending = none)

/-- RETIREMENT (R185, R375, R387, R388): the retirement hem is begun once the conditions of R387 hold, or once the engines of a
forced or aborted launch have stopped; after it, the launch is retired.  An expiry of the watchdog that came first decides (R382).  A
reduction wave that asks clears the touched bits. -/
def execRetirement (l : Nat) (s : State) : Host.Outcome State Fault Refusal :=
  .next (let x := s.launch l
    if x.st = .retiring then
      if x.retire = 2 ∧ (s.reqs.all fun q => !q.ofLaunch l) = true ∧
          (s.kreqs.all fun q => decide (q.firing.launch ≠ l)) = true ∧
          (s.portal.all fun t => decide (t.client.launch ≠ some l) || t.answer.isSome) = true then
        let s1 := s.flush l
        s1.finish l (s1.panelExc l)
      else s
    else if (x.st ≠ .running ∧ x.st ≠ .freezing) ∨ x.expired = true then s
    else if x.ending = some .forced ∨ x.ending = some .abortFault then
      if s.stopped l then
        ((s.abandon l).onLaunch l fun y => { y with st := .retiring, retire := 1 }).beginHem l .retire
      else s
    else if s.mayRetire l then
      let s1 := s.flush l
      if s1.mayRetire l then
        (s1.onLaunch l fun y => { y with st := .retiring, retire := 1, ending := some .normal, freeze := none }).beginHem l .retire
      else s1
    else if s.tallied l then s.clearTouched l
    else s)

end Sys2Proof.Machine
end

