-- ==== Sys2Proof/Machine/Preempt.lean ====
section
/-! DEFINITION. Machine/Preempt.lean: freezing, saving and restoring a panel, and the watchdog (spec 18: R378 to R383). -/

namespace Sys2Proof.Machine

/-! Areas of a pool. -/

/-- Whether a span overlaps none of the areas taken. -/
def spanFree (areas : List (Nat × Nat × Nat × Nat)) (a n : Nat) : Bool := areas.all fun e => decide (a + n ≤ e.1 ∨ e.1 + e.2.1 ≤ a)

/-- The lowest 64-byte aligned place for `size` bytes in a pool beside the areas taken. -/
def carve (base len size : Nat) (areas : List (Nat × Nat × Nat × Nat)) : Option Nat :=
  let up := fun (a : Nat) => (a + 63) / 64 * 64
  let ok := fun (a : Nat) => decide (base ≤ a ∧ a + size ≤ base + len) && spanFree areas a size
  smallest ((up base :: areas.map fun e => up (e.1 + e.2.1)).filter ok)

/-- The size of a save area (R380). -/
def saveSize (clusters : Nat) : Nat := 2560 * 1024 * clusters + 256 * 1024

/-- The save area that a launch holds, or a new one from its partition's save pool. -/
def State.saveArea (s : State) (l : Nat) : Option (Nat × State) :=
  let x := s.launch l
  let p := s.part x.part
  match p.svAreas.find? fun a => decide (a.2.2 = (x.qidx, x.pkt)) with
  | some a => some (a.1, s)
  | none =>
    let n := saveSize x.panel.all.length
    match carve p.svpool.toNat p.svlen.toNat n p.svAreas with
    | some a => some (a, s.onPart x.part fun q => { q with svAreas := q.svAreas ++ [(a, n, x.qidx, x.pkt)] })
    | none => none

/-! Freezing (R378). -/

/-- The freeze wave: stations stop choosing; the freeze is counted.  Its bound counts from `since`. -/
def State.startFreeze (s : State) (l : Nat) (watchdog : Bool) (since : Nat) : State :=
  (s.onLaunch l fun x => { x with st := .freezing, freeze := some ⟨since, watchdog⟩, preempts := x.preempts + 1 }).meter l
    ((s.launch l).panel.home / 128) 19 1

/-- A freeze is asked for (R144): it cancels a switch whose hem has not passed, and waits for a switch that has. -/
def State.askFreeze (s : State) (l : Nat) (watchdog : Bool) : State :=
  let x := s.launch l
  if x.cfg.isSome && !x.switchHem then s.onLaunch l fun y => { y with freeze := some ⟨s.nCycle, watchdog⟩ }
  else (s.onLaunch l fun y => { y with cfg := none, hems := y.hems.filter fun h => decide (h.why ≠ .stage) }).startFreeze l watchdog s.nCycle

/-- Whether a panel may be a victim (R135, R380): it runs, is not being frozen, and finds room in the save pool. -/
def State.mayFreeze (s : State) (l : Nat) : Bool :=
  let x := s.launch l
  decide (x.st = .running ∧ x.ending = none) && x.freeze.isNone && (s.saveArea l).isSome

/-- FREEZE (R135, R378): the scheduler takes a save area and begins the freeze. -/
def execFreeze (l : Nat) (s : State) : Host.Outcome State Fault Refusal :=
  .next (if s.mayFreeze l then
    match s.saveArea l with
    | some (_, s1) => s1.askFreeze l false
    | none => s
  else s)

/-- The freeze bound in N-cycles: 25 µs, and 0.5 µs for each cluster above 32. -/
def freezeBound (clusters : Nat) : Nat := 25 * perMicro + (clusters - 32) * (perMicro / 2)

/-- Whether a control token waits at its slot for an effect that goes on after the freeze: its event changes nothing. -/
def State.heldControl (s : State) (cl k : Nat) (cls : TokClass) : Bool :=
  match (if cls = .commit then execCommitTokenArrival cl k s else execKillTokenArrival cl k s) with
  | .next t => s.same t
  | _ => false

/-- Whether an arrival can only wait during a freeze: a hem token, an operand or a row-stream token that finds no entry, a control token
whose slot waits, or one that stands behind such a token. -/
def State.heldArrival (s : State) (l cl k : Nat) : Bool :=
  match nth (s.cluster cl).arrivals k with
  | some a => decide (a.out.tok.cls = .hem) || behindSame (s.cluster cl).arrivals k || behindLane (s.cluster cl).arrivals k ||
      (decide (a.out.tok.cls = .commit ∨ a.out.tok.cls = .kill) && s.heldControl cl k a.out.tok.cls) ||
      (decide (a.out.eng = none) && a.out.tok.cls.operand && decide (s.otherStage l a.out.tok = none) && !s.fits l cl a.out) ||
      (match a.out.rowPort with
        | some t => !s.rowFits l cl t a.out.tok
        | none => false)
  | none => true

/-- Whether a cluster has no token on its way. -/
def State.drained (s : State) (l cl : Nat) : Bool :=
  let c := s.cluster cl
  c.stations.all (fun x => x.2.outq.isEmpty && x.2.slow.isEmpty && x.2.late.isEmpty) && (countFrom 0 c.arrivals.length).all (s.heldArrival l cl)

/-- Whether a knot request is a release that waits for a parked write: it is saved so (R369). -/
def State.waitsParked (s : State) (q : KReq) : Bool :=
  s.behind q || (match q.captured with
    | some ids => q.release && !s.allPerformed q.firing.launch ids
    | none => false)

/-- Whether a panel is frozen (R378): tokens are delivered, requests complete, engines at their stop points, fired packets issued. -/
def State.frozen (s : State) (l : Nat) : Bool :=
  let x := s.launch l
  let pool := s.poolKeys l
  x.panel.all.all (s.drained l) && s.flits.all (fun f => decide (f.srcCl ∉ x.panel.all)) &&
    s.dieArr.all (fun d => d.2.all fun a => decide (a.launch ≠ l)) && s.reqs.all (fun q => !q.ofLaunch l) &&
    s.kreqs.all (fun q => decide (q.firing.launch ≠ l) || s.waitsParked q) &&
    x.panel.all.all (fun cl => (s.cluster cl).fired.all fun t => decide (t.knot ∉ pool)) && s.stopped l

/-! The save (R380). -/

/-- What a save holds of a cluster. -/
def Cluster.portable (c : Cluster) (pool : List Nat) : Cluster :=
  { c with
    dir := []
    triggers := c.triggers.filter fun t => decide (t.knot ∈ pool)
    fired := []
    tcache := []
    store := []
    storeMem := []
    slots := []
    copy := { c.copy with queued := [], active := c.copy.active.filter fun p => p.firing.isSome }
    sendSeq := []
    credits := []
    expect := []
    owed := []
    starve := none
    routed := false
    lanes := 0
    down := false }

/-- The 64-byte header of a save area (R380). -/
def saveHeader (stepping clusters : Nat) (digest : BitVec 384) : List Byte :=
  leBytes 4 0x594B5356 ++ leBytes 2 stepping ++ leBytes 2 clusters ++ leBytes 8 (saveSize clusters) ++ digestBytes digest

/-- A save area: its header, then a remainder in the stepping's own form (R380; log 21), in which its tokens have the layout of R9. -/
def saveImage (stepping clusters fill : Nat) (toks : List Token) : List Byte :=
  let free := (countFrom 0 (saveSize clusters - 64)).map (Config.saveByte fill)
  let images := toks.flatMap fun t => leBytes 16 t.bits.toNat
  let at_ := 16 * (Config.savePlace fill % ((free.length - images.length) / 16 + 1))
  let rest := (free.take at_ ++ images ++ free.drop (at_ + images.length)).take free.length
  saveHeader stepping clusters (sha384 rest) ++ rest

/-- The key ids of a partition that hold key material. -/
def State.loadedKeys (s : State) (part : Nat) : List (Nat × KeySlot) :=
  s.keys.filter fun k => decide (k.2.owner = some part) && k.2.loaded

/-- A YIELD's end counted from now, or from a number of A-cycles (R385). -/
def Parked.shiftYield (p : Parked) (g : Nat → Nat) : Parked :=
  match p.why with
  | .yield t => { p with why := .yield (g t) }
  | _ => p

/-- The tokens that a save holds (R378, R380): in the clusters' stations, stores and engines, those on their way, the operands of parked
operations, generators and held effects, and those at the seam units. -/
def State.savedTokens (s : State) (l : Nat) : List Token :=
  let x := s.launch l
  let ops := fun (f : Firing) => f.held.map fun h => h.tok
  (x.panel.all.flatMap fun cl =>
    let c := s.cluster cl
    (c.stations.flatMap fun e => e.2.tokens ++ e.2.held.flatMap fun h => ops h.firing ++ (h.tok.map fun t => t.tok).toList) ++
      c.engineTokens ++ (c.arrivals.map fun a => a.out.tok) ++ c.remnant.map fun r => r.tok) ++
    (x.parked.flatMap fun p => ops p.firing) ++ (x.gens.flatMap fun g => ops g.firing) ++
    x.panel.seamKeys.flatMap fun k => (s.seam k).ports.flatMap fun q => q.2.queue.map fun t => t.tok

/-- Saves a frozen panel in an area and releases its clusters, seam units and pool knots. -/
def State.saveTo (s : State) (l base : Nat) : State :=
  let x := s.launch l
  let pool := s.poolKeys l
  let now := s.aCycle
  let s1 := s.leaveKnots l
  let cs := x.panel.all.map fun cl => (cl, (s1.cluster cl).portable pool)
  let us := x.panel.seamKeys.map fun k => (k, s1.seam k)
  let ks := pool.map fun k => (k, s1.knot k)
  let sv : Saved := ⟨s.stamp, cs, us, ks, base, s1.freeCtr, s.savedTokens l, false, s.stepping, x.part, s.loadedKeys x.part⟩
  let s2 := { s1.freePanel l with freeCtr := s1.freeCtr + 1 }
  let s3 := s2.schedWrite (s2.schedClient x.part x.qidx) base (saveImage s.stepping x.panel.all.length sv.fill sv.tokens)
  let s4 := x.panel.dies.foldl (fun s d => s.onUm d fun e => e.save l) s3
  s4.onLaunch l fun y => { y with
    st := .saved
    saved := some sv
    freeze := none
    since := s.nCycle
    blockedAt := none
    parked := y.parked.map fun p => p.shiftYield fun t => t - now }

/-- The source fields of a WATCHDOG record. -/
def watchdogSrc (stage : Nat) : FaultSrc := ⟨0, 0, 0x7FF, 0, 0, stage, none, 0, 0, 0, 0⟩

/-- A WATCHDOG record, written while the queue has room (R382). -/
def State.watchdogRecord (s : State) (l : Nat) (detail : Word) : State :=
  (s.newFault l .watchdog detail 0 (watchdogSrc (s.launch l).stage) false 0 .final).flush l

/-- Whether a freeze has passed its bound (R378, R382). -/
def State.boundPassed (s : State) (x : Launch) (z : Freeze) : Bool := decide (freezeBound x.panel.all.length ≤ s.nCycle - z.since)

/-- SAVE_LAUNCH (R380, R382): a frozen panel is saved; for the watchdog, within the freeze bound, and its launch then retires. -/
def execSaveLaunch (l : Nat) (s : State) : Host.Outcome State Fault Refusal :=
  .next (let x := s.launch l
    match x.freeze with
    | none => s
    | some z =>
      if x.st ≠ .freezing ∨ x.ending ≠ none ∨ (z.watchdog && s.boundPassed x z) = true ∨ s.frozen l = false then s
      else
        match s.saveArea l with
        | none => s
        | some (base, s1) =>
          if z.watchdog then
            let exc := s1.panelExc l
            (((s1.saveTo l base).onLaunch l fun y => { y with ending := some .wdogSaved }).watchdogRecord l 0).finish l exc
          else s1.saveTo l base)

/-! The restore (R381). -/

/-- A token's AGE set to the current stamp less its distance behind the stamp at the freeze (R381). -/
def Token.retime (was now : BitVec 16) (t : Token) : Token := { t with age := now - BitVec.ofNat 16 (min (was - t.age).toNat 16384) }

/-- A held operand's AGE. -/
def Held.retime (was now : BitVec 16) (h : Held) : Held := { h with tok := h.tok.retime was now }

/-- A firing's operands' AGEs. -/
def Firing.retime (was now : BitVec 16) (f : Firing) : Firing :=
  let g := Held.retime was now
  { f with a := f.a.map g, b := f.b.map g, c := f.c.map g, p := f.p.map g }

/-- A token on its way. -/
def OutTok.retime (was now : BitVec 16) (o : OutTok) : OutTok := { o with tok := o.tok.retime was now }

/-- A station's tokens' AGEs. -/
def Station.retime (was now : BitVec 16) (x : Station) : Station :=
  { x with
    table := x.table.map (Held.retime was now)
    held := x.held.map fun h => { h with firing := h.firing.retime was now, tok := h.tok.map (OutTok.retime was now) } }

/-- A cluster's tokens' AGEs. -/
def Cluster.retime (was now : BitVec 16) (c : Cluster) : Cluster :=
  { c with
    stations := c.stations.map fun x => (x.1, x.2.retime was now)
    remnant := c.remnant.map fun r => { r with tok := r.tok.retime was now }
    arrivals := c.arrivals.map fun a => { a with out := a.out.retime was now }
    copy := { c.copy with ord := c.copy.ord.map (Token.retime was now) }
    tensor := { c.tensor with rows := c.tensor.rows.map fun r => { r with tok := r.tok.retime was now } } }

/-- Whether an offset of a cluster's memory lies in a `.discard` range (R212). -/
def Pattern.discards (pat : Pattern) (p : Panel) (cl off : Nat) : Bool :=
  pat.ranges.any fun r => r.dsc && (match r.space with
    | .l => r.has off 1
    | .n => r.has (p.nAddr cl off) 1
    | _ => false)

/-- A cluster written back: its saved state, beside what stands there of its bank, its queue packets and its translation cache. -/
def Cluster.putBack (cur c : Cluster) (pat : Option Pattern) (p : Panel) (cl : Nat) : Cluster :=
  let keep := fun (off : Nat) => match pat with
    | some q => !q.discards p cl off
    | none => true
  { c with
    owner := cur.owner
    mem := c.mem.filter fun e => keep e.1
    empty := c.empty.filter fun e => keep (e.1 * 128)
    dir := cur.dir
    triggers := cur.triggers ++ c.triggers
    fired := cur.fired
    tcache := cur.tcache
    slots := cur.slots
    store := cur.store
    storeMem := cur.storeMem
    copy := { c.copy with queued := cur.copy.queued, active := c.copy.active ++ cur.copy.active, turn := cur.copy.turn }
    routed := cur.routed }

/-- Whether every station of a panel's clusters is loaded. -/
def Launch.allLoaded (x : Launch) : Bool :=
  match x.cfg with
  | some g => x.panel.all.all fun cl => (countFrom 0 16).all fun n => decide (cl * 16 + n ∈ g.loaded)
  | none => false

/-- A launch's saved state written back to its former place, `.discard` ranges being zero and full; the ages of its tokens, those of its
overflow area among them, keep their distances (R381). -/
def State.writeBack (s : State) (l : Nat) (v : Saved) : State :=
  let x := s.launch l
  let pat := s.pattern l
  let s1 := v.clusters.foldl (fun s c => s.onCluster c.1 fun cur =>
    cur.putBack (c.2.retime v.stamp s.stamp) pat x.panel c.1) s
  let port := fun (q : SeamPort) => { q with queue := q.queue.map (OutTok.retime v.stamp s.stamp) }
  let unit := fun (u : SeamUnit) => { u with ports := u.ports.map fun q => (q.1, port q.2) }
  let s2 := v.seams.foldl (fun s u => s.onSeam u.1 fun _ => unit u.2) s1
  let s3 := v.knots.foldl (fun s k => s.setKnot k.1 k.2) s2
  let s4 := s3.setOvf l (x.ovf.map fun o => { o with tok := o.tok.retime v.stamp s.stamp })
  s4.onLaunch l fun y => { y with
    saved := none
    gens := y.gens.map fun g => { g with firing := g.firing.retime v.stamp s.stamp }
    parked := y.parked.map fun p =>
      { p.shiftYield (fun t => t + s.aCycle) with firing := p.firing.retime v.stamp s.stamp } }

/-- RESTORE_LAUNCH (R381, step 3): with its stations loaded, a launch's saved state is written back. -/
def execRestoreLaunch (l : Nat) (s : State) : Host.Outcome State Fault Refusal :=
  .next (let x := s.launch l
    match x.saved with
    | none => s
    | some v => if x.st ≠ .restoring ∨ x.allLoaded = false then s else s.writeBack l v)

/-- Waiters send their waits again (R351), and the resumes recorded meanwhile are carried out (R377). -/
def State.wakeRestored (s : State) (l : Nat) : State :=
  let ws := (s.launch l).parked.filterMap fun p => match p.why with
    | .kwait h v _ => some (p, BitVec.ofNat 64 h, BitVec.ofNat 64 v)
    | _ => none
  (ws.foldl (fun s w => (s.unpark l w.1.id).knotRequest w.1.firing w.2.1 (.wait w.2.2) false) s).carryPending l

/-! The watchdog (R382, R383). -/

/-- WATCHDOG_EXPIRY (R382): the panel is frozen, or the freeze under way becomes the watchdog's; a retirement under way gets the
freeze bound to complete in (R185; log 42). -/
def execWatchdogExpiry (l : Nat) (s : State) : Host.Outcome State Fault Refusal :=
  .next (let x := s.launch l
    match x.wdog with
    | none => s
    | some n =>
      if x.wdogUsed < n * perMicro ∨ (x.st ≠ .running ∧ x.st ≠ .freezing ∧ x.st ≠ .retiring) then s
      else
        match x.freeze with
        | some z => s.onLaunch l fun y => { y with freeze := some { z with watchdog := true } }
        | none =>
          if x.ending = none then s.askFreeze l true
          else s.onLaunch l fun y => { y with freeze := some ⟨s.nCycle, true⟩ })

/-- A drain (R382): everything of the panel stops, its requests are abandoned, its tokens are discarded and counted, those of a save that
was being restored among them, and its launch retires.  What is issued is performed before the drain or never. -/
def State.drain (s0 : State) (l : Nat) : State :=
  let s := match (s0.launch l).saved with
    | some v => s0.writeBack l v
    | none => s0
  let n := s.heldCount l
  let exc := s.panelExc l
  let s1 := s.onLaunch l fun y => { y.discardFaults with leftover := y.leftover + n, ending := some .drained, cfg := none }
  (s1.watchdogRecord l 1).finish l exc

/-- FREEZE_BOUND_EXPIRY (R382): a watchdog's freeze that has passed its bound is drained (log 41), one that still waits for a switch to end
among them (R144). -/
def execFreezeBoundExpiry (l : Nat) (s : State) : Host.Outcome State Fault Refusal :=
  .next (let x := s.launch l
    match x.freeze with
    | none => s
    | some z =>
      if (x.st ≠ .freezing ∧ x.st ≠ .running ∧ x.ending = none) ∨ z.watchdog = false then s
      else if s.boundPassed x z then s.drain l
      else s)

end Sys2Proof.Machine
end

