-- ==== Sys2Proof/Machine/Place.lean ====
section
/-! DEFINITION. Machine/Place.lean: where a footprint is placed (spec 06: R125 to R131, R135, R145 to R147). -/

namespace Sys2Proof.Machine

/-! Legal placements (R127, R128). -/

/-- What a placement needs: the footprint, the dies allowed, whether only rectangles, and the seam instances per panel die. -/
structure Want where
  fw : Nat
  fh : Nat
  fdies : Nat
  diemask : Nat
  rect : Bool
  seams : List (List Nat)
  deriving DecidableEq, Repr

/-- A placement: physical dies, clusters of each in ascending order, and seam units of each by instance. -/
structure Place where
  dies : List Nat
  clusters : List (List Nat)
  seams : List (List (Nat × Nat))
  deriving DecidableEq, Repr

/-- The dies of a 4-bit mask, ascending. -/
def diesOf (mask : Nat) : List Nat := (countFrom 0 4).filter fun d => mask.testBit d

/-- The candidate die sets, in ascending order of their masks: allowed dies, and no diagonal pair. -/
def Want.dieSets (w : Want) : List (List Nat) :=
  (((countFrom 1 15).filter fun m => decide (m ≠ 6 ∧ m ≠ 9)).map diesOf).filter fun ds =>
    decide (ds.length = w.fdies) && ds.all fun d => decide (w.diemask = 0) || w.diemask.testBit d

/-- The rectangle of a footprint at an origin, if every cluster of it is free. -/
def rectAt (free : Nat → Bool) (fw fh die o : Nat) : Option (List Nat) :=
  let x := o % 16
  let y := o / 16
  if x + fw ≤ 16 ∧ y + fh ≤ 8 then
    let cs := (countFrom 0 fh).flatMap fun j => (countFrom 0 fw).map fun i => die * 128 + (y + j) * 16 + x + i
    if cs.all free then some cs else none
  else none

/-- The first free rectangle of a die. -/
def rectOn (free : Nat → Bool) (fw fh die : Nat) : Option (List Nat) :=
  (countFrom 0 128).findSome? (rectAt free fw fh die)

/-- Inserts a number in ascending order. -/
def insertNat (n : Nat) : List Nat → List Nat
  | [] => [n]
  | x :: xs => if n ≤ x then n :: x :: xs else x :: insertNat n xs

/-- Numbers in ascending order. -/
def sortNats (xs : List Nat) : List Nat := xs.foldr insertNat []

/-- The connected placement of a die: breadth-first from the lowest-numbered cluster whose component is large enough. -/
def connectedOn (free : Nat → Bool) (n die : Nat) : Option (List Nat) :=
  let cs := ((countFrom 0 128).map fun c => die * 128 + c).filter free
  cs.findSome? fun c =>
    let comp := (bfsFrom cs c).map Prod.fst
    if n ≤ comp.length then some (sortNats (comp.take n)) else none

/-- Maps the seam instances of one panel die to free units, lowest first (R129). -/
def seamsOn (free : Nat → Bool) (die : Nat) (insts : List Nat) : Option (List (Nat × Nat)) :=
  let us := (countFrom 0 4).filter fun u => free (die * 4 + u)
  if insts.length ≤ us.length then some (insts.zip us) else none

/-- Every element's answer, or none. -/
def allSome {α : Type} : List (Option α) → Option (List α)
  | [] => some []
  | none :: _ => none
  | some x :: xs => (allSome xs).map (x :: ·)

/-- What of the package a placement may take: which die sets have the circuit channels (R281), the clusters and the seam units that are
free, and which lists of clusters have the pool's knots free (R334). -/
structure Room where
  sets : List Nat → Bool
  cluster : Nat → Bool
  seam : Nat → Bool
  pool : List Nat → Bool

/-- The placement of a die set under one way of choosing a die's clusters; where its pool knots are not free, no other choice of clusters
is tried on that set (R128, R334; log 156). -/
def Want.placeOn (w : Want) (r : Room) (on : Nat → Option (List Nat)) (ds : List Nat) : Option Place :=
  match allSome (ds.map on), allSome ((ds.zip w.seams).map fun p => seamsOn r.seam p.1 p.2) with
  | some cs, some us => if r.pool cs.flatten then some ⟨ds, cs, us⟩ else none
  | _, _ => none

/-- The first legal placement (R128), with its rank: 0 for a rectangle, 1 for a connected placement. -/
def Want.find (w : Want) (r : Room) : Option (Nat × Place) :=
  let sets := w.dieSets.filter r.sets
  match sets.findSome? (w.placeOn r (rectOn r.cluster w.fw w.fh)) with
  | some p => some (0, p)
  | none =>
    if w.rect then none
    else (sets.findSome? (w.placeOn r (connectedOn r.cluster (w.fw * w.fh)))).map fun p => (1, p)

/-! Circuits (R281). -/

/-- The footprint cluster of an endpoint. -/
def endCluster (e : Nat) : Nat := e / 2 ^ 15

/-- Whether an endpoint is a seam input. -/
def atSeam (e : Nat) : Bool := decide (e / 2 ^ 10 % 32 = 16)

/-- Whether a pattern holds a circuit between two clusters of one panel die: it is placed as if SHAPE were 1. -/
def Pattern.meshed (p : Pattern) : Bool :=
  let per := p.fw * p.fh
  p.stages.any fun g => g.circuits.any fun c => !atSeam c.to_ && decide (endCluster c.from_ ≠ endCluster c.to_ ∧
    endCluster c.from_ / per = endCluster c.to_ / per)

/-- The UCIe edges, each as two physical dies, from one die of a set to another (R164). -/
def dieEdges (dies : List Nat) (a b : Nat) : List (Nat × Nat) :=
  if a = b then []
  else
    let m := nextDie dies a b
    if m = b then [(a, b)] else [(a, m), (m, b)]

/-- The circuits of a stage that cross a UCIe edge under a die map. -/
def channelsOn (p : Pattern) (dies : List Nat) (g : StageImg) (e : Nat × Nat) : Nat :=
  let per := p.fw * p.fh
  g.circuits.countP fun c => match nth dies (endCluster c.from_ / per), nth dies (endCluster c.to_ / per) with
    | some a, some b => decide (e ∈ dieEdges dies a b)
    | _, _ => false

/-- The circuit channels that a pattern takes of a UCIe edge, in one direction: those of its largest stage. -/
def Pattern.channels (p : Pattern) (dies : List Nat) (e : Nat × Nat) : Nat :=
  (p.stages.map fun g => channelsOn p dies g e).foldl max 0

/-- The UCIe edges between edge-neighbour dies, in each direction. -/
def ucieEdges : List (Nat × Nat) := [(0, 1), (1, 0), (0, 2), (2, 0), (1, 3), (3, 1), (2, 3), (3, 2)]

/-! What is free. -/

/-- Whether a launch holds a panel. -/
def Launch.holdsPanel (x : Launch) : Bool :=
  decide (x.st = .configuring ∨ x.st = .running ∨ x.st = .freezing ∨ x.st = .restoring ∨ x.st = .retiring)

/-- Whether a cluster is of a partition's allotment, on a die that is not held in reset (R410), and held by no panel, or by one of some
launches. -/
def State.clusterFree (s : State) (part : Nat) (besides : List Nat) (cl : Nat) : Bool :=
  (s.part part).allot.getLsbD cl && !s.dieReset.getLsbD (cl / 128) && (match (s.cluster cl).owner with
    | none => true
    | some l => decide (l ∈ besides))

/-- Whether a seam unit is held by no panel, or by one of some launches. -/
def State.seamFree (s : State) (besides : List Nat) (k : Nat) : Bool :=
  s.launches.all fun e => !e.2.holdsPanel || decide (e.1 ∈ besides) || decide (k ∉ e.2.panel.seamKeys)

/-- The circuit channels of a UCIe edge that panels take, besides those of some launches. -/
def State.channelsUsed (s : State) (besides : List Nat) (e : Nat × Nat) : Nat :=
  (s.launches.map fun x => if x.2.holdsPanel ∧ x.1 ∉ besides then ((s.pattern x.1).map fun p => p.channels x.2.panel.dies e).getD 0
    else 0).foldl (· + ·) 0

/-- Whether a die set has the circuit channels that a launch needs, 32 in each direction of each UCIe edge (R281). -/
def State.channelsOk (s : State) (l : Nat) (besides dies : List Nat) : Bool :=
  match s.pattern l with
  | some p => ucieEdges.all fun e => decide (p.channels dies e = 0 ∨ p.channels dies e + s.channelsUsed besides e ≤ 32)
  | none => true

/-- What a launch's placement needs. -/
def State.wantOf (s : State) (l : Nat) : Option Want :=
  let x := s.launch l
  let w2 := (wordAt x.packet 2).toNat
  (s.pattern l).map fun p => ⟨p.fw, p.fh, p.fdies, bitsOf w2 8 4, decide (bitsOf w2 12 2 = 1) || p.meshed, p.seams⟩

/-- Whether the pool knots of a launch on some clusters are free (R334): no free cluster's bank holds a pool knot, so that only a standing
one can be in the way. -/
def State.poolFree (s : State) (l : Nat) (cs : List Nat) : Bool :=
  (countFrom 0 (((s.pattern l).map Pattern.knots).getD 0)).all fun j => decide ((s.knot (poolKeyOn cs j)).owner ≠ .standing)

/-- What a launch may take, some panels' clusters and units counting as free. -/
def State.roomOf (s : State) (l : Nat) (besides : List Nat) : Room :=
  ⟨s.channelsOk l besides, s.clusterFree (s.launch l).part besides, s.seamFree besides, s.poolFree l⟩

/-- A launch's legal placement, some panels' clusters counting as free: its former panel when it is restored (R127, R136, R334). -/
def State.legal (s : State) (l : Nat) (besides : List Nat) : Option (Nat × Place) :=
  let x := s.launch l
  let r := s.roomOf l besides
  let p := x.panel
  if x.ovArea.isNone then none
  else if x.st = .saved then
    if p.all.all r.cluster && p.seamKeys.all r.seam && r.sets p.dies && r.pool p.all then some (0, ⟨p.dies, p.clusters, p.seams⟩)
    else none
  else (s.wantOf l).bind fun w => w.find r

/-! Victims (R135). -/

/-- Every sublist. -/
def sublists {α : Type} : List α → List (List α)
  | [] => [[]]
  | x :: xs => let r := sublists xs; r ++ r.map (x :: ·)

/-- A choice of victims with its cost: highest priority, clusters held, rank and placement. -/
structure VictimSet where
  victims : List Nat
  prio : Nat
  held : Nat
  rank : Nat
  place : Place
  deriving DecidableEq, Repr

/-- Whether a list of numbers comes before another. -/
def lexBefore : List Nat → List Nat → Bool
  | [], [] => false
  | [], _ :: _ => true
  | _ :: _, [] => false
  | x :: xs, y :: ys => decide (x < y) || (decide (x = y) && lexBefore xs ys)

/-- The order of R128 among placements: rectangles first, then the die set's mask, then the clusters. -/
def placeKey (rank : Nat) (p : Place) : List Nat := rank :: (p.dies.map fun d => 2 ^ d).foldl (· + ·) 0 :: p.clusters.flatten

/-- Whether a choice of victims is better. -/
def VictimSet.better (a b : VictimSet) : Bool :=
  lexBefore (a.prio :: a.held :: placeKey a.rank a.place) (b.prio :: b.held :: placeKey b.rank b.place)

/-- The panels of a partition that are being frozen: their clusters will be free. -/
def State.soonFree (s : State) (part : Nat) : List Nat :=
  (s.launches.filter fun e => decide (e.2.part = part) && e.2.freeze.isSome).map Prod.fst

/-- Whether the save areas of some panels fit together in the save pool (R135, R380). -/
def State.savesFit (s : State) (v : List Nat) : Bool :=
  (v.foldl (fun (o : Option State) k => o.bind fun s => (s.saveArea k).map Prod.snd) (some s)).isSome

/-- The victims that R135 chooses for a candidate, if any would help: panels whose saves fit together. -/
def State.victims (s : State) (l : Nat) : Option VictimSet :=
  let x := s.launch l
  let able := (s.launches.filter fun e => decide (e.2.part = x.part ∧ e.2.placedPrio < x.aged) && s.mayFreeze e.1).map Prod.fst
  let sets := ((sublists able).filter fun v => decide (v ≠ []) && s.savesFit v).filterMap fun v =>
    (s.legal l (v ++ s.soonFree x.part)).map fun r => (⟨v, (v.map fun k => (s.launch k).placedPrio).foldl max 0,
      (v.map fun k => (s.launch k).panel.all.length).foldl (· + ·) 0, r.1, r.2⟩ : VictimSet)
  sets.foldl (fun best v => match best with
    | none => some v
    | some b => if v.better b then some v else some b) none

/-! Putting a launch on its panel (R130, R131). -/

/-- The compatibility word of a pattern on this stepping (R108): PYR-E017 is bit 0, retained on A1 and B0. -/
def compatWord (stepping : Nat) (p : Pattern) : BitVec 32 := if 17 ∈ p.errata ∧ stepping ≠ 0 then 1 else 0

/-- A launch takes its clusters, seam units and pool knots, each in the state of R130 and R131. -/
def State.takePanel (s : State) (l : Nat) (p : Panel) : State :=
  let s1 := s.onLaunch l fun x => { x with panel := p }
  let s2 := p.all.foldl (fun s cl => s.onCluster cl fun c => { c.vacate [] with owner := some l }) s1
  let s3 := p.seamKeys.foldl (fun s k => s.onSeam k fun _ => SeamUnit.blank) s2
  (s3.poolKeys l).foldl (fun s k => s.setKnot k (poolKnot (s.launch l).part p.home)) s3

/-- A placed launch enters Configuring (R118), or begins its restore (R381). -/
def State.placeAt (s : State) (l : Nat) (r : Place) : State :=
  let x := s.launch l
  if x.st = .saved then
    (s.takePanel l x.panel).onLaunch l fun y => { y with
      st := .restoring
      waited := y.waited + (s.nCycle - y.since)
      placedPrio := y.aged
      blockedAt := none
      cfg := some ⟨.restore, [], []⟩ }
  else
    match s.pattern l with
    | none => s
    | some p =>
      let home := ((r.clusters.head?.bind List.head?)).getD 0
      let taken := (p.binds.filter fun b => b.pool).map fun b => b.handle % 2 ^ 12
      (s.takePanel l ⟨r.dies, r.clusters, r.seams, home, compatWord s.stepping p⟩).onLaunch l fun y => { y with
        st := .configuring
        waited := y.waited + (s.nCycle - y.since)
        placedPrio := y.aged
        blockedAt := none
        poolTaken := taken
        cfg := some ⟨.initial, [], []⟩ }

/-! The pattern store and loading (R145 to R147). -/

/-- The stage that a configuration loads. -/
def Launch.target (x : Launch) : Nat :=
  match x.cfg with
  | some ⟨.switch g, _, _⟩ => g
  | _ => x.stage

/-- The bytes of a stage's image at a footprint cluster. -/
def Pattern.imageBytes (p : Pattern) (fcl stage : Nat) : Nat := ((nth p.stages stage).bind fun g => nth g.bytes fcl).getD 0

/-- The bytes that a store's images take. -/
def Pattern.storeBytes (p : Pattern) (fcl : Nat) (held : List Nat) : Nat := (held.map (p.imageBytes fcl)).foldl (· + ·) 0

/-- The images that the packets of an engine are still filling. -/
def CopyEng.filling (e : CopyEng) : List Nat :=
  (e.queued ++ e.active).filterMap fun p => match p.sched with
    | some (.fill g) => some g
    | _ => none

/-- Adds whole images in ascending stage order while they fit (R146). -/
def Pattern.fillMore (p : Pattern) (fcl : Nat) : List Nat → List Nat → List Nat
  | [], held => held
  | g :: gs, held =>
    if g ∈ held then Pattern.fillMore p fcl gs held
    else if p.storeBytes fcl (held ++ [g]) ≤ 262144 then Pattern.fillMore p fcl gs (held ++ [g])
    else held

/-- Evicts held images in the order given until one more fits beside those being filled (R146). -/
def Pattern.evictFor (p : Pattern) (fcl g : Nat) (filling : List Nat) : List Nat → List Nat → List Nat
  | [], held => held
  | e :: es, held =>
    if p.storeBytes fcl (held ++ filling ++ [g]) ≤ 262144 then held
    else Pattern.evictFor p fcl g filling es (held.filter fun h => decide (h ≠ e))

/-- The overlay packet that fills a pattern store with the image of a stage: its destination is that store (`State.pieceWrite`).  Which bytes
of the pattern image it reads is not given (R146; log 155), and no meter counts them (log 47). -/
def Pattern.fillPacket (p : Pattern) (id cl fcl g : Nat) : CopyPk :=
  { id := id, firing := none, queue := none, client := queueClient p.part cl, stream := 0, op := 6, sop := 0
    sspace := .g, dspace := .l, runs := [⟨p.image, 0, 1, min (p.imageBytes fcl g) p.imageLen, 0, 0⟩], srange := none, drange := none
    idxLimit := none, aux := 0, knot := noKnot, add := 0, token := false, ord := false, fence := false, idx := [], run := 0, row := 0
    byte := 0, issued := 0, todo := [], cover := [], parked := none, sched := some (.fill g) }

/-- The scheduler issues fills to a cluster's copy engine, in order. -/
def State.issueFills (s : State) (p : Pattern) (cl fcl : Nat) (gs : List Nat) : State :=
  gs.foldl (fun s g => { s.onCluster cl (fun c => { c with
    copy := { c.copy with queued := c.copy.queued ++ [p.fillPacket s.serial cl fcl g] } }) with serial := s.serial + 1 }) s

/-- What a store that lacks the image of a stage is made to do: on entry to Configuring, that image is filled and the others after it
while they fit; at a switch, non-resident images are evicted in descending order until it fits, the image of the stage switched from
being the last (R146). -/
def State.fillStore (s : State) (x : Launch) (p : Pattern) (cl t : Nat) (switch : Bool) : State :=
  let fcl := x.panel.footprint cl
  let c := s.cluster cl
  if switch then
    let order := (sortNats (c.store.filter fun h => decide (h ≠ x.stage))).reverse ++ [x.stage]
    let kept := p.evictFor fcl t c.copy.filling order c.store
    if p.storeBytes fcl (kept ++ c.copy.filling ++ [t]) ≤ 262144 then
      (s.onCluster cl fun c => { c with store := kept, storeMem := c.storeMem.filter fun e => decide (e.1 / 262144 ∈ kept) }).issueFills p cl fcl [t]
    else s
  else s.issueFills p cl fcl (p.fillMore fcl (countFrom 0 p.stages.length) [t])

/-- Whether a configuration is a switch. -/
def Cfg.isSwitch (g : Cfg) : Bool :=
  match g.why with
  | .switch _ => true
  | _ => false

/-- PATTERN_STORE_FILL (R143, R146): a cluster's store holds the image of the stage to be loaded, or the scheduler has it filled by the
cluster's copy engine. -/
def execPatternStoreFill (l cl : Nat) (s : State) : Host.Outcome State Fault Refusal :=
  .next (let x := s.launch l
    let c := s.cluster cl
    match x.cfg, s.pattern l with
    | some g, some p =>
      if cl ∈ g.filled ∨ cl ∉ x.panel.all ∨ x.switchHem = true then s
      else if x.target ∈ c.store then s.onLaunch l fun y => { y with cfg := some { g with filled := g.filled ++ [cl] } }
      else if x.target ∈ c.copy.filling then s
      else s.fillStore x p cl x.target g.isSwitch
    | _, _ => s)

/-- What a station's constant register takes from its initial value (R130): the handle of the pool knot that it names, where it names
one; that it has R100's form is needed for that, and not enough (log 99). -/
def State.constantOf (s : State) (l : Nat) (w : Word) : Word :=
  let x := s.launch l
  let j := w.toNat % 2 ^ 12
  if w.toNat = 2 ^ 27 + j ∧ j < ((s.pattern l).map Pattern.knots).getD 0 ∧ Config.poolConstant w = true then
    handleOf x.part (x.panel.poolKey j)
  else w

/-- STATION_LOAD (R130, R143, R147, R236): a station takes its slots, route entries and constants; every other register is 0.  The slot
table of the cluster's memory port is loaded with it. -/
def execStationLoad (l cl st : Nat) (s : State) : Host.Outcome State Fault Refusal :=
  .next (let x := s.launch l
    match x.cfg, (s.pattern l).bind fun p => nth p.stages x.target with
    | some g, some img =>
      if cl ∉ g.filled ∨ cl * 16 + st ∈ g.loaded ∨ 16 ≤ st ∨ x.switchHem = true then s
      else
        let r := (img.stations.find? fun r => decide (r.cluster = x.panel.footprint cl ∧ r.station = st)).getD
          ⟨0, 0, 0, [], [], []⟩
        let table := Config.slotStream (((s.pattern l).map Pattern.digest).getD 0) x.target (x.panel.footprint cl)
        ((s.onStation cl st fun y => { y with
          occ := r.occ
          words := r.words
          routes := r.routes
          consts := (r.consts.map fun c => (c.1, s.constantOf l c.2)).filter fun c => decide (c.2 ≠ 0)
          modified := 0 }).onCluster cl fun c => { c with slots := (countFrom 0 64).map fun n => (table n).toNat }).onLaunch l fun y => { y with cfg := some { g with loaded := g.loaded ++ [cl * 16 + st] } }
    | _, _ => s)

end Sys2Proof.Machine
end

