-- ==== Sys2Proof/Machine/Image.lean ====
section
/-! DEFINITION. Machine/Image.lean: the pattern image as registration reads it (spec 04: R90 to R100; R108, R138, R279). -/

namespace Sys2Proof.Machine

/-- A directory entry (R91). -/
structure Section where
  ty : Nat
  stage : Nat
  off : Nat
  size : Nat
  deriving DecidableEq, Repr

/-- An image as parsed: its pattern, with the tables' raw words beside their fields, since reserved bits are checked later. -/
structure Image where
  pat : Pattern
  stepmask : Nat
  entryRows : List (List Nat)
  swRows : List (List Nat)
  rangeRows : List (List Nat)
  bindRows : List (List Nat)
  /-- the words of the circuit and operator records, by stage -/
  circRows : List (List (List Nat))
  /-- whether every section is whole records, and the errata list within its eight -/
  whole : Bool
  cert : List Byte
  summary : List Byte
  bytes : List Byte
  deriving DecidableEq, Repr

/-- A little-endian field of an image. -/
def imgNat (img : List Byte) (off n : Nat) : Nat := leNat ((img.drop off).take n)

/-- The bytes of a section. -/
def Section.bytes (x : Section) (img : List Byte) : List Byte := (img.drop x.off).take x.size

/-- Whether the header follows R90, apart from ISA. -/
def headerOk (img : List Byte) : Bool :=
  decide (64 ≤ img.length ∧ imgNat img 0 4 = 0x594B5A01 ∧ imgNat img 4 2 = 1 ∧ imgNat img 7 1 < 8) &&
    decide (1 ≤ imgNat img 8 1 ∧ imgNat img 8 1 ≤ 16 ∧ 1 ≤ imgNat img 9 1 ∧ imgNat img 9 1 ≤ 8) &&
    decide (1 ≤ imgNat img 10 1 ∧ imgNat img 10 1 ≤ 4 ∧ 1 ≤ imgNat img 11 1 ∧ imgNat img 11 1 ≤ 16) &&
    decide (1 ≤ imgNat img 12 2 ∧ imgNat img 16 8 = img.length) && ((img.drop 24).take 40).all fun b => decide (b = 0)

/-- The directory (R91); bytes 12 to 15 of an entry are ignored (log 157). -/
def sectionsOf (img : List Byte) : List Section :=
  (countFrom 0 (imgNat img 14 2)).map fun k =>
    let a := 64 + 16 * k
    let w := imgNat img a 4
    ⟨bitsOf w 0 16, bitsOf w 16 4, imgNat img (a + 4) 4, imgNat img (a + 8) 4⟩

/-- Whether a section type stands once per stage (Table 4.2). -/
def perStage (ty : Nat) : Bool := decide (ty = 1 ∨ ty = 8)

/-- Whether two sections may stand in one image: they do not overlap, and are not the same section twice. -/
def Section.apart (x y : Section) : Bool :=
  decide (x.size = 0 ∨ y.size = 0 ∨ x.off + x.size ≤ y.off ∨ y.off + y.size ≤ x.off) &&
    (decide (x.ty ≠ y.ty) || (perStage x.ty && decide (x.stage ≠ y.stage)))

/-- Whether each pair of a list satisfies a relation. -/
def pairwise {α : Type} (r : α → α → Bool) : List α → Bool
  | [] => true
  | x :: xs => xs.all (r x) && pairwise r xs

/-- Whether the directory follows R91 and Table 4.2. -/
def directoryOk (img : List Byte) : Bool :=
  let n := imgNat img 14 2
  let xs := sectionsOf img
  let stages := imgNat img 11 1
  let has := fun ty g => xs.any fun x => decide (x.ty = ty) && (!perStage ty || decide (x.stage = g))
  decide (64 + 16 * n ≤ img.length) &&
    (countFrom 0 n).all (fun k => decide (imgNat img (64 + 16 * k) 4 / 2 ^ 20 = 0)) &&
    xs.all (fun x => decide (1 ≤ x.ty ∧ x.ty ≤ 13 ∧ x.stage < stages ∧ x.off + x.size ≤ img.length)) &&
    pairwise Section.apart xs && (countFrom 0 stages).all (has 1) && has 2 0 && has 3 0 && has 9 0 && has 10 0

/-- The bits of a mask, ascending. -/
def bitsIn (mask n : Nat) : List Nat := (countFrom 0 n).filter fun i => mask.testBit i

/-- The 64-bit words of bytes, as numbers. -/
def natWords (bs : List Byte) : List Nat := (wordsOf bs).map BitVec.toNat

/-- The station records of a stage section, in ascending order of cluster and station (R92); none when they are malformed. -/
def stationRecs (clusters : Nat) : Nat → Nat → List Byte → Option (List StationRec)
  | 0, _, bs => if bs = [] then some [] else none
  | fuel + 1, low, bs =>
    if bs = [] then some []
    else
      let w := imgNat bs 0 4
      let occ := imgNat bs 4 32
      let cm := bitsIn (imgNat bs 36 4) 32
      let om := bitsIn occ 256
      let a := 40 + 8 * cm.length
      let b := a + 8 * om.length
      let size := b + 32 * om.length
      let cl := bitsOf w 0 9
      if bs.length < 40 ∨ bs.length < size ∨ w / 2 ^ 13 ≠ 0 ∨ clusters ≤ cl ∨ w % 2 ^ 13 / 2 ^ 9 + cl * 16 < low ∨ om = [] then none
      else
        let r : StationRec := ⟨cl, bitsOf w 9 4, BitVec.ofNat 256 occ,
          cm.zip (wordsOf ((bs.drop 40).take (8 * cm.length))),
          om.zip (wordsOf ((bs.drop a).take (8 * om.length))),
          om.zip ((chunks 32 om.length (bs.drop b)).map fun c => BitVec.ofNat 256 (leNat c))⟩
        (stationRecs clusters fuel (bitsOf w 9 4 + cl * 16 + 1) (bs.drop size)).map (r :: ·)

/-- The records of a circuits section (R279): a circuit is 16 bytes, and an operator 32; a first word with no TO is an operator's. -/
def circuitRows : Nat → List Nat → List (List Nat)
  | 0, _ => []
  | _ + 1, [] => []
  | fuel + 1, w :: ws =>
    let n := if bitsOf w 24 24 = 0 then 4 else 2
    (w :: ws).take n :: circuitRows fuel ((w :: ws).drop n)

/-- A circuit record. -/
def circuitOf : List Nat → Option CircuitRec
  | [w, _] => some ⟨bitsOf w 0 24, bitsOf w 24 24⟩
  | _ => none

/-- An operator record. -/
def operatorOf : List Nat → Option OpRec
  | [w, p0, p1, p2] => some ⟨bitsOf w 0 9, bitsOf w 12 4, bitsOf w 16 4, BitVec.ofNat 64 p0, BitVec.ofNat 64 p1, BitVec.ofNat 64 p2⟩
  | _ => none

/-- A space's code (Table 4.3). -/
def Space.ofCode : Nat → Space
  | 0 => .l | 1 => .n | 2 => .w | _ => .g

/-- A kind's code (Table 4.3). -/
def SwKind.ofCode : Nat → SwKind
  | 0 => .dense | 1 => .csr | _ => .region

/-- Field `lo`, `n` bits wide, of word `i` of a row. -/
def rowBits (r : List Nat) (i lo n : Nat) : Nat := bitsOf ((nth r i).getD 0) lo n

/-- Whether an entry is declared: an undeclared entry below a declared one is all zero (log 44). -/
def declared (r : List Nat) : Bool := r.any fun w => decide (w ≠ 0)

/-- An entry record (R138). -/
def entryOfRow (r : List Nat) : EntryRec :=
  ⟨rowBits r 0 28 6, rowBits r 0 24 4, rowBits r 0 21 2, rowBits r 0 10 11, rowBits r 0 2 8, rowBits r 0 0 2, rowBits r 1 0 11⟩

/-- A swatch entry (Table 4.3). -/
def swatchOfRow (r : List Nat) : Swatch :=
  if declared r then
    ⟨SwKind.ofCode (rowBits r 0 60 2), Space.ofCode (rowBits r 0 57 3), rowBits r 0 0 57, rowBits r 1 56 6, rowBits r 1 52 4,
      rowBits r 1 48 4, rowBits r 1 24 24, rowBits r 1 0 24, rowBits r 2 0 64, rowBits r 3 0 64⟩
  else Swatch.blank

/-- A range entry (Table 4.4). -/
def rangeOfRow (r : List Nat) : Range :=
  ⟨decide (rowBits r 0 60 1 = 1), decide (rowBits r 0 61 1 = 1), decide (rowBits r 0 62 1 = 1), Space.ofCode (rowBits r 0 57 3),
    rowBits r 0 0 57, rowBits r 1 50 2, decide (rowBits r 1 49 1 = 1), decide (rowBits r 1 48 1 = 1), rowBits r 1 0 48⟩

/-- A bind entry (R100). -/
def bindOfRow (r : List Nat) : Bind := ⟨rowBits r 0 0 27, decide (rowBits r 0 27 1 = 1), rowBits r 0 32 6, rowBits r 0 40 2⟩

/-- The rows of a table of `k` words each. -/
def rowsOf (k : Nat) (bs : List Byte) : List (List Nat) := chunks k (bs.length / (8 * k)) (natWords bs)

/-- The fault slot of a stage section's first word (R92). -/
def faultSlotOf (w : Nat) : Option (Nat × Nat × Nat) :=
  if w.testBit 4 then some (bitsOf w 8 2, bitsOf w 10 11, bitsOf w 21 8) else none

/-- Whether a stage has the fault slot that it names: an occupied one (log 48). -/
def hasFaultSlot (per : Nat) (recs : List StationRec) : Option (Nat × Nat × Nat) → Bool
  | none => true
  | some (die, st, sl) => recs.any fun r => decide (r.cluster = die * per + st / 16 ∧ r.station = st % 16) && r.occ.getLsbD sl

/-- The bytes of a cluster's stage image (R145). -/
def imageSize (p : Pattern) (g : StageImg) (fcl : Nat) : Nat :=
  64 + 32 * p.swatches.length + 16 * p.ranges.length + 8 * p.binds.length +
    ((g.stations.filter fun r => decide (r.cluster = fcl)).map fun r => 40 + 8 * r.consts.length + 40 * r.words.length).foldl
      (· + ·) 0 +
    16 * (g.circuits.countP fun c => decide (c.from_ / 2 ^ 15 = fcl ∨ c.to_ / 2 ^ 15 = fcl)) +
    32 * (g.ops.countP fun o => decide (o.fcl = fcl))

/-- The seam unit instances that each panel die's pattern addresses: by a route, a circuit or an SMOPEN (R129). -/
def seamInstances (p : Pattern) (die : Nat) : List Nat :=
  (countFrom 0 4).filter fun inst => (countFrom 0 p.stages.length).any fun g =>
    (stageSlots p g).any (fun x =>
      (routeGroup x.route false ++ routeGroup x.route true).any (fun d => match d with
        | .engine dd e i _ => decide (dd.toNat = die ∧ e.toNat = 3 ∧ i.toNat = inst)
        | .slot _ _ _ _ => false) ||
      (match decode x.word with
        | .ok (.smopen _ i _) => decide (x.die = die ∧ i.toNat = inst)
        | _ => false)) ||
    (((nth p.stages g).map StageImg.circuits).getD []).any fun c =>
      decide (c.to_ / 2 ^ 10 % 32 = 16 ∧ c.to_ / 2 ^ 15 / (p.fw * p.fh) = die ∧ c.to_ / 2 ^ 6 % 16 = inst)

/-- Parses an image whose header and directory are right (R90 to R92); none when a stage section is malformed.  `part` is the
registering partition, `addr` the image's address, `digest` its digest. -/
def parseImage (img : List Byte) (part addr : Nat) (digest : BitVec 384) : Option Image :=
  let xs := sectionsOf img
  let stages := imgNat img 11 1
  let fw := imgNat img 8 1
  let fh := imgNat img 9 1
  let fdies := imgNat img 10 1
  let find := fun ty g => xs.find? fun x => decide (x.ty = ty) && (!perStage ty || decide (x.stage = g))
  let get := fun ty g => ((find ty g).map fun x => x.bytes img).getD []
  let stage := fun g =>
    let bs := get 1 g
    let w := imgNat bs 0 8
    if bs.length < 8 ∨ w % 16 ≠ g ∨ w / 2 ^ 29 ≠ 0 ∨ bitsOf w 5 3 ≠ 0 then none
    else
      let rows := circuitRows (get 8 g).length (natWords (get 8 g))
      (stationRecs (fw * fh * fdies) bs.length 0 (bs.drop 8)).bind fun rs =>
        if hasFaultSlot (fw * fh) rs (faultSlotOf w) then
          some ((⟨faultSlotOf w, rs, rows.filterMap circuitOf, rows.filterMap operatorOf, [], []⟩ : StageImg), rows)
        else none
  (allSome ((countFrom 0 stages).map stage)).map fun gs =>
    let eRows := rowsOf 2 (get 3 0)
    let sRows := rowsOf 4 (get 4 0)
    let rRows := rowsOf 2 (get 5 0)
    let bRows := rowsOf 1 (get 6 0)
    let dbg := if (find 12 0).isSome then Config.debugSection (get 12 0) else (256, 32)
    let errata := (countFrom 0 ((get 11 0).length / 4)).map fun k => imgNat (get 11 0) (4 * k) 4
    let classes := (Config.classSection (get 2 0)).map fun c => (⟨c.1, if c.2.1 = 0 then none else some (c.2.1 - 1), c.2.2⟩ : BobClass)
    let p0 : Pattern :=
      { part := part, gen := 0, digest := digest, image := addr, imageLen := img.length, isa := imgNat img 6 1, fw := fw, fh := fh
        fdies := fdies, done := imgNat img 12 2, classes := classes, entries := eRows.map entryOfRow
        swatches := sRows.map swatchOfRow, ranges := rRows.map rangeOfRow, binds := bRows.map bindOfRow
        knots := if (find 7 0).isSome then Config.knotSection (get 7 0) else 0
        stages := gs.map Prod.fst, seams := [], matchcap := dbg.1, seamGroup := dbg.2, errata := errata, warn := 0
        released := false }
    let sized := gs.map fun g => { g.1 with bytes := (countFrom 0 (fw * fh * fdies)).map (imageSize p0 g.1) }
    let p1 := { p0 with stages := sized, seams := (countFrom 0 fdies).map (seamInstances p0) }
    { pat := p1, stepmask := imgNat img 7 1, entryRows := eRows, swRows := sRows, rangeRows := rRows, bindRows := bRows
      circRows := gs.map Prod.snd
      whole := decide ((get 3 0).length % 16 = 0 ∧ (get 4 0).length % 32 = 0 ∧ (get 5 0).length % 16 = 0 ∧ (get 6 0).length % 8 = 0 ∧
          (get 11 0).length % 4 = 0 ∧ (get 11 0).length ≤ 32 ∧ (get 4 0).length ≤ 8192 ∧ (get 5 0).length ≤ 1024) &&
        (countFrom 0 stages).all fun g => decide ((get 8 g).length % 16 = 0)
      cert := get 9 0, summary := get 10 0, bytes := img }

/-- Whether a swatch id is declared (R68). -/
def Image.swDeclared (im : Image) (n : Nat) : Bool := ((nth im.swRows n).map declared).getD false

/-- Whether a range is declared (R65). -/
def Image.rangeDeclared (im : Image) (n : Nat) : Bool := ((nth im.rangeRows n).map declared).getD false

/-- A swatch. -/
def Image.sw (im : Image) (n : Nat) : Swatch := (nth im.pat.swatches n).getD Swatch.blank

/-- Clusters of the footprint. -/
def Image.clusters (im : Image) : Nat := im.pat.fw * im.pat.fh * im.pat.fdies

end Sys2Proof.Machine
end

