-- ==== Sys2Proof/Machine/Check.lean ====
section
/-! DEFINITION. Machine/Check.lean: the checks of registration (Table 4.5): slots (R80 to R82, R438), tables (R17, R94 to R100,
R138, R279 to R283), size (R102), certificate (R23, R439), colours (R25), portal operators (R104) and races (R103). -/

namespace Sys2Proof.Machine

/-! Slots and routes. -/

/-- An occupied slot, with its instruction when its word is one. -/
structure RSlot where
  stage : Nat
  die : Nat
  station : Nat
  slot : Nat
  word : Word
  route : BitVec 256
  ins : Option Instr
  deriving DecidableEq, Repr

/-- A route from a slot's group, with the slot that it reaches, by index. -/
structure REdge where
  src : Nat
  o1 : Bool
  dest : Dest
  tgt : Option Nat
  port : Nat
  deriving DecidableEq, Repr

/-- A pattern's slots, its routes, and each slot's classes (R439). -/
structure Ana where
  im : Image
  slots : List RSlot
  edges : List REdge
  sets : List (List Nat)
  deriving DecidableEq, Repr

/-- The slots of every stage, in order of stage, die, station and slot. -/
def Image.slots (im : Image) : List RSlot :=
  (countFrom 0 im.pat.stages.length).flatMap fun g => (stageSlots im.pat g).map fun x =>
    ⟨g, x.die, x.station, x.slot, x.word, x.route, (match decode x.word with | .ok i => some i | .error _ => none)⟩

/-- A slot by stage and place. -/
def slotAt (slots : List RSlot) (stage die station slot : Nat) : Option Nat :=
  indexOf (fun x => decide (x.stage = stage ∧ x.die = die ∧ x.station = station ∧ x.slot = slot)) slots 0

/-- The slot that a destination of a stage reaches: its own stage's, or along a stage crossing that of an entry of another (R139). -/
def resolveSlot (p : Pattern) (slots : List RSlot) (stage : Nat) : Dest → Option Nat
  | .engine _ _ _ _ => none
  | .slot die st sl _ =>
    match slotAt slots stage die.toNat st.toNat sl.toNat with
    | some i => some i
    | none => (p.entries.find? fun e => decide (e.stage ≠ stage ∧ e.die = die.toNat ∧ e.station = st.toNat ∧
        e.slot = sl.toNat)).bind fun e => slotAt slots e.stage e.die e.station e.slot

/-- The port that a destination names. -/
def destPort : Dest → Nat
  | .slot _ _ _ port => port.toNat
  | .engine _ _ _ port => port.toNat

/-- The routes of every slot. -/
def edgesOf (p : Pattern) (slots : List RSlot) : List REdge :=
  ((slots.zip (countFrom 0 slots.length)).flatMap fun x =>
    [false, true].flatMap fun o1 => (routeGroup x.1.route o1).map fun d =>
      ⟨x.2, o1, d, resolveSlot p slots x.1.stage d, destPort d⟩)

/-- The ports that a word reads by the fields of its format (R14): format M has no SC, and format T no SC and its own PM. -/
def rawReads (w : Nat) : Ports :=
  let r := RawC.unpack w
  let opc := r.opc
  if 0xB0 ≤ opc ∧ opc < 0xD0 then ⟨decide (r.sa = 0), decide (r.sb = 0), false, decide ((RawT.unpack w).pm ≠ 0)⟩
  else ⟨decide (r.sa = 0), decide (r.sb = 0), decide (r.sc = 0) && !decide (0x70 ≤ opc ∧ opc < 0x90), decide (r.pm ≠ 0)⟩

/-- The ports that a slot reads: of a word that fails checks 1 to 6, those that its fields name. -/
def RSlot.reads (x : RSlot) : Ports := ((x.ins.bind Instr.view).map View.reads).getD (rawReads x.word.toNat)

/-- Whether a slot reads a port by number. -/
def RSlot.readsPort (x : RSlot) (n : Nat) : Bool :=
  let r := x.reads
  if n = 0 then r.a else if n = 1 then r.b else if n = 2 then r.c else r.p

/-- The footprint cluster of a slot. -/
def Image.fclOf (im : Image) (x : RSlot) : Nat := x.die * (im.pat.fw * im.pat.fh) + x.station / 16

/-! Classes (R439). -/

/-- Every declared class. -/
def Image.allClasses (im : Image) : List Nat := countFrom 0 im.pat.classes.length

/-- What a source adds to the trace of an instance word: a BALLOC's class, or the ports to trace on to; none where it cannot be
traced. -/
def traceSource (x : RSlot) (i : Nat) (o1 : Bool) : Option (List Nat × List (Nat × Nat)) :=
  match x.ins with
  | some (.balloc _ c) => if o1 then none else some ([c.toNat], [])
  | some (.mov f) => if f.sa = .port then some ([], [(i, 0)]) else none
  | some (.fanout f) => if f.sa = .port then some ([], [(i, 0)]) else none
  | some (.steer f) => if f.sa = .port then some ([], [(i, 0)]) else none
  | some (.gate f) => if f.sa = .port then some ([], [(i, 0)]) else none
  | some (.sel f) => if f.sa = .port ∧ f.sb = .port then some ([], [(i, 0), (i, 1)]) else none
  | _ => none

/-- Traces instance words back from ports. -/
def traceGo (slots : List RSlot) (edges : List REdge) : Nat → List (Nat × Nat) → List (Nat × Nat) → List Nat → Option (List Nat)
  | 0, _, _, acc => some acc
  | _ + 1, [], _, acc => some acc
  | fuel + 1, q :: qs, seen, acc =>
    if q ∈ seen then traceGo slots edges fuel qs seen acc
    else
      let into := edges.filter fun e => decide (e.tgt = some q.1 ∧ e.port = q.2)
      match allSome (into.map fun e => (nth slots e.src).bind fun x => traceSource x e.src e.o1) with
      | none => none
      | some rs => traceGo slots edges fuel (qs ++ rs.flatMap Prod.snd) (q :: seen) (union acc (rs.flatMap Prod.fst))

/-- The classes that group o0 of a LOOPGEN carries: those of the BALLOCs that its SA traces back to, or every class. -/
def loopClasses (im : Image) (slots : List RSlot) (edges : List REdge) (i : Nat) (f : FormX) : List Nat :=
  if f.sa = .port then (traceGo slots edges (16 * (slots.length + edges.length) + 16) [(i, 0)] [] []).getD im.allClasses
  else im.allClasses

/-- The root class of the entry that DEST0 of a slot's o0 names. -/
def calledClass (p : Pattern) (x : RSlot) : List Nat :=
  match routeGroup x.route false with
  | d :: _ => (((entryOf p x.stage d).bind fun e => nth p.entries e).map fun e => [e.cls]).getD []
  | [] => []

/-- The classes that a group of a slot carries, besides its own set; none stands for that set. -/
def groupClasses (im : Image) (slots : List RSlot) (edges : List REdge) (i : Nat) (o1 : Bool) : Option (List Nat) :=
  match nth slots i with
  | none => none
  | some x =>
    match x.ins, o1 with
    | some (.loopgen f _), false => some (loopClasses im slots edges i f)
    | some (.retag _), false => some im.allClasses
    | some (.retagCall _), _ => some (calledClass im.pat x)
    | some (.umdirty _), false => some (calledClass im.pat x)
    | _, _ => none

/-- Whether a slot is the fault slot of its stage. -/
def RSlot.isFaultSlot (p : Pattern) (x : RSlot) : Bool :=
  decide ((nth p.stages x.stage).bind StageImg.faultSlot = some (x.die, x.station, x.slot))

/-- The sets that routes start from: those of the entries (R439), and at a fault slot, to which fault tokens bring the tag of any firing
(R374), every declared class: the certificate of R423 counts its slots (log 46). -/
def startSets (im : Image) (slots : List RSlot) : List (List Nat) :=
  slots.map fun x => union (if x.isFaultSlot im.pat then im.allClasses else []) ((im.pat.entries.filter fun e =>
    decide (e.stage = x.stage ∧ e.die = x.die ∧ e.station = x.station ∧ e.slot = x.slot)).map EntryRec.cls)

/-- What an edge carries, some groups' classes being fixed. -/
def carried (fixed : List (Option (List Nat))) (sets : List (List Nat)) (k : Nat) (e : REdge) : List Nat :=
  match nth fixed k with
  | some (some cs) => cs
  | _ => (nth sets e.src).getD []

/-- Adds along every route until no set grows. -/
def growSets (edges : List REdge) (fixed : List (Option (List Nat))) : Nat → List (List Nat) → List (List Nat)
  | 0, sets => sets
  | fuel + 1, sets =>
    let next := (edges.zip (countFrom 0 edges.length)).foldl (fun ss e => match e.1.tgt with
      | some t => setNth ss t (union ((nth ss t).getD []) (carried fixed ss e.2 e.1))
      | none => ss) sets
    if next = sets then sets else growSets edges fixed fuel next

/-- The analysis of an image. -/
def Image.analyse (im : Image) : Ana :=
  let slots := im.slots
  let edges := edgesOf im.pat slots
  let fixed := edges.map fun e => groupClasses im slots edges e.src e.o1
  ⟨im, slots, edges, growSets edges fixed (slots.length * 65 + 1) (startSets im slots)⟩

/-- The set of a slot. -/
def Ana.set (a : Ana) (i : Nat) : List Nat := (nth a.sets i).getD []

/-- The classes that travel a route. -/
def Ana.travels (a : Ana) (e : REdge) : List Nat := (groupClasses a.im a.slots a.edges e.src e.o1).getD (a.set e.src)

/-! Slot checks (Table 3.7). -/

/-- Whether a circuit of a stage has an endpoint as its producer, and whether as its consumer. -/
def producesIn (im : Image) (stage e : Nat) : Bool :=
  (((nth im.pat.stages stage).map StageImg.circuits).getD []).any fun c => decide (c.from_ = e)
/-- Whether a circuit of a stage ends at an endpoint. -/
def consumesIn (im : Image) (stage e : Nat) : Bool :=
  (((nth im.pat.stages stage).map StageImg.circuits).getD []).any fun c => decide (c.to_ = e)

/-- Whether a range is declared with one of some spaces. -/
def Image.rangeIn (im : Image) (n : BitVec 6) (sp : List Space) : Bool :=
  im.rangeDeclared n.toNat && (match nth im.pat.ranges n.toNat with | some r => decide (r.space ∈ sp) | none => false)

/-- Whether a swatch is declared and satisfies a test. -/
def Image.swOk (im : Image) (n : BitVec 8) (ok : Swatch → Bool) : Bool := im.swDeclared n.toNat && ok (im.sw n.toNat)

/-- Dense or region, not in W: a copy destination (R243). -/
def copyDst (w : Swatch) : Bool := decide (w.kind ≠ .csr ∧ w.space ≠ .w)

/-- Whether two swatches are dense with one ELEM and, where asked, equal row bytes; the second is not in W. -/
def densePair (a b : Swatch) : Bool := decide (a.kind = .dense ∧ b.kind = .dense ∧ a.elem = b.elem ∧ b.space ≠ .w)

/-- The swatches of a copy-family slot (Table 11.3). -/
def Image.pairOk (im : Image) (f : FormE) (ok : Swatch → Swatch → Bool) : Bool :=
  im.swOk f.sw1 (fun a => ok a (im.sw f.sw2.toNat)) && im.swDeclared f.sw2.toNat

/-- A region swatch in one of some spaces. -/
def regionIn (sp : List Space) (w : Swatch) : Bool := decide (w.kind = .region ∧ w.space ∈ sp)

/-- COPY's pair. -/
def copyPair (a b : Swatch) : Bool :=
  (decide (a.kind = .region ∧ b.kind = .region ∧ b.space ≠ .w ∧ a.length ≤ b.length)) ||
    (densePair a b && decide (a.rows = b.rows ∧ a.rowBytes = b.rowBytes))

/-- The pair of COPYR, and of GATHR and SCATR, which take no YB. -/
def rowPair (yb : Bool) (a b : Swatch) : Bool := densePair a b && decide (a.rowBytes = b.rowBytes) && (yb || !a.yb)

/-- Whether an earlier slot of a list satisfies a relation with slot `i`. -/
def Ana.earlier (a : Ana) (i : Nat) (r : RSlot → Bool) : Bool := (a.slots.take i).any r

/-- Check 7: RANGE, swatches, classes and stream objects name declared objects.  A TLD is accepted on a dense swatch of any ROWS, a count
above 192 being R257's trap (log 157). -/
def Ana.objects (a : Ana) (i : Nat) (x : RSlot) (ins : Instr) : Bool :=
  let im := a.im
  let end_ := fun unit ch => endpoint (im.fclOf x) unit (x.station % 16) ch
  let hasOp := fun (kind inst : Nat) => (((nth im.pat.stages x.stage).map StageImg.ops).getD []).any fun o =>
    decide (o.fcl = im.fclOf x ∧ o.kind = kind ∧ o.inst = inst)
  let sout := producesIn im x.stage (endpoint (im.fclOf x) 15 0 0)
  let fe := fun (f : FormM) => im.rangeIn f.range [.l, .n]
  match ins with
  | .ldl f _ => im.rangeIn f.range [.l]
  | .stl f _ => im.rangeIn f.range [.l]
  | .ldn f _ => im.rangeIn f.range [.n]
  | .stn f _ => im.rangeIn f.range [.n]
  | .ldg f _ => im.rangeIn f.range [.g]
  | .stg f _ => im.rangeIn f.range [.g]
  | .ldw f _ => im.rangeIn f.range [.w]
  | .feclr f _ => fe f
  | .feset f _ => fe f
  | .wcal f _ => im.rangeIn f.range [.w]
  | .amol f _ _ _ => fe f
  | .amog f _ _ _ => im.rangeIn f.range [.g]
  | .updg f _ _ => im.rangeIn f.range [.g]
  | .balloc _ c => match nth im.pat.classes c.toNat with
    | some k => k.parent.isSome
    | none => false
  | .next _ => (a.set i).all fun k => ((nth im.pat.classes k).map fun c => decide (c.size ≠ 1)).getD true
  | .spawn f _ => im.swOk f.sw1 fun w => regionIn [.l, .g] w && decide (w.base % 64 = 0 ∧ 64 ≤ w.length)
  | .cqpush f _ => im.swOk f.sw1 fun w => regionIn [.l, .g] w && decide (w.base % 64 = 0)
  | .copy f _ => im.pairOk f copyPair
  | .copyr f _ => im.pairOk f (rowPair true)
  | .fill f _ => im.swOk f.sw2 copyDst
  | .gathr f _ => im.pairOk f (rowPair false)
  | .scatr f _ => im.pairOk f (rowPair false)
  | .scatrAdd f _ => im.pairOk f fun w v => rowPair false w v && decide (v.space = .g ∨ v.space = .n) &&
      decide (w.rowBytes % (if f.ty = .i64 then 8 else 4) = 0)
  | .overlay f _ => im.pairOk f densePair
  | .tld f => im.swOk f.sw fun w => decide (w.kind = .dense)
  | .tst f => im.swOk f.sw fun w => decide (w.kind = .dense ∧ w.space ≠ .w)
  | .tqnt f => !f.flg.getLsbD 3 || im.swOk f.sw fun w => decide (w.kind = .dense) && w.yb
  | .trow f => im.swOk f.sw fun w => decide (w.kind = .dense ∧ w.space = .l)
  | .trowStr _ => sout
  | .tmma f => !f.flg.getLsbD 1 || sout
  | .tcarrySave f => im.swOk f.sw fun w => decide (w.kind = .region)
  | .tcarryLoad f => im.swOk f.sw fun w => decide (w.kind = .region)
  | .semit _ ch => producesIn im x.stage (end_ 13 ch.toNat)
  | .smark _ ch _ => producesIn im x.stage (end_ 13 ch.toNat)
  | .srecv _ ch => consumesIn im x.stage (end_ 14 ch.toNat) && !a.earlier i fun y =>
      decide (y.stage = x.stage ∧ y.die = x.die ∧ y.station = x.station) && (match y.ins with
        | some (.srecv _ d) => decide (d = ch)
        | _ => false)
  | .sparm _ kind inst _ => hasOp kind.toNat inst.toNat
  | .sstat _ kind inst => hasOp kind.toNat inst.toNat
  | .smopen f _ _ => im.swOk f.sw1 (fun w => decide (w.kind = .csr ∧ w.space ≠ .w ∧ (w.elem = 4 ∨ w.elem = 5))) &&
      im.swOk f.sw2 (regionIn [.l, .n, .g])
  | .umctxOpen f die => im.swOk f.sw1 (regionIn [.g]) && im.swOk f.sw2 (regionIn [.g]) && decide (die.toNat < im.pat.fdies)
  | .umscore f _ => im.swOk f.sw1 (regionIn [.l, .n, .g])
  | .umrank f => im.swOk f.sw1 (regionIn [.l, .n, .g])
  | .umtap f => im.swOk f.sw1 (regionIn [.l, .n, .g])
  | .ticket _ arb arc => !a.earlier i fun y => decide (im.fclOf y = im.fclOf x) && (match y.ins with
      | some (.ticket _ b c) => decide (b = arb ∧ c = arc)
      | _ => false)
  | _ => true

/-- Whether a group's fields follow R70, and its OG bit R72. -/
def groupOk (route : BitVec 256) (o1 og : Bool) : Bool :=
  let g := route.toNat / 2 ^ (if o1 then 128 else 0) % 2 ^ 128
  let n := bitsOf g 96 3
  decide (g / 2 ^ 99 = 0 ∧ n ≤ 4 ∧ g % 2 ^ 96 / 2 ^ (24 * n) = 0) && decide (og = decide (0 < n))

/-- Whether a destination is one that a slot may name (R71, R15, R79, R139). -/
def Ana.destOk (a : Ana) (x : RSlot) (e : REdge) : Bool :=
  match e.dest with
  | .slot _ _ _ port => match e.tgt.bind (nth a.slots) with
    | some t => t.readsPort port.toNat
    | none => false
  | .engine die eng inst ep =>
    decide (die.toNat < a.im.pat.fdies) && (match eng.toNat with
      | 1 => decide (inst = 0 ∧ ep.toNat ≤ 1 ∧ die.toNat = x.die)
      | 2 => decide (inst = 0 ∧ ep.toNat ≤ 15 ∧ die.toNat = x.die)
      | 3 => decide (inst.toNat ≤ 3 ∧ ep.toNat ≤ 31)
      | 4 => decide (inst = 0 ∧ ep = 0)
      | _ => false)

/-- Whether a class is one of some or a descendant of one. -/
def descends (cs : List BobClass) (roots : List Nat) : Nat → Nat → Bool
  | 0, _ => false
  | fuel + 1, k => decide (k ∈ roots) || (match (nth cs k).bind BobClass.parent with
    | some p => descends cs roots fuel p
    | none => false)

/-- Whether a port of a slot is reached (R82): by a route, an entry, or the delivery of faults. -/
def Ana.reached (a : Ana) (i : Nat) (x : RSlot) (port : Nat) : Bool :=
  a.edges.any (fun e => decide (e.tgt = some i ∧ e.port = port)) ||
    a.im.pat.entries.any (fun e => decide (e.stage = x.stage ∧ e.die = x.die ∧ e.station = x.station ∧ e.slot = x.slot ∧
      e.port = port)) ||
    (decide (port = 0) && x.isFaultSlot a.im.pat)

/-- The further rules of a call's, a seed's or a control token's destinations (R179, R181, R323). -/
def Ana.routesOk (a : Ana) (i : Nat) (x : RSlot) (ins : Instr) : Bool :=
  let mine := a.edges.filter fun e => decide (e.src = i)
  let p := a.im.pat
  let local_ := fun (e : REdge) => match e.tgt.bind (nth a.slots) with
    | some t => decide (t.stage = x.stage)
    | none => false
  let names := fun (e : REdge) => (entryOf p x.stage e.dest).isSome
  let colour := fun (c : BitVec 2) =>
    let known := carriers p x.stage c
    mine.all fun e => local_ e && (match e.tgt.bind (nth a.slots) with
      | some t => known.any fun q => decide (q.1 = t.die ∧ q.2.1 = t.station ∧ q.2.2.1 = t.slot)
      | none => false)
  match ins with
  | .commit _ c => colour c
  | .kill _ c => colour c
  | .retagCall _ => match mine with
    | e :: es => !e.o1 && names e && (es.all fun d => local_ d && (match d.tgt with
        | some t => (a.set t).all (descends p.classes (calledClass p x) 65)
        | none => false))
    | [] => false
  | .umdirty _ => match mine.filter fun e => !e.o1 with
    | [e] => names e
    | _ => false
  | _ => true

/-- Check 8: the route entry, its destinations, and the slot's own ports. -/
def Ana.routeOk (a : Ana) (i : Nat) (x : RSlot) (ins : Instr) : Bool :=
  let v := ins.view
  groupOk x.route false ((v.map View.og0).getD false) && groupOk x.route true ((v.map View.og1).getD false) &&
    (a.edges.filter fun e => decide (e.src = i)).all (a.destOk x) && a.routesOk i x ins && x.reads.any &&
    [0, 1, 2, 3].all fun q => !x.readsPort q || a.reached i x q

/-- Whether an opcode is experimental (Table 3.6). -/
def experimental (w : Word) : Bool := decide (w.toNat % 256 ∈ [0xC0, 0xC1, 0xE3])

/-- Whether a stepping accepts a pattern's experimental opcodes (R77). -/
def steppingOk (stepping stepmask : Nat) : Bool := decide (1 ≤ stepping) && stepmask.testBit stepping

/-- A slot's status (R80): 0, or the code of the first check that fails. -/
def Ana.slotStatus (a : Ana) (stepping i : Nat) (x : RSlot) : Nat :=
  match decode x.word with
  | .error .opcode => 1
  | r =>
    if experimental x.word && !steppingOk stepping a.im.stepmask then 3
    else
      match r with
      | .error _ => 1
      | .ok ins => if a.objects i x ins && a.routeOk i x ins then 0 else 1

/-- The failing slots, each with its status. -/
def Ana.failing (a : Ana) (stepping : Nat) : List (RSlot × Nat) :=
  (((a.slots.zip (countFrom 0 a.slots.length)).map fun x => (x.1, a.slotStatus stepping x.2 x.1)).filter fun x => decide (x.2 ≠ 0))

/-- Whether a slot comes before another by DIE, STATION and SLOT (R81); where two stages have one there, the lower stage comes first
(log 157). -/
def RSlot.before (x y : RSlot) : Bool := lexBefore [x.die, x.station, x.slot, x.stage] [y.die, y.station, y.slot, y.stage]

/-- The first of a list of failing slots. -/
def firstSlot : List (RSlot × Nat) → Option (RSlot × Nat)
  | [] => none
  | x :: xs => match firstSlot xs with
    | none => some x
    | some y => if y.1.before x.1 then some y else some x

/-! Tables (Table 4.5, check 3). -/

/-- Whether a class chain ends at a root. -/
def rooted (cs : List BobClass) : Nat → Nat → Bool
  | 0, _ => false
  | fuel + 1, k => match nth cs k with
    | none => false
    | some c => match c.parent with
      | none => true
      | some p => rooted cs fuel p

/-- The bobbin classes (R17). -/
def classesOk (cs : List BobClass) : Bool :=
  decide (cs.length ≤ 64) && cs.all (fun c => decide (c.size ∈ [1, 2, 4, 8, 16, 32, 64] ∧ 1 ≤ c.fan ∧ c.fan ≤ 64)) &&
    (countFrom 0 cs.length).all (rooted cs 65)

/-- The entries (R22, R79, R138). -/
def Ana.entriesOk (a : Ana) : Bool :=
  let p := a.im.pat
  a.im.entryRows.all (fun r => decide (rowBits r 0 34 30 = 0 ∧ rowBits r 0 23 1 = 0 ∧ rowBits r 1 11 53 = 0)) &&
    p.entries.all fun e =>
      (match nth p.classes e.cls with | some c => c.parent.isNone | none => false) && decide (1 ≤ e.tension ∧ e.tension ≤ 1024) &&
        (slotAt a.slots e.stage e.die e.station e.slot).isSome &&
        !a.slots.any fun x => decide (x.stage ≠ e.stage ∧ x.die = e.die ∧ x.station = e.station ∧ x.slot = e.slot)

/-- Whether every byte of an N range lies in the footprint (R228). -/
def nRangeOk (p : Pattern) (base len : Nat) : Bool :=
  let lo := base / 2 ^ 20
  let n := (base + len - 1) / 2 ^ 20 - lo + 1
  decide (n ≤ 512) && (countFrom lo n).all fun c => decide (c / 2 ^ 7 < p.fdies ∧ c % 2 ^ 7 < p.fw * p.fh)

/-- A range's field rules (R98, R99, R210, R212, R228). -/
def rangeOk (p : Pattern) (row : List Nat) (r : Range) : Bool :=
  decide (rowBits row 0 63 1 = 0 ∧ rowBits row 1 52 12 = 0 ∧ rowBits row 0 57 3 ≤ 3 ∧ 1 ≤ r.len) &&
    decide (r.tgt = 0 ∨ r.space = .g) && (!(r.fet || r.dsc) || decide ((r.space = .l ∨ r.space = .n) ∧ r.base % 128 = 0 ∧ r.len % 128 = 0)) &&
    (decide (r.space ≠ .l) || decide (r.base + r.len ≤ 2 ^ 20)) && (decide (r.space ≠ .n) || nRangeOk p r.base r.len)

/-- The planes of a swatch: base and bytes (R95). -/
def Swatch.planes (w : Swatch) : List (Nat × Nat) :=
  match w.kind with
  | .region => [(w.base, w.length)]
  | .dense => (w.base, (w.rows - 1) * w.stride + w.rowBytes) :: if w.yb then [(w.scale, w.rows * w.scaleBytes)] else []
  | .csr => [(w.base, 4 * (w.rows + 1)), (w.base + w.aux0 % 2 ^ 32, 4 * (w.aux0 / 2 ^ 32)),
      (w.base + w.aux1 % 2 ^ 32, (if w.elem = 4 then 2 else 4) * (w.aux0 / 2 ^ 32))]

/-- A swatch's own geometry (R94 to R96). -/
def Image.swatchOk (im : Image) (row : List Nat) (w : Swatch) : Bool :=
  let common := decide (rowBits row 0 62 2 = 0 ∧ rowBits row 1 62 2 = 0 ∧ rowBits row 0 60 2 ≠ 3 ∧ rowBits row 0 57 3 ≤ 3 ∧
    w.elem ≤ 8 ∧ w.base % 8 = 0 ∧ (w.delta = 0 ∨ w.elem = 6 ∨ w.elem = 7))
  let byKind := match w.kind with
    | .region => decide (w.aux0 < 2 ^ 48 ∧ w.aux1 = 0 ∧ w.rows = 0 ∧ w.cols = 0 ∧ w.elem = 0 ∧ w.delta = 0)
    | .dense => decide (1 ≤ w.rows ∧ 1 ≤ w.cols ∧ w.aux0 < 2 ^ 32 ∧ w.rowBytes ≤ w.stride ∧ w.stride % 8 = 0) &&
        (if w.yb then decide (w.aux1 < 2 ^ 57) else decide (w.aux1 = 0))
    | .csr => decide (1 ≤ w.rows ∧ 1 ≤ w.cols ∧ (w.elem = 4 ∨ w.elem = 5) ∧ w.aux1 < 2 ^ 32)
  common && byKind && im.rangeDeclared w.range && (match nth im.pat.ranges w.range with
    | some r => decide (r.space = w.space) && (decide (w.space ≠ .w) || r.rd) &&
        w.planes.all fun q => decide (q.2 = 0) || r.has q.1 q.2
    | none => false)

/-- A bind entry (R100). -/
def Image.bindOk (im : Image) (row : List Nat) (b : Bind) : Bool :=
  decide (rowBits row 0 28 4 = 0 ∧ rowBits row 0 38 2 = 0 ∧ rowBits row 0 42 22 = 0) && im.rangeDeclared b.range &&
    (if b.pool then decide (b.handle % 2 ^ 12 < im.pat.knots) else decide (b.handle / 2 ^ 21 = im.pat.part)) &&
    (decide (2 ≤ b.scope) || (match nth im.pat.ranges b.range with
      | some r => decide (r.space = .l ∨ r.space = .n)
      | none => false))

/-! Circuits and operators (R279 to R283, R296). -/

/-- Instances per cluster, inputs and outputs of an operator kind (Table 13.3). -/
def opKind : Nat → Option (Nat × Nat × Nat)
  | 1 => some (2, 1, 1) | 2 => some (2, 1, 1) | 3 => some (2, 2, 2) | 4 => some (1, 2, 1) | 5 => some (2, 2, 1)
  | 6 => some (2, 2, 1) | 7 => some (1, 1, 1) | 8 => some (2, 1, 1) | 9 => some (1, 1, 1) | 10 => some (1, 1, 1)
  | 11 => some (1, 1, 1) | 12 => some (2, 1, 2) | _ => none

/-- Whether an endpoint exists in a stage, as a producer or as a consumer (Table 13.1). -/
def endpointOk (clusters : Nat) (ops : List OpRec) (produces : Bool) (e : Nat) : Bool :=
  let unit := bitsOf e 10 5
  let inst := bitsOf e 6 4
  let port := bitsOf e 0 6
  decide (endCluster e < clusters) && (match opKind unit with
    | some (_, nin, nout) =>
      ops.any (fun o => decide (o.fcl = endCluster e ∧ o.kind = unit ∧ o.inst = inst)) &&
        (if produces then decide (32 ≤ port ∧ port < 32 + nout) else decide (port < nin))
    | none =>
      if unit = 13 then produces && decide (port ≤ 3)
      else if unit = 14 then !produces && decide (port ≤ 3)
      else if unit = 15 then produces && decide (inst = 0 ∧ port = 0)
      else if unit = 16 then !produces && decide (inst ≤ 3 ∧ port ≤ 31)
      else false)

/-- Whether an operator record follows R282 and R283, and each of its ports that must be is on a circuit. -/
def Image.opOk (im : Image) (g : StageImg) (o : OpRec) : Bool :=
  match opKind o.kind with
  | none => false
  | some (n, nin, nout) =>
    let on := fun port => g.circuits.any fun c => decide (c.from_ = endpoint o.fcl o.kind o.inst port ∨ c.to_ = endpoint o.fcl o.kind o.inst port)
    let outs := if o.kind = 10 ∨ o.kind = 11 then [] else (countFrom 32 nout)
    decide (o.inst < n ∧ o.fcl < im.clusters) && p0Ok o.kind o.p0 im.pat.swatches &&
      (countFrom 0 nin).all on && outs.all on

/-- Whether every token port of a seam unit is reached from one station only and is no circuit's consumer (R296). -/
def Ana.seamPortsOk (a : Ana) (stage : Nat) (g : StageImg) : Bool :=
  let per := a.im.pat.fw * a.im.pat.fh
  let ends := a.edges.filterMap fun e => match e.dest, nth a.slots e.src with
    | .engine die eng inst ep, some x =>
      if eng.toNat = 3 ∧ x.stage = stage then some ((die.toNat, inst.toNat, ep.toNat), (x.die, x.station)) else none
    | _, _ => none
  pairwise (fun p q => decide (p.1 ≠ q.1 ∨ p.2 = q.2)) ends &&
    ends.all fun p => g.circuits.all fun c => !atSeam c.to_ ||
      decide ((endCluster c.to_ / per, bitsOf c.to_ 6 4, bitsOf c.to_ 0 6) ≠ p.1)

/-- The circuits and operators of a stage. -/
def Ana.circuitsOk (a : Ana) (stage : Nat) (g : StageImg) : Bool :=
  let im := a.im
  let rows := (nth im.circRows stage).getD []
  let rowOk := fun (r : List Nat) => match r with
    | [w, w1] => decide (w / 2 ^ 48 = 0 ∧ w1 = 0)
    | [w, _, _, _] => decide (bitsOf w 9 3 = 0 ∧ w / 2 ^ 20 = 0)
    | _ => false
  rows.all rowOk && g.circuits.all (fun c => endpointOk im.clusters g.ops true c.from_ && endpointOk im.clusters g.ops false c.to_) &&
    pairwise (fun c d => decide (c.from_ ≠ d.from_ ∧ c.to_ ≠ d.to_)) g.circuits &&
    pairwise (fun o q => decide ((o.fcl, o.kind, o.inst) ≠ (q.fcl, q.kind, q.inst))) g.ops && g.ops.all (im.opOk g) &&
    a.seamPortsOk stage g

/-- Check 3 of Table 4.5. -/
def Ana.tablesOk (a : Ana) : Bool :=
  let im := a.im
  let p := im.pat
  im.whole && classesOk p.classes && a.entriesOk &&
    (im.rangeRows.zip p.ranges).all (fun r => !declared r.1 || rangeOk p r.1 r.2) &&
    (im.swRows.zip p.swatches).all (fun w => !declared w.1 || im.swatchOk w.1 w.2) &&
    (im.bindRows.zip p.binds).all (fun b => im.bindOk b.1 b.2) && pairwise (fun b c => decide (b.range ≠ c.range)) p.binds &&
    (p.stages.zip (countFrom 0 p.stages.length)).all (fun g => a.circuitsOk g.2 g.1) &&
    decide (1 ≤ p.matchcap ∧ p.matchcap ≤ 256 ∧ 2 ≤ p.seamGroup ∧ p.seamGroup ≤ 32)

/-! Errata (R108). -/

/-- The first erratum of a list that a stepping does not accept: PYR-E017 is known, present on A0 and retained on A1 and B0. -/
def badErratum (errata : List Nat) : Option Nat := errata.find? fun e => decide (e ≠ 17)

/-! Size (R102, R281). -/

/-- The mesh edges, each as two footprint positions of a die, that a path of `n` steps crosses. -/
def stepsAlong (fw : Nat) (dx : Bool) (up : Bool) : Nat → Nat → List (Nat × Nat)
  | 0, _ => []
  | n + 1, a =>
    let d := if dx then 1 else fw
    let b := if up then a + d else a - d
    (a, b) :: stepsAlong fw dx up n b

/-- The mesh edges of a circuit between two positions of one die: x first, then y (R281). -/
def meshPath (fw a b : Nat) : List (Nat × Nat) :=
  let ax := a % fw
  let bx := b % fw
  let mid := a - ax + bx
  stepsAlong fw true (decide (ax < bx)) ((ax - bx) + (bx - ax)) a ++
    stepsAlong fw false (decide (mid < b)) ((mid / fw - b / fw) + (b / fw - mid / fw)) mid

/-- The lanes that a circuit takes: mesh edges (die, from, to), and spine lanes out of and into clusters. -/
def circuitLanes (p : Pattern) (c : CircuitRec) : List (Nat × Nat × Nat) :=
  let per := p.fw * p.fh
  let a := endCluster c.from_
  let b := endCluster c.to_
  if a / per = b / per ∧ atSeam c.to_ = false then (meshPath p.fw (a % per) (b % per)).map fun e => (a / per, e.1, e.2)
  else (a, 1000, 0) :: if atSeam c.to_ then [] else [(b, 1001, 0)]

/-- Whether no lane is used beyond its number: 16 on a mesh edge, 8 at a spine port. -/
def lanesOk (p : Pattern) (g : StageImg) : Bool :=
  let used := g.circuits.flatMap (circuitLanes p)
  used.all fun e => decide (used.count e ≤ if 1000 ≤ e.2.1 then 8 else 16)

/-- The first resource of R102 whose limit a demand exceeds, in the order of the table: cluster memory (2) and operator instances (4) are
bounded by R99 and R282, which are checked before. -/
def sizeCode (p : Pattern) : Option Nat :=
  let n := p.fw * p.fh * p.fdies
  if p.stages.any fun g => g.bytes.any fun b => decide (262144 < b) then some 1
  else if 4096 * n < p.knots then some 3
  else if !p.stages.all (lanesOk p) then some 5
  else if 512 < n then some 6
  else none

/-! The certificate (R23). -/

/-- I(k) over the entries of a stage (Table 4.5): `fuel` bounds the depth of the forest. -/
def instances (p : Pattern) (stage : Nat) : Nat → Nat → Nat
  | 0, _ => 0
  | fuel + 1, k => match nth p.classes k with
    | none => 0
    | some c => match c.parent with
      | none => ((p.entries.filter fun e => decide (e.stage = stage ∧ e.cls = k)).map EntryRec.tension).foldl (· + ·) 0
      | some q => instances p stage fuel q * ((nth p.classes q).map BobClass.size).getD 0 * c.fan

/-- Σ I(k) over every class. -/
def instanceTotal (p : Pattern) (stage : Nat) : Nat :=
  ((countFrom 0 p.classes.length).map (instances p stage 65)).foldl (· + ·) 0

/-- Σ I(k) × size(k) over a set of classes. -/
def classDemand (p : Pattern) (stage : Nat) (ks : List Nat) : Nat :=
  (ks.map fun k => instances p stage 65 k * ((nth p.classes k).map BobClass.size).getD 0).foldl (· + ·) 0

/-- Whether a route is one of a stage's: its slot is. -/
def Ana.routeIn (a : Ana) (stage : Nat) (e : REdge) : Bool := decide ((nth a.slots e.src).map RSlot.stage = some stage)

/-- The multiplicity of a route (R23, R271). -/
def Ana.mult (a : Ana) (e : REdge) : Nat :=
  match nth a.slots e.src with
  | none => 1
  | some x => match x.ins, e.o1 with
    | some (.trow f), false => match f.sa with
      | .const n =>
        let r := ((nth a.im.pat.stages x.stage).map StageImg.stations).getD []
        match (r.find? fun y => decide (y.cluster = a.im.fclOf x ∧ y.station = x.station % 16)).bind fun y => look y.consts n.val with
        | some v => bitsOf v.toNat 8 8
        | none => 192
      | _ => 192
    | _, _ => 1

/-- D(s), over the routes of the slot's stage. -/
def Ana.slotDemand (a : Ana) (i : Nat) (x : RSlot) : Nat :=
  let into := a.edges.filter fun e => decide (e.tgt = some i) && x.readsPort e.port && a.routeIn x.stage e
  max 1 ((into.map a.mult).foldl (· + ·) 0 - 1) * classDemand a.im.pat x.stage (a.set i)

/-- Whether a slot holds a waiter: KWAIT, BALLOC or LOOPGEN. -/
def RSlot.waits (x : RSlot) : Bool :=
  match x.ins with
  | some (.kwait _) => true
  | some (.balloc _ _) => true
  | some (.loopgen _ _) => true
  | _ => false

/-- The slots of a stage and cluster, with their indices. -/
def Ana.slotsOf (a : Ana) (stage fcl : Nat) : List (RSlot × Nat) :=
  (a.slots.zip (countFrom 0 a.slots.length)).filter fun x => decide (x.1.stage = stage ∧ a.im.fclOf x.1 = fcl)

/-- D(t) of the stations of a cluster. -/
def Ana.stationDemands (a : Ana) (stage fcl : Nat) : List Nat :=
  let xs := a.slotsOf stage fcl
  (countFrom 0 16).map fun t =>
    ((xs.filter fun x => decide (x.1.station % 16 = t)).map fun x => a.slotDemand x.2 x.1).foldl (· + ·) 0

/-- X(c). -/
def Ana.remnantDemand (a : Ana) (stage fcl : Nat) : Nat :=
  let xs := a.slotsOf stage fcl
  let past := ((a.stationDemands stage fcl).map fun d => d - a.im.pat.matchcap).foldl (· + ·) 0
  let v := ((xs.filter fun x => x.1.waits).map fun x => classDemand a.im.pat stage (a.set x.2)).foldl (· + ·) 0
  let rows := a.edges.filter fun e => decide (e.src ∈ xs.map Prod.snd) && (match e.dest with
    | .engine _ eng _ _ => decide (eng.toNat = 2)
    | .slot _ _ _ _ => false)
  past + v + (rows.map fun e => a.mult e * classDemand a.im.pat stage (a.travels e)).foldl (· + ·) 0

/-- The bytes of a stage's certificate block (Table 4.5). -/
def Ana.certBlock (a : Ana) (stage : Nat) : List Byte :=
  leBytes 4 (instanceTotal a.im.pat stage) ++ (countFrom 0 a.im.clusters).flatMap fun c =>
    (a.stationDemands stage c).flatMap (leBytes 4) ++ leBytes 4 (a.remnantDemand stage c) ++ leBytes 4 0

/-- X(c) of every cluster, stage by stage. -/
def Ana.remnants (a : Ana) : List (List Nat) :=
  (countFrom 0 a.im.pat.stages.length).map fun g => (countFrom 0 a.im.clusters).map (a.remnantDemand g)

/-- The cluster that a failing certificate names, if it fails (R23): the first with X(c) above 8,192, or the first whose stored demand
differs; 0 for the instance total. -/
def Ana.certFault (a : Ana) : Option Nat :=
  let n := a.im.clusters
  let size := 4 + 72 * n
  let past := a.remnants.findSome? fun xs => indexOf (fun x => decide (8192 < x)) xs 0
  let differs := (countFrom 0 a.im.pat.stages.length).findSome? fun g =>
    let stored := (a.im.cert.drop (g * size)).take size
    let made := a.certBlock g
    if stored = made then none
    else if stored.take 4 ≠ made.take 4 then some 0
    else some ((indexOf (fun c => decide ((stored.drop (4 + 72 * c)).take 72 ≠ (made.drop (4 + 72 * c)).take 72)) (countFrom 0 n) 0).getD 0)
  if a.im.cert.length ≠ size * a.im.pat.stages.length then some 0
  else match differs with
    | some c => some c
    | none => match past with
      | some c => some c
      | none =>
        if (countFrom 0 a.im.pat.stages.length).any fun g => decide (1024 < instanceTotal a.im.pat g) then some 0 else none

/-! Colours that a slot is proven to receive (R25). -/

/-- Whether a slot's own tokens carry the colours of its operands: its effect is not held, and it is no SPEC, COMMIT or KILL. -/
def passesColour : Instr → Bool
  | .spec _ _ => false
  | .commit _ _ => false
  | .kill _ _ => false
  | i => !heldWhole i

/-- Whether every firing of a slot sends its tokens: no predicate or test decides it. -/
def alwaysSends (i : Instr) : Bool :=
  (match i with | .steer _ => false | _ => true) && (match i.view with | some v => decide (v.pm = .always) | none => false)

/-- Whether a route is sure to carry a colour, some ports being sure to receive it (log 45). -/
def Ana.sureEdge (a : Ana) (c : BitVec 2) (known : List (Nat × Nat)) (e : REdge) : Bool :=
  match (nth a.slots e.src).bind RSlot.ins with
  | some (.spec f col) => decide (col = c) && alwaysSends (.spec f col)
  | some i => passesColour i && alwaysSends i &&
      known.any fun q => decide (q.1 = e.src) && (((nth a.slots e.src).map fun x => x.readsPort q.2).getD false)
  | none => false

/-- Whether a route sends tokens of firings, not control tokens. -/
def Ana.dataEdge (a : Ana) (e : REdge) : Bool :=
  match (nth a.slots e.src).bind RSlot.ins with
  | some (.commit _ _) => false
  | some (.kill _ _) => false
  | _ => true

/-- One round: the ports all of whose routes are sure to carry a colour, within the stage, and that no seed or fault reaches. -/
def Ana.surePorts (a : Ana) (c : BitVec 2) (known : List (Nat × Nat)) : List (Nat × Nat) :=
  (a.slots.zip (countFrom 0 a.slots.length)).flatMap fun x => ([0, 1, 2, 3].filter fun q =>
    let into := a.edges.filter fun e => decide (e.tgt = some x.2 ∧ e.port = q) && a.dataEdge e
    let outside := a.im.pat.entries.any (fun e => decide (e.stage = x.1.stage ∧ e.die = x.1.die ∧ e.station = x.1.station ∧
        e.slot = x.1.slot ∧ e.port = q)) ||
      (decide (q = 0) && x.1.isFaultSlot a.im.pat)
    x.1.readsPort q && decide (into ≠ []) && !outside &&
      into.all fun e => a.sureEdge c known e && decide ((nth a.slots e.src).map RSlot.stage = some x.1.stage)).map fun q => (x.2, q)

/-- The sure ports of a colour. -/
def Ana.sureGo (a : Ana) (c : BitVec 2) : Nat → List (Nat × Nat) → List (Nat × Nat)
  | 0, known => known
  | fuel + 1, known =>
    let next := a.surePorts c known
    if next = known then known else Ana.sureGo a c fuel next

/-- Whether a slot is proven to receive two different colours. -/
def Ana.mixes (a : Ana) : Bool :=
  let sure := [1, 2, 3].map fun c => a.sureGo c (4 * a.slots.length + 1) []
  pairwise (fun xs ys => !xs.any fun x => ys.any fun y => decide (x.1 = y.1)) sure = false

/-! Portal operators (R104, R349). -/

/-- Whether the portal maps an operator for a target: 1 peer, 2 host, 3 any. -/
def amoPortal (tgt : Nat) (op : AmoOp) : Bool :=
  decide (tgt ≤ 1) || (match op with | .swap => true | .cas => true | .add => true | _ => false)

/-- Whether the portal maps an update. -/
def updPortal (tgt : Nat) (op : UpdOp) : Bool :=
  match op with
  | .add => true
  | .fadd => decide (tgt = 0)
  | .faddNd => decide (tgt = 0)
  | _ => decide (tgt ≤ 1)

/-- The TGT of a range; 0 where it is not in G. -/
def Image.tgt (im : Image) (n : Nat) : Nat :=
  match nth im.pat.ranges n with
  | some r => if r.space = .g then r.tgt else 0
  | none => 0

/-- Whether every operator on a host or peer target is one that the portal maps: of slots, and of SCATTER in add mode. -/
def Ana.portalOk (a : Ana) : Bool :=
  let swTgt := fun n => a.im.tgt (a.im.sw n).range
  a.slots.all (fun x => match x.ins with
    | some (.amog f op _ _) => amoPortal (a.im.tgt f.range.toNat) op
    | some (.updg f op _) => updPortal (a.im.tgt f.range.toNat) op
    | some (.scatrAdd f _) => updPortal (swTgt f.sw2.toNat) (if f.ty = .f32 then .fadd else .add)
    | _ => true) &&
  a.im.pat.stages.all fun g => g.ops.all fun o => decide (o.kind ≠ 10) || decide (bitsOf o.p0.toNat 4 4 ≠ 1) ||
    updPortal (swTgt (bitsOf o.p0.toNat 8 8)) (if bitsOf o.p0.toNat 0 2 = 0 then .fadd else .add)

/-! Races (R103). -/

/-- A writer: its slot's index, whether it is a UPDG, its range, and whether its completion group is o1. -/
structure Writer where
  i : Nat
  slot : RSlot
  upd : Bool
  range : Nat
  o1 : Bool
  deriving DecidableEq, Repr

/-- What a slot writes. -/
def Ana.writerOf (a : Ana) (i : Nat) (x : RSlot) : Option Writer :=
  let mem := fun (f : FormM) (u : Bool) => some ⟨i, x, u, f.range.toNat, true⟩
  let cp := fun (f : FormE) => some ⟨i, x, false, (a.im.sw f.sw2.toNat).range, false⟩
  match x.ins with
  | some (.stl f _) => mem f false
  | some (.stn f _) => mem f false
  | some (.stg f _) => mem f false
  | some (.amol f _ _ _) => mem f false
  | some (.amog f _ _ _) => mem f false
  | some (.updg f _ _) => mem f true
  | some (.copy f _) => cp f
  | some (.copyr f _) => cp f
  | some (.fill f _) => cp f
  | some (.gathr f _) => cp f
  | some (.scatr f _) => cp f
  | some (.scatrAdd f _) => cp f
  | some (.overlay f _) => cp f
  | _ => none

/-- The bytes that a writer's range covers: the space, an L range being the N bytes of its cluster, with base and length. -/
def Ana.extent (a : Ana) (w : Writer) : Option (Space × Nat × Nat) :=
  (nth a.im.pat.ranges w.range).map fun r =>
    if r.space = .l then (.n, w.slot.die * 2 ^ 27 + w.slot.station / 16 * 2 ^ 20 + r.base, r.len) else (r.space, r.base, r.len)

/-- Whether an instruction is a copy-family command with ORD. -/
def ordered : Instr → Bool
  | .copy _ o => o
  | .copyr _ o => o
  | .fill _ o => o
  | .gathr _ o => o
  | .scatr _ o => o
  | .scatrAdd _ o => o
  | .overlay _ o => o
  | _ => false

/-- The slots that one route leads to: its own, or through `copy.ord` every ordered command of the cluster. -/
def Ana.leads (a : Ana) (e : REdge) : List Nat :=
  match e.dest, nth a.slots e.src with
  | .engine _ eng _ ep, some x =>
    if eng.toNat = 1 ∧ ep.toNat = 1 then
      ((a.slotsOf x.stage (a.im.fclOf x)).filter fun y => (y.1.ins.map ordered).getD false).map Prod.snd
    else []
  | _, _ => e.tgt.toList

/-- The slots that routes lead to from some, through any slots. -/
def Ana.reachGo (a : Ana) : Nat → List Nat → List Nat
  | 0, known => known
  | fuel + 1, known =>
    let next := union known ((a.edges.filter fun e => decide (e.src ∈ known)).flatMap a.leads)
    if next = known then known else Ana.reachGo a fuel next

/-- The slots that a writer's completion group leads to. -/
def Ana.after (a : Ana) (w : Writer) : List Nat :=
  a.reachGo (a.slots.length + 1) (union [] ((a.edges.filter fun e => decide (e.src = w.i ∧ e.o1 = w.o1)).flatMap a.leads))

/-- The writers of a stage, in order of DIE, STATION and SLOT. -/
def Ana.writers (a : Ana) (stage : Nat) : List Writer :=
  let ws := (a.slots.zip (countFrom 0 a.slots.length)).filterMap fun x => if x.1.stage = stage then a.writerOf x.2 x.1 else none
  ws.filter fun w => !a.im.pat.binds.any fun b => decide (b.range = w.range)

/-- Whether two writers race. -/
def Ana.races (a : Ana) (v w : Writer) : Bool :=
  decide (v.i ≠ w.i) && !(v.upd && w.upd) && (match a.extent v, a.extent w with
    | some (s1, b1, n1), some (s2, b2, n2) => decide (s1 = s2 ∧ b1 < b2 + n2 ∧ b2 < b1 + n1)
    | _, _ => false) && decide (w.i ∉ a.after v) && decide (v.i ∉ a.after w)

/-- The racing pair that registration names. -/
def Ana.racePair (a : Ana) : Option (RSlot × RSlot) :=
  (countFrom 0 a.im.pat.stages.length).findSome? fun g =>
    let ws := a.writers g
    ws.findSome? fun v => (ws.find? (a.races v)).map fun w => (v.slot, w.slot)

end Sys2Proof.Machine
end

