-- ==== Sys2Proof/Machine/Register.lean ====
section
/-! DEFINITION. Machine/Register.lean: registration packets (spec 05 R117), registration and release (spec 04 R93, R101, R105, R106). -/

namespace Sys2Proof.Machine

/-- What a registration record says beside its handle and digest (Table 4.6); `warn` is WARN, and `at_` the fields of word 0 that name
a slot. -/
structure RegOut where
  status : Nat
  warn : Nat
  fails : Nat
  at_ : Nat
  detail : Nat
  deriving DecidableEq, Repr

/-- A rejection of the pattern as a whole. -/
def RegOut.no (status detail : Nat) : RegOut := ⟨status, 0, 0, 0, detail⟩

/-- DIE, STATION, SLOT and STAGE of a slot, as bytes 0–7 and DETAIL hold them. -/
def RSlot.place (x : RSlot) : Nat := x.die * 2 ^ 32 + x.station * 2 ^ 34 + x.slot * 2 ^ 45 + x.stage * 2 ^ 53

/-- The bytes of a registration record; FAILS is the count of failing slots modulo 2^16 (log 157). -/
def RegOut.bytes (r : RegOut) (handle : Word) (digest : BitVec 384) : List Byte :=
  leBytes 8 (r.status + r.warn * 2 ^ 8 + r.fails % 2 ^ 16 * 2 ^ 16 + r.at_) ++ leBytes 8 handle.toNat ++ leBytes 8 r.detail ++
    leBytes 8 0 ++ digestBytes digest ++ leBytes 16 0

/-- Whether a slot's opcode is deprecated (Table 3.6). -/
def RSlot.deprecated (x : RSlot) : Bool := decide (x.word.toNat % 256 = 0x3C)

/-- Checks 2 to 9 of Table 4.5 on a parsed image. -/
def Image.checks (im : Image) (stepping : Nat) (permissive : Bool) : RegOut :=
  let a := im.analyse
  let failing := a.failing stepping
  match firstSlot failing with
  | some x => ⟨x.2, 0, failing.length, x.1.place, 0⟩
  | none =>
    if !a.tablesOk then .no 1 0
    else match badErratum im.pat.errata with
      | some e => .no 4 e
      | none =>
        if !Config.summaryAgrees im.summary im.bytes then .no 1 0
        else match sizeCode im.pat with
          | some c => .no 5 c
          | none => match a.certFault with
            | some c => .no 6 c
            | none =>
              if a.mixes then .no 7 0
              else if !a.portalOk then .no 8 0
              else
                let warn := (if a.slots.any RSlot.deprecated then 1 else 0) + (if compatWord stepping im.pat ≠ 0 then 4 else 0)
                match a.racePair with
                | some (x, y) =>
                  if permissive then ⟨0, warn + 2, 0, y.place, x.place⟩ else ⟨9, 0, 0, y.place, x.place⟩
                | none => ⟨0, warn, 0, 0, 0⟩

/-- Checks 1 to 9 of Table 4.5 on the bytes of an image, with the pattern when they pass.  Within check 1, the header comes first, then
ISA, then the directory (log 157). -/
def registerImage (img : List Byte) (part addr stepping : Nat) (permissive : Bool) (digest : BitVec 384) : RegOut × Option Pattern :=
  if !headerOk img then (.no 1 0, none)
  else if 3 < imgNat img 6 1 then (.no 2 0, none)
  else if !directoryOk img then (.no 1 0, none)
  else match parseImage img part addr digest with
    | none => (.no 1 0, none)
    | some im =>
      let r := im.checks stepping permissive
      if r.status ≠ 0 then (r, none)
      else
        let xs := im.analyse.remnants
        let stages := (im.pat.stages.zip xs).map fun g => { g.1 with remnant := g.2 }
        (r, some { im.pat with stages := stages, warn := BitVec.ofNat 8 r.warn, race := (r.at_, r.detail) })

/-- The lowest pattern index that is free (R106). -/
def State.freeIndex (s : State) : Option Nat := (countFrom 0 4096).find? fun i => (look s.patterns i).isNone

/-- The pattern of a partition that has a digest. -/
def State.patternBy (s : State) (part : Nat) (digest : BitVec 384) : Option (Nat × Pattern) :=
  s.patterns.find? fun e => decide (e.2.part = part ∧ e.2.digest = digest) && !e.2.released

/-- Registers an image: its record's fields, its handle, and the digest extended into the launch log (R106, R401).  The record of a reuse
repeats the warnings of the first, and the racing pair where RACE is among them (R105; log 157). -/
def State.registerBytes (s : State) (part addr : Nat) (img : List Byte) (digest : BitVec 384) : RegOut × Word × State :=
  let logged := s.onPart part fun p => { p with launchLog := sha384 (digestBytes p.launchLog ++ digestBytes digest) }
  match s.patternBy part digest with
  | some (i, p) => (⟨0, p.warn.toNat + 8, 0, p.race.1, p.race.2⟩, handleWord i part p.gen, logged)
  | none =>
    match registerImage img part addr s.stepping (s.part part).permissive digest with
    | (r, none) => (r, 0, s)
    | (r, some p) =>
      match s.freeIndex with
      | none => (.no 10 0, 0, s)
      | some i =>
        let gen := getAt s.gens i 0 % 2 ^ 30
        (r, handleWord i part gen, { logged with
          patterns := put s.patterns i { p with gen := gen }
          gens := put s.gens i (gen + 1) })

/-- The registered pattern that a handle names in a partition (R106, R119). -/
def State.handleOf? (s : State) (part : Nat) (h : Word) : Option (Nat × Pattern) :=
  let i := h.toNat % 2 ^ 12
  (look s.patterns i).bind fun p => if p.part = part ∧ h = handleWord i part p.gen then some (i, p) else none

/-- Whether a registration packet's reserved fields are zero (Table 5.3). -/
def regPacketClean (p : List Word) : Bool :=
  let w := fun i => (wordAt p i).toNat
  decide (bitsOf (w 0) 38 25 = 0 ∧ bitsOf (w 0) 9 23 = 0 ∧ w 4 = 0 ∧ w 5 = 0 ∧ w 7 = 0)

/-- The completion add of a registration packet or of a packet of unknown TYPE: made if the handle is valid under R119. -/
def State.validAdd (s : State) (part frm : Nat) (h : Word) : State :=
  if s.isStanding part h then s.completionAdd part frm h else s

/-- What a registration packet does, before its record: the record's fields, handle and digest (R117).  An image that is not 64-byte
aligned is read from where it stands (log 157). -/
def State.regPacket (s : State) (c : Client) (p : List Word) : RegOut × Word × BitVec 384 × State :=
  let part := c.part
  if !regPacketClean p || decide (bitsOf (wordAt p 0).toNat 32 6 ≠ part) || !(s.part part).enable then (.no 11 0, 0, 0, s)
  else if (wordAt p 0).getLsbD 8 then
    match s.handleOf? part (wordAt p 1) with
    | some (i, _) =>
      let release := fun (e : Nat × Pattern) => if e.1 = i then (e.1, { e.2 with released := true }) else e
      (.no 0 0, wordAt p 1, 0, ({ s with patterns := s.patterns.map release }).freeHandles)
    | none => (.no 1 (wordAt p 1).toNat, 0, 0, s)
  else
    match s.gReadAll c (wordAt p 1).toNat (wordAt p 2).toNat Need.image with
    | (.error a, s1) => (.no 1 a, 0, 0, s1)
    | (.ok img, s1) =>
      let digest := sha384 img
      let r := s1.registerBytes part (wordAt p 1).toNat img digest
      (r.1, r.2.1, digest, r.2.2)

/-- A consumed registration packet (R117): its effect, its record, and its completion add. -/
def State.registration (s : State) (c : Client) (p : List Word) : State :=
  let r := s.regPacket c p
  let s1 := match r.2.2.2.gWriteAll c (wordAt p 3).toNat (r.1.bytes r.2.1 r.2.2.1) with
    | .ok s1 => s1
    | .error _ => r.2.2.2
  s1.validAdd c.part (c.cl / 128) (wordAt p 6)

end Sys2Proof.Machine
end

