-- ==== Sys2Proof/Machine/Launch.lean ====
section
/-! DEFINITION. Machine/Launch.lean: launches from their queue to a running panel (spec 05: R111 to R121; spec 06: R132 to R136, R141
to R144, R148). -/

namespace Sys2Proof.Machine

/-! Queues (R111, R112). -/

/-- An enabled launch queue's header is read again after a publication (R112). -/
def State.rereadLaunch (s : State) (part q : Nat) (v : Word) (h : QueueHdr) : State :=
  let (h1, s1) := s.reread (s.schedClient part q) (entryAddr v) h fun n => if s.headerFits part n then some n else none
  s1.onPart part fun x => { x with lqHdr := put x.lqHdr q h1 }

/-- QUEUE_REREAD_POLL (R112, R114): the scheduler reads an enabled queue's header again after each publication. -/
def execQueueRereadPoll (part q : Nat) (s : State) : Host.Outcome State Fault Refusal :=
  .next (let p := s.part part
    match look p.lq q, look p.lqHdr q with
    | some v, some h => if p.enable && v.getLsbD 0 && s.published h then s.rereadLaunch part q v h else s
    | _, _ => s)

/-! Rejection (R120, R389). -/

/-- The words of a rejected launch's record; `flags` are its warning bits. -/
def rejectRecord (p : List Word) (q i status res flags : Nat) : List Word :=
  [BitVec.ofNat 64 (status + res * 2 ^ 8 + flags), wordAt p 1, 0,
   BitVec.ofNat 64 (i % 2 ^ 32 + q * 2 ^ 32 + bitsOf (wordAt p 2).toNat 0 4 * 2 ^ 36), 0, 0, 0, 0]

/-- A rejected launch's record, counted in meter 23: it has the warnings of the pattern that the packet names, where one is
registered, and ERRATUM where it held a panel before (R103, R389). -/
def State.writeReject (s : State) (part q i at_ : Nat) (p : List Word) (compat : BitVec 32) (status res : Nat) : State :=
  let warn := ((s.handleOf? part (wordAt p 1)).map fun e => e.2.warn).getD 0
  (s.schedWrite (s.schedClient part q) at_ (bytesOf (rejectRecord p q i status res (warnBits warn compat)))).meterPart part
    (getAt (s.part part).hdie q 0) 23 1

/-- The dependence knots of a launch packet with their thresholds. -/
def dependences (p : List Word) : List (Word × Nat) :=
  [(wordAt p 3, bitsOf (wordAt p 5).toNat 0 32), (wordAt p 4, bitsOf (wordAt p 5).toNat 32 32)].filter fun d => decide (d.1 ≠ noKnot)

/-- Adds or removes the waiters of a Depending launch (Table 5.4). -/
def State.depWaiters (s : State) (p : List Word) (up : Bool) : State :=
  (dependences p).foldl (fun s d => s.addWaiters (knotKey d.1) up 1) s

/-- Rejects a launch that was admitted (R119, R120): one that was saved gives up its unmask contexts and the requests it saved. -/
def State.rejectLaunch (s : State) (l status res : Nat) : State :=
  let x := s.launch l
  let s1 := if x.st = .depending then s.depWaiters x.packet false else s
  let s2 := (s1.dropLaunch l).writeReject x.part x.qidx x.pkt x.recAddr x.packet x.panel.compat status res
  (s2.completionAdd x.part ((s.schedClient x.part x.qidx).cl / 128) (wordAt x.packet 6)).freeHandles

/-! Admission (R116, R119). -/

/-- The clusters of a partition's allotment. -/
def Partition.clusters (p : Partition) : List Nat := (countFrom 0 512).filter fun k => p.allot.getLsbD k

/-- The knot allotment of a partition (R119). -/
def State.knotAllotment (s : State) (part : Nat) : Nat :=
  4096 * (s.part part).clusters.length - s.knots.countP fun k => decide (k.2.owner = .standing ∧ k.2.opart.toNat = part)

/-- The checks 1 to 8 of Table 5.5: the status and resource code of the first that fails. -/
def State.admission (s : State) (part : Nat) (p : List Word) : Option (Nat × Nat) :=
  let pt := s.part part
  let w2 := (wordAt p 2).toNat
  let knotOk := fun (h : Word) => decide (h = noKnot) || s.isStanding part h
  let names := fun (n v : Nat) => decide (n = 0 ∨ n = v)
  if (wordAt p 0).toNat % 256 ≠ 1 ∨ launchPacketClean p = false then some (2, 0)
  else if bitsOf (wordAt p 0).toNat 32 6 ≠ part ∨ pt.enable = false then some (3, 0)
  else match s.handleOf? part (wordAt p 1) with
    | none => some (3, 0)
    | some (_, pat) =>
      let dies := (countFrom 0 4).countP fun d => (decide (bitsOf w2 8 4 = 0) || (bitsOf w2 8 4).testBit d) &&
        pt.clusters.any fun k => decide (k / 128 = d)
      if !(knotOk (wordAt p 6) && knotOk (wordAt p 3) && knotOk (wordAt p 4)) then some (3, 0)
      else if pat.stages.length ≤ bitsOf w2 0 4 then some (2, 7)
      else if !(names (bitsOf w2 32 8) pat.fw && names (bitsOf w2 40 8) pat.fh && names (bitsOf w2 48 3) pat.fdies) then some (2, 8)
      else if pt.clusters.length < pat.fw * pat.fh * pat.fdies then some (2, 1)
      else if dies < pat.fdies then some (2, 2)
      else if s.knotAllotment part < pat.knots then some (2, 3)
      else none

/-- A consumed launch packet: admitted into Depending, or rejected (R118 to R120, R124).  A dependence knot of "no knot" is satisfied at
once (R119). -/
def State.enterLaunch (s : State) (part q i : Nat) (h : QueueHdr) (p : List Word) : State :=
  let at_ := h.recbase + i % ringSize h.log2 * 64
  match s.admission part p with
  | some (status, res) => (s.writeReject part q i at_ p 0 status res).validAdd part ((s.schedClient part q).cl / 128) (wordAt p 6)
  | none =>
    let def_ := (s.part part).wdogdef.toNat
    let x : Launch := { Launch.blank with
      part := part
      qidx := q
      pkt := i
      packet := p
      recAddr := at_
      pat := (wordAt p 1).toNat % 2 ^ 12
      stage := bitsOf (wordAt p 2).toNat 0 4
      prio := min (bitsOf (wordAt p 0).toNat 38 2) h.qpri
      aged := min (bitsOf (wordAt p 0).toNat 38 2) h.qpri
      wdog := if h.wdog ≠ 0 then some h.wdog else if def_ ≠ 0 then some def_ else none }
    let s1 := ({ s with launches := put s.launches s.serial x, serial := s.serial + 1 }).depWaiters p true
    if dependences p = [] then { s1 with agenda := s1.agenda ++ [.event (.dependencesMet s.serial)] } else s1

/-- A consumed packet (R115, R117, R119). -/
def State.consumed (s : State) (part q i : Nat) (h : QueueHdr) (p : List Word) : State :=
  let ty := (wordAt p 0).toNat % 256
  (if ty = 0 then s
  else if ty = 3 then s.registration (s.schedClient part q) p
  else s.enterLaunch part q i h p).freeHandles

/-- CONSUME_PACKET (R112, R114): packet READ is consumed once it is published, the header has been read after that, its VALID reads 1,
and the launch of its slot's former packet has retired. -/
def execConsumePacket (part q : Nat) (s : State) : Host.Outcome State Fault Refusal :=
  .next (let p := s.part part
    match look p.lq q, look p.lqHdr q with
    | some v, some h =>
      let a := entryAddr v
      let c := s.schedClient part q
      let i := h.read
      let old := s.launches.any fun e => decide (e.2.part = part ∧ e.2.qidx = q ∧ e.2.pkt + ringSize h.log2 = i)
      if !p.enable || !v.getLsbD 0 || decide ((s.knot (knotKey h.publish)).value.toNat ≤ i) || old then s
      else if s.published h then s.rereadLaunch part q v h
      else
        match s.queuePeek c a i h.log2 with
        | (none, s1) => s1
        | (some w, s1) =>
          match s1.queueTake c a i h.log2 w with
          | .error _ => s1
          | .ok (w, s2) =>
            (s2.onPart part fun x => { x with lqHdr := put x.lqHdr q { h with read := i + 1 } }).consumed part q i h w
    | _, _ => s)

/-! From Depending to Placing (R118, R119, R121). -/

/-- An inline seed (R121). -/
def inlineSeed (w : Word) : Seed :=
  let n := w.toNat
  ⟨BitVec.ofNat 64 (bitsOf n 0 40), BitVec.ofNat 2 (bitsOf n 61 2), BitVec.ofNat 11 (bitsOf n 50 11), BitVec.ofNat 8 (bitsOf n 42 8),
    BitVec.ofNat 2 (bitsOf n 40 2), 0, 0⟩

/-- An entry of a seed list (R121). -/
def listSeed (payload w : Word) : Seed :=
  let n := w.toNat
  ⟨payload, BitVec.ofNat 2 (bitsOf n 21 2), BitVec.ofNat 11 (bitsOf n 10 11), BitVec.ofNat 8 (bitsOf n 2 8),
    BitVec.ofNat 2 (bitsOf n 0 2), BitVec.ofNat 4 (bitsOf n 23 4), bitsOf n 32 16⟩

/-- Reads a seed list: none where it is not readable, not 16-byte aligned, or empty. -/
def State.readSeeds (s : State) (c : Client) (a : Nat) : Option (List Seed) × State :=
  if a % 16 ≠ 0 then (none, s)
  else
    match s.gReadAll c a 16 Need.read with
    | (.error _, s1) => (none, s1)
    | (.ok hd, s1) =>
      let n := leNat hd % 2 ^ 16
      if n = 0 then (none, s1)
      else
        match s1.gReadAll c (a + 16) (16 * n) Need.read with
        | (.error _, s2) => (none, s2)
        | (.ok bs, s2) => (some ((chunks 2 n (wordsOf bs)).map fun e => listSeed (wordAt e 0) (wordAt e 1)), s2)

/-- The seeds of a launch, once its dependences are met. -/
def State.seedsOf (s : State) (x : Launch) : Option (List Seed) × State :=
  if (wordAt x.packet 0).getLsbD 8 then s.readSeeds (s.schedClient x.part x.qidx) (wordAt x.packet 7).toNat
  else (some [inlineSeed (wordAt x.packet 7)], s)

/-- A launch enters Placing with its seeds, its groups in order of first appearance, those discarded whole, and the entry of each. -/
def State.enterPlacing (s : State) (l : Nat) (ds : List Seed) : State :=
  let order := union [] (ds.map fun d => d.group)
  let bad := match s.pattern l with
    | some p => order.filter (s.groupMixed l p ds)
    | none => []
  let entryOf := fun (g : Nat) => match s.pattern l with
    | some p => ((ds.filter fun d => decide (d.group = g)).findSome? (seedEntry p (s.launch l).firstStage)).map fun e => (g, e)
    | none => none
  s.onLaunch l fun x => { x with
    st := .placing
    seeds := ds
    seedOrder := order
    badGroups := bad
    groupEntry := order.filterMap entryOf
    placingAt := s.nCycle
    waited := 0
    since := s.nCycle
    blockedAt := none }

/-! Ages, areas and candidates (R133, R134, R156). -/

/-- N-cycles in a millisecond. -/
def perMilli : Nat := 1000 * perMicro

/-- Whether a launch is in Placing: first, or returned to it by a pre-emption (R136). -/
def Launch.inPlacing (x : Launch) : Bool := decide (x.st = .placing ∨ x.st = .saved)

/-- The aged priority of a launch now (R133). -/
def State.agedNow (s : State) (x : Launch) : Nat := min 3 (x.prio + (x.waited + (s.nCycle - x.since)) / (10 * perMilli))

/-- AGED_PRIORITY_STEP (R133): a launch in Placing has its aged priority brought up to date. -/
def execAgedPriorityStep (l : Nat) (s : State) : Host.Outcome State Fault Refusal :=
  .next (let x := s.launch l
    if x.inPlacing then s.onLaunch l fun y => { y with aged := s.agedNow y } else s)

/-- The order of R133 among launches in Placing. -/
def Launch.key (x : Launch) : List Nat := [3 - x.aged, x.placingAt, x.qidx, x.pkt]

/-- Inserts a launch in the order of R133. -/
def insertLaunch (e : Nat × Launch) : List (Nat × Launch) → List (Nat × Launch)
  | [] => [e]
  | y :: ys => if lexBefore y.2.key e.2.key then y :: insertLaunch e ys else e :: y :: ys

/-- A partition's launches in Placing, in the order of R133. -/
def State.inOrder (s : State) (part : Nat) : List (Nat × Launch) :=
  (s.launches.filter fun e => decide (e.2.part = part) && e.2.inPlacing).foldr insertLaunch []

/-- Carves an overflow area for a launch that has none, and writes its fault-queue header as zero (R156, R372). -/
def State.carveFor (s : State) (l : Nat) : State :=
  let x := s.launch l
  let p := s.part x.part
  if x.ovArea.isSome then s
  else
    let n := max (2 ^ 20) p.ovsize.toNat
    match carve p.ovpool.toNat p.ovlen.toNat n p.ovAreas with
    | none => s
    | some a =>
      ((s.onPart x.part fun q => { q with ovAreas := q.ovAreas ++ [(a, n, x.qidx, x.pkt)] }).onLaunch l fun y =>
        { y with ovArea := some a, ovLen := n }).schedWrite (s.schedClient x.part x.qidx) a (List.replicate 64 0)

/-- Carves areas for the launches that wait for one, in order (R156). -/
def State.carveAll (s : State) (part : Nat) : State := (s.inOrder part).foldl (fun s e => s.carveFor e.1) s

/-- DEPENDENCES_MET (R118, R119, R156): both dependences are met; check 9 is made on the seed list read now, and overflow areas
are carved. -/
def execDependencesMet (l : Nat) (s : State) : Host.Outcome State Fault Refusal :=
  .next (let x := s.launch l
    let met := (dependences x.packet).all fun d => decide (d.2 ≤ (s.knot (knotKey d.1)).value.toNat)
    if x.st ≠ .depending ∨ (look s.launches l).isNone ∨ met = false then s
    else
      match s.seedsOf x with
      | (none, s1) => s1.rejectLaunch l 2 6
      | (some ds, s1) => ((s1.depWaiters x.packet false).enterPlacing l ds).carveAll x.part)

/-- A window's effective quota in cluster-N-cycles (R134). -/
def Partition.effQuota (p : Partition) : Nat := p.quota.toNat * perMilli - p.deduct

/-- Whether a launch in Placing is eligible (R133): none is restored in a partition that a migration has frozen (R406), and none is placed
while the die of its scheduler is held in reset (R410). -/
def State.eligible (s : State) (x : Launch) : Bool :=
  let p := s.part x.part
  let any_ := ((look p.lqHdr x.qidx).map QueueHdr.anyorder).getD false
  p.enable && !s.dieReset.getLsbD (getAt p.hdie x.qidx 0) && decide (p.used < p.effQuota) && !(p.migrating && decide (x.st = .saved)) && (any_ || s.launches.all fun e =>
    decide (e.2.part ≠ x.part ∨ e.2.qidx ≠ x.qidx ∨ x.pkt ≤ e.2.pkt ∨ (e.2.st ≠ .depending ∧ e.2.st ≠ .placing)))

/-- The candidates of a partition, in order (R133). -/
def State.candidates (s : State) (part : Nat) : List (Nat × Launch) := (s.inOrder part).filter fun e => s.eligible e.2

/-! Decisions (R132 to R136). -/

/-- Whether a saved launch's area is as the save wrote it, digest and all (R380). -/
def State.saveIntact (s : State) (x : Launch) : Bool × State :=
  match x.saved with
  | none => (true, s)
  | some v =>
    let n := x.panel.all.length
    match s.gReadAll (s.schedClient x.part x.qidx) v.base (saveSize n) Need.read with
    | (.ok bs, s1) => (decide (bs = saveImage s.stepping n v.fill v.tokens), s1)
    | (.error _, s1) => (false, s1)

/-- Whether a saved launch can be restored here once its clusters are free: on the stepping of its save (R380), and, where a migration
brought it, in the same partition, with its clusters in the allotment and every key id loaded with the same material (R406). -/
def State.restorable (s : State) (x : Launch) : Bool :=
  match x.saved with
  | none => true
  | some v => decide (v.stepping = s.stepping) && (!v.moved || decide (v.part = x.part) &&
      x.panel.all.all (fun k => (s.part x.part).allot.getLsbD k) &&
      v.keys.all fun k => decide (getAt s.keys k.1 KeySlot.blank = k.2))

/-- Rejects the saved launches of a partition that cannot be restored here (R380, R406); one whose clusters have left the allotment waits,
unless a migration brought it (R119, R136). -/
def State.rejectLost (s : State) (part : Nat) : State :=
  if (s.part part).migrating then s
  else
    (s.launches.filter fun e => decide (e.2.part = part ∧ e.2.st = .saved) && !s.restorable e.2).foldl (fun s e => s.rejectLaunch e.1 2 0) s

/-- Places a candidate; a saved launch whose area is not intact is rejected (R380). -/
def State.placeCandidate (s : State) (l : Nat) (r : Place) : State :=
  let (ok, s1) := s.saveIntact (s.launch l)
  if ok then s1.placeAt l r else s1.rejectLaunch l 2 0

/-- Whether the blocked head of a partition has used up its 2 ms (R133). -/
def State.headTimedOut (s : State) (l : Nat) : Bool :=
  match (s.launch l).blockedAt with
  | some t => decide (t + 2 * perMilli ≤ s.nCycle)
  | none => false

/-- The decision for the candidates of a partition. -/
def State.decideAmong (s : State) (part : Nat) : List (Nat × Launch) → State
  | [] => s
  | (l, _) :: rest =>
    match s.legal l [] with
    | some r => s.placeCandidate l r.2
    | none =>
      let s1 := s.onLaunch l fun x => { x with blockedAt := some (x.blockedAt.getD s.nCycle) }
      let victims := if (s1.legal l (s1.soonFree part)).isSome then none else s1.victims l
      match victims with
      | some v => { s1 with agenda := s1.agenda ++ v.victims.map fun k => Act.event (.freeze k) }
      | none =>
        if (s1.part part).blocked = some l ∨ s1.headTimedOut l = true then s1
        else
          match rest.findSome? fun e => (s1.legal e.1 []).map fun r => (e.1, r.2) with
          | some (k, r) => s1.placeCandidate k r
          | none => s1

/-- PLACEMENT_DECISION (R132 to R136, R406): saved launches that cannot be restored here are rejected, and ages and overflow areas are
brought up to date; the first candidate with a legal placement is placed, or victims are pre-empted for the blocked head. -/
def execPlacementDecision (part : Nat) (s : State) : Host.Outcome State Fault Refusal :=
  .next (if (s.part part).enable = false then s
    else
      let s0 := s.rejectLost part
      let s1 := (s0.inOrder part).foldl (fun s e => s.onLaunch e.1 fun x => { x with aged := s.agedNow x }) s0
      let s2 := s1.carveAll part
      s2.decideAmong part (s2.candidates part))

/-- BLOCKED_HEAD_TIMEOUT (R133): the current blocked head has used up its 2 ms. -/
def execBlockedHeadTimeout (part : Nat) (s : State) : Host.Outcome State Fault Refusal :=
  .next (let b := match s.candidates part with
      | (l, _) :: _ => if s.headTimedOut l then some l else none
      | [] => none
    if (s.part part).blocked = b then s else s.onPart part fun p => { p with blocked := b })

/-- N-cycles in a quota window: 100 ms (R134). -/
def quotaSpan : Nat := 100 * perMilli

/-- A partition as a new window finds it: its deduction is the use beyond the effective quota, at most one quota. -/
def Partition.newWindow (p : Partition) : Partition :=
  { p with deduct := min (p.quota.toNat * perMilli) (p.used - p.effQuota), used := 0 }

/-- Ronob's estimate of a partition's energy on a die since the last one, a free value, goes into meter 18 (R396; log 158). -/
def State.energy (s : State) (part die : Nat) : State :=
  let (mj, s1) := s.choose (2 ^ 32)
  s1.meterPart part die 18 mj

/-- QUOTA_WINDOW_BEGIN (R134): once the next window has come, every partition begins it; the energy meters of those that
have been enabled are brought up to date. -/
def execQuotaWindowBegin (s : State) : Host.Outcome State Fault Refusal :=
  .next (if s.quotaWindow < s.nCycle / quotaSpan then
    (s.parts.filter fun p => p.2.metered).foldl (fun s p => (countFrom 0 4).foldl (fun s d => s.energy p.1 d) s)
      { s with quotaWindow := s.quotaWindow + 1, parts := s.parts.map fun p => (p.1, p.2.newWindow) }
  else s)

/-! Stage switches (R142, R143). -/

/-- The tokens that wait at stages: the stage of each, and the A-cycle of its arrival there. -/
def State.waitingAt (s : State) (l : Nat) : List (Nat × Nat) :=
  let x := s.launch l
  (x.panel.all.flatMap fun cl => (s.cluster cl).remnant.filterMap fun r =>
    if r.kind = .stageWait then (s.otherStage l r.tok).map fun g => (g, r.wstamp) else none) ++
  x.ovf.filterMap fun o => match o.list with
    | .stage g => some (g, o.wstamp)
    | _ => none

/-- The stage that is best by a measure, a tie going to the lower index. -/
def bestStage (f : Nat → Nat) : List Nat → Option Nat
  | [] => none
  | g :: gs => match bestStage f gs with
    | none => some g
    | some h => if f h ≤ f g then some g else some h

/-- The stage to switch to (R142). -/
def State.nextStage (s : State) (l : Nat) : Option Nat :=
  let ws := s.waitingAt l
  let stages := (countFrom 0 16).filter fun g => ws.any fun w => decide (w.1 = g)
  let wait := fun (g : Nat) => (ws.map fun w => if w.1 = g then s.aCycle - w.2 else 0).foldl max 0
  if stages.any fun g => decide (1000 * perMicro < wait g) then bestStage wait stages
  else bestStage (fun g => ws.countP fun w => decide (w.1 = g)) stages

/-- STAGE_SWITCH (R142, R143): a quiescent stage beside waiting tokens gives way; the switch begins with its hem.  The wave that asks clears the touched
bits. -/
def execStageSwitch (l : Nat) (s : State) : Host.Outcome State Fault Refusal :=
  .next (if (s.launch l).runs && s.stageWaits l then
    if s.quiescent l then
      match s.nextStage l with
      | some g => (s.onLaunch l fun x => { x with cfg := some ⟨.switch g, [], []⟩ }).beginHem l .stage
      | none => s
    else s.clearTouched l
  else s)

/-! The configuration-complete wave (R143, R148). -/

/-- An operator instance as its record loads it (R282). -/
def OpInst.ofRec (r : OpRec) : OpInst :=
  { fcl := r.fcl, kind := r.kind, inst := r.inst, p0 := r.p0, p1 := r.p1, p2 := r.p2, inw := 0, eosn := 0, out := [], prev0 := none
    prev1 := none, drop := 0, ended := 0, since := 0, part := none, cnt := 0, word := none, base := 0, rowDone := 0, begun := false
    phase := 0, accs := [], pend := [], parked := none, pport := 0 }

/-- The circuits and operators of a stage, as it is loaded (R143, R280). -/
def StreamFab.ofStage (g : StageImg) : StreamFab :=
  ⟨g.circuits.map fun c => (c.from_, c.to_), [], [], [], g.ops.map OpInst.ofRec⟩

/-- Each producer's free slots are those that its consumer's queue leaves (R292). -/
def StreamFab.recount (b : StreamFab) : StreamFab :=
  { b with
    credits := b.circuits.foldl (fun m c => setAt m c.1 (b.queue c.2).length 0) []
    freed := [] }

/-- The oldest token of a list, the first among equals. -/
def oldestTok (stamp : BitVec 16) : List OutTok → Option OutTok
  | [] => none
  | t :: ts => match oldestTok stamp ts with
    | none => some t
    | some u => if (stamp - t.tok.age).toNat < (stamp - u.tok.age).toNat then some u else some t

/-- Tokens with the oldest first (R143). -/
def byAge (stamp : BitVec 16) : Nat → List OutTok → List OutTok
  | 0, _ => []
  | n + 1, ts => match oldestTok stamp ts with
    | none => []
    | some t => t :: byAge stamp n (ts.erase t)

/-- The sources of the tokens that a cluster re-injects: they keep their order (R143). -/
def stageSource (cl : Nat) : Nat := 2 ^ 24 + cl

/-- Re-injects the tokens that waited for a cluster at the stage now resident: remnant entries first, then overflow records (R143). -/
def State.reinject (s : State) (l cl : Nat) : State :=
  let x := s.launch l
  let goes := fun (r : RemEntry) => decide (r.kind = .stageWait) && (s.otherStage l r.tok).isNone
  let here := fun (o : OvfRec) => decide (o.list = .stage x.stage) && decide (x.panel.cluster o.tok.tag.die o.tok.station = some cl)
  let a := ((s.cluster cl).remnant.filter goes).map fun r => (⟨r.tok.clamp s.stamp, none⟩ : OutTok)
  let b := (x.ovf.filter here).map fun o => (⟨o.tok.clamp s.stamp, o.eng⟩ : OutTok)
  let s1 := (s.onCluster cl fun c => { c with remnant := c.remnant.filter fun r => !goes r }).setOvf l (x.ovf.filter fun o => !here o)
  (byAge s.stamp a.length a ++ byAge s.stamp b.length b).foldl (fun s t => s.arrive cl ⟨l, t, some (stageSource cl), s.nCycle, 4⟩) s1

/-- The tokens that wait in a cluster for other stages keep within the limit that the stage now resident sets (R140, R155): those beyond it
go to the overflow area (log 168). -/
def State.trimWaits (s : State) (l cl : Nat) : State :=
  let ws := (s.cluster cl).remnant.filter fun r => decide (r.kind = .stageWait)
  let out := ws.drop (8192 - s.remnantLimit l cl)
  let s1 := s.onCluster cl fun c => { c with remnant := c.remnant.filter fun r => decide (r ∉ out) }
  out.foldl (fun s r => match s.otherStage l r.tok with
    | some g => s.overflow l ⟨0, .stage g, r.tok, r.wstamp, 0, none, none⟩
    | none => s) s1

/-- CONFIGURATION_COMPLETE_WAVE (R118, R143, R148, R381): with every station loaded, the launch runs, goes on in its new stage, or goes
on from its save; a freeze that has waited for a switch then begins (R144). -/
def execConfigurationCompleteWave (l : Nat) (s : State) : Host.Outcome State Fault Refusal :=
  .next (let x := s.launch l
    match x.cfg, (s.pattern l).bind fun p => nth p.stages x.target with
    | some g, some img =>
      if !x.allLoaded || x.switchHem then s
      else
        match g.why with
        | .initial => s.onLaunch l fun y => { y with st := .running, cfg := none, fab := StreamFab.ofStage img }
        | .restore =>
          if x.saved.isSome then s
          else (s.onLaunch l fun y => { y with st := .running, cfg := none, fab := y.fab.recount }).wakeRestored l
        | .switch t =>
          let s1 := s.onLaunch l fun y => { y with stage := t, cfg := none, freeze := none, fab := StreamFab.ofStage img }
          let s2 := x.panel.all.foldl (fun s cl => (s.reinject l cl).trimWaits l cl) s1
          match x.freeze with
          | some z => s2.startFreeze l z.watchdog (if z.watchdog then z.since else s.nCycle)
          | none => s2
    | _, _ => s)

end Sys2Proof.Machine
end

