-- ==== Sys2Proof/Machine/Service.lean ====
section
/-! DEFINITION. Machine/Service.lean: partitions and their control block (R392, R393), Ronob requests (R394, R395), meters and
attestation (R397 to R401), live migration's bitmap (R405), in-service operations (R407 to R410) and bring-up (R411). -/

namespace Sys2Proof.Machine

/-! Bring-up (R411). -/

/-- BRING_UP (R411): the next step of Table 19.9, on every die; step 3 starts the calendar, step 4 resets the counters together, and step 6
presents the functions. -/
def execBringUp (s : State) : Host.Outcome State Fault Refusal :=
  .next (match s.bringUp with
    | 2 => { s with bringUp := 3, calendar := 0 }
    | 3 => { s with bringUp := 4, nCycle := 0, stamp := 0 }
    | 5 => { s with bringUp := 6, presented := true }
    | n => if n < 6 then { s with bringUp := n + 1 } else s)

/-! Enabling (R393). -/

/-- The TDISP state of a partition's interface. -/
def State.tdispOf (s : State) (part : Nat) : Tdisp := getAt s.tdisp part .configUnlocked

/-- Whether a partition's configuration is locked (R393). -/
def State.locked (s : State) (part : Nat) : Bool := decide (s.tdispOf part = .configLocked ∨ s.tdispOf part = .run)

/-- A write by the physical function: while the interface is locked it is refused and sets the interface to ERROR (R393). -/
def State.pfWrite (s : State) (part : Nat) (f : State → State) : State :=
  if s.locked part then { s with tdisp := setAt s.tdisp part .error .configUnlocked } else f s

/-- Rejects the launches of a partition that are in Depending or Placing and meet a test (R119, R393). -/
def State.rejectWaiting (s : State) (part : Nat) (of : Launch → Bool) : State :=
  (s.launches.filter fun e => decide (e.2.part = part) && (e.2.inPlacing || decide (e.2.st = .depending)) && of e.2).foldl
    (fun s e => s.rejectLaunch e.1 3 0) s

/-- A write of the control word: ENABLE, MODE, KEEPOVF and DEBUG.  A partition that is enabled anew may restore its saved launches (log
160). -/
def State.writeEnable (s : State) (part : Nat) (v : Word) : State :=
  let was := (s.part part).enable
  let s1 := s.onPart part fun p => { p with
    enable := v.getLsbD 0, metered := p.metered || v.getLsbD 0, permissive := v.getLsbD 1, keepovf := v.getLsbD 2, debug := v.getLsbD 3 }
  if was && !v.getLsbD 0 then s1.rejectWaiting part fun _ => true
  else if !was && v.getLsbD 0 then s1.onPart part fun p => { p with deduct := 0, migrating := false }
  else s1

/-- CB_ENABLE (R392, R393). -/
def execCbEnable (part : Nat) (v : BitVec 64) (s : State) : Host.Outcome State Fault Refusal :=
  .next (s.pfWrite part fun s => s.writeEnable part v)

/-! Queue tables (R111, R112, R239). -/

/-- Disables a launch queue: its launches in Depending or Placing are rejected (R119). -/
def State.disableQueue (s : State) (part q : Nat) (v : Word) : State :=
  (s.onPart part fun p => { p with lq := put p.lq q v, lqHdr := del p.lqHdr q }).rejectWaiting part fun x => decide (x.qidx = q)

/-- A write of a launch-queue entry. -/
def State.writeQueueEntry (s : State) (part q : Nat) (v : Word) : State :=
  if 16 ≤ q then s
  else if !v.getLsbD 0 then s.disableQueue part q v
  else if look (s.part part).lq q = some v then s
  else
    let s1 := match look (s.part part).lq q with
      | some w => if w.getLsbD 0 then s.disableQueue part q 0 else s
      | none => s
    match s1.readHeader (s1.schedClient part q) (entryAddr v) with
    | (some h, s2) =>
      if s2.headerFits part h then
        s2.onPart part fun p => { p with lq := put p.lq q v, lqHdr := put p.lqHdr q { h with seen := s2.knotValue h.publish } }
      else s2
    | (none, s2) => s2

/-- CB_QUEUE_ENTRY (R111, R112, R119). -/
def execCbQueueEntry (part q : Nat) (v : BitVec 64) (s : State) : Host.Outcome State Fault Refusal :=
  .next (s.writeQueueEntry part q v)

/-- A write of a copy-queue entry: its serving cluster must lie in the allotment (R239). -/
def State.writeCopyEntry (s : State) (part q : Nat) (v : Word) : State :=
  let off := fun (s : State) (w : Word) => s.onPart part fun p => { p with cq := put p.cq q w, cqHdr := del p.cqHdr q }
  if 16 ≤ q then s
  else if !v.getLsbD 0 then off s v
  else if look (s.part part).cq q = some v then s
  else
    let s1 := match look (s.part part).cq q with
      | some w => if w.getLsbD 0 then off s 0 else s
      | none => s
    match s1.readHeader (queueClient part 0) (entryAddr v) with
    | (some h, s2) =>
      match s2.copyHeader part h with
      | some h' => s2.onPart part fun p => { p with cq := put p.cq q v, cqHdr := put p.cqHdr q { h' with seen := s2.knotValue h.publish } }
      | none => s2
    | (none, s2) => s2

/-- CB_COPY_QUEUE_ENTRY (R112, R239). -/
def execCbCopyQueueEntry (part q : Nat) (v : BitVec 64) (s : State) : Host.Outcome State Fault Refusal :=
  .next (s.writeCopyEntry part q v)

/-! Invalidations (R219). -/

/-- Whether an INVAL word names a cached page: size codes 0 to 2, or everything. -/
def invalidates (v : Word) (e : TEntry) : Bool :=
  let size := match v.toNat % 8 with | 0 => 2 ^ 16 | 1 => 2 ^ 21 | _ => 2 ^ 30
  let base := v.toNat / 2 ^ 16 * 2 ^ 16 / size * size
  decide (3 ≤ v.toNat % 8) || decide (e.base < base + size ∧ base < e.base + e.size)

/-- The invalidation in progress completes: no cluster caches an entry that it names. -/
def State.invalidationDone (s : State) (part : Nat) : State :=
  let p := s.part part
  if !p.invalBusy then s
  else
    let keep := fun (e : TEntry) => !(decide (e.part = part) && invalidates p.inval e)
    let cut := fun (c : Cluster) => { c with tcache := c.tcache.filter keep }
    let cs := (s.clusters.map fun c => (c.1, cut c.2)).filter fun c => decide (c.2 ≠ Cluster.clear)
    { s with clusters := cs }.onPart part fun q => { q with invalBusy := false, inval := 0 }

/-- A write of INVAL; one still in progress completes first. -/
def State.writeInval (s : State) (part : Nat) (v : Word) : State :=
  (s.invalidationDone part).onPart part fun p => { p with inval := v, invalBusy := true }

/-- CB_INVALIDATE (R219). -/
def execCbInvalidate (part : Nat) (v : BitVec 64) (s : State) : Host.Outcome State Fault Refusal := .next (s.writeInval part v)
/-- INVALIDATION_COMPLETE (R219). -/
def execInvalidationComplete (part : Nat) (s : State) : Host.Outcome State Fault Refusal := .next (s.invalidationDone part)

/-- ATS_INVALIDATION (R399): the portal forgets the translations of host pages of a span. -/
def execAtsInvalidation (die addr len : Nat) (s : State) : Host.Outcome State Fault Refusal :=
  let keep := fun (k : Nat) => !decide (k / 2 ^ 48 = die ∧ k % 2 ^ 48 * 2 ^ 12 < addr + len ∧ addr < k % 2 ^ 48 * 2 ^ 12 + 2 ^ 12)
  .next { s with ats := s.ats.filter keep }

/-! Dirty snapshots (R405). -/

/-- The words of the dirty bitmap: one bit for each 64 KiB page of local HBM. -/
def bitmapWords : Nat := hbmSize / 2 ^ 16 / 64

/-- A write of DSNAP: a snapshot to an address other than 0 begins; PF only. -/
def State.writeDsnap (s : State) (part : Nat) (v : Word) : State := s.onPart part fun p => { p with dsnap := v, dsnapAt := 0 }

/-- CB_DSNAP (R405). -/
def execCbDsnap (part : Nat) (v : BitVec 64) (s : State) : Host.Outcome State Fault Refusal :=
  .next (s.pfWrite part fun s => s.writeDsnap part v)

/-- DSNAP_COMPLETE (R405): the next word of the bitmap is copied and cleared, indivisibly; once every word has been, DSNAP reads
back 0. -/
def execDsnapComplete (part : Nat) (s : State) : Host.Outcome State Fault Refusal :=
  .next (let p := s.part part
    if p.dsnap = 0 then s
    else
      let src := p.dirty.toNat / 2 * 2 + 8 * p.dsnapAt
      let dst := p.dsnap.toNat + 8 * p.dsnapAt
      let last := decide (bitmapWords ≤ p.dsnapAt + 1)
      let word := readBytes s.hbm src 8
      (({ s with hbm := writeBytes (writeBytes s.hbm src (List.replicate 8 0)) dst word }.touchPa src).touchPa dst).onPart part fun q =>
        { q with dsnap := if last then 0 else q.dsnap, dsnapAt := if last then 0 else q.dsnapAt + 1 })

/-! The other fields of the control block (Table 19.2). -/

/-- A write of OVREL: the overflow and save areas that a launch left are returned (R391). -/
def State.writeOvrel (s : State) (part : Nat) (v : Word) : State :=
  let q := v.toNat % 16
  let k := v.toNat / 2 ^ 16 % 2 ^ 32
  let live := s.launches.any fun e => decide (e.2.part = part ∧ e.2.qidx = q ∧ e.2.pkt % 2 ^ 32 = k)
  let other := fun (a : Nat × Nat × Nat × Nat) => decide (a.2.2.1 ≠ q ∨ a.2.2.2 % 2 ^ 32 ≠ k)
  if live then s
  else s.onPart part fun p => { p with ovrel := v, ovAreas := p.ovAreas.filter other, svAreas := p.svAreas.filter other }

/-- CB_OVREL (R391). -/
def execCbOvrel (part : Nat) (v : BitVec 64) (s : State) : Host.Outcome State Fault Refusal := .next (s.writeOvrel part v)

/-- A write of the error bits: 1 clears. -/
def State.clearErrors (s : State) (part : Nat) (v : Word) : State :=
  s.onPart part fun p => { p with
    trigerr := p.trigerr && !v.getLsbD 0, knoterr := p.knoterr && !v.getLsbD 1, wlerr := p.wlerr && !v.getLsbD 2 }

/-- CB_ERROR_CLEAR (R392). -/
def execCbErrorClear (part : Nat) (v : BitVec 64) (s : State) : Host.Outcome State Fault Refusal := .next (s.clearErrors part v)

/-- A write of RSWORD: the resume of the launch that RSLAUNCH names (R376). -/
def State.writeRsword (s : State) (part : Nat) (v : Word) : State :=
  let r := (s.part part).rslaunch.toNat
  let s1 := s.onPart part fun p => { p with rsword := v }
  match s.launches.find? fun e => decide (e.2.part = part ∧ e.2.qidx = r % 16 ∧ e.2.pkt % 2 ^ 32 = r / 2 ^ 16 % 2 ^ 32) with
  | some e => s1.resumeWord e.1 v
  | none => s1

/-- ALLOT with its word at an index replaced. -/
def allotWord (a : BitVec 512) (i : Nat) (v : Word) : BitVec 512 :=
  BitVec.ofNat 512 (a.toNat - bitsOf a.toNat (64 * i) 64 * 2 ^ (64 * i) + v.toNat * 2 ^ (64 * i))

/-- A field that only the physical function writes. -/
def State.writePf (s : State) (part off : Nat) (v : Word) : State :=
  if off = 0 then s.writeEnable part v
  else if off = 0x48 then s.onPart part fun p => { p with quota := v.setWidth 32 }
  else if off = 0x50 then s.onPart part fun p => { p with wdogdef := v.setWidth 32 }
  else if off = 0xB8 then s.onPart part fun p => { p with pkwin := v }
  else if off = 0xC0 then s.onPart part fun p => { p with dirty := v }
  else if off = 0xC8 then s.writeDsnap part v
  else s.onPart part fun p => { p with allot := allotWord p.allot ((off - 8) / 8) v }

/-- A field that is written only while ENABLE is 0. -/
def State.writeClosed (s : State) (part off : Nat) (v : Word) : State :=
  if (s.part part).enable then s
  else s.onPart part fun p =>
    if off = 0x58 then { p with tkey := BitVec.ofNat 12 (bitsOf v.toNat 52 12), troot := v }
    else if off = 0x60 then { p with ovpool := v }
    else if off = 0x68 then { p with ovlen := v }
    else if off = 0x70 then { p with ovsize := v }
    else if off = 0x78 then { p with svpool := v }
    else { p with svlen := v }

/-- Whether an offset's field is one that only the physical function writes. -/
def pfOffset (off : Nat) : Bool := decide (off < 0x58 ∨ off = 0xB8 ∨ off = 0xC0 ∨ off = 0xC8)

/-- A write of a field that the virtual function writes too. -/
def State.writeVf (s : State) (part off : Nat) (v : Word) : State :=
  if off < 0x88 then s.writeClosed part off v
  else if off = 0x88 then s.onPart part fun p => { p with mdring := v }
  else if off = 0x90 then s.clearErrors part v
  else if off = 0x98 then s.writeInval part v
  else if off = 0xA0 then s.onPart part fun p => { p with rslaunch := v }
  else if off = 0xA8 then s.writeRsword part v
  else if off = 0xB0 then s.writeOvrel part v
  else if 0x100 ≤ off ∧ off < 0x180 then s.writeQueueEntry part ((off - 0x100) / 8) v
  else if 0x180 ≤ off ∧ off < 0x200 then s.writeCopyEntry part ((off - 0x180) / 8) v
  else s

/-- CONTROL_BLOCK_WRITE (R392, R393): an aligned 8-byte write by one of a partition's functions; one that the writer may not make is
ignored. -/
def execControlBlockWrite (writer : CbWriter) (part off : Nat) (v : BitVec 64) (s : State) : Host.Outcome State Fault Refusal :=
  .next (if off % 8 ≠ 0 ∨ 64 ≤ part then s
    else match writer with
      | .vf => if pfOffset off then s else s.writeVf part off v
      | .pf => s.pfWrite part fun s => if pfOffset off then s.writePf part off v else s.writeVf part off v)

/-- The number that bits stand for. -/
def bitNat (b : Bool) (i : Nat) : Nat := if b then 2 ^ i else 0

/-- A control-block meter: the sum over the dies (R396). -/
def State.meterSum (s : State) (part i : Nat) : Word :=
  (countFrom 0 4).foldl (fun n d => n + getAt s.meters ((part * 4 + d) * 32 + i) 0) 0

/-- The bits that RSLAUNCH and OVREL have: QIDX and PKT. -/
def launchBits : Word := 0x0000FFFFFFFF000F
/-- The bits that a queue entry has: the header's address and the enable. -/
def entryBits : Word := 0xFFFFFFFFFFFFFFC1

/-- What a read of the control block returns (Table 19.2); reserved bits read as zero (R4). -/
def State.cbWord (s : State) (part off : Nat) : Word :=
  let p := s.part part
  match off / 8 with
  | 0 => BitVec.ofNat 64 (bitNat p.enable 0 + bitNat p.permissive 1 + bitNat p.keepovf 2 + bitNat p.debug 3)
  | 9 => p.quota.setWidth 64
  | 10 => p.wdogdef.setWidth 64
  | 11 => BitVec.ofNat 64 (p.troot.toNat / 2 ^ 17 * 2 ^ 17)
  | 12 => p.ovpool
  | 13 => p.ovlen
  | 14 => p.ovsize
  | 15 => p.svpool
  | 16 => p.svlen
  | 17 => p.mdring
  | 18 => BitVec.ofNat 64 (bitNat p.trigerr 0 + bitNat p.knoterr 1 + bitNat p.wlerr 2)
  | 19 => BitVec.ofNat 64 (bitNat p.invalBusy 0)
  | 20 => p.rslaunch &&& launchBits
  | 21 => p.rsword
  | 22 => p.ovrel &&& launchBits
  | 23 => p.pkwin
  | 24 => p.dirty
  | 25 => p.dsnap
  | 26 => p.wladdr
  | n =>
    if n < 9 then BitVec.ofNat 64 (bitsOf p.allot.toNat (64 * (n - 1)) 64)
    else if 32 ≤ n ∧ n < 48 then getAt p.lq (n - 32) 0 &&& entryBits
    else if 48 ≤ n ∧ n < 64 then getAt p.cq (n - 48) 0 &&& entryBits
    else if 64 ≤ n ∧ n < 88 then s.meterSum part (n - 64)
    else 0

/-- A read of the control block by one of a partition's functions (R392): aligned and of 8 bytes, of a field that the function reaches;
what any other returns is not stated, and is free.  The answer goes to the reader. -/
def State.cbRead (s : State) (reader : CbWriter) (part off size : Nat) : State :=
  let ok := decide (size = 8 ∧ off % 8 = 0 ∧ part < 64) && (decide (reader = .pf) || !pfOffset off)
  let (w, s1) := s.freeWord
  { s1 with outbox := s1.outbox ++ [leBytes 8 (if ok then s.cbWord part off else w).toNat] }

end Sys2Proof.Machine

namespace Sys2Proof
open Sys2Proof.Machine

/-! Ronob configuration requests (R394, R395). -/

/-- The function of an SPDM session: a partition's virtual function, or 64 and the die of a physical function. -/
def DoeReq.session (r : DoeReq) : Nat := if r.fromPf then 64 + r.fn % 4 else r.fn
/-- The PART of a request. -/
def DoeReq.part (r : DoeReq) : Nat := bitsOf r.header.toNat 8 6
/-- Word `i` of a request. -/
def DoeReq.word (r : DoeReq) (i : Nat) : Nat := (wordAt r.words i).toNat

/-- Whether a request's header is of a command with so many words. -/
def DoeReq.wellFormed (r : DoeReq) (cmd n : Nat) : Bool :=
  let h := r.header.toNat
  decide (bitsOf h 0 8 = cmd ∧ bitsOf h 14 2 = 0 ∧ bitsOf h 18 6 = 0 ∧ bitsOf h 24 8 = n ∧ r.words.length = n)

/-- The keys of a request's knots. -/
def DoeReq.knots (r : DoeReq) : List Nat := countFrom (knotKey (wordAt r.words 0)) (r.word 1)

/-- Whether the operands of a knot request are out of range. -/
def DoeReq.knotsBad (r : DoeReq) : Bool :=
  decide (2 ^ 27 ≤ r.word 0 ∨ knotPart (wordAt r.words 0) ≠ r.part ∨ r.word 1 < 1 ∨ 4096 < r.word 1 ∨ 4096 < r.word 0 % 4096 + r.word 1)

/-- Whether a request comes from the function of the partition that it names (R394). -/
def DoeReq.own (r : DoeReq) : Bool := !r.fromPf && decide (r.fn = r.part)

end Sys2Proof

namespace Sys2Proof.Machine

/-- Whether a partition has an enabled queue (R393). -/
def State.anyQueue (s : State) (part : Nat) : Bool :=
  let p := s.part part
  (p.lq ++ p.cq).any fun e => e.2.getLsbD 0

/-- Whether a die's Ronob is restarting: it answers nothing, and does nothing that it is asked (R402). -/
def State.deaf (s : State) (die : Nat) : Bool := s.restarting.getLsbD die

/-- The die whose Ronob serves a function: die 0 for a virtual one (R398). -/
def fnDie (fn : Nat) : Nat := if fn < 64 then 0 else fn - 64

/-- A request carried out by the Ronob of the die that it names: `malformed`, `refused` and `busy` say why not; only a session carries
one.  The response goes to the requester. -/
def State.ronob (s : State) (r : DoeReq) (malformed refused busy : Bool) (effect : State → State) : State :=
  if getAt s.spdm r.session false = false ∨ s.deaf (fnDie r.session) = true ∨ s.deaf (bitsOf r.header.toNat 16 2) = true then s
  else
    let status := if malformed then 3 else if refused then 1 else if busy then 2 else 0
    let s1 := if status = 0 then effect s else s
    { s1 with outbox := s1.outbox ++ [leBytes 8 (status + bitsOf r.header.toNat 32 32 * 2 ^ 32)] }

/-- KNOT_ALLOT (Table 19.10). -/
def execKnotAllot (rq : DoeReq) (s : State) : Host.Outcome State Fault Refusal :=
  .next (s.ronob rq (!rq.wellFormed 1 2 || rq.knotsBad) (!rq.fromPf || s.locked rq.part)
    (s.anyQueue rq.part || rq.knots.any fun k => decide ((s.knot k).owner ≠ .free)) fun s =>
      rq.knots.foldl (fun s k => s.setKnot k { Knot.blank with owner := .standing, opart := BitVec.ofNat 6 rq.part }) s)

/-- Whether a knot is the publish knot of an enabled queue. -/
def State.publishKnot (s : State) (k : Nat) : Bool :=
  s.parts.any fun p => (p.2.lqHdr ++ p.2.cqHdr).any fun h => decide (knotKey h.2.publish = k)

/-- KNOT_RETURN (Table 19.10). -/
def execKnotReturn (rq : DoeReq) (s : State) : Host.Outcome State Fault Refusal :=
  .next (s.ronob rq (!rq.wellFormed 2 2 || rq.knotsBad)
    (!rq.fromPf || s.locked rq.part || rq.knots.any fun k => decide ((s.knot k).owner ≠ .standing ∨ (s.knot k).opart.toNat ≠ rq.part))
    (s.anyQueue rq.part || rq.knots.any fun k => decide ((s.knot k).waiters ≠ 0) || (s.knot k).armed || s.publishKnot k) fun s =>
      rq.knots.foldl (fun s k => (s.onCluster (bankOf k) fun c => { c with dir := c.dir.filter fun d => decide (d.knot ≠ k) }).setKnot k
        Knot.blank) s)

/-- SLOT_TABLE (R236, Table 19.10). -/
def execSlotTable (rq : DoeReq) (s : State) : Host.Outcome State Fault Refusal :=
  .next (s.ronob rq (!rq.wellFormed 3 17 || decide (288 ≤ rq.word 0)) (!rq.fromPf || s.locked rq.part) (s.anyQueue rq.part) fun s =>
    let entries := (rq.words.drop 1).flatMap fun w => (countFrom 0 4).map fun i => bitsOf w.toNat (16 * i) 16
    { s with slotTables := put s.slotTables (rq.word 0) entries })

/-- QUEUE_HOME (R370, Table 19.10). -/
def execQueueHome (rq : DoeReq) (s : State) : Host.Outcome State Fault Refusal :=
  .next (s.ronob rq (!rq.wellFormed 4 1 || decide (bitsOf (rq.word 0) 4 4 ≠ 0 ∨ 1024 ≤ rq.word 0)) (!rq.fromPf || s.locked rq.part)
    (s.anyQueue rq.part) fun s =>
      s.onPart rq.part fun p => { p with hdie := setAt p.hdie (rq.word 0 % 16) (bitsOf (rq.word 0) 8 2) 0 })

/-- PORT_MASK (R403, Table 19.10). -/
def execPortMask (rq : DoeReq) (s : State) : Host.Outcome State Fault Refusal :=
  .next (s.ronob rq (!rq.wellFormed 5 2 || decide (1024 ≤ rq.word 0 ∨ 2 ^ 48 ≤ rq.word 1)) (!rq.fromPf) false fun s =>
    { s with portMasks := setAt s.portMasks (rq.word 0) (BitVec.ofNat 48 (rq.word 1)) 0 })

/-- SELF_ID (R403, Table 19.10): busy while any panel is resident. -/
def execSelfId (rq : DoeReq) (s : State) : Host.Outcome State Fault Refusal :=
  .next (s.ronob rq (!rq.wellFormed 6 1 || decide (2 ^ 14 ≤ rq.word 0)) (!rq.fromPf) (s.launches.any fun e => e.2.holdsPanel) fun s =>
    { s with selfPod := BitVec.ofNat 4 (rq.word 0), selfAcc := BitVec.ofNat 10 (rq.word 0 / 16) })

/-- BRIDGE (R404, Table 19.10). -/
def execBridge (rq : DoeReq) (s : State) : Host.Outcome State Fault Refusal :=
  .next (s.ronob rq (!rq.wellFormed 7 2 || decide (bitsOf (rq.word 0) 5 11 ≠ 0 ∨ 2 ^ 26 ≤ rq.word 0 ∨ 2 ^ 48 ≤ rq.word 1)) (!rq.fromPf) false
    fun s =>
      let b : Bridge := ⟨(rq.word 0).testBit 4, BitVec.ofNat 10 (bitsOf (rq.word 0) 16 10), BitVec.ofNat 48 (rq.word 1)⟩
      { s with bridges := setAt s.bridges (rq.word 0 % 16) b Bridge.none })

/-- A key id. -/
def State.key (s : State) (k : Nat) : KeySlot := getAt s.keys k KeySlot.blank

/-- KEY_LOAD (R395, Table 19.10). -/
def execKeyLoad (rq : DoeReq) (s : State) : Host.Outcome State Fault Refusal :=
  .next (s.ronob rq (!rq.wellFormed 8 9 || decide (4096 ≤ rq.word 0))
    (!rq.own || s.locked rq.part || decide ((s.key (rq.word 0)).owner ≠ none ∧ (s.key (rq.word 0)).owner ≠ some rq.part)) false fun s =>
      let key := fun (i : Nat) => BitVec.ofNat 256 (leNat (bytesOf ((rq.words.drop i).take 4)))
      { s with keys := setAt s.keys (rq.word 0) ⟨some rq.part, true, key 1, key 5⟩ KeySlot.blank })

/-- KEY_UNLOAD (R395, Table 19.10). -/
def execKeyUnload (rq : DoeReq) (s : State) : Host.Outcome State Fault Refusal :=
  .next (s.ronob rq (!rq.wellFormed 9 1 || decide (4096 ≤ rq.word 0))
    (!rq.own || s.locked rq.part || decide ((s.key (rq.word 0)).owner ≠ some rq.part)) false fun s => { s with keys := setAt s.keys (rq.word 0) KeySlot.blank KeySlot.blank })

/-! Meter snapshots and measurements (R397, R401). -/

/-- A signature's r, then s, 48 bytes each, big-endian. -/
def signatureBytes (die : Nat) (bs : List Byte) : List Byte := (leBytes 96 (Config.signature die (sha384 bs)).toNat).reverse

/-- METER_SNAPSHOT (R397): the signed meters of one die for a partition (Table 19.4). -/
def execMeterSnapshot (fn die part : Nat) (nonce : BitVec 256) (s : State) : Host.Outcome State Fault Refusal :=
  .next (if getAt s.spdm fn false && !s.deaf (fnDie fn) && !s.deaf die then
    let bs := leBytes 4 0x594B4D53 ++ leBytes 1 die ++ leBytes 1 part ++ leBytes 2 0 ++ leBytes 8 s.aCycle ++ leBytes 32 nonce.toNat ++
      (countFrom 0 24).flatMap fun i => leBytes 8 (getAt s.meters ((part * 4 + die) * 32 + i) 0).toNat
    { s with outbox := s.outbox ++ [bs ++ signatureBytes die bs] }
  else s)

/-- A measurement block (Table 19.5). -/
def State.measurement (s : State) (fn die index : Nat) : List Byte :=
  match index with
  | 1 => leBytes 8 s.romVersion.toNat ++ leBytes 8 s.stepping
  | 2 => digestBytes (getAt s.firmware die 0)
  | 3 => digestBytes s.microcode
  | 4 => leBytes 8 s.fuses.toNat
  | 5 => (countFrom 0 64).flatMap fun i => leBytes 8 (s.cbWord fn (8 * i)).toNat
  | 6 => digestBytes (s.part fn).launchLog
  | _ => []

/-- GET_MEASUREMENTS (R401): a signed measurement block. -/
def execGetMeasurements (fn die index : Nat) (s : State) : Host.Outcome State Fault Refusal :=
  .next (if getAt s.spdm fn false && !s.deaf (fnDie fn) && !s.deaf die then
    let bs := s.measurement fn die index
    { s with outbox := s.outbox ++ [bs ++ signatureBytes die bs] }
  else s)

/-- SPDM_SESSION (R400): a function's session begins or ends. -/
def execSpdmSession (fn : Nat) (up : Bool) (s : State) : Host.Outcome State Fault Refusal :=
  .next (if s.deaf (fnDie fn) then s else { s with spdm := setAt s.spdm fn up false })

/-- IDE_STREAM_KEYING (R400): the streams of a partition's functions are keyed. -/
def execIdeStreamKeying (part : Nat) (s : State) : Host.Outcome State Fault Refusal :=
  .next (if s.deaf 0 then s else { s with ide := setAt s.ide part true false })

/-- TDISP_REQUEST (R393, R400): a partition's interface changes its state. -/
def execTdispRequest (part : Nat) (to_ : Tdisp) (s : State) : Host.Outcome State Fault Refusal :=
  .next (if s.deaf 0 then s else { s with tdisp := setAt s.tdisp part to_ .configUnlocked })

/-! In service (R407 to R410). -/

/-- RONOB_FIRMWARE_UPDATE (R402, R407): measurement block 2 of the die changes, the sessions of its functions end, and its Ronob
restarts; the functions of a die that is not die 0 are physical ones (R398). -/
def execRonobFirmwareUpdate (die : Nat) (digest : BitVec 384) (s : State) : Host.Outcome State Fault Refusal :=
  .next { s with
    firmware := setAt s.firmware die digest 0
    spdm := s.spdm.filter fun e => decide (fnDie e.1 ≠ die)
    restarting := s.restarting ||| BitVec.ofNat 4 (2 ^ die) }

/-- The restart of a die's Ronob ends, at a time that the spec does not give (R402; log 161). -/
def State.ronobUp (s : State) (die : Nat) : State := { s with restarting := s.restarting &&& ~~~BitVec.ofNat 4 (2 ^ die) }

/-- SCHEDULER_MICROCODE_UPDATE (R407): measurement block 3 changes. -/
def execSchedulerMicrocodeUpdate (digest : BitVec 384) (s : State) : Host.Outcome State Fault Refusal :=
  .next { s with microcode := digest }

/-- LANE_RECALIBRATION (R407): a link begins or ends its recalibration; timing only. -/
def execLaneRecalibration (link : LinkUnit) (start : Bool) (s : State) : Host.Outcome State Fault Refusal :=
  let rest := s.lanes.filter fun u => decide (u ≠ link)
  .next { s with lanes := if start then rest ++ [link] else rest }

/-- THERMAL_RECALIBRATION (R407): a die's sensor offsets are reloaded. -/
def execThermalRecalibration (die : Nat) (offsets : BitVec 64) (s : State) : Host.Outcome State Fault Refusal :=
  .next { s with sensors := setAt s.sensors die offsets 0 }

/-- HBM_RETRAINING (R408): a stack holds arriving requests, and watchdog counting is suspended. -/
def execHbmRetraining (stack : Nat) (s : State) : Host.Outcome State Fault Refusal :=
  .next (if stack < 12 then { s with retraining := union s.retraining [stack] } else s)

/-- HBM_RETRAINING_END (R408). -/
def execHbmRetrainingEnd (stack : Nat) (s : State) : Host.Outcome State Fault Refusal :=
  .next { s with retraining := s.retraining.filter fun k => decide (k ≠ stack) }

/-- THERMAL_GATING (R410): a die gates its station choices and row firings, or stops gating them. -/
def execThermalGating (die : Nat) (on : Bool) (s : State) : Host.Outcome State Fault Refusal :=
  let bit := BitVec.ofNat 4 (2 ^ die)
  .next { s with dieGated := if on then s.dieGated ||| bit else s.dieGated &&& ~~~bit }

/-- THERMAL_TRIP (R410): every resident panel on the die is drained, and the die is held in reset. -/
def execThermalTrip (die : Nat) (s : State) : Host.Outcome State Fault Refusal :=
  .next (let hit := s.launches.filter fun e => e.2.holdsPanel && decide (die ∈ e.2.panel.dies)
    let s1 := hit.foldl (fun s e => s.drain e.1) s
    { s1 with dieReset := s1.dieReset ||| BitVec.ofNat 4 (2 ^ die) })

/-- POWER_CAP_SET (R410): a lower cap, told over I3C to the Ronobs that answer (R402). -/
def execPowerCapSet (watts : Nat) (s : State) : Host.Outcome State Fault Refusal :=
  .next (if s.restarting = 15 then s else { s with powerCap := min watts 2800 })

end Sys2Proof.Machine
end

