-- ==== Sys2Proof/Machine/Dispatch.lean ====
section
/-! DEFINITION. Machine/Dispatch.lean: one arm for each constructor of Instr. -/

namespace Sys2Proof.Machine

/-- The meaning of each instruction and event. -/
def exec (i : Instr) (s : State) : Host.Outcome State Fault Refusal :=
  match i with
  | .mov x0 => Sys2Proof.Machine.execMov x0 s
  | .fanout x0 => Sys2Proof.Machine.execFanout x0 s
  | .sink x0 => Sys2Proof.Machine.execSink x0 s
  | .steer x0 => Sys2Proof.Machine.execSteer x0 s
  | .gate x0 => Sys2Proof.Machine.execGate x0 s
  | .join x0 => Sys2Proof.Machine.execJoin x0 s
  | .inv x0 => Sys2Proof.Machine.execInv x0 s
  | .balloc x0 x1 => Sys2Proof.Machine.execBalloc x0 x1 s
  | .bfree x0 => Sys2Proof.Machine.execBfree x0 s
  | .loopgen x0 x1 => Sys2Proof.Machine.execLoopgen x0 x1 s
  | .next x0 => Sys2Proof.Machine.execNext x0 s
  | .iend x0 => Sys2Proof.Machine.execIend x0 s
  | .retag x0 => Sys2Proof.Machine.execRetag x0 s
  | .retagCall x0 => Sys2Proof.Machine.execRetagCall x0 s
  | .spec x0 x1 => Sys2Proof.Machine.execSpec x0 x1 s
  | .commit x0 x1 => Sys2Proof.Machine.execCommit x0 x1 s
  | .kill x0 x1 => Sys2Proof.Machine.execKill x0 x1 s
  | .phset x0 x1 x2 => Sys2Proof.Machine.execPhset x0 x1 x2 s
  | .phwait x0 x1 x2 => Sys2Proof.Machine.execPhwait x0 x1 x2 s
  | .spawn x0 x1 => Sys2Proof.Machine.execSpawn x0 x1 s
  | .done x0 => Sys2Proof.Machine.execDone x0 s
  | .doneForce x0 => Sys2Proof.Machine.execDoneForce x0 s
  | .ticket x0 x1 x2 => Sys2Proof.Machine.execTicket x0 x1 x2 s
  | .ticketRelease x0 x1 x2 => Sys2Proof.Machine.execTicketRelease x0 x1 x2 s
  | .add x0 => Sys2Proof.Machine.execAdd x0 s
  | .sub x0 => Sys2Proof.Machine.execSub x0 s
  | .mul x0 => Sys2Proof.Machine.execMul x0 s
  | .mulh x0 => Sys2Proof.Machine.execMulh x0 s
  | .div x0 => Sys2Proof.Machine.execDiv x0 s
  | .rem x0 => Sys2Proof.Machine.execRem x0 s
  | .and x0 => Sys2Proof.Machine.execAnd x0 s
  | .or x0 => Sys2Proof.Machine.execOr x0 s
  | .xor x0 => Sys2Proof.Machine.execXor x0 s
  | .andn x0 => Sys2Proof.Machine.execAndn x0 s
  | .shl x0 => Sys2Proof.Machine.execShl x0 s
  | .shr x0 => Sys2Proof.Machine.execShr x0 s
  | .sra x0 => Sys2Proof.Machine.execSra x0 s
  | .rot x0 => Sys2Proof.Machine.execRot x0 s
  | .min x0 => Sys2Proof.Machine.execMin x0 s
  | .max x0 => Sys2Proof.Machine.execMax x0 s
  | .abs x0 => Sys2Proof.Machine.execAbs x0 s
  | .neg x0 => Sys2Proof.Machine.execNeg x0 s
  | .clz x0 => Sys2Proof.Machine.execClz x0 s
  | .ctz x0 => Sys2Proof.Machine.execCtz x0 s
  | .popc x0 => Sys2Proof.Machine.execPopc x0 s
  | .brev x0 => Sys2Proof.Machine.execBrev x0 s
  | .cmp x0 x1 => Sys2Proof.Machine.execCmp x0 x1 s
  | .sel x0 => Sys2Proof.Machine.execSel x0 s
  | .ext x0 => Sys2Proof.Machine.execExt x0 s
  | .ins x0 => Sys2Proof.Machine.execIns x0 s
  | .lea x0 x1 => Sys2Proof.Machine.execLea x0 x1 s
  | .constLo x0 x1 => Sys2Proof.Machine.execConstLo x0 x1 s
  | .constMid x0 x1 => Sys2Proof.Machine.execConstMid x0 x1 s
  | .constHi x0 x1 => Sys2Proof.Machine.execConstHi x0 x1 s
  | .consth x0 x1 => Sys2Proof.Machine.execConsth x0 x1 s
  | .fadd x0 => Sys2Proof.Machine.execFadd x0 s
  | .fsub x0 => Sys2Proof.Machine.execFsub x0 s
  | .fmul x0 => Sys2Proof.Machine.execFmul x0 s
  | .fma x0 => Sys2Proof.Machine.execFma x0 s
  | .fnma x0 => Sys2Proof.Machine.execFnma x0 s
  | .fdiv x0 => Sys2Proof.Machine.execFdiv x0 s
  | .fsqrt x0 => Sys2Proof.Machine.execFsqrt x0 s
  | .fmin x0 => Sys2Proof.Machine.execFmin x0 s
  | .fmax x0 => Sys2Proof.Machine.execFmax x0 s
  | .fabs x0 => Sys2Proof.Machine.execFabs x0 s
  | .fneg x0 => Sys2Proof.Machine.execFneg x0 s
  | .fcmp x0 x1 => Sys2Proof.Machine.execFcmp x0 x1 s
  | .fclass x0 => Sys2Proof.Machine.execFclass x0 s
  | .fcvt x0 x1 => Sys2Proof.Machine.execFcvt x0 x1 s
  | .ftoi x0 x1 => Sys2Proof.Machine.execFtoi x0 x1 s
  | .itof x0 x1 => Sys2Proof.Machine.execItof x0 x1 s
  | .fexp2 x0 => Sys2Proof.Machine.execFexp2 x0 s
  | .flog2 x0 => Sys2Proof.Machine.execFlog2 x0 s
  | .frcp x0 => Sys2Proof.Machine.execFrcp x0 s
  | .frsq x0 => Sys2Proof.Machine.execFrsq x0 s
  | .frint x0 => Sys2Proof.Machine.execFrint x0 s
  | .frintX x0 => Sys2Proof.Machine.execFrintX x0 s
  | .ldl x0 x1 => Sys2Proof.Machine.execLdl x0 x1 s
  | .stl x0 x1 => Sys2Proof.Machine.execStl x0 x1 s
  | .ldn x0 x1 => Sys2Proof.Machine.execLdn x0 x1 s
  | .stn x0 x1 => Sys2Proof.Machine.execStn x0 x1 s
  | .ldg x0 x1 => Sys2Proof.Machine.execLdg x0 x1 s
  | .stg x0 x1 => Sys2Proof.Machine.execStg x0 x1 s
  | .ldw x0 x1 => Sys2Proof.Machine.execLdw x0 x1 s
  | .feclr x0 x1 => Sys2Proof.Machine.execFeclr x0 x1 s
  | .feset x0 x1 => Sys2Proof.Machine.execFeset x0 x1 s
  | .wcal x0 x1 => Sys2Proof.Machine.execWcal x0 x1 s
  | .amol x0 x1 x2 x3 => Sys2Proof.Machine.execAmol x0 x1 x2 x3 s
  | .amog x0 x1 x2 x3 => Sys2Proof.Machine.execAmog x0 x1 x2 x3 s
  | .updg x0 x1 x2 => Sys2Proof.Machine.execUpdg x0 x1 x2 s
  | .kadd x0 => Sys2Proof.Machine.execKadd x0 s
  | .kwait x0 => Sys2Proof.Machine.execKwait x0 s
  | .kread x0 => Sys2Proof.Machine.execKread x0 s
  | .klimit x0 => Sys2Proof.Machine.execKlimit x0 s
  | .karm x0 => Sys2Proof.Machine.execKarm x0 s
  | .kalloc x0 => Sys2Proof.Machine.execKalloc x0 s
  | .kfree x0 => Sys2Proof.Machine.execKfree x0 s
  | .copy x0 x1 => Sys2Proof.Machine.execCopy x0 x1 s
  | .copyr x0 x1 => Sys2Proof.Machine.execCopyr x0 x1 s
  | .fill x0 x1 => Sys2Proof.Machine.execFill x0 x1 s
  | .gathr x0 x1 => Sys2Proof.Machine.execGathr x0 x1 s
  | .scatr x0 x1 => Sys2Proof.Machine.execScatr x0 x1 s
  | .scatrAdd x0 x1 => Sys2Proof.Machine.execScatrAdd x0 x1 s
  | .overlay x0 x1 => Sys2Proof.Machine.execOverlay x0 x1 s
  | .cqpush x0 x1 => Sys2Proof.Machine.execCqpush x0 x1 s
  | .tshape x0 => Sys2Proof.Machine.execTshape x0 s
  | .trdsh x0 => Sys2Proof.Machine.execTrdsh x0 s
  | .tld x0 => Sys2Proof.Machine.execTld x0 s
  | .tst x0 => Sys2Proof.Machine.execTst x0 s
  | .tzeroTile x0 => Sys2Proof.Machine.execTzeroTile x0 s
  | .tzeroAcc x0 => Sys2Proof.Machine.execTzeroAcc x0 s
  | .tzeroCarry x0 => Sys2Proof.Machine.execTzeroCarry x0 s
  | .tmma x0 => Sys2Proof.Machine.execTmma x0 s
  | .tadd x0 => Sys2Proof.Machine.execTadd x0 s
  | .tmul x0 => Sys2Proof.Machine.execTmul x0 s
  | .tscale x0 => Sys2Proof.Machine.execTscale x0 s
  | .tact x0 x1 => Sys2Proof.Machine.execTact x0 x1 s
  | .tredSum x0 => Sys2Proof.Machine.execTredSum x0 s
  | .tredMax x0 => Sys2Proof.Machine.execTredMax x0 s
  | .tqnt x0 => Sys2Proof.Machine.execTqnt x0 s
  | .tdq x0 => Sys2Proof.Machine.execTdq x0 s
  | .tcvt x0 => Sys2Proof.Machine.execTcvt x0 s
  | .ttrn x0 => Sys2Proof.Machine.execTtrn x0 s
  | .trow x0 => Sys2Proof.Machine.execTrow x0 s
  | .trowStr x0 => Sys2Proof.Machine.execTrowStr x0 s
  | .tscan x0 => Sys2Proof.Machine.execTscan x0 s
  | .tcarrySave x0 => Sys2Proof.Machine.execTcarrySave x0 s
  | .tcarryLoad x0 => Sys2Proof.Machine.execTcarryLoad x0 s
  | .tmovq x0 => Sys2Proof.Machine.execTmovq x0 s
  | .semit x0 x1 => Sys2Proof.Machine.execSemit x0 x1 s
  | .smark x0 x1 x2 => Sys2Proof.Machine.execSmark x0 x1 x2 s
  | .srecv x0 x1 => Sys2Proof.Machine.execSrecv x0 x1 s
  | .sparm x0 x1 x2 x3 => Sys2Proof.Machine.execSparm x0 x1 x2 x3 s
  | .sstat x0 x1 x2 => Sys2Proof.Machine.execSstat x0 x1 x2 s
  | .smopen x0 x1 x2 => Sys2Proof.Machine.execSmopen x0 x1 x2 s
  | .smfeed x0 => Sys2Proof.Machine.execSmfeed x0 s
  | .smclose x0 => Sys2Proof.Machine.execSmclose x0 s
  | .smstat x0 => Sys2Proof.Machine.execSmstat x0 s
  | .smabort x0 => Sys2Proof.Machine.execSmabort x0 s
  | .umctxOpen x0 x1 => Sys2Proof.Machine.execUmctxOpen x0 x1 s
  | .umctxRelease x0 => Sys2Proof.Machine.execUmctxRelease x0 s
  | .umscore x0 x1 => Sys2Proof.Machine.execUmscore x0 x1 s
  | .umrank x0 => Sys2Proof.Machine.execUmrank x0 s
  | .umtap x0 => Sys2Proof.Machine.execUmtap x0 s
  | .umdirty x0 => Sys2Proof.Machine.execUmdirty x0 s
  | .umqryInfo x0 => Sys2Proof.Machine.execUmqryInfo x0 s
  | .umqryMask x0 => Sys2Proof.Machine.execUmqryMask x0 s
  | .umqryDirty x0 => Sys2Proof.Machine.execUmqryDirty x0 s
  | .umqryRound x0 => Sys2Proof.Machine.execUmqryRound x0 s
  | .umclr x0 => Sys2Proof.Machine.execUmclr x0 s
  | .trap x0 x1 => Sys2Proof.Machine.execTrap x0 x1 s
  | .sysrd x0 x1 => Sys2Proof.Machine.execSysrd x0 x1 s
  | .syswr x0 x1 => Sys2Proof.Machine.execSyswr x0 x1 s
  | .hem x0 => Sys2Proof.Machine.execHem x0 s
  | .cycle x0 => Sys2Proof.Machine.execCycle x0 s
  | .cycleStamp x0 => Sys2Proof.Machine.execCycleStamp x0 s
  | .meter x0 x1 => Sys2Proof.Machine.execMeter x0 x1 s
  | .bkpt x0 x1 => Sys2Proof.Machine.execBkpt x0 x1 s
  | .yield x0 x1 => Sys2Proof.Machine.execYield x0 x1 s
  | .flag x0 x1 => Sys2Proof.Machine.execFlag x0 x1 s
  | .bringUp => Sys2Proof.Machine.execBringUp s
  | .stampCounterTick => Sys2Proof.Machine.execStampCounterTick s
  | .ageClampSweep => Sys2Proof.Machine.execAgeClampSweep s
  | .queueRereadPoll x0 x1 => Sys2Proof.Machine.execQueueRereadPoll x0 x1 s
  | .consumePacket x0 x1 => Sys2Proof.Machine.execConsumePacket x0 x1 s
  | .dependencesMet x0 => Sys2Proof.Machine.execDependencesMet x0 s
  | .placementDecision x0 => Sys2Proof.Machine.execPlacementDecision x0 s
  | .agedPriorityStep x0 => Sys2Proof.Machine.execAgedPriorityStep x0 s
  | .blockedHeadTimeout x0 => Sys2Proof.Machine.execBlockedHeadTimeout x0 s
  | .quotaWindowBegin => Sys2Proof.Machine.execQuotaWindowBegin s
  | .patternStoreFill x0 x1 => Sys2Proof.Machine.execPatternStoreFill x0 x1 s
  | .stationLoad x0 x1 x2 => Sys2Proof.Machine.execStationLoad x0 x1 x2 s
  | .configurationCompleteWave x0 => Sys2Proof.Machine.execConfigurationCompleteWave x0 s
  | .seedInject x0 => Sys2Proof.Machine.execSeedInject x0 s
  | .entryAdmit x0 x1 => Sys2Proof.Machine.execEntryAdmit x0 x1 s
  | .tokenDelivered x0 x1 => Sys2Proof.Machine.execTokenDelivered x0 x1 s
  | .remnantPromote x0 x1 => Sys2Proof.Machine.execRemnantPromote x0 x1 s
  | .routerCycle x0 => Sys2Proof.Machine.execRouterCycle x0 s
  | .starve x0 => Sys2Proof.Machine.execStarve x0 s
  | .receivePortDelivery x0 => Sys2Proof.Machine.execReceivePortDelivery x0 s
  | .creditReturn x0 x1 => Sys2Proof.Machine.execCreditReturn x0 x1 s
  | .spineSwitchCycle x0 => Sys2Proof.Machine.execSpineSwitchCycle x0 s
  | .commitTokenArrival x0 x1 => Sys2Proof.Machine.execCommitTokenArrival x0 x1 s
  | .killTokenArrival x0 x1 => Sys2Proof.Machine.execKillTokenArrival x0 x1 s
  | .phaseReductionWave x0 x1 => Sys2Proof.Machine.execPhaseReductionWave x0 x1 s
  | .generatorStep x0 x1 => Sys2Proof.Machine.execGeneratorStep x0 x1 s
  | .nextRelease x0 x1 => Sys2Proof.Machine.execNextRelease x0 x1 s
  | .ballocWake x0 x1 => Sys2Proof.Machine.execBallocWake x0 x1 s
  | .ticketGrant x0 x1 => Sys2Proof.Machine.execTicketGrant x0 x1 s
  | .stageSwitch x0 => Sys2Proof.Machine.execStageSwitch x0 s
  | .memoryAccessPerformed x0 => Sys2Proof.Machine.execMemoryAccessPerformed x0 s
  | .translationWalk x0 => Sys2Proof.Machine.execTranslationWalk x0 s
  | .homeSliceApply x0 => Sys2Proof.Machine.execHomeSliceApply x0 s
  | .lineFullWake x0 x1 => Sys2Proof.Machine.execLineFullWake x0 x1 s
  | .refreshWindowEnd x0 x1 => Sys2Proof.Machine.execRefreshWindowEnd x0 x1 s
  | .portalCompletion x0 x1 x2 => Sys2Proof.Machine.execPortalCompletion x0 x1 x2 s
  | .priPageRequest x0 x1 => Sys2Proof.Machine.execPriPageRequest x0 x1 s
  | .copyPacketStart x0 => Sys2Proof.Machine.execCopyPacketStart x0 s
  | .copyOrdToken x0 x1 => Sys2Proof.Machine.execCopyOrdToken x0 x1 s
  | .copyPacketPerformed x0 x1 => Sys2Proof.Machine.execCopyPacketPerformed x0 x1 s
  | .copyQueuePacket x0 x1 => Sys2Proof.Machine.execCopyQueuePacket x0 x1 s
  | .weightLoadCommand x0 x1 x2 x3 x4 => Sys2Proof.Machine.execWeightLoadCommand x0 x1 x2 x3 x4 s
  | .spawnSlotStep x0 => Sys2Proof.Machine.execSpawnSlotStep x0 s
  | .tensorCommandPerform x0 => Sys2Proof.Machine.execTensorCommandPerform x0 s
  | .rowStreamToken x0 x1 => Sys2Proof.Machine.execRowStreamToken x0 x1 s
  | .tscanSetAsideRelease x0 x1 => Sys2Proof.Machine.execTscanSetAsideRelease x0 x1 s
  | .streamOutputRow x0 => Sys2Proof.Machine.execStreamOutputRow x0 s
  | .circuitSlotReturn x0 x1 => Sys2Proof.Machine.execCircuitSlotReturn x0 x1 s
  | .streamOperatorStep x0 x1 => Sys2Proof.Machine.execStreamOperatorStep x0 x1 s
  | .seamTokenArrival x0 x1 => Sys2Proof.Machine.execSeamTokenArrival x0 x1 s
  | .seamPortWord x0 x1 x2 => Sys2Proof.Machine.execSeamPortWord x0 x1 x2 s
  | .seamMergeRow x0 x1 x2 => Sys2Proof.Machine.execSeamMergeRow x0 x1 x2 s
  | .seamContextEnd x0 x1 x2 => Sys2Proof.Machine.execSeamContextEnd x0 x1 x2 s
  | .unmaskContextGrant x0 => Sys2Proof.Machine.execUnmaskContextGrant x0 s
  | .unmaskInToken x0 x1 => Sys2Proof.Machine.execUnmaskInToken x0 x1 s
  | .knotBankApply x0 => Sys2Proof.Machine.execKnotBankApply x0 s
  | .waiterDirectoryNotify x0 x1 => Sys2Proof.Machine.execWaiterDirectoryNotify x0 x1 s
  | .pollingWaiterReread x0 x1 => Sys2Proof.Machine.execPollingWaiterReread x0 x1 s
  | .triggerEngineIssue x0 => Sys2Proof.Machine.execTriggerEngineIssue x0 s
  | .knotWindowAdd x0 x1 x2 => Sys2Proof.Machine.execKnotWindowAdd x0 x1 x2 s
  | .knotWindowSetLimit x0 x1 x2 => Sys2Proof.Machine.execKnotWindowSetLimit x0 x1 x2 s
  | .knotWindowAcquire x0 x1 => Sys2Proof.Machine.execKnotWindowAcquire x0 x1 s
  | .hemTokenOutbound x0 x1 => Sys2Proof.Machine.execHemTokenOutbound x0 x1 s
  | .hemTokenInbound x0 x1 x2 => Sys2Proof.Machine.execHemTokenInbound x0 x1 x2 s
  | .faultRecordWrite x0 => Sys2Proof.Machine.execFaultRecordWrite x0 s
  | .resumeRetry x0 x1 => Sys2Proof.Machine.execResumeRetry x0 x1 s
  | .resumeDiscard x0 x1 => Sys2Proof.Machine.execResumeDiscard x0 x1 s
  | .freeze x0 => Sys2Proof.Machine.execFreeze x0 s
  | .freezeBoundExpiry x0 => Sys2Proof.Machine.execFreezeBoundExpiry x0 s
  | .saveLaunch x0 => Sys2Proof.Machine.execSaveLaunch x0 s
  | .restoreLaunch x0 => Sys2Proof.Machine.execRestoreLaunch x0 s
  | .watchdogExpiry x0 => Sys2Proof.Machine.execWatchdogExpiry x0 s
  | .yieldExpiry x0 x1 => Sys2Proof.Machine.execYieldExpiry x0 x1 s
  | .retirement x0 => Sys2Proof.Machine.execRetirement x0 s
  | .cbEnable x0 x1 => Sys2Proof.Machine.execCbEnable x0 x1 s
  | .cbQueueEntry x0 x1 x2 => Sys2Proof.Machine.execCbQueueEntry x0 x1 x2 s
  | .cbCopyQueueEntry x0 x1 x2 => Sys2Proof.Machine.execCbCopyQueueEntry x0 x1 x2 s
  | .cbInvalidate x0 x1 => Sys2Proof.Machine.execCbInvalidate x0 x1 s
  | .cbDsnap x0 x1 => Sys2Proof.Machine.execCbDsnap x0 x1 s
  | .cbOvrel x0 x1 => Sys2Proof.Machine.execCbOvrel x0 x1 s
  | .cbErrorClear x0 x1 => Sys2Proof.Machine.execCbErrorClear x0 x1 s
  | .controlBlockWrite x0 x1 x2 x3 => Sys2Proof.Machine.execControlBlockWrite x0 x1 x2 x3 s
  | .knotAllot x0 => Sys2Proof.Machine.execKnotAllot x0 s
  | .knotReturn x0 => Sys2Proof.Machine.execKnotReturn x0 s
  | .slotTable x0 => Sys2Proof.Machine.execSlotTable x0 s
  | .queueHome x0 => Sys2Proof.Machine.execQueueHome x0 s
  | .portMask x0 => Sys2Proof.Machine.execPortMask x0 s
  | .selfId x0 => Sys2Proof.Machine.execSelfId x0 s
  | .bridge x0 => Sys2Proof.Machine.execBridge x0 s
  | .keyLoad x0 => Sys2Proof.Machine.execKeyLoad x0 s
  | .keyUnload x0 => Sys2Proof.Machine.execKeyUnload x0 s
  | .meterSnapshot x0 x1 x2 x3 => Sys2Proof.Machine.execMeterSnapshot x0 x1 x2 x3 s
  | .getMeasurements x0 x1 x2 => Sys2Proof.Machine.execGetMeasurements x0 x1 x2 s
  | .ronobFirmwareUpdate x0 x1 => Sys2Proof.Machine.execRonobFirmwareUpdate x0 x1 s
  | .schedulerMicrocodeUpdate x0 => Sys2Proof.Machine.execSchedulerMicrocodeUpdate x0 s
  | .laneRecalibration x0 x1 => Sys2Proof.Machine.execLaneRecalibration x0 x1 s
  | .thermalRecalibration x0 x1 => Sys2Proof.Machine.execThermalRecalibration x0 x1 s
  | .hbmRetraining x0 => Sys2Proof.Machine.execHbmRetraining x0 s
  | .thermalGating x0 x1 => Sys2Proof.Machine.execThermalGating x0 x1 s
  | .thermalTrip x0 => Sys2Proof.Machine.execThermalTrip x0 s
  | .powerCapSet x0 => Sys2Proof.Machine.execPowerCapSet x0 s
  | .unmaskCommandPerform x0 x1 => Sys2Proof.Machine.execUnmaskCommandPerform x0 x1 s
  | .hbmRetrainingEnd x0 => Sys2Proof.Machine.execHbmRetrainingEnd x0 s
  | .invalidationComplete x0 => Sys2Proof.Machine.execInvalidationComplete x0 s
  | .dsnapComplete x0 => Sys2Proof.Machine.execDsnapComplete x0 s
  | .atsInvalidation x0 x1 x2 => Sys2Proof.Machine.execAtsInvalidation x0 x1 x2 s
  | .spdmSession x0 x1 => Sys2Proof.Machine.execSpdmSession x0 x1 s
  | .ideStreamKeying x0 => Sys2Proof.Machine.execIdeStreamKeying x0 s
  | .tdispRequest x0 x1 => Sys2Proof.Machine.execTdispRequest x0 x1 s

end Sys2Proof.Machine
end

