-- ==== Sys2Proof/Machine/Choose.lean ====
section
/-! DEFINITION. Machine/Choose.lean: what the machine does next: a station's choice of a firing (R16, R150, R152), what it does later of
what it chose or parked, the events that its units make of their own accord, an input from outside, or the passing of an N-cycle
(log 3). -/

namespace Sys2Proof.Machine

/-! A station's choice. -/

/-- Whether a slot uses the station's iterative unit (Table 7.2). -/
def iterative : Instr → Bool
  | .div _ => true
  | .rem _ => true
  | .fdiv _ => true
  | .fsqrt _ => true
  | .frcp _ => true
  | .frsq _ => true
  | .fexp2 _ => true
  | .flog2 _ => true
  | _ => false

/-- Whether a slot is f64 arithmetic other than FDIV and FSQRT (Table 7.2). -/
def wide64 : Instr → Bool
  | .fadd f => decide (f.ty = .f64)
  | .fsub f => decide (f.ty = .f64)
  | .fmul f => decide (f.ty = .f64)
  | .fma f => decide (f.ty = .f64)
  | .fnma f => decide (f.ty = .f64)
  | _ => false

/-- The space that a memory instruction sends a request to. -/
def State.requestSpace (s : State) (f : Firing) : Instr → Option Space
  | .ldg _ _ => some .g
  | .stg _ _ => some .g
  | .amog _ _ _ _ => some .g
  | .updg _ _ _ => some .g
  | .ldn _ _ => some .n
  | .stn _ _ => some .n
  | .feclr x _ => some (s.rangeSpace f x)
  | .feset x _ => some (s.rangeSpace f x)
  | .amol x _ _ _ => some (s.rangeSpace f x)
  | _ => none

/-- Whether an instruction is one of the copy engine's FIFO. -/
def copyFamily : Instr → Bool
  | .copy _ _ => true
  | .copyr _ _ => true
  | .fill _ _ => true
  | .gathr _ _ => true
  | .scatr _ _ => true
  | .scatrAdd _ _ => true
  | .overlay _ _ => true
  | _ => false

/-- Whether an instruction is a command of the tensor unit. -/
def tensorFamily (w : Word) : Bool := decide (0xB0 ≤ w.toNat % 256 ∧ w.toNat % 256 ≤ 0xC2)

/-- Whether a slot is a multiplication, or 16- or 32-bit float arithmetic (Table 7.2). -/
def pipelined : Instr → Bool
  | .mul _ => true
  | .mulh _ => true
  | .fadd f => decide (f.ty ≠ .f64)
  | .fsub f => decide (f.ty ≠ .f64)
  | .fmul f => decide (f.ty ≠ .f64)
  | .fma f => decide (f.ty ≠ .f64)
  | .fnma f => decide (f.ty ≠ .f64)
  | _ => false

/-- Whether an instruction reads what it answers in an A-cycle after its firing (R291, R314, R385). -/
def readsLater : Instr → Bool
  | .meter _ _ => true
  | .sstat _ _ _ => true
  | .smstat _ => true
  | _ => false

/-- A-cycles by which an operand that is fetched from the remnant store delays what a firing emits (R152). -/
def Firing.fetch (f : Firing) : Nat := if f.held.any fun h => h.far then 3 else 0

/-- A-cycles, beyond the first, from a firing's choice to its emission: those of its unit (Table 7.2) and of a fetch (R152).  Its effects
are those of the choice: R152 delays nothing else. -/
def Firing.delay (f : Firing) : Nat :=
  (match decode f.word with
    | .ok i => if iterative i then 19 else if wide64 i then 7 else if pipelined i then 3 else 0
    | .error _ => 0) + f.fetch

/-- Whether a firing reads what it answers in the A-cycle after its choice (R291, R314, R385). -/
def Firing.later (f : Firing) : Bool :=
  match decode f.word with
  | .ok i => readsLater i
  | .error _ => false

/-- The FIFO that a firing enters in an order of the stations: that of an arbiter (R186), or of the tensor unit (R249); 0 for none. -/
def Firing.feeds (f : Firing) : Nat :=
  match decode f.word with
  | .ok (.ticket _ arb _) => arb.toNat + 1
  | .ok _ => if tensorFamily f.word then 16 else 0
  | .error _ => 0

/-- Whether the engine, the request limit or the injector that a firing feeds has a place for it (R225, R234, R249, R288); the spawn slot
always has one (log 163). -/
def State.places (s : State) (f : Firing) : Bool :=
  let c := s.cluster f.cl
  match decode f.word with
  | .error _ => false
  | .ok i =>
    (!copyFamily i || decide (c.copy.fifo.length < 16)) && (!tensorFamily f.word || decide (c.tensor.fifo.length < 32)) &&
      (match s.requestSpace f i with
        | some .g => decide ((((s.reqs.filter fun q => decide (q.space = .g)).flatMap Req.parts).countP fun o => decide (o.2.cl = f.cl)) < 1024)
        | some .n => decide ((((s.reqs.filter fun q => decide (q.space = .n)).flatMap Req.parts).countP fun o => decide (o.2.cl = f.cl)) < 256)
        | _ => true) &&
      (match i with
        | .semit _ ch => (s.fab f.launch).canSend (s.stationEnd f 13 ch.toNat)
        | .smark _ ch _ => (s.fab f.launch).canSend (s.stationEnd f 13 ch.toNat)
        | _ => true)

/-- Runs a firing: its slot's word, decoded, is performed. -/
def runFiring (s : State) (f : Firing) : Host.Outcome State Fault Refusal :=
  match decode f.word with
  | .ok i => exec i { s with cur := f }
  | .error _ => .fault .noFiring

/-- What a state would be after a firing's performance. -/
def State.after (s : State) (f : Firing) : State :=
  match runFiring s f with
  | .next t => t
  | _ => s

/-- Whether performing a firing takes no credit of a seam token port that its cluster does not hold: 16 for each port (R150, R296). -/
def State.creditsHold (s : State) (f : Firing) : Bool :=
  let ds := f.dests.filter seamDest
  ds.isEmpty || (let t := s.after f
    ds.all fun d => decide (t.seamTokens f.launch d ≤ 16) || decide (t.seamTokens f.launch d ≤ s.seamTokens f.launch d))

/-- The resources that a firing's kind needs are free, but for its output queue (R33): a place, a credit for each token to a seam port,
and its unit. -/
def State.resources (s : State) (f : Firing) : Bool :=
  let x := s.station f.cl f.st
  match decode f.word with
  | .error _ => false
  | .ok i =>
    s.places f && (if f.later then s.seamCredits f else (s.consume f).creditsHold f) &&
      (!iterative i || decide (x.unitFree ≤ s.aCycle)) && (!wide64 i || decide (x.wideFree ≤ s.aCycle))

/-- Whether the tokens that a firing emits fit in its station's output queue (R150): those that its performance puts there, or for one
performed later one for every destination. -/
def State.emitsFit (s : State) (f : Firing) : Bool :=
  if f.later then s.roomFor f else decide ((((s.consume f).after f).station f.cl f.st).queueUse ≤ 16)

/-- The firing that a station chooses in this A-cycle, if any: the oldest of those whose resources are free; none when its tokens do not
fit in the output queue (R16, R150). -/
def State.chosen (s : State) (l cl n : Nat) : Option Firing :=
  let x := s.station cl n
  if s.aCycle < x.lastFire then none
  else
    match firstFiring x.arrseq ((s.readyFirings l cl n).filter s.resources) with
    | some f => if s.emitsFit f then some f else none
    | none => none

/-- Whether a firing of a cluster keeps the order in which the stations feed one FIFO in one A-cycle, ascending (R186, R249): none of a
lower station could still feed it, and none of a higher one has. -/
def State.inFifoOrder (s : State) (cs : List Firing) (f : Firing) : Bool :=
  let k := f.feeds
  decide (k = 0) || ((cs.all fun g => decide (f.st ≤ g.st ∨ g.feeds ≠ k)) &&
    (s.cluster f.cl).stations.all fun e => decide (e.1 ≤ f.st ∨ e.2.fedAt ≠ s.aCycle + 1 ∨ e.2.feeds ≠ k))

/-- Notes that a firing has entered a FIFO in this A-cycle. -/
def State.noteFeed (s : State) (f : Firing) : State :=
  if f.feeds = 0 then s else s.onStation f.cl f.st fun x => { x with feeds := f.feeds, fedAt := s.aCycle + 1 }

/-- A firing is chosen: its operands are consumed, and its station's choice of this A-cycle is made. -/
def State.begin (s : State) (f : Firing) : State :=
  let i := (decode f.word).toOption
  let it := (i.map iterative).getD false
  let wd := (i.map wide64).getD false
  (((s.consume f).noteFeed f).onStation f.cl f.st fun x => { x with
    lastFire := s.aCycle + 1
    unitFree := if it then s.aCycle + 16 else x.unitFree
    wideFree := if wd then s.aCycle + 2 else x.wideFree }).meter f.launch (f.cl / 128) 6 1

/-- What a firing has put in its station's output queue since `s` is emitted `d` A-cycles later (R152, Table 7.2). -/
def State.delayOut (s : State) (f : Firing) (d : Nat) (t : State) : State :=
  let n := (s.station f.cl f.st).outq.length
  let new := (t.station f.cl f.st).outq.drop n
  if d = 0 ∨ new = [] then t
  else t.onStation f.cl f.st fun x => { x with outq := x.outq.take n, late := x.late ++ [⟨s.aCycle + d, f, new⟩] }

/-- A firing is performed, and its tokens are emitted `d` A-cycles later. -/
def State.runDelayed (s : State) (f : Firing) (d : Nat) : Host.Outcome State Fault Refusal :=
  match runFiring s f with
  | .next t => .next (s.delayOut f d t)
  | o => o

/-- A chosen firing is performed; one that reads what it answers later is performed in the next A-cycle, and has its number from the
choice on. -/
def State.fireChosen (s : State) (f : Firing) : Host.Outcome State Fault Refusal :=
  let s1 := s.begin f
  if f.later then
    let g := { f with opId := some s1.serial }
    .next { s1.onStation f.cl f.st (fun x => { x with slow := x.slow ++ [(s.aCycle + 1, g)] }) with serial := s1.serial + 1 }
  else s1.runDelayed f f.delay

/-! What was chosen, parked or held earlier. -/

/-- The chosen firings of a cluster whose time has come, each with its A-cycle. -/
def State.slowReady (s : State) (cl : Nat) : List (Nat × Firing) :=
  ((s.cluster cl).stations.flatMap fun e => e.2.slow).filter fun p => decide (p.1 ≤ s.aCycle)

/-- A firing chosen earlier is performed. -/
def State.fireSlow (s : State) (p : Nat × Firing) : Host.Outcome State Fault Refusal :=
  (s.onStation p.2.cl p.2.st fun x => { x with slow := x.slow.erase p }).runDelayed p.2 p.2.fetch

/-- The tokens of a station that are emitted next, if their A-cycle has come (R152). -/
def State.lateReady (s : State) (x : Station) : Option Late := x.late.find? fun e => decide (e.due ≤ s.aCycle)

/-- The first tokens of a station whose A-cycle has come are emitted, stamped then (R12). -/
def State.sendLate (s : State) (cl n : Nat) : State :=
  match s.lateReady (s.station cl n) with
  | some e => s.onStation cl n fun x => { x with
      late := x.late.erase e
      outq := x.outq ++ e.toks.map fun t => { t with tok := { t.tok with age := s.stamp } } }
  | none => s

/-- Whether a parked operation only waits for its station: it is to be performed again, or to emit (R183). -/
def Parked.due (p : Parked) : Bool := decide (p.why = .again ∨ p.why = .phdone)

/-- The parked operations of a launch that go on now: the first of each station, where there is room. -/
def State.againReady (s : State) (l : Nat) : List Parked :=
  let due := (s.launch l).parked.filter fun p => p.due && (s.launch l).inTurn p
  due.filter fun p => s.places p.firing && s.roomFor p.firing &&
    ((due.find? fun q => decide (q.firing.cl = p.firing.cl ∧ q.firing.st = p.firing.st)).map fun q => decide (q.id = p.id)).getD true

/-- A parked operation goes on. -/
def State.fireAgain (s : State) (l : Nat) (p : Parked) : Host.Outcome State Fault Refusal :=
  if p.why = .phdone then .next (s.phwaitDone l p)
  else runFiring (((s.unpark l p.id).leaveTurn l p.id).noteFeed p.firing) p.firing

/-- The retried records whose first is no operation that waits at its station: an engine, or one that is parked no more. -/
def Launch.resumeReady (x : Launch) : List Nat :=
  if x.resumes then
    (x.faults.filter fun r => match r.next with
      | some (.op i) => x.parked.all fun p => decide (p.id ≠ i)
      | some _ => true
      | none => false).map fun r => r.id
  else []

/-- The firings that the stations of a cluster would choose. -/
def State.clusterChoices (s : State) (l cl : Nat) : List Firing := (s.cluster cl).stations.filterMap fun e => s.chosen l cl e.1

/-- The firings that the stations of a launch's panel choose. -/
def State.choices (s : State) (l : Nat) : List Firing :=
  if (s.launch l).runs then (s.launch l).panel.all.flatMap (s.clusterChoices l) else []

/-- Whether a launch's chosen and parked operations go on: not once its retirement is forced (R185). -/
def Launch.goesOn (x : Launch) : Bool := x.moves && decide (x.ending = none ∨ x.ending = some .normal)

/-- Held tokens whose colour has committed, where there is room: the first of each station (R139). -/
def State.heldReady (s : State) (cl : Nat) : List HeldEffect :=
  (s.cluster cl).stations.filterMap fun e =>
    if s.room cl e.1 1 then e.2.held.find? fun h => h.tok.isSome && decide (h.firing.colour = 0) else none

/-! What the units can do. -/

/-- The seam units of a panel as its launch names them: panel die times 4, plus the instance (R129). -/
def Panel.seamUnits (p : Panel) : List Nat :=
  (p.seams.zip (countFrom 0 p.seams.length)).flatMap fun d => d.1.map fun e => d.2 * 4 + e.1

/-- The events of a launch; `up` says that the die of its scheduler works (R410). -/
def launchEvents (up : Bool) (l : Nat) (x : Launch) : List Instr :=
  let all := x.panel.all
  let cfg := match x.cfg with
    | some g =>
      (all.filter fun cl => decide (cl ∉ g.filled)).map (Instr.patternStoreFill l) ++
        (g.filled.flatMap fun cl => ((countFrom 0 16).filter fun n => decide (cl * 16 + n ∉ g.loaded)).map (Instr.stationLoad l cl)) ++
        [.configurationCompleteWave l]
    | none => []
  let parked := if x.saved.isSome then [] else x.parked.flatMap fun p => match p.why with
    | .balloc => [.ballocWake l p.id]
    | .next => [.nextRelease l p.id]
    | .phwait ph => [.phaseReductionWave l ph]
    | .kwait _ _ false => [.pollingWaiterReread l p.id]
    | .line cl ln => [.lineFullWake cl ln]
    | .yield _ => [.yieldExpiry l p.id]
    | _ => []
  let state : List Instr := match x.st with
    | .depending => [.dependencesMet l]
    | .placing => [.agedPriorityStep l]
    | .saved => [.agedPriorityStep l]
    | .restoring => [.restoreLaunch l]
    | .configuring => []
    | .running => [.stageSwitch l, .watchdogExpiry l, .freezeBoundExpiry l, .retirement l]
    | .freezing => [.saveLaunch l, .freezeBoundExpiry l, .watchdogExpiry l, .retirement l]
    | .retiring => [.watchdogExpiry l, .freezeBoundExpiry l, .retirement l]
  (if up then state ++ cfg else []) ++ parked ++ (if x.seeds = [] then [] else [.seedInject l]) ++
    (union [] (x.ovf.filterMap fun o => match o.list with | .entry e => some e | _ => none)).map (Instr.entryAdmit l) ++
    x.gens.map (fun g => Instr.generatorStep l g.id) ++ (x.fab.freed.map fun e => Instr.circuitSlotReturn l e.1) ++
    (countFrom 0 x.fab.ops.length).map (Instr.streamOperatorStep l) ++
    (if x.faults = [] then [] else [.faultRecordWrite l]) ++
    (if x.saved.isSome then [] else x.hems.flatMap fun h => h.cls.map fun c => Instr.hemTokenInbound l c.cl h.seq.toNat) ++
    x.panel.seamUnits.flatMap fun k => ((countFrom 0 32).map (Instr.seamPortWord l k)) ++
      (countFrom 0 4).flatMap fun c => [.seamMergeRow l k c, .seamContextEnd l k c]

/-- The event that takes an arrival of a cluster. -/
def arrivalEvent (cl k : Nat) (a : Arrival) : Instr :=
  match a.out.eng with
  | some (e, _, _) => if e.toNat = 1 then .copyOrdToken cl k else .rowStreamToken cl k
  | none =>
    match a.out.tok.cls with
    | .commit => .commitTokenArrival cl k
    | .kill => .killTokenArrival cl k
    | .hem => if a.out.tok.hem.1 = 1 then .hemTokenInbound a.launch cl a.out.tok.hem.2.toNat else .hemTokenOutbound cl k
    | _ => .tokenDelivered cl k

/-- Whether a remnant entry is a tile-handle token that waits for its row (R255). -/
def RemEntry.waitsRow (r : RemEntry) : Bool :=
  match r.kind with
  | .rowWait _ => true
  | _ => false

/-- The events of a cluster. -/
def clusterEvents (cl : Nat) (c : Cluster) : List Instr :=
  ((countFrom 0 c.arrivals.length).zip c.arrivals).map (fun a => arrivalEvent cl a.1 a.2) ++
    (union [] (c.remnant.map fun r => r.stn)).map (Instr.remnantPromote cl) ++ (c.arbs.map fun a => Instr.ticketGrant cl a.1) ++
    (if c.routed then [.receivePortDelivery cl] else if c.owner.isSome then [.routerCycle cl] else []) ++
    (if c.stations.any fun e => decide (64 ≤ e.2.injectWait) then [.starve cl] else []) ++
    (c.owed.map fun e => Instr.creditReturn e.1 cl) ++
    (if c.copy.fifo.isEmpty && c.copy.queued.isEmpty && c.copy.active.isEmpty then []
      else Instr.copyPacketStart cl :: c.copy.active.map fun p => Instr.copyPacketPerformed cl p.id) ++
    (if c.copy.spawn.isEmpty then [] else [.spawnSlotStep cl]) ++
    (if c.tensor.fifo.isEmpty && c.tensor.cur.isNone && c.tensor.rows.isEmpty && !(c.remnant.any RemEntry.waitsRow) then []
      else [.tensorCommandPerform cl]) ++
    (if c.tensor.aside.isEmpty then [] else (countFrom 0 8).map (Instr.tscanSetAsideRelease cl)) ++
    (if c.tensor.outRow.isEmpty then [] else [.streamOutputRow cl]) ++ (if c.fired.isEmpty then [] else [.triggerEngineIssue cl]) ++
    (c.dir.filter fun d => d.sent.isSome).map fun d => Instr.waiterDirectoryNotify d.cl d.knot

/-- The events of a die's spine switch, seam units and unmask engine. -/
def State.dieEvents (s : State) (d : Nat) : List Instr :=
  let as_ := getAt s.dieArr d []
  let e := s.um d
  (if s.flits.any fun f => (match f.at_ with | .spine k _ => decide (k = d) | _ => false) then [.spineSwitchCycle d] else []) ++
    ((countFrom 0 as_.length).zip as_).map (fun a => match a.2.out.eng with
      | some (g, _, _) => if g.toNat = 3 then Instr.seamTokenArrival d a.1 else .unmaskInToken d a.1
      | none => .unmaskInToken d a.1) ++
    (if e.opens.isEmpty && e.old.isEmpty then [] else [.unmaskContextGrant d]) ++
    (e.ctxs.filter fun c => !c.2.queue.isEmpty).map fun c => Instr.unmaskCommandPerform d c.1

/-- Whether a die works: it is not held in reset (R410). -/
def State.dieUp (s : State) (d : Nat) : Bool := !s.dieReset.getLsbD d

/-- The events of a partition: a queue is served by the die of its scheduler, or by its cluster. -/
def State.partEvents (s : State) (p : Nat) (x : Partition) : List Instr :=
  ((x.lq.filter fun e => s.dieUp (getAt x.hdie e.1 0)).flatMap fun e => [Instr.queueRereadPoll p e.1, .consumePacket p e.1]) ++
    ((x.cqHdr.filter fun e => s.dieUp (e.2.recbase / 128)).map fun e => Instr.copyQueuePacket p e.1) ++
    (if x.enable then [.placementDecision p, .blockedHeadTimeout p] else []) ++ (if x.invalBusy then [.invalidationComplete p] else []) ++
    (if x.dsnap = 0 then [] else [.dsnapComplete p])

/-- The events that a memory request waits for; one sent by the portal waits for the outside. -/
def Req.events (q : Req) : List Instr :=
  match q.at_ with
  | .issued => if q.space = .g then [.translationWalk q.id, .memoryAccessPerformed q.id] else [.memoryAccessPerformed q.id]
  | .placed (.hbm _ _) => [.memoryAccessPerformed q.id, .homeSliceApply q.id]
  | .placed _ => [.memoryAccessPerformed q.id]
  | .sent _ _ => []

/-- The freezes of a partition that a migration stops (R406). -/
def State.migrations (s : State) : List Instr :=
  (s.launches.filter fun e => (s.part e.2.part).migrating && s.mayFreeze e.1).map fun e => Instr.freeze e.1

/-- The events that the machine can make of its own accord; no unit of a die held in reset makes one. -/
def State.events (s : State) : List Instr :=
  (s.launches.flatMap fun e => launchEvents (s.dieUp (getAt (s.part e.2.part).hdie e.2.qidx 0)) e.1 e.2) ++
    ((s.clusters.filter fun e => s.dieUp (e.1 / 128)).flatMap fun e => clusterEvents e.1 e.2) ++
    ((countFrom 0 4).filter s.dieUp).flatMap s.dieEvents ++ (s.parts.flatMap fun e => s.partEvents e.1 e.2) ++ s.reqs.flatMap Req.events ++
    ((s.portal.filter fun x => x.route.isNone && x.answer.isNone).map fun x => Instr.memoryAccessPerformed x.id) ++
    ((s.kreqs.filter fun q => s.dieUp (bankOf (knotKey q.handle) / 128)).map fun q => Instr.knotBankApply q.id) ++ s.migrations

/-! Inputs. -/

/-- Whether an event is one that comes from outside: the host, a peer, system software, the management controller, or the physical state
of the package. -/
def fromOutside : Instr → Bool
  | .portalCompletion _ _ _ => true
  | .priPageRequest _ _ => true
  | .weightLoadCommand _ _ _ _ _ => true
  | .knotWindowAdd _ _ _ => true
  | .knotWindowSetLimit _ _ _ => true
  | .knotWindowAcquire _ _ => true
  | .cbEnable _ _ => true
  | .cbQueueEntry _ _ _ => true
  | .cbCopyQueueEntry _ _ _ => true
  | .cbInvalidate _ _ => true
  | .cbDsnap _ _ => true
  | .cbOvrel _ _ => true
  | .cbErrorClear _ _ => true
  | .controlBlockWrite _ _ _ _ => true
  | .knotAllot _ => true
  | .knotReturn _ => true
  | .slotTable _ => true
  | .queueHome _ => true
  | .portMask _ => true
  | .selfId _ => true
  | .bridge _ => true
  | .keyLoad _ => true
  | .keyUnload _ => true
  | .meterSnapshot _ _ _ _ => true
  | .getMeasurements _ _ _ => true
  | .ronobFirmwareUpdate _ _ => true
  | .schedulerMicrocodeUpdate _ => true
  | .laneRecalibration _ _ => true
  | .thermalRecalibration _ _ => true
  | .hbmRetraining _ => true
  | .hbmRetrainingEnd _ => true
  | .thermalGating _ _ => true
  | .thermalTrip _ => true
  | .powerCapSet _ => true
  | .atsInvalidation _ _ _ => true
  | .spdmSession _ _ => true
  | .ideStreamKeying _ => true
  | .tdispRequest _ _ => true
  | .resumeRetry _ _ => true
  | .resumeDiscard _ _ => true
  | _ => false

/-! The passing of an N-cycle. -/

/-- Whether a launch has nothing left that this A-cycle brings due at its stations (R152, R291, R314). -/
def State.nothingDue (s : State) (x : Launch) : Bool :=
  !x.moves || x.panel.all.all fun cl => (s.slowReady cl).isEmpty && (s.cluster cl).stations.all fun e => (s.lateReady e.2).isNone

/-- Whether an N-cycle may end: no router still holds a token that arrived before it (R159), and no station a firing or tokens that are
due. -/
def State.mayTick (s : State) : Bool :=
  (s.launches.all fun e => s.nothingDue e.2) && s.flits.all fun f => f.moved || (match f.at_ with
    | .router k _ => (s.cluster k).routed || !(s.launch (s.flitLaunch f)).moves
    | _ => true)

/-- A cluster at the start of an N-cycle. -/
def Cluster.nextCycle (c : Cluster) : Cluster := { c with routed := false, lanes := 0, down := false }

/-- An N-cycle counted for a launch: the time its panel is held (R134), and its watchdog (R382), which retraining suspends (R408). -/
def Launch.countCycle (retraining : Bool) (x : Launch) : Launch :=
  let runs := decide (x.st = .running ∨ x.st = .freezing ∨ x.st = .retiring)
  { x with
    clusterTime := if x.holdsPanel then x.clusterTime + x.panel.all.length else x.clusterTime
    wdogUsed := if x.wdogOn && runs && !retraining then x.wdogUsed + 1 else x.wdogUsed }

/-- Counts an N-cycle of a launch's clusters against its partition's quota and meter 21. -/
def State.countUse (s : State) (x : Launch) : State :=
  if !x.holdsPanel then s
  else
    (x.panel.dies.zip x.panel.clusters).foldl (fun s e =>
      let p := s.part x.part
      let n := getAt p.msDie e.1 0 + e.2.length
      let s1 := s.onPart x.part fun q => { q with used := q.used + e.2.length, msDie := setAt q.msDie e.1 (n % perMilli) 0 }
      if perMilli ≤ n then s1.meterPart x.part e.1 21 (n / perMilli) else s1) s

/-- What an N-cycle brings due: the stamp every 64, the sweep every 4,096 stamps (R12, R13), the end of a refresh window (R214), and a
quota window (R134). -/
def State.due (s : State) : List Act :=
  (if s.nCycle % 64 = 0 then
    Act.event .stampCounterTick :: (if (s.stamp + 1).toNat % 4096 = 0 then [Act.event .ageClampSweep] else [])
  else []) ++
    (if s.nCycle % 2 = 0 ∧ s.calendar % 1575 = 0 then
      (countFrom 0 4).map fun d => Act.event (.refreshWindowEnd d ((s.calendar / 1575 + 63) % 64))
    else []) ++ (if s.nCycle % quotaSpan = 0 then [.event .quotaWindowBegin] else [])

/-- One N-cycle passes. -/
def State.tick (s : State) : State :=
  let n := s.nCycle + 1
  let cal := if n % 2 = 0 then (s.calendar + 1) % 100800 else s.calendar
  let fs := s.flits.map fun (f : Flit) => { f with moved := false }
  let cs := (s.clusters.map fun (c : Nat × Cluster) => (c.1, c.2.nextCycle)).filter fun c => decide (c.2 ≠ Cluster.clear)
  let ls := s.launches.map fun (e : Nat × Launch) => (e.1, e.2.countCycle (!s.retraining.isEmpty))
  let t := { s with nCycle := n, calendar := cal, flits := fs, clusters := cs, launches := ls }
  let u := s.launches.foldl (fun s e => s.countUse e.2) t
  { u with agenda := u.agenda ++ u.due }

/-! Inputs that are no event of the opcode table. -/

/-- What the host or a peer does to device memory, in a partition's addresses (R113, R363; log 162): a read and a fetch-add answer with
what was there; an access that the tables do not allow has no effect. -/
def State.hostMemory (s : State) (part addr : Nat) (op : HostOp) : State :=
  let c := queueClient part 0
  match op with
  | .read n => match s.gReadAll c addr n Need.read with
    | (.ok bs, s1) => s1.sendOut bs
    | (.error _, s1) => s1
  | .write bs => s.schedWrite c addr bs
  | .fetchAdd n v => match s.gReadAll c addr n ⟨true, true, false, 3⟩ with
    | (.ok bs, s1) => (s1.schedWrite c addr (leBytes n (leNat bs + v.toNat))).sendOut bs
    | (.error _, s1) => s1

/-- A saved launch that a migration brings, under a number of its own (R406; log 160): its areas are taken with it. -/
def State.importLaunch (s : State) (l next : Nat) (x : Launch) : State :=
  match x.saved with
  | none => s
  | some v =>
    if l < s.serial ∨ next ≤ l then s
    else
      let held := fun (a n : Nat) => (a, n, x.qidx, x.pkt)
      { s.onPart x.part (fun p => { p with
          svAreas := p.svAreas ++ [held v.base (saveSize x.panel.all.length)]
          ovAreas := p.ovAreas ++ (x.ovArea.map fun a => held a x.ovLen).toList }) with
        launches := put s.launches l { x with st := .saved, saved := some { v with moved := true }, since := s.nCycle, blockedAt := none }
        serial := next }

/-- The remainder of a queue packet that a migration brings, under a number of its own: the copy engine of its cluster goes on with it
(R406). -/
def State.importPacket (s : State) (cl : Nat) (p : CopyPk) : State :=
  if p.queue.isNone then s
  else { s.onCluster cl (fun c => { c with copy := { c.copy with active := c.copy.active ++ [{ p with id := s.serial }] } }) with
    serial := s.serial + 1 }

/-- An access of the knot window of another size than 8: a read gives zero, and a write is ignored (R346). -/
def State.windowInput (s : State) (size : Nat) (part off : Nat) (v : Option Word) : Host.Outcome State Fault Refusal :=
  match v with
  | none => if size = 8 then exec (.knotWindowAcquire part off) s else .next (s.sendOut (leBytes size 0))
  | some v =>
    if size ≠ 8 then .next s
    else if off % 32 = 16 then exec (.knotWindowSetLimit part off v) s
    else exec (.knotWindowAdd part off v) s

/-- An input from outside is taken; an event that is no input has no effect. -/
def State.takeInput (s : State) (k : Nat) : Host.Outcome State Fault Refusal :=
  let t := { s with inbox := dropNth s.inbox k }
  match nth s.inbox k with
  | none => .next s
  | some (.event i) => if fromOutside i then exec i t else .next t
  | some (.memory part addr op) => .next (t.hostMemory part addr op)
  | some (.cbRead reader part off size) => .next (t.cbRead reader part off size)
  | some (.knotRead part off size) => t.windowInput size part off none
  | some (.knotWrite part off size v) => t.windowInput size part off (some v)
  | some (.migrate part) => .next (t.onPart part fun p => { p with migrating := true })
  | some (.importLaunch l next x) => .next (t.importLaunch l next x)
  | some (.importPacket cl p) => .next (t.importPacket cl p)

/-! The choice. -/

/-- One thing that the machine can do. -/
inductive Pick where
  | fire (f : Firing)
  /-- a firing chosen earlier is performed (R291, R314, R385) -/
  | slow (p : Nat × Firing)
  /-- the first tokens of a station whose A-cycle has come are emitted (R152) -/
  | late (cl st : Nat)
  /-- a parked operation of a launch goes on -/
  | again (l : Nat) (p : Parked)
  /-- the first of what a retried record covers goes on (R376) -/
  | resume (l rec_ : Nat)
  /-- a held token is sent (R139) -/
  | held (h : HeldEffect)
  | event (i : Instr)
  /-- the input at a place of the list is taken -/
  | input (k : Nat)
  /-- the restart of a die's Ronob ends (R402) -/
  | ronobUp (die : Nat)
  | tick
  deriving DecidableEq, Repr

/-- What a launch's stations can do: choose, and go on with what they chose, parked or held. -/
def State.firePicks (s : State) (l : Nat) : List Pick :=
  let x := s.launch l
  let cs := s.choices l
  let as_ := if x.goesOn then s.againReady l else []
  let all := fun (f : Firing) => (cs ++ as_.map fun p => p.firing).filter fun g => decide (g.cl = f.cl)
  ((cs.filter fun f => s.inFifoOrder (all f) f).map Pick.fire) ++
    (if x.moves then
      x.panel.all.flatMap fun cl => (s.slowReady cl).map Pick.slow ++ (s.heldReady cl).map Pick.held ++
        ((s.cluster cl).stations.filter fun e => (s.lateReady e.2).isSome).map fun e => Pick.late cl e.1
    else []) ++ ((as_.filter fun p => s.inFifoOrder (all p.firing) p.firing).map (Pick.again l)) ++ x.resumeReady.map (Pick.resume l)

/-- Whether an outcome reached a stack whose home slices hold requests (R408). -/
def waitsForStack : Host.Outcome State Fault Refusal → Bool
  | .next t => t.heldHit
  | _ => false

/-- The first input that waits for no stack: those before it wait, and hold no other up (R408, R410). -/
def State.firstInput (s : State) : Option Nat := indexOf (fun k => !waitsForStack (s.takeInput k)) (countFrom 0 s.inbox.length) 0

/-- The inputs that can be taken. -/
def State.inputPicks (s : State) : List Pick := s.firstInput.toList.map Pick.input

/-- Everything that the machine can do: until the functions are presented, bring-up alone (R411). -/
def State.picks (s : State) : List Pick :=
  if s.presented then
    (s.launches.flatMap fun e => s.firePicks e.1) ++ s.events.map Pick.event ++ s.inputPicks ++
      (((countFrom 0 4).filter s.deaf).map Pick.ronobUp) ++ (if s.mayTick then [.tick] else [])
  else [.event .bringUp]

/-- Does one thing. -/
def Pick.run (s : State) : Pick → Host.Outcome State Fault Refusal
  | .fire f => s.fireChosen f
  | .slow p => s.fireSlow p
  | .late cl n => .next (s.sendLate cl n)
  | .again l p => s.fireAgain l p
  | .resume l r => .next (s.resumeNext l r)
  | .held h => .next (s.sendHeld h)
  | .event i => exec i s
  | .input k => s.takeInput k
  | .ronobUp d => .next (s.ronobUp d)
  | .tick => .next s.tick

/-- An outcome, unless it reached a stack whose home slices hold requests: then another, since it waits (R408). -/
def orWait (o held : Host.Outcome State Fault Refusal) : Host.Outcome State Fault Refusal :=
  if waitsForStack o then held else o

/-- One thing that the machine can do is done, freely chosen. -/
def State.choosePick (s : State) : Host.Outcome State Fault Refusal :=
  let ps := s.picks
  let (k, s1) := s.choose ps.length
  match nth ps k with
  | some p => orWait (p.run s1) (.next s1)
  | none => .next s1

/-- Does what stands on the agenda. -/
def Act.run (s : State) : Act → Host.Outcome State Fault Refusal
  | .perform f => runFiring s f
  | .event i => exec i s
  | .clampOvf l => .next (s.clampOvf l)

/-- Does the first thing on the agenda that waits for no stack, else a free choice; `before` are those that wait (R408). -/
def State.actGo (s : State) (before : List Act) : List Act → Host.Outcome State Fault Refusal
  | a :: rest => orWait (a.run { s with agenda := before ++ rest }) (s.actGo (before ++ [a]) rest)
  | [] => s.choosePick

/-- Does the first thing on the agenda that it can, else makes a free choice. -/
def State.act (s : State) : Host.Outcome State Fault Refusal := s.actGo [] s.agenda

/-- An outcome, settled (R19, R21, R30). -/
def State.settled (s : State) : Host.Outcome State Fault Refusal → Host.Outcome State Fault Refusal
  | .next t => .next (State.settleFrom s t)
  | o => o

end Sys2Proof.Machine
end

