-- ==== Sys2Proof/Machine/Step.lean ====
section
/-! DEFINITION. Machine/Step.lean: one step of the machine. -/

namespace Sys2Proof.Machine

/-- One step: the first thing on the agenda, else a free choice; then iterations retire and phases are noted. -/
def step (s : State) : Host.Outcome State Fault Refusal := s.settled s.act

/-- A state whose next step runs exactly the instruction of a word (log 25). -/
def State.withFetchWord (s : State) (_nbits w : Nat) : State := s.placeWord (BitVec.ofNat 64 w)

end Sys2Proof.Machine
end

