-- ==== Sys2Proof/Safety.lean ====
section
/-! DEFINITION. Safety.lean: the terms in which claims about runs are stated: which firings proceed, reading one byte of any memory,
what an emission may change, the memory's canonical form, and the condition that every step leaves behind. -/

namespace Sys2Proof

/-! Scalars. -/

/-- TY 0 to 3 (R62). -/
def Ty.isInt (t : Ty) : Bool := !t.isFloat

/-- The bits that an operand of a type is read from (R39). -/
def Ty.bits (t : Ty) (w : Word) : BitVec t.width := w.setWidth t.width

/-- The word that a result of a type forms (R39): i32 sign-extended, every other narrower type zero-extended. -/
def Ty.word (t : Ty) (r : BitVec t.width) : Word := if Machine.isSigned t then r.signExtend 64 else r.setWidth 64

end Sys2Proof

namespace Sys2Proof.Machine

/-! Firings. -/

/-- The latched firing belongs to a launch and carries at most one colour (R25), and its predicate lets it proceed (R63). -/
def State.Runs (s : State) (pm : Pred) : Prop :=
  (look s.launches s.cur.launch).isSome = true ∧ s.cur.mixes = false ∧ s.cur.passes pm = true

/-- As `Runs`, under colour 0: nothing is held for a commit (R26). -/
def State.RunsPlain (s : State) (pm : Pred) : Prop := s.Runs pm ∧ s.cur.colour = 0

/-- A firing whose slot decodes to an instruction. -/
def Firing.Is (f : Firing) (i : Instr) : Prop := decode f.word = .ok i

/-! One byte of memory. -/

/-- The memories of the device. -/
inductive Place1 where
  /-- local HBM, as stored -/
  | hbm (a : Nat)
  /-- the weight stores -/
  | weight (a : Nat)
  /-- a cluster's memory -/
  | cluster (cl off : Nat)
  deriving DecidableEq, Repr

/-- The byte at a place. -/
def State.byte (s : State) : Place1 → Byte
  | .hbm a => getAt s.hbm a 0
  | .weight a => getAt s.wstore a 0
  | .cluster cl off => getAt (s.cluster cl).mem off 0

/-- The memories in their canonical form: addresses strictly rising, no entry equal to what an unlisted address reads as. -/
def Memory.wf (m : List Host.Cell) : Bool := canonical m 0

/-- Every memory of a state is in canonical form. -/
def State.MemoryWf (s : State) : Prop :=
  Memory.wf s.hbm = true ∧ Memory.wf s.wstore = true ∧ ∀ e ∈ s.clusters, Memory.wf e.2.mem = true ∧ Memory.wf e.2.storeMem = true

/-! What changes. -/

/-- A station but for what an emission changes: its output queue, and what it holds under colours. -/
def Station.still (x : Station) : Station := { x with outq := [], held := [], heldFlags := [] }

/-- A cluster but for its exception flags and its stations. -/
def Cluster.still (c : Cluster) : Cluster := { c with exc := 0, stations := [] }

/-- A launch but for its parked operations and its faults. -/
def Launch.still (x : Launch) : Launch := { x with parked := [], faults := [] }

/-- A state but for its clusters, its launches and the counter of unique numbers. -/
def State.still (s : State) : State := { s with clusters := [], launches := [], serial := 0 }

/-- From s to t only the latched firing's own station, its cluster's exception flags, and its launch's parked operations and faults
may differ: every other station, cluster, launch, special register and byte of memory is unchanged. -/
def State.OnlyEmits (s t : State) : Prop :=
  t.still = s.still ∧ (∀ k, (t.cluster k).still = (s.cluster k).still) ∧
    (∀ k n, (t.station k n).still = (s.station k n).still) ∧
    (∀ k, k ≠ s.cur.cl → t.cluster k = s.cluster k) ∧
    (∀ n, n ≠ s.cur.st → t.station s.cur.cl n = s.station s.cur.cl n) ∧
    (∀ l, (t.launch l).still = (s.launch l).still) ∧ (∀ l, l ≠ s.cur.launch → t.launch l = s.launch l)

/-! What every step leaves behind. -/

/-- No ended iteration without tokens, requests or children is left unretired (R19), and no freeing instance whose iterations are all
free still holds its id (R21). -/
def State.Settled (s : State) : Prop :=
  ∀ l e, look s.launches l = some e → ∀ b ∈ e.insts,
    (b.2.freeing && b.2.iters.all fun i => decide (i.st = .free)) = false ∧
    ∀ n i, nth b.2.iters n = some i → i.st = .ended → countOf (s.items l) b.1 n ≠ 0 ∨ e.hasChild b.1 n = true

end Sys2Proof.Machine
end

