-- ==== Sys2Proof/Certificates/Slice0/Obligations.lean ====
section
/-! DEFINITION. Certificates/Slice0/Obligations.lean: the statements for the provers.  A statement whose docstring names a log entry, or
whose clauses speak of a free choice, of an emission's place in the model's lists or of a settled state, states the model's choice there. -/

open Sys2Proof Sys2Proof.Machine

/-- Log 3 and log 25 name how a firing comes to run; the sentence is R32's: a step runs the first thing on its agenda that waits for no
home slice which holds its requests (R408, R410), or, where all of them wait, makes a free choice, and then settles the state (R19, R21,
R30).  A firing on the agenda runs the instruction that its word decodes to, an event is performed, and the sweep of a launch's overflow
area is made (R13). -/
def Obligations.StepRunsAgenda : Prop :=
  let waits := fun (o : Host.Outcome State Fault Refusal) => ∃ t, o = .next t ∧ t.heldHit = true
  (
  ∀ (s : State) (before rest : List Act) (a : Act), s.agenda = before ++ a :: rest →
    (∀ pre b post, before = pre ++ b :: post → waits (b.run { s with agenda := pre ++ (post ++ a :: rest) })) →
    let o := a.run { s with agenda := before ++ rest }
    ¬ waits o → step s = s.settled o) ∧
  (
  ∀ s : State, (∀ pre b post, s.agenda = pre ++ b :: post → waits (b.run { s with agenda := pre ++ post })) →
    step s = s.settled s.choosePick) ∧
  ∀ (s : State) (f : Firing) (i : Instr) (l : Nat),
    (decode f.word = .ok i → (Act.perform f).run s = exec i { s with cur := f }) ∧ (Act.event i).run s = exec i s ∧
    (Act.clampOvf l).run s = .next (s.clampOvf l)

/-- With nothing on the agenda, a step does one of the things that the machine can do, freely chosen (log 3), and then settles the state;
the choice alone is made where that thing reaches a home slice that holds its requests (R408).  A firing that is chosen consumes its
operands and runs the instruction that its slot's word decodes to (R14, R16, R150), and what it puts in its station's output queue leaves
later where its unit or the fetch of an operand takes longer (Table 7.2, R152); METER, SSTAT and SMSTAT run in the A-cycle after their
choice (R291, R314, R385); and a parked operation that goes on runs its instruction again. -/
def Obligations.StepRunsDecodedChoice : Prop :=
  (∀ s : State, s.agenda = [] → s.picks ≠ [] → ∃ p ∈ s.picks,
    let s1 := { s with freeCtr := s.freeCtr + 1 }
    ((∀ t, p.run s1 = .next t → t.heldHit = false) → step s = s.settled (p.run s1)) ∧
    (∀ t, p.run s1 = .next t → t.heldHit = true → step s = s.settled (.next s1))) ∧
  (∀ (s : State) (f : Firing) (i : Instr), decode f.word = .ok i →
    let s1 := s.begin f
    let s2 := fun n => s.onStation f.cl f.st fun x => { x with slow := x.slow.erase (n, f) }
    (f.later = false → ∀ t, exec i { s1 with cur := f } = .next t → (Pick.fire f).run s = .next (s1.delayOut f f.delay t)) ∧
    (f.later = true → let g : Firing := { f with opId := some s1.serial }
      (Pick.fire f).run s = .next { s1.onStation f.cl f.st (fun x => { x with slow := x.slow ++ [(s.aCycle + 1, g)] }) with
        serial := s1.serial + 1 }) ∧
    (∀ n t, exec i { s2 n with cur := f } = .next t → (Pick.slow (n, f)).run s = .next ((s2 n).delayOut f f.fetch t)) ∧
    (∀ (l : Nat) (p : Parked), p.firing = f → p.why = .again →
      (Pick.again l p).run s = exec i { ((s.unpark l p.id).leaveTurn l p.id).noteFeed f with cur := f })) ∧
  ∀ (s t : State) (f : Firing) (d : Nat),
    let new := (t.station f.cl f.st).outq.drop (s.station f.cl f.st).outq.length
    (d = 0 ∨ new = [] → s.delayOut f d t = t) ∧
    (d ≠ 0 → new ≠ [] → s.delayOut f d t = t.onStation f.cl f.st fun x => { x with
      outq := x.outq.take (s.station f.cl f.st).outq.length, late := x.late ++ [⟨s.aCycle + d, f, new⟩] }) ∧
    (∀ e : Late, s.lateReady (s.station f.cl f.st) = some e →
      (Pick.late f.cl f.st).run s = .next (s.onStation f.cl f.st fun x => { x with
        late := x.late.erase e, outq := x.outq ++ e.toks.map fun o => { o with tok := { o.tok with age := s.stamp } } }))

/-- Worked words of the spec decode to the instructions that it writes beside them: worked cases 3.1, 8.1, 9.2, 10.2, 11.1, 12.1, 13.2, 14.1,
15.1, 16.1 and 18.3. -/
def Obligations.SpecWordsDecode : Prop :=
  decode 0x0000050228E00020 = .ok (.add ⟨.port, .imm, .zero, true, false, .always, .i32, .rne, 5⟩) ∧
  decode 0x0000001E28002021 = .ok (.sub ⟨.port, .port, .zero, true, true, .steer, .i64, .rne, 0⟩) ∧
  decode 0x0000100618A01274 = .ok (.ldg ⟨.port, .zero, 3, true, true, .always, .u32, .b32, false, false⟩ 16) ∧
  decode 0x000001062800000A = .ok (.loopgen ⟨.port, .port, .zero, true, true, .always, .i32⟩ 1) ∧
  decode 0x0000002300006043 = .ok (.fma ⟨.port, .port, .const 0, true, false, .always, .f32, .rz, 0⟩) ∧
  decode 0x100008062800337B = .ok (.amog ⟨.port, .port, 5, true, true, .always, .u64, .b64, false, false⟩ .cas .port 8) ∧
  decode 0x04050202280000A3 = .ok (.gathr ⟨.port, .port, .zero, true, false, .always, .i32, false, 4, 2, 5⟩ false) ∧
  decode 0x010000A90491B0B5 = .ok (.tmma ⟨.const 3, .const 4, 0, 2, 5, 1, 0, 0, true, false, .always, .f16⟩) ∧
  decode 0x00000202280000D0 = .ok (.semit ⟨.port, .port, .zero, true, false, .always, .i32⟩ 2) ∧
  decode 0x060504022C7101D8 = .ok (.smopen ⟨.const 2, .const 3, .zero, true, false, .always, .i32, false, 6, 4, 5⟩ 1 0) ∧
  decode 0x0700030228A000E2 = .ok (.umrank ⟨.port, .zero, .zero, true, false, .always, .i32, false, 7, 3, 0⟩) ∧
  decode 0x0000010228E03A90 = .ok (.kadd ⟨.port, .imm, .zero, true, false, .always, .device, .release, 1⟩) ∧
  decode 0x0080050028A000F0 = .ok (.trap ⟨.port, .zero, .zero, false, false, .always, .i32⟩ 0x8005)

/-- The decoder reads back what the encoder writes, for every well-formed instruction that has an encoding and every operand value that
the encoding admits (R59 to R69). -/
def Obligations.DecodeEncode : Prop :=
  ∀ i : Instr, i.WellFormed → decode (encode i) = .ok i

/-- A word has one meaning: whatever word decodes to an instruction is the word that the encoder gives it, so no bit of a word is ignored
(R59 to R69, R80). What decodes is well-formed. -/
def Obligations.EncodeDecode : Prop :=
  (
  ∀ (w : Word) (i : Instr), decode w = .ok i → encode i = w) ∧
  (
  ∀ (w : Word) (i : Instr), decode w = .ok i → i.WellFormed)

/-- Table 3.5 (R73): exactly these 143 opcode values are those of an instruction; a word with any other decodes to none, whatever its
other bits, and of 0x00 and 0xFF in particular. -/
def Obligations.OpcodesOfTheTable : Prop :=
  let assigned := fun (o : Nat) => decide ((0x01 ≤ o ∧ o ≤ 0x15) ∨ (0x20 ≤ o ∧ o ≤ 0x3C) ∨ (0x40 ≤ o ∧ o ≤ 0x54) ∨ (0x70 ≤ o ∧ o ≤ 0x7C) ∨
    (0x90 ≤ o ∧ o ≤ 0x96) ∨ (0xA0 ≤ o ∧ o ≤ 0xA6) ∨ (0xB0 ≤ o ∧ o ≤ 0xC2) ∨ (0xD0 ≤ o ∧ o ≤ 0xD4) ∨ (0xD8 ≤ o ∧ o ≤ 0xDC) ∨
    (0xE0 ≤ o ∧ o ≤ 0xE6) ∨ (0xF0 ≤ o ∧ o ≤ 0xF8))
  ((List.range 256).filter assigned).length = 143 ∧
  (∀ (w : Word) (i : Instr), decode w = .ok i → assigned (w.toNat % 256) = true) ∧
  ∀ o, o < 256 → assigned o = true → ∃ (w : Word) (i : Instr), w.toNat % 256 = o ∧ decode w = .ok i

/-- A slot's instruction whose operands carry two different non-zero colours faults with SPEC_MIX and does nothing else (R25), whatever
the instruction is. Whatever the instruction, a false predicate under PM 1 or PM 2 consumes the operands, which the step's choice has
already done, and does nothing else (R63). -/
def Obligations.FiringGuards : Prop :=
  (
  ∀ (i : Instr) (v : View) (s : State), i.view = some v → (look s.launches s.cur.launch).isSome = true →
    s.cur.mixes = true → exec i s = .next (s.faultFiring s.cur .specMix 0 0)) ∧
  (
  ∀ (i : Instr) (v : View) (s : State), i.view = some v → (look s.launches s.cur.launch).isSome = true →
    s.cur.mixes = false → s.cur.passes v.pm = false → exec i s = .next s)

/-- Whatever the instruction, one whose effect a colour holds whole is held at its slot, in issue order, and has no other effect while its
colour is not 0 (R26, R170). Nothing is refused, and nothing stops but a slot's instruction whose latched firing belongs to no launch. -/
def Obligations.FiringOutcomes : Prop :=
  (
  ∀ (i : Instr) (v : View) (s : State), i.view = some v → heldWhole i = true → s.Runs v.pm → s.cur.colour ≠ 0 →
    exec i s = .next (s.hold s.cur)) ∧
  (
  ∀ (i : Instr) (s : State), (∃ t, exec i s = .next t) ∨
    (exec i s = .fault .noFiring ∧ i.view.isSome = true ∧ look s.launches s.cur.launch = none))

/-- A firing's emission on a group under colour 0 puts one token for each destination of the group, in DEST order, at the end of its
station's output queue, each with the firing's tag but for the destination's die, and its AGE the stamp counter; every other station,
every cluster, every launch and every memory stays as it is (R12, R29, R70, R150). The destinations of a route word (R70): NDEST of them,
in order; bit 21 of one tells an engine's port from a slot's. -/
def Obligations.EmissionEntersOutputQueue : Prop :=
  (
  ∀ (s : State) (f : Firing) (o1 : Bool) (k : Carry), k.colour = 0 →
    let t := s.emitGroup f o1 k
    (t.station f.cl f.st).outq = (s.station f.cl f.st).outq ++ (routeGroup f.route o1).map (k.token s.stamp) ∧
    (∀ cl st, (cl, st) ≠ (f.cl, f.st) → t.station cl st = s.station cl st) ∧
    (t.station f.cl f.st).still = (s.station f.cl f.st).still ∧
    (∀ cl, { t.cluster cl with stations := [] } = { s.cluster cl with stations := [] }) ∧
    { t with clusters := [] } = { s with clusters := [] }) ∧
  (
  ∀ (r : BitVec 256) (o1 : Bool),
    (routeGroup r o1).length = (r.extractLsb' (if o1 then 224 else 96) 3).toNat ∧
    ∀ n, n < 4 → n < (routeGroup r o1).length →
      let d := r.extractLsb' ((if o1 then 128 else 0) + 24 * n) 24
      nth (routeGroup r o1) n = some (if d.getLsbD 21
        then .engine (d.extractLsb' 22 2) (d.extractLsb' 16 5) (d.extractLsb' 8 8) (d.extractLsb' 0 8)
        else .slot (d.extractLsb' 22 2) (d.extractLsb' 10 11) (d.extractLsb' 2 8) (d.extractLsb' 0 2)))

/-- A scalar instruction's end under colour 0: its flags are ORed into its cluster's EXC and its CLASS 0 result enters the output queue
(R50, R189); the frame is `OnlyEmits`: no other register, special register, flag or byte of memory changes. -/
def Obligations.ScalarFrame : Prop :=
  ∀ (s : State) (pm : Pred) (r : Word) (e : Exc),
    s.OnlyEmits (s.scalar s.cur pm r e) ∧
    (s.cur.colour = 0 →
      ((s.scalar s.cur pm r e).cluster s.cur.cl).exc = (s.cluster s.cur.cl).exc ||| e ∧
      ((s.scalar s.cur pm r e).station s.cur.cl s.cur.st).outq = (s.station s.cur.cl s.cur.st).outq ++
        (routeGroup s.cur.route (s.cur.group0 pm)).map ((s.cur.carry .value r).token s.stamp)) ∧
    (s.cur.colour ≠ 0 → ∀ k, ((s.scalar s.cur pm r e).cluster k).exc = (s.cluster k).exc)

/-- Rows of Table 9.1, each on the w-bit patterns that its TY reads, with no flag (R192). -/
def Obligations.IntegerResults : Prop :=
  ∀ (x : FormA) (s : State), x.ty.isInt = true → s.Runs x.pm →
    let w := x.ty.width
    let a := x.ty.bits (s.opA s.cur x)
    let b := x.ty.bits (s.opB s.cur x)
    let out := fun (r : BitVec x.ty.width) => (Host.Outcome.next (s.scalar s.cur x.pm (x.ty.word r) 0) : Host.Outcome State Fault Refusal)
    exec (.add x) s = out (a + b) ∧ exec (.sub x) s = out (a - b) ∧ exec (.mul x) s = out (a * b) ∧
    exec (.mulh x) s = out (if isSigned x.ty then (a.signExtend (2 * w) * b.signExtend (2 * w)).extractLsb' w w
      else (a.setWidth (2 * w) * b.setWidth (2 * w)).extractLsb' w w) ∧
    exec (.and x) s = out (a &&& b) ∧ exec (.or x) s = out (a ||| b) ∧ exec (.xor x) s = out (a ^^^ b) ∧
    exec (.andn x) s = out (a &&& ~~~b) ∧
    exec (.min x) s = out (if (if isSigned x.ty then a.sle b else a.ule b) then a else b) ∧
    exec (.max x) s = out (if (if isSigned x.ty then a.sle b else a.ule b) then b else a) ∧
    exec (.neg x) s = out (0 - a) ∧ (isSigned x.ty = true → exec (.abs x) s = out (if a.msb then 0 - a else a))

/-- The four shifts (R194): the count is b mod w, and TY decides only w and the forming of the result. -/
def Obligations.ShiftResults : Prop :=
  ∀ (x : FormA) (s : State), x.ty.isInt = true → s.Runs x.pm →
    let a := x.ty.bits (s.opA s.cur x)
    let n := (s.opB s.cur x).toNat % x.ty.width
    let out := fun (r : BitVec x.ty.width) => (Host.Outcome.next (s.scalar s.cur x.pm (x.ty.word r) 0) : Host.Outcome State Fault Refusal)
    exec (.shl x) s = out (a <<< n) ∧ exec (.shr x) s = out (a >>> n) ∧ exec (.sra x) s = out (a.sshiftRight n) ∧
    exec (.rot x) s = out (a.rotateLeft n)

/-- The bit counts and BREV on the w-bit pattern of a (R195). -/
def Obligations.BitCountResults : Prop :=
  ∀ (x : FormA) (s : State), x.ty.isInt = true → s.Runs x.pm →
    let w := x.ty.width
    let a := x.ty.bits (s.opA s.cur x)
    (∃ n, exec (.clz x) s = .next (s.scalar s.cur x.pm (BitVec.ofNat 64 n) 0) ∧ n ≤ w ∧
      (∀ j, j < n → a.getLsbD (w - 1 - j) = false) ∧ (n < w → a.getLsbD (w - 1 - n) = true)) ∧
    (∃ n, exec (.ctz x) s = .next (s.scalar s.cur x.pm (BitVec.ofNat 64 n) 0) ∧ n ≤ w ∧
      (∀ j, j < n → a.getLsbD j = false) ∧ (n < w → a.getLsbD n = true)) ∧
    exec (.popc x) s = .next (s.scalar s.cur x.pm (BitVec.ofNat 64 ((List.range w).countP fun j => a.getLsbD j)) 0) ∧
    (∃ r : BitVec x.ty.width, exec (.brev x) s = .next (s.scalar s.cur x.pm (x.ty.word r) 0) ∧
      ∀ j, j < w → r.getLsbD j = a.getLsbD (w - 1 - j))

/-- DIV and REM (R38, R193): truncation, the remainder's sign, division by zero with DIVZ, and the most negative value by −1. CMP's six
relations give exactly 1 or 0, and SEL chooses by its whole condition word (R196). -/
def Obligations.DivideAndCompareResults : Prop :=
  (
  ∀ (x : FormA) (s : State), x.ty.isInt = true → s.Runs x.pm →
    let a := x.ty.bits (s.opA s.cur x)
    let b := x.ty.bits (s.opB s.cur x)
    (b = 0 → exec (.div x) s = .next (s.scalar s.cur x.pm (x.ty.word (BitVec.allOnes _)) excDIVZ) ∧
      exec (.rem x) s = .next (s.scalar s.cur x.pm (x.ty.word a) excDIVZ)) ∧
    (b ≠ 0 → ∃ q r : BitVec x.ty.width,
      exec (.div x) s = .next (s.scalar s.cur x.pm (x.ty.word q) 0) ∧
      exec (.rem x) s = .next (s.scalar s.cur x.pm (x.ty.word r) 0) ∧
      a = b * q + r ∧
      (isSigned x.ty = false → q = a / b ∧ r.toNat < b.toNat) ∧
      (isSigned x.ty = true → q = a.sdiv b ∧ r.toInt = Int.tmod a.toInt b.toInt ∧
        (a = BitVec.intMin _ → b = BitVec.allOnes _ → q = a ∧ r = 0)))) ∧
  (
  ∀ (x : FormA) (s : State), s.Runs x.pm →
    let a := s.opA s.cur x
    let b := s.opB s.cur x
    let out := fun (r : Word) => (Host.Outcome.next (s.scalar s.cur x.pm r 0) : Host.Outcome State Fault Refusal)
    let lt := if isSigned x.ty then (x.ty.bits a).slt (x.ty.bits b) else (x.ty.bits a).ult (x.ty.bits b)
    let eq := decide (x.ty.bits a = x.ty.bits b)
    (x.ty.isInt = true →
      exec (.cmp x .eq) s = out (if eq then 1 else 0) ∧ exec (.cmp x .ne) s = out (if eq then 0 else 1) ∧
      exec (.cmp x .lt) s = out (if lt then 1 else 0) ∧ exec (.cmp x .le) s = out (if lt || eq then 1 else 0) ∧
      exec (.cmp x .gt) s = out (if lt || eq then 0 else 1) ∧ exec (.cmp x .ge) s = out (if lt then 0 else 1)) ∧
    exec (.sel x) s = out (x.ty.word (x.ty.bits (if s.opC s.cur x ≠ 0 then a else b))))

/-- EXT and INS, bit by bit, under the cut length L = min(LEN, w − POS), or 0 (R197). -/
def Obligations.FieldResults : Prop :=
  ∀ (x : FormA) (s : State), x.ty.isInt = true → s.Runs x.pm →
    let w := x.ty.width
    let a := x.ty.bits (s.opA s.cur x)
    let b := x.ty.bits (s.opB s.cur x)
    let cut := fun (d : Word) => Nat.min (d.extractLsb' 8 7).toNat (w - (d.extractLsb' 0 6).toNat)
    (∃ r : BitVec x.ty.width, exec (.ext x) s = .next (s.scalar s.cur x.pm (x.ty.word r) 0) ∧
      let pos := ((s.opB s.cur x).extractLsb' 0 6).toNat
      let l := cut (s.opB s.cur x)
      ∀ j, j < w → r.getLsbD j = if j < l then a.getLsbD (pos + j)
        else isSigned x.ty && decide (0 < l) && a.getLsbD (pos + l - 1)) ∧
    (∃ r : BitVec x.ty.width, exec (.ins x) s = .next (s.scalar s.cur x.pm (x.ty.word r) 0) ∧
      let pos := ((s.opC s.cur x).extractLsb' 0 6).toNat
      let l := cut (s.opC s.cur x)
      ∀ j, j < w → r.getLsbD j = if pos ≤ j ∧ j < pos + l then b.getLsbD (j - pos) else a.getLsbD j)

/-- LEA (R198), and CONST and CONSTH for the TYs that R199 gives each, on SA's whole word. -/
def Obligations.AddressConstantResults : Prop :=
  (∀ (x : FormA) (sh : BitVec 4) (s : State), x.ty.isInt = true → s.Runs x.pm →
    exec (.lea x sh) s = .next (s.scalar s.cur x.pm (x.ty.word (x.ty.bits (s.opA s.cur x) +
      (x.ty.bits (s.opB s.cur x)) <<< sh.toNat +
      (if isSigned x.ty then x.imm.signExtend _ else x.imm.setWidth _))) 0)) ∧
  ∀ (x : FormX) (s : State) (imm : BitVec 24) (hi : BitVec 16), s.Runs x.pm →
    let a := s.opXA s.cur x
    let mid : Word := (a &&& 0xFFFF000000FFFFFF) ||| (imm.setWidth 64 <<< 24)
    exec (.constLo x imm) s =
      .next (s.scalar s.cur x.pm (x.ty.word (if isSigned x.ty then imm.signExtend _ else imm.setWidth _)) 0) ∧
    (x.ty.width = 64 →
      exec (.constMid x imm) s = .next (s.scalar s.cur x.pm mid 0) ∧
      exec (.consth x imm) s = .next (s.scalar s.cur x.pm mid 0) ∧
      exec (.constHi x hi) s =
        .next (s.scalar s.cur x.pm ((a &&& 0x0000FFFFFFFFFFFF) ||| (hi.setWidth 64 <<< 48)) 0))

/-- The rows of Table 9.3 complete for every floating TY, reading their operands under R39, with the result and the flags that the
format's operations give (R200 to R206); the properties of those operations are stated below. -/
def Obligations.FloatResults : Prop :=
  ∀ (x : FormA) (s : State), x.ty.isFloat = true → s.Runs x.pm →
    let t := fmtOf x.ty
    let ua := (x.ty.bits (s.opA s.cur x)).toNat
    let ub := (x.ty.bits (s.opB s.cur x)).toNat
    let a := t.decode ua
    let b := t.decode ub
    let c := t.decode (x.ty.bits (s.opC s.cur x)).toNat
    let out := fun (r : FRes) =>
      (Host.Outcome.next (s.scalar s.cur x.pm (x.ty.word (BitVec.ofNat _ r.1)) r.2) : Host.Outcome State Fault Refusal)
    exec (.fadd x) s = out (fadd t x.rm a b) ∧ exec (.fsub x) s = out (fsub t x.rm a b) ∧
    exec (.fmul x) s = out (fmul t x.rm a b) ∧ exec (.fma x) s = out (fma t x.rm false a b c) ∧
    exec (.fnma x) s = out (fma t x.rm true a b c) ∧ exec (.fdiv x) s = out (fdiv t x.rm a b) ∧
    exec (.fsqrt x) s = out (fsqrt t x.rm a) ∧ exec (.fmin x) s = out (fminmax t false (s.e017 s.cur) ua ub) ∧
    exec (.fmax x) s = out (fminmax t true false ua ub) ∧
    exec (.fabs x) s = out (ua % 2 ^ (t.width - 1), 0) ∧
    exec (.fneg x) s = out ((ua + 2 ^ (t.width - 1)) % 2 ^ t.width, 0) ∧
    (∀ p, exec (.fcmp x p) s = out (if (fcmpHolds t p ua ub).1 then 1 else 0, (fcmpHolds t p ua ub).2)) ∧
    exec (.fclass x) s = out (fclassMask t ua, 0) ∧
    exec (.fexp2 x) s = out (fexp2 t x.rm a) ∧ exec (.flog2 x) s = out (flog2 t x.rm a) ∧
    exec (.frcp x) s = out (frcp t x.rm a) ∧ exec (.frsq x) s = out (frsq t x.rm a) ∧
    exec (.frint x) s = out (frint t x.rm false ua) ∧ exec (.frintX x) s = out (frint t x.rm true ua)

/-- The conversions (R205): FCVT from the source's own low bits, FTOI into the integer type's form, ITOF from the integer type's reading.
-/
def Obligations.ConversionResults : Prop :=
  ∀ (x : FormA) (s : State), x.ty.isFloat = true → s.Runs x.pm →
    let t := fmtOf x.ty
    (∀ src, exec (.fcvt x src) s =
      let r := arith t [(cvtFmt src).decode ((s.opA s.cur x).toNat % 2 ^ (cvtFmt src).width)] false
        (roundVal t x.rm ((cvtFmt src).decode ((s.opA s.cur x).toNat % 2 ^ (cvtFmt src).width)))
      .next (s.scalar s.cur x.pm (x.ty.word (BitVec.ofNat _ r.1)) r.2)) ∧
    (∀ dst, exec (.ftoi x dst) s =
      let r := toInt (intLimits dst) x.rm (t.decode (x.ty.bits (s.opA s.cur x)).toNat)
      .next (s.scalar s.cur x.pm ((tyOfInt dst).word (BitVec.ofInt _ r.1)) r.2)) ∧
    ∀ src, exec (.itof x src) s =
      let v := if isSigned (tyOfInt src) then ((tyOfInt src).bits (s.opA s.cur x)).toInt
        else (((tyOfInt src).bits (s.opA s.cur x)).toNat : Int)
      .next (s.scalar s.cur x.pm (x.ty.word (BitVec.ofNat _ (itof t x.rm v).1)) (itof t x.rm v).2)

/-- The five rounding modes (R46), on a magnitude m × 2^e cut to a multiple k of 2^q: k is next below, next above or nearest as the mode
says, a tie goes to even under RNE and away from zero under RNA, and the result is inexact exactly when k × 2^q differs. The special cases
of Tables 9.4 and of R206, for each of the four station formats, and R201's NaN. -/
def Obligations.RoundingAndSpecialCases : Prop :=
  (
  ∀ (rm : RM) (neg : Bool) (m : Nat) (e q : Int), e < q →
    let u := 2 ^ (q - e).toNat
    let k := (roundTo rm neg m e q).1
    (rm = .rz → k * u ≤ m ∧ m < (k + 1) * u) ∧
    (rm = .ru → neg = true → k * u ≤ m ∧ m < (k + 1) * u) ∧
    (rm = .ru → neg = false → m ≤ k * u ∧ k * u < m + u) ∧
    (rm = .rd → neg = false → k * u ≤ m ∧ m < (k + 1) * u) ∧
    (rm = .rd → neg = true → m ≤ k * u ∧ k * u < m + u) ∧
    (rm = .rne → 2 * (k * u) ≤ 2 * m + u ∧ 2 * m ≤ 2 * (k * u) + u ∧
      (2 * (k * u) = 2 * m + u ∨ 2 * m = 2 * (k * u) + u → k % 2 = 0)) ∧
    (rm = .rna → 2 * (k * u) ≤ 2 * m + u ∧ 2 * m < 2 * (k * u) + u) ∧
    ((roundTo rm neg m e q).2 = true ↔ k * u ≠ m)) ∧
  (
  ∀ (t : Fmt) (rm : RM) (n p : Bool) (m m' : Nat) (e e' : Int) (z : FVal), t ∈ [fp16, bf16, fp32, fp64] → m ≠ 0 →
    let nan : FRes := (t.nanBits, excNV)
    let inf := fun (b : Bool) => ((t.signed b t.infBits, 0) : FRes)
    let zero := fun (b : Bool) => ((t.signed b 0, 0) : FRes)
    fadd t rm (.inf n) (.inf !n) = nan ∧ fsub t rm (.inf n) (.inf n) = nan ∧
    fadd t rm (.fin n m e) (.fin (!n) m e) = zero (decide (rm = .rd)) ∧
    fadd t rm (.fin n 0 e) (.fin n 0 e') = zero n ∧
    (∀ g, fadd t rm (.nan g) z = (t.nanBits, if g || z.isSnan then excNV else 0)) ∧
    fmul t rm (.fin n 0 e) (.inf p) = nan ∧ fmul t rm (.inf p) (.fin n 0 e) = nan ∧
    fmul t rm (.fin n 0 e) (.fin p m' e') = zero (n != p) ∧
    (∀ g, fma t rm g (.fin n 0 e) (.inf p) z = nan ∧ fma t rm g (.inf p) (.fin n 0 e) z = nan) ∧
    (∀ g, fma t rm g (.fin n m e) (.fin p m' e') (.inf true) = inf true ∧
      fma t rm g (.fin n m e) (.fin p m' e') (.inf false) = inf false) ∧
    fma t rm false (.inf n) (.fin p m e) (.inf !(n != p)) = nan ∧ fma t rm true (.inf n) (.fin p m e) (.inf (n != p)) = nan ∧
    fdiv t rm (.fin n 0 e) (.fin p 0 e') = nan ∧ fdiv t rm (.inf n) (.inf p) = nan ∧
    fdiv t rm (.fin n m e) (.fin p 0 e') = (t.signed (n != p) t.infBits, excDZ) ∧
    fdiv t rm (.fin n m' e) (.inf p) = zero (n != p) ∧
    fsqrt t rm (.fin true 0 e) = zero true ∧ fsqrt t rm (.fin true m e) = nan ∧ fsqrt t rm (.inf true) = nan ∧
    fsqrt t rm (.inf false) = inf false ∧
    fexp2 t rm (.inf true) = zero false ∧ fexp2 t rm (.inf false) = inf false ∧
    fexp2 t rm (.fin n 0 e) = (t.bias * 2 ^ t.f, 0) ∧
    flog2 t rm (.fin n 0 e) = (t.signed true t.infBits, excDZ) ∧ flog2 t rm (.inf false) = inf false ∧
    flog2 t rm (.fin false 1 0) = zero false ∧ flog2 t rm (.fin true m e) = nan ∧ flog2 t rm (.inf true) = nan ∧
    frcp t rm (.fin n 0 e) = (t.signed n t.infBits, excDZ) ∧ frcp t rm (.inf n) = zero n ∧
    frsq t rm (.fin n 0 e) = (t.signed n t.infBits, excDZ) ∧ frsq t rm (.inf false) = zero false ∧
    frsq t rm (.fin true m e) = nan ∧ frsq t rm (.inf true) = nan)

/-- Converting to an integer (R49), minimum and maximum with NaN operands and zeros (R203), comparison with a NaN (R204), and FCLASS's one
bit (R204). -/
def Obligations.FloatComparisons : Prop :=
  ∀ (t : Fmt) (rm : RM) (a b : Nat), t ∈ [fp16, bf16, fp32, fp64] → a < 2 ^ t.width → b < 2 ^ t.width →
    let x := t.decode a
    let y := t.decode b
    let flag := if x.isSnan || y.isSnan then excNV else 0
    (∀ dst, (x.isNan = true → toInt (intLimits dst) rm x = (0, excNV)) ∧
      (∀ n, x = .inf n → toInt (intLimits dst) rm x = (if n then (intLimits dst).1 else (intLimits dst).2, excNV)) ∧
      (intLimits dst).1 ≤ (toInt (intLimits dst) rm x).1 ∧ (toInt (intLimits dst) rm x).1 ≤ (intLimits dst).2) ∧
    (∀ mx e017, (fminmax t mx e017 a b).2 = flag ∧
      (x.isNan = true → y.isNan = true → (fminmax t mx e017 a b).1 = t.nanBits) ∧
      (x.isNan = true → y.isNan = false → (fminmax t mx e017 a b).1 = b) ∧
      (x.isNan = false → y.isNan = true → (fminmax t mx e017 a b).1 = a)) ∧
    (x.isNan = false → y.isNan = false → ltVals x y = true →
      (fminmax t false false a b).1 = a ∧ (fminmax t true false a b).1 = b) ∧
    (x.isZero = true → y.isZero = true → x.neg = true → y.neg = false →
      (fminmax t false false a b).1 = a ∧ (fminmax t false true a b).1 = b ∧ (fminmax t true false a b).1 = b) ∧
    ((x.isNan || y.isNan) = true →
      fcmpHolds t .eq a b = (false, flag) ∧ fcmpHolds t .ne a b = (true, flag) ∧ fcmpHolds t .un a b = (true, flag) ∧
      fcmpHolds t .ord a b = (false, flag) ∧ fcmpHolds t .lt a b = (false, excNV) ∧ fcmpHolds t .le a b = (false, excNV) ∧
      fcmpHolds t .gt a b = (false, excNV) ∧ fcmpHolds t .ge a b = (false, excNV)) ∧
    (x.isZero = true → y.isZero = true → fcmpHolds t .eq a b = (true, 0) ∧ fcmpHolds t .lt a b = (false, 0)) ∧
    fclassMask t a ∈ [1, 2, 4, 8, 16, 32, 64, 128, 256, 512]

/-- MOV, FANOUT, SINK, STEER, GATE, JOIN and INV (R172): a value passed on keeps its operand's CLASS when that is 0, 1 or 2 (R168). What
an operand specifier reads (R60, Table 3.2). -/
def Obligations.MovingAndSteering : Prop :=
  (
  ∀ (x : FormA) (s : State), s.Runs x.pm →
    let f := s.cur
    let v := s.opA f x
    let c := passClass x.sa f.a
    exec (.mov x) s = .next (s.emit0 f x.pm c v) ∧
    exec (.fanout x) s = .next ((s.emit0 f x.pm c v).emit1 f c v) ∧
    exec (.sink x) s = .next s ∧
    exec (.steer x) s = .next (if s.opB f x ≠ 0 then s.emit0 f x.pm c v else s.emit1 f c v) ∧
    exec (.gate x) s = .next (s.emit0 f x.pm c v) ∧
    exec (.join x) s = .next (s.emit0 f x.pm .completion 0) ∧
    exec (.inv x) s = .next ((s.emit0 f x.pm .value (if v = 0 then 1 else 0)).emit1 f .value (if v = 0 then 0 else 1)) ∧
    (x.sa ≠ .port → c = .value) ∧
    (∀ h, x.sa = .port → f.a = some h → c = if h.tok.cls = .tile ∨ h.tok.cls = .completion then h.tok.cls else .value)) ∧
  (
  ∀ (s : State) (f : Firing) (h : Held) (imm : Word) (n : Fin 32),
    s.operand f (some h) imm .port = h.tok.payload ∧ s.operand f none imm .port = 0 ∧
    s.operand f (some h) imm .iter = f.tag.iter.setWidth 64 ∧ s.operand f (some h) imm .bobbin = f.tag.bobbin.setWidth 64 ∧
    s.operand f (some h) imm .die = f.tag.die.setWidth 64 ∧ s.operand f (some h) imm .zero = 0 ∧
    s.operand f (some h) imm .ones = 0xFFFFFFFFFFFFFFFF ∧ s.operand f (some h) imm .imm = imm ∧
    s.operand f (some h) imm .phase = f.phase.setWidth 64 ∧ s.operand f (some h) imm (.const n) = getAt f.consts n.val 0 ∧
    s.operand f (some h) imm .station = BitVec.ofNat 64 (s.stationOf f) ∧
    ∀ (t : Ty) (i : BitVec 24), immOf t i = if isSigned t then i.signExtend 64 else i.setWidth 64)

/-- BALLOC, when its firing's instance is of the parent class, the fan allows one more and an id is free, takes the lowest free id,
records the instance with every iteration Free, and emits its instance word (R18, R173); with no room it parks; a wrong parent traps. The
free id that a new instance takes is the lowest of the 1,024 that no instance holds (R18). -/
def Obligations.BallocAllocates : Prop :=
  (
  ∀ (x : FormX) (cls : BitVec 6) (s : State) (c : BobClass) (i : Instance), s.RunsPlain x.pm →
    let f := s.cur
    let l := s.launch f.launch
    let bob := f.tag.bobbin.toNat
    let it := f.tag.iter.toNat
    s.classOf f.launch cls.toNat = some c → look l.insts bob = some i →
    (c.parent ≠ some i.cls → exec (.balloc x cls) s = .next (s.trap f 0x0102)) ∧
    (c.parent = some i.cls →
      (∀ id, l.freeId = some id → l.fanHeld cls.toNat bob it < c.fan →
        let new : Instance := ⟨cls.toNat, some (bob, it), false, 0, none, List.replicate c.size ⟨.free, 0⟩, none⟩
        exec (.balloc x cls) s = .next ((s.onLaunch f.launch fun y => { y with insts := put y.insts id new }).emit0 f x.pm .value
          (BitVec.ofNat 64 (id + cls.toNat * 65536)))) ∧
      (l.freeId = none ∨ c.fan ≤ l.fanHeld cls.toNat bob it → exec (.balloc x cls) s = .next (s.park f .balloc)))) ∧
  (
  ∀ (x : Launch),
    (∀ id, x.freeId = some id → id < 1024 ∧ look x.insts id = none ∧ ∀ j, j < id → look x.insts j ≠ none) ∧
    (x.freeId = none → ∀ j, j < 1024 → look x.insts j ≠ none))

/-- BFREE, LOOPGEN, IEND and RETAG (R174, R175, R177, R178): the change each makes to the bobbin table, its token, and the TRAP that a
stale instance word or a Free target takes (R171). -/
def Obligations.BobbinInstructions : Prop :=
  ∀ (x : FormA) (g : FormX) (step : BitVec 16) (s : State) (i : Instance),
    let f := s.cur
    let l := s.launch f.launch
    (s.RunsPlain x.pm →
      let w := s.opA f x
      (look l.insts (w.toNat % 1024) = some i → i.cls = w.toNat / 65536 % 64 →
        let new : Instance := { i with freeing := true }
        exec (.bfree x) s = .next ((s.onLaunch f.launch fun y => { y with insts := put y.insts (w.toNat % 1024) new }).emit0 f x.pm
          .completion 0)) ∧
      (l.named w = none → exec (.bfree x) s = .next (s.trap f 0x0101)) ∧
      (look l.insts f.tag.bobbin.toNat = some i →
        let new : Instance := if (i.iter f.tag.iter.toNat).st = .live
          then i.setIter f.tag.iter.toNat { i.iter f.tag.iter.toNat with st := .ended } else i
        exec (.iend x) s = .next (s.onLaunch f.launch fun y => { y with insts := put y.insts f.tag.bobbin.toNat new })) ∧
      (let t := s.opB f x
       let it := t.toNat % 64
       let bob := t.toNat / 64 % 1024
       (look l.insts bob = some i → (i.iter it).st ≠ .free →
         exec (.retag x) s = .next (s.emitGroup f (f.group0 x.pm)
           { f.carry (passClass x.sa f.a) (s.opA f x) with bobbin := t.extractLsb' 6 10, iter := t.extractLsb' 0 6 })) ∧
       (l.holdsIter bob it = false → exec (.retag x) s = .next (s.trap f 0x0103)))) ∧
    (s.RunsPlain g.pm →
      (l.named (s.opXA f g) = none → exec (.loopgen g step) s = .next (s.trap f 0x0101)) ∧
      (l.named (s.opXA f g) = some i →
        let new : Generator := ⟨s.serial, f, (s.opXA f g).toNat % 1024, (s.opXA f g).toNat / 65536 % 64, (s.opXB f g).toNat, 0,
          s.opXC f g, step, false, s.aCycle, 0⟩
        exec (.loopgen g step) s =
          .next { s.onLaunch f.launch (fun y => { y with gens := y.gens ++ [new] }) with serial := s.serial + 1 }))

/-- NEXT (R176): the loop exit on o1 when the end mark is its iteration's number; else the next ITER on o0 once it is Live with the next
number; else it parks. RETAG with FN 1 (R179): below the entry's tension, with none waiting and an id free, a root instance opens with
ITER 0 Live, and SA's and SB's values go out as CLASS 6 tokens under it; otherwise the firing's tokens wait in the entry's queue. -/
def Obligations.NextAndCall : Prop :=
  (
  ∀ (x : FormA) (s : State) (i : Instance), s.RunsPlain x.pm →
    let f := s.cur
    let c := passClass x.sa f.a
    let v := s.opA f x
    let k := (i.iter f.tag.iter.toNat).num
    let n := (f.tag.iter.toNat + 1) % i.iters.length
    look (s.launch f.launch).insts f.tag.bobbin.toNat = some i →
    (i.endMark = some k → exec (.next x) s = .next (s.emit1 f c v)) ∧
    (i.endMark ≠ some k → (i.iter n).st = .live → (i.iter n).num = k + 1 →
      exec (.next x) s = .next (s.emitGroup f false { f.carry c v with iter := BitVec.ofNat 6 n })) ∧
    (i.endMark ≠ some k → ((i.iter n).st ≠ .live ∨ (i.iter n).num ≠ k + 1) → exec (.next x) s = .next (s.park f .next))) ∧
  (
  ∀ (x : FormA) (s : State) (p : Pattern) (d : Dest) (ds : List Dest) (e : Nat), s.RunsPlain x.pm →
    let f := s.cur
    let l := s.launch f.launch
    s.pattern f.launch = some p → routeGroup f.route false = d :: ds → entryOf p l.stage d = some e →
    (∀ id r c, l.mayEnter p e = true → l.freeId = some id → nth p.entries e = some r → nth p.classes r.cls = some c → 0 < c.size →
      let new : Instance := ⟨r.cls, none, false, 0, none, ⟨.live, 0⟩ :: List.replicate (c.size - 1) ⟨.free, 0⟩, some e⟩
      exec (.retagCall x) s = .next (((s.onLaunch f.launch fun y => { y with insts := put y.insts id new }).emitGroup f false
            { f.carry .seed (s.opA f x) with bobbin := BitVec.ofNat 10 id, iter := 0 }).emitGroup f true
            { f.carry .seed (s.opB f x) with bobbin := BitVec.ofNat 10 id, iter := 0 })) ∧
    (l.mayEnter p e = false →
      exec (.retagCall x) s = .next (s.queueAtEntry f.launch e
        ((routeGroup f.route false).map ((f.carry .seed (s.opA f x)).token s.stamp) ++
          (routeGroup f.route true).map ((f.carry .seed (s.opB f x)).token s.stamp)) none)))

/-- SPEC takes its colour for its tag and emits under it, parks while the colour is in use there, and faults on a coloured operand; COMMIT
and KILL emit control tokens; PHSET sets the phase that it emits; PHWAIT parks (R28, R180 to R183). -/
def Obligations.SpeculationAndPhases : Prop :=
  ∀ (x : FormX) (s : State) (col : BitVec 2) (ph : BitVec 4), s.Runs x.pm →
    let f := s.cur
    let c := passClass x.sa f.a
    let v := s.opXA f x
    (f.colour = 0 →
      ((s.launch f.launch).usesColour f.tag col = false →
        exec (.spec x col) s = .next ((s.onLaunch f.launch fun y => { y with colours := y.colours ++
          [⟨f.tag.bobbin, f.tag.iter, col, []⟩] }).emitGroup f (f.group0 x.pm) { f.carry c v with colour := col })) ∧
      ((s.launch f.launch).usesColour f.tag col = true → exec (.spec x col) s = .next (s.park f .colour)) ∧
      exec (.commit x col) s = .next (s.emitGroup f false (f.carry .commit (col.setWidth 64))) ∧
      exec (.kill x col) s = .next (s.emitGroup f false (f.carry .kill (col.setWidth 64)))) ∧
    (f.colour ≠ 0 →
      exec (.spec x col) s = .next (s.faultFiring f .specMix 0 0) ∧
      exec (.commit x col) s = .next (s.faultFiring f .specMix 0 0) ∧
      exec (.kill x col) s = .next (s.faultFiring f .specMix 0 0)) ∧
    exec (.phset x ph false) s = .next (s.emitGroup f (f.group0 x.pm) { f.carry c v with phase := ph }) ∧
    exec (.phset x ph true) s = .next (s.emitGroup f (f.group0 x.pm) { f.carry c v with phase := f.phase + ph }) ∧
    exec (.phwait x ph false) s = .next (s.park f (.phwait ph.toNat)) ∧
    (∀ h, f.a = some h → exec (.phwait x ph true) s = .next (s.park f (.phwait h.tok.phase.toNat)))

/-- DONE counts, DONE.FORCE ends the launch unless something ended it before (R185), and a ticketed arbiter takes requests to 256 and
grants back only what its holder releases (R186). -/
def Obligations.LaunchLevelInstructions : Prop :=
  ∀ (x : FormX) (s : State) (arb : BitVec 3) (arc : BitVec 6), s.RunsPlain x.pm →
    let f := s.cur
    let a := (s.cluster f.cl).arbiter arb.toNat
    exec (.done x) s = .next (s.onLaunch f.launch fun y => { y with doneTally := y.doneTally + 1 }) ∧
    exec (.doneForce x) s = .next (s.onLaunch f.launch fun y =>
      { y with ending := match y.ending with | none => some .forced | some e => some e }) ∧
    (a.fifo.length < 256 → exec (.ticket x arb arc) s =
      .next (s.onCluster f.cl fun c => c.setArbiter arb.toNat { a with fifo := a.fifo ++ [(arc.toNat, f)] })) ∧
    (256 ≤ a.fifo.length → exec (.ticket x arb arc) s = .next (s.park f (.ticket arb.toNat arc.toNat))) ∧
    (∀ g, a.holder = some (arc.toNat, g) → exec (.ticketRelease x arb arc) s =
      .next ((s.onCluster f.cl fun c => c.setArbiter arb.toNat { a with holder := none, released := s.aCycle + 1 }).emit0 f
        x.pm .completion 0)) ∧
    ((∀ g, a.holder ≠ some (arc.toNat, g)) → exec (.ticketRelease x arb arc) s = .next (s.trap f 0x0106))

/-- A fault that is not TRANSLATE's second in one granule makes one record of its kind, detail and address, with the firing's source, and
parks the firing with its operands under it; nothing else changes (R153, R371, R372). -/
def Obligations.FaultParksAndRecords : Prop :=
  ∀ (s : State) (kind : FaultKind) (detail addr : Word) (x : Launch), look s.launches s.cur.launch = some x →
    kind ≠ .translate →
    let f := s.cur
    let t := s.faultFiring f kind detail addr
    (∃ id, (f.opId = some id ∨ f.opId = none) ∧
      (t.launch f.launch).faults = x.faults ++
        [⟨s.serial, 0, kind, detail, addr, s.srcOf f, f.atCommit, 1, .parked, 0, 0, none, 0, [.op id]⟩] ∧
      (t.launch f.launch).parked = x.parked ++ [⟨id, { f with opId := some id }, .fault s.serial, s.aCycle⟩]) ∧
    (t.launch f.launch).still = x.still ∧
    { t with launches := [], serial := 0 } = { s with launches := [], serial := 0 } ∧
    (∀ l, l ≠ f.launch → t.launch l = s.launch l)

/-- A memory instruction whose address its space can name (R207), whose range grants it, whose bytes lie in the range and are aligned,
and, for FECLR and FESET, whose line is tracked, issues one request that latches everything the access needs, and changes nothing else
(R222, R224, R226, R228, R230). The checks made at issue, in their order (R222), for each of these instructions: beyond the address form,
outside the range or against its grants or space PROTECT, then off its width's alignment ALIGN, and FECLR and FESET of a plain line PROTECT;
WCAL makes the first check for one byte (R229). A store, an update and a plain load park; a speculative load answers with the code, and a
coloured load leaves a deferred fault (R26, R223), but for one whose replies are discarded (R185). -/
def Obligations.MemoryIssue : Prop :=
  (
  ∀ (x : FormM) (off : BitVec 24) (aoff : BitVec 14) (cmp : Spec) (s : State) (p : Pattern) (r : Range), s.RunsPlain x.pm →
    let f := s.cur
    let addr := s.opMA f x + off.signExtend 64
    let aaddr := s.opMA f x + aoff.signExtend 64
    let id := f.opId.getD s.serial
    let ok := fun (a : Word) (k : AccKind) (sp : Space) => sp.addrOk a.toNat x.width.bytes = true ∧ r.base ≤ a.toNat ∧ a.toNat + x.width.bytes ≤ r.base + r.len ∧
      r.grants k = true ∧ r.space = sp ∧ a.toNat % x.width.bytes = 0
    let issued := fun (a : Word) (k : AccKind) (sp : Space) (d c : Word) =>
      let q : Req := ⟨id, { f with opId := some id }, k, sp, a.toNat, x.width.bytes, x.range.toNat, x.ty, x.rel, x.spc, d, c, .issued, []⟩
      (Host.Outcome.next { s with serial := s.serial + 1, reqs := s.reqs ++ [q] } : Host.Outcome State Fault Refusal)
    let line := match r.space with
      | .l => some (f.cl, addr.toNat)
      | .n => (s.launch f.launch).panel.place addr.toNat
      | _ => none
    s.pattern f.launch = some p → nth p.ranges x.range.toNat = some r →
    (ok addr .load .l → exec (.ldl x off) s = issued addr .load .l 0 0) ∧
    (ok addr .load .n → exec (.ldn x off) s = issued addr .load .n 0 0) ∧
    (ok addr .load .g → exec (.ldg x off) s = issued addr .load .g 0 0) ∧
    (ok addr .load .w → exec (.ldw x off) s = issued addr .load .w 0 0) ∧
    (ok addr .store .l → exec (.stl x off) s = issued addr .store .l (s.opMB f x) 0) ∧
    (ok addr .store .n → exec (.stn x off) s = issued addr .store .n (s.opMB f x) 0) ∧
    (ok addr .store .g → exec (.stg x off) s = issued addr .store .g (s.opMB f x) 0) ∧
    (∀ cl o, line = some (cl, o) → s.tracked f.launch cl (lineOf o) = true → ok addr .feclr r.space →
      exec (.feclr x off) s = issued addr .feclr r.space 0 0 ∧ exec (.feset x off) s = issued addr .feset r.space 0 0) ∧
    (∀ op, ok aaddr (.amo op) r.space →
      exec (.amol x op cmp aoff) s = issued aaddr (.amo op) r.space (s.opMB f x) (s.opMC f cmp)) ∧
    (∀ op, ok aaddr (.amo op) .g → exec (.amog x op cmp aoff) s = issued aaddr (.amo op) .g (s.opMB f x) (s.opMC f cmp)) ∧
    (∀ op, ok aaddr (.upd op) .g → exec (.updg x op aoff) s = issued aaddr (.upd op) .g (s.opMB f x) 0)) ∧
  (
  ∀ (x : FormM) (off : BitVec 24) (aoff : BitVec 14) (cmp : Spec) (s : State) (p : Pattern) (r : Range), s.Runs x.pm →
    let f := s.cur
    let addr := s.opMA f x + off.signExtend 64
    let aaddr := s.opMA f x + aoff.signExtend 64
    let stop := fun (load : Bool) (k : FaultKind) (a : Word) =>
      if load = true ∧ (x.spc = true ∨ f.colour ≠ 0) then
        if (s.launch f.launch).ending ≠ none then s
        else if x.spc then (s.reply0 f .value 0).reply1 f .completion (BitVec.ofNat 64 k.code)
        else (s.reply0 f .value 0).onStation f.cl f.st fun y => { y with deferred := y.deferred ++ [⟨f, k, 0, a, 0⟩] }
      else s.faultFiring f k 0 a
    let granted := fun (a : Word) (n : Nat) (k : AccKind) (sp : Space) =>
      sp.addrOk a.toNat n = true ∧ r.base ≤ a.toNat ∧ a.toNat + n ≤ r.base + r.len ∧ r.grants k = true ∧ r.space = sp
    let checks := fun (i : Instr) (a : Word) (k : AccKind) (sp : Space) =>
      (¬ granted a x.width.bytes k sp → exec i s = .next (stop (decide (k = .load)) .protect a)) ∧
      (granted a x.width.bytes k sp → a.toNat % x.width.bytes ≠ 0 → exec i s = .next (stop (decide (k = .load)) .align a))
    let plain := ∀ cl o, (r.space = .l ∧ (cl, o) = (f.cl, addr.toNat) ∨
      r.space = .n ∧ (s.launch f.launch).panel.place addr.toNat = some (cl, o)) → s.tracked f.launch cl (lineOf o) = false
    s.pattern f.launch = some p → nth p.ranges x.range.toNat = some r →
    checks (.ldl x off) addr .load .l ∧ checks (.ldn x off) addr .load .n ∧ checks (.ldg x off) addr .load .g ∧
    checks (.ldw x off) addr .load .w ∧
    (¬ granted addr 1 .load .w → exec (.wcal x off) s = .next (stop true .protect addr)) ∧
    (f.colour = 0 →
      checks (.stl x off) addr .store .l ∧ checks (.stn x off) addr .store .n ∧ checks (.stg x off) addr .store .g ∧
      checks (.feclr x off) addr .feclr r.space ∧ checks (.feset x off) addr .feset r.space ∧
      (granted addr x.width.bytes .feclr r.space → addr.toNat % x.width.bytes = 0 → plain →
        exec (.feclr x off) s = .next (s.faultFiring f .protect 0 addr) ∧
        exec (.feset x off) s = .next (s.faultFiring f .protect 0 addr)) ∧
      (∀ op, checks (.amol x op cmp aoff) aaddr (.amo op) r.space ∧ checks (.amog x op cmp aoff) aaddr (.amo op) .g) ∧
      ∀ op, checks (.updg x op aoff) aaddr (.upd op) .g))

/-- WCAL (R229) at a weight address in a W range that it may read: the A-cycles until its group's next window that begins later, the window's length, whether the group
is refreshing, and what is left of its window, or 0. -/
def Obligations.WeightCalendar : Prop :=
  ∀ (x : FormM) (off : BitVec 24) (s : State) (p : Pattern) (r : Range), s.Runs x.pm →
    let f := s.cur
    let a := s.opMA f x + off.signExtend 64
    let g := a.toNat % 2 ^ 28 / 2 ^ 22
    s.pattern f.launch = some p → nth p.ranges x.range.toNat = some r → r.space = .w → r.rd = true →
    a.toNat < 2 ^ 30 → r.base ≤ a.toNat → a.toNat + 1 ≤ r.base + r.len → s.calendar < 100800 →
    ∃ v : Word, exec (.wcal x off) s = .next (s.emitGroup f false (f.carry .value v)) ∧
      (s.calendar + (v.extractLsb' 0 32).toNat) % 100800 = g * 1575 ∧
      0 < (v.extractLsb' 0 32).toNat ∧ (v.extractLsb' 0 32).toNat ≤ 100800 ∧ (v.extractLsb' 32 16).toNat = 1575 ∧
      v.getLsbD 48 = s.refreshing g ∧ (s.refreshing g = false → (v.extractLsb' 49 15).toNat = 0) ∧
      (s.refreshing g = true → s.calendar + (v.extractLsb' 49 15).toNat = g * 1575 + 1575)

/-- The operators of Table 10.6 on w-bit values, the memory value and the operands read under TY (R230), and the old value that AMOL and
AMOG emit. What a load answers (R228): the bytes, sign-extended under i32 and i64 and zero-extended otherwise, formed under TY. -/
def Obligations.AtomicsAndExtension : Prop :=
  (
  ∀ (ty : Ty) (w : Nat) (m : BitVec w) (d k : Word), ty.isInt = true → 0 < w → w ≤ 64 →
    let read := fun (v : Word) => (if isSigned ty then (ty.bits v).signExtend w else (ty.bits v).setWidth w : BitVec w)
    let x := read (m.setWidth 64)
    let y := read d
    let lt := fun (a b : BitVec w) => if isSigned ty then a.slt b else a.ult b
    (w ≤ ty.width → x = m) ∧
    amoNew .swap ty w m.toNat d k = y.toNat ∧
    amoNew .cas ty w m.toNat d k = (if x = read k then y else x).toNat ∧
    amoNew .add ty w m.toNat d k = (x + y).toNat ∧
    amoNew .min ty w m.toNat d k = (if lt y x then y else x).toNat ∧
    amoNew .max ty w m.toNat d k = (if lt x y then y else x).toNat ∧
    updMem .add ty w m.toNat d = (x + y).toNat ∧
    updMem .min ty w m.toNat d = (if lt y x then y else x).toNat ∧
    updMem .max ty w m.toNat d = (if lt x y then y else x).toNat ∧
    updMem .and ty w m.toNat d = (x &&& y).toNat ∧
    updMem .or ty w m.toNat d = (x ||| y).toNat ∧
    updMem .xor ty w m.toNat d = (x ^^^ y).toNat ∧
    amoOld ty w m.toNat = ty.word (x.setWidth _)) ∧
  (
  ∀ (ty : Ty) (n : Nat) (v : BitVec (8 * n)), 0 < n → 8 * n ≤ ty.width →
    loadValue ty n v.toNat = ty.word (if isSigned ty then v.signExtend _ else v.setWidth _))

/-- A request at its cluster-memory bank (R209, R211, R224, R230): a load of a full line answers the bytes extended under TY, a store, an
atomic or an update writes its bytes there, FECLR and FESET set the line's bit, and a load or atomic at an empty line parks. What moves
between two dies is counted (R396). -/
def Obligations.BankPerforms : Prop :=
  ∀ (r : Nat) (q : Req) (cl off : Nat) (s : State), s.req r = some q → q.at_ = .issued →
    (q.space = .l ∧ (cl, off) = (q.firing.cl, q.addr) ∨
      q.space = .n ∧ (s.launch q.firing.launch).panel.place q.addr = some (cl, off)) →
    let empty := (s.cluster cl).lineEmpty (off / 128)
    let bad := s.poisoned (clusterMark cl off) q.bytes
    let old := leNat (s.memRead cl off q.bytes)
    let bits := 8 * q.bytes
    let c := s.clientOf q.firing
    let counted := if q.kind = .load then s.crossing c (cl / 128) (q.firing.cl / 128) q.bytes
      else s.crossing c (q.firing.cl / 128) (cl / 128) q.bytes
    let wrote := fun (v : Nat) (ans : Option Word) => (counted.memWrite cl off (leBytes q.bytes v)).reqDone q ans
    let waits := (s.dropReq q.id).park q.firing (.line cl (off / 128))
    (q.kind = .load → exec (.memoryAccessPerformed r) s = .next (if empty then waits else if bad then s.reqFault q .poison 0
      else counted.reqDone q (some (loadValue q.ty q.bytes old)))) ∧
    (q.kind = .store → exec (.memoryAccessPerformed r) s = .next (wrote q.data.toNat none)) ∧
    (∀ op, q.kind = .amo op → exec (.memoryAccessPerformed r) s = .next (if empty then waits else if bad then s.reqFault q .poison 0
      else wrote (amoNew op q.ty bits old q.data q.cmp) (some (amoOld q.ty bits old)))) ∧
    (∀ op, q.kind = .upd op → exec (.memoryAccessPerformed r) s = .next (wrote (updMem op q.ty bits old q.data) none)) ∧
    (q.kind = .feclr → exec (.memoryAccessPerformed r) s = .next ((s.setLine cl (off / 128) true).reqDone q none)) ∧
    (q.kind = .feset → exec (.memoryAccessPerformed r) s = .next ((s.setLine cl (off / 128) false).reqDone q none))

/-- What a write changes: at a cluster memory exactly its own bytes and their soft-error marks; at local HBM, with the dirty bitmap off,
no byte outside the 64-byte data units that it lies in, and under key 0 exactly its own bytes; no other byte of any memory, and no
register, station, launch or meter (R209, R220). A reply leaves memory as it is: performing a request's end changes no byte (R224). -/
def Obligations.WritesChangeTheirBytes : Prop :=
  (
  ∀ (s : State) (bs : List Byte),
    (∀ cl off, let t := s.memWrite cl off bs
      (∀ pl : Place1, t.byte pl = match pl with
        | .cluster c a => if c = cl ∧ off ≤ a ∧ a < off + bs.length then (nth bs (a - off)).getD 0 else s.byte pl
        | _ => s.byte pl) ∧
      { t with clusters := [], poison := [] } = { s with clusters := [], poison := [] } ∧
      ∀ c, { t.cluster c with mem := [] } = { s.cluster c with mem := [] }) ∧
    ∀ part key pa, (s.part part).dirty.getLsbD 0 = false →
      let t := s.hbmWrite part key pa bs
      (∀ pl : Place1, (∀ a, pl = .hbm a → a / 64 < pa / 64 ∨ (pa + bs.length + 63) / 64 ≤ a / 64) → t.byte pl = s.byte pl) ∧
      (key = 0 → ∀ a, t.byte (.hbm a) = if pa ≤ a ∧ a < pa + bs.length then (nth bs (a - pa)).getD 0 else s.byte (.hbm a)) ∧
      { t with hbm := [], poison := [] } = { s with hbm := [], poison := [] }) ∧
  (
  ∀ (s : State) (q : Req) (d : Option Word) (pl : Place1), (s.reqDone q d).byte pl = s.byte pl)

/-- A store, atomic or update at a home slice whose stack is not retraining (R221, R230, R408), the first of those that wait at its stack
and with no other update to merge with: it is applied under its key and counted, and answered. A G request (R216 to R219, R221, R222,
R399): its walk's faults and its place, a cached translation's place, a load at its home slice, what the portal sends and what is answered,
and a host page that PRI grants or refuses; that a page holds 2^12 bus addresses is the model's choice (log 150).  An atomic or update
takes the portal's lowest free tag, or waits for one, and leaves as Table 16.4 maps it, with its operands; the numbers that stand for the
table's operations are the model's (log 149).  The walk of the three levels of tables (R216, R217), what its leaf names, and checks 4 and 5
of the leaf (R222). -/
def Obligations.GlobalMemorySteps : Prop :=
  (
  ∀ (r : Nat) (q : Req) (pa key : Nat) (s : State), s.req r = some q → q.at_ = .placed (.hbm pa key) → s.stackHeld pa = false →
    s.firstAt q pa = true → s.reqs.filter (s.mergeable q) = [] →
    let c := s.clientOf q.firing
    let bad := s.poisoned pa q.bytes
    let old := leNat (s.hbmRead key pa q.bytes)
    let bits := 8 * q.bytes
    let wrote := fun (v : Nat) => ((s.hbmWrite c.part key pa (leBytes q.bytes v)).meterOf c (dieOf pa) 8 q.bytes).crossing c
      (q.firing.cl / 128) (dieOf pa) q.bytes
    (q.kind = .store → exec (.homeSliceApply r) s = .next ((wrote q.data.toNat).reqDone q none)) ∧
    (∀ op, q.kind = .amo op → exec (.homeSliceApply r) s = .next (if bad then s.reqFault q .poison 0
      else ((wrote (amoNew op q.ty bits old q.data q.cmp)).meterOf c (dieOf pa) 7 q.bytes).reqDone q
        (some (amoOld q.ty bits old)))) ∧
    (∀ op, q.kind = .upd op → exec (.homeSliceApply r) s = .next (if bad then s.reqFault q .poison 0
      else ((wrote (updMem op q.ty bits old q.data)).meterOf c (dieOf pa) 7 q.bytes).reqDone q none))) ∧
  (
  ∀ (r : Nat) (q : Req) (s : State), s.req r = some q →
    let part := (s.launch q.firing.launch).part
    let placed := fun (t : State) (g : GTarget) =>
      ({ t with reqs := t.reqs.filter (fun p => decide (p.id ≠ q.id)) ++ [{ q with at_ := .placed g }] } : State)
    (q.at_ = .issued → q.space = .g →
      ((s.walk part q.addr).1 = .bad → exec (.translationWalk r) s = .next ((s.walk part q.addr).2.reqFault q .translate 0)) ∧
      (∀ k, (s.walk part q.addr).1 = .badKey k →
        exec (.translationWalk r) s = .next ((s.walk part q.addr).2.reqFault q .key (BitVec.ofNat 64 k))) ∧
      (∀ e w b n, (s.walk part q.addr).1 = .leaf e w b n →
        let s1 := (s.walk part q.addr).2
        let wr := (s1.needOf q).w
        (∀ k d, s1.checkLeaf part w (s1.needOf q) = some (k, d) → exec (.translationWalk r) s = .next (s1.reqFault q k d)) ∧
        (s1.checkLeaf part w (s1.needOf q) = none → exec (.translationWalk r) s =
          .next (placed ((s1.touchLeaf part e wr).onCluster q.firing.cl fun c =>
            c.cacheLeaf ⟨part, b, n, Nat.lor w (if wr then 192 else 64)⟩) (leafTarget w b q.addr)))) ∧
      (∀ e, s.cached q = some e → s.checkLeaf e.part e.leaf (s.needOf q) = none →
        exec (.memoryAccessPerformed r) s = .next (placed s (leafTarget e.leaf e.base q.addr)))) ∧
    (∀ pa key, q.at_ = .placed (.hbm pa key) → q.kind = .load → s.stackHeld pa = false → s.firstAt q pa = true →
      s.poisoned pa q.bytes = false →
      ∃ t : State, exec (.memoryAccessPerformed r) s = .next (t.reqDone q (some (loadValue q.ty q.bytes (leNat (s.hbmRead key pa q.bytes))))) ∧
        ∀ pl, t.byte pl = s.byte pl) ∧
    (∀ g w ok data, q.at_ = .sent g w →
      (ok = false → exec (.portalCompletion r ok data) s = .next (s.reqFault q .protect 0)) ∧
      (ok = true → q.kind = .load → exec (.portalCompletion r ok data) s =
        .next ((s.portalMeters q g).reqDone q (some (loadValue q.ty q.bytes (data.toNat % 2 ^ (8 * q.bytes)))))) ∧
      (ok = true → q.kind = .store → exec (.portalCompletion r ok data) s = .next ((s.portalMeters q g).reqDone q none)) ∧
      (∀ op, ok = true → q.kind = .amo op → exec (.portalCompletion r ok data) s =
        .next ((s.portalMeters q g).reqDone q (some (amoOld q.ty (8 * q.bytes) (data.toNat % 2 ^ (8 * q.bytes)))))) ∧
      (∀ op, ok = true → q.kind = .upd op → exec (.portalCompletion r ok data) s = .next ((s.portalMeters q g).reqDone q none))) ∧
    (∀ bus key, q.at_ = .placed (.host bus key) →
      let page := q.firing.cl / 128 * 2 ^ 48 + bus / 2 ^ 12
      exec (.priPageRequest r false) s = .next (s.reqFault q .protect 0) ∧
      exec (.priPageRequest r true) s = .next { s with ats := if page ∈ s.ats then s.ats else s.ats ++ [page] } ∧
      (page ∉ s.ats → exec (.memoryAccessPerformed r) s = .next s)) ∧
    (∀ g, q.at_ = .placed g → (∀ pa key, g ≠ .hbm pa key) → s.mayReach (q.firing.cl / 128) g = true → q.kind = .load ∨ q.kind = .store →
      (s.routeTo q.firing.cl g none = none → exec (.memoryAccessPerformed r) s = .next (s.reqFault q .protect 0)) ∧
      (∀ w s1, s.routeTo q.firing.cl g none = some (w, s1) → exec (.memoryAccessPerformed r) s =
        .next ((s1.sendOut (portalMsg w (portalCode g.isHost q.kind q.ty) g q.bytes q.operands)).putReq { q with at_ := .sent g w }))) ∧
    (∀ g, q.at_ = .placed g → (∀ pa key, g ≠ .hbm pa key) → s.mayReach (q.firing.cl / 128) g = true → q.kind.atomic = true →
      let used := s.tagsUsed (q.firing.cl / 128)
      ((∀ n, n < 4096 → n ∈ used) → exec (.memoryAccessPerformed r) s = .next s) ∧
      (∀ n w s1, n < 4096 → n ∉ used → (∀ j, j < n → j ∈ used) → s.routeTo q.firing.cl g (some n) = some (w, s1) →
        exec (.memoryAccessPerformed r) s =
          .next ((s1.sendOut (portalMsg w (portalCode g.isHost q.kind q.ty) g q.bytes q.operands)).putReq { q with at_ := .sent g w })))) ∧
  (
  ∀ (q : Req) (ty : Ty) (host : Bool) (op : AmoOp) (u : UpdOp),
    let sign := if isSigned ty then 0 else 1
    let word := fun (v : Word) => leBytes q.bytes (atomicWord q.ty (8 * q.bytes) v)
    portalCode host (.amo .swap) ty = 2 ∧ portalCode host (.amo .cas) ty = 3 ∧ portalCode host (.amo .add) ty = 4 ∧
    portalCode false (.amo .min) ty = 5 + sign ∧ portalCode false (.amo .max) ty = 7 + sign ∧
    portalCode true (.upd .add) ty = 4 ∧ portalCode false (.upd .add) ty = 9 ∧
    portalCode false (.upd .min) ty = 10 + sign ∧ portalCode false (.upd .max) ty = 12 + sign ∧
    portalCode false (.upd .and) ty = 14 ∧ portalCode false (.upd .or) ty = 15 ∧ portalCode false (.upd .xor) ty = 16 ∧
    (q.kind = .amo .cas → q.operands = word q.cmp ++ word q.data) ∧
    (q.kind = .amo op → op ≠ .cas → q.operands = word q.data) ∧ (q.kind = .upd u → q.operands = word q.data)) ∧
  ∀ (s : State) (part va : Nat),
    let key := (s.part part).tkey.toNat
    let e := fun (pa : Nat) => leNat (s.hbmRead key pa 8)
    let fld := fun (w lo n : Nat) => w / 2 ^ lo % 2 ^ n
    let pa := fun (w : Nat) => fld w 16 36 * 2 ^ 16
    let next := fun (w size : Nat) => fld w 0 1 = 1 ∧ fld w 4 2 = 0 ∧ fld w 8 8 = 0 ∧ fld w 52 12 = 0 ∧ pa w % size = 0 ∧
      pa w + size ≤ 0x9000000000
    let leaf := fun (w size : Nat) => fld w 0 1 = 1 ∧ fld w 4 1 = 1 ∧ fld w 10 6 = 0 ∧ fld w 8 2 ≠ 3 ∧ pa w % size = 0 ∧
      (fld w 8 2 = 0 → pa w + size ≤ 0x9000000000)
    let ends := fun (a w size : Nat) => (leaf w size → (s.walk part va).1 = .leaf a w (va / size * size) size) ∧
      (¬ leaf w size → (s.walk part va).1 = .bad)
    let root := fld (s.part part).troot.toNat 17 35 * 2 ^ 17
    let e1 := e (root + fld va 43 14 * 8)
    let a2 := pa e1 + fld va 30 13 * 8
    let e2 := e a2
    let a3 := pa e2 + fld va 16 14 * 8
    let group := pa e2 + fld va 16 14 / 32 * 32 * 8
    let size := fun (w : Nat) => if fld w 5 1 = 1 then 2 ^ 21 else 2 ^ 16
    (s.keyOk part key = false → (s.walk part va).1 = .badKey key) ∧
    (s.keyOk part key = true → root < 0x9000000000 →
      (¬ next e1 (2 ^ 16) → (s.walk part va).1 = .bad) ∧
      (next e1 (2 ^ 16) →
        (fld e2 4 1 = 1 → fld e2 5 1 = 0 → ends a2 e2 (2 ^ 30)) ∧
        (fld e2 4 1 = 1 → fld e2 5 1 = 1 → (s.walk part va).1 = .bad) ∧
        (fld e2 4 1 = 0 → ¬ next e2 (2 ^ 17) → (s.walk part va).1 = .bad) ∧
        (next e2 (2 ^ 17) →
          (fld (e a3) 5 1 = 0 → ends a3 (e a3) (2 ^ 16)) ∧
          (fld (e a3) 5 1 = 1 → ∃ a, (a = a3 ∨ ∃ i, i < 32 ∧ a = group + 8 * i) ∧ ends a (e a) (size (e a)))))) ∧
    (∀ w b, leafTarget w b va = if fld w 8 2 = 1 then .peer (fld w 60 4) (fld w 50 10) (fld w 16 34 * 2 ^ 16 + (va - b))
      else if fld w 8 2 = 2 then .host (pa w + (va - b)) (fld w 52 12) else .hbm (pa w + (va - b)) (fld w 52 12)) ∧
    ∀ (w : Nat) (n : Need),
      let short := (n.r = true ∧ fld w 1 1 = 0) ∨ (n.w = true ∧ fld w 2 1 = 0) ∨ (n.x = true ∧ fld w 3 1 = 0) ∨ (n.tgt ≠ 3 ∧ fld w 8 2 ≠ n.tgt)
      (short → s.checkLeaf part w n = some (.protect, 0)) ∧
      (¬ short → fld w 8 2 ≠ 1 → s.checkLeaf part w n =
        if (fld w 8 2 = 2 ∧ fld w 52 12 ≠ 0) ∨ s.keyOk part (fld w 52 12) = false then some (.key, BitVec.ofNat 64 (fld w 52 12)) else none)

/-- A line that is full wakes what waits for it: each is to be performed again as soon as its station can, in the order in which it parked
(R211); and the end of a group's refresh window performs the weight load that waits there, where it is the only request (R214). -/
def Obligations.MemoryWakes : Prop :=
  ∀ (s : State) (cl line l die g : Nat) (x : Launch),
    ((s.cluster cl).lineEmpty line = false → (s.cluster cl).owner = some l → look s.launches l = some x → x.st = .running →
      ∃ t : State, exec (.lineFullWake cl line) s = .next t ∧
        (t.launch l).parked.map (fun p => p.id) = x.parked.map (fun p => p.id) ∧
        (∀ p ∈ x.parked, p.why = .line cl line →
          ({ p with firing := { p.firing with retry := true }, why := .again } : Parked) ∈ (t.launch l).parked) ∧
        (∀ p ∈ (t.launch l).parked, p.why ≠ .line cl line) ∧ { t with launches := [] } = { s with launches := [] }) ∧
    ((s.cluster cl).lineEmpty line = true → exec (.lineFullWake cl line) s = .next s) ∧
    (∀ q, s.reqs = [q] → q.space = .w → q.addr / 2 ^ 28 = die → q.addr % 2 ^ 28 / 2 ^ 22 = g → s.refreshing g = false →
      s.dieReset.getLsbD die = false → s.poisoned (weightMark q.addr) q.bytes = false →
      ∃ t : State, exec (.refreshWindowEnd die g) s =
          .next (t.reqDone q (some (loadValue q.ty q.bytes (leNat (readBytes s.wstore q.addr q.bytes))))) ∧
        ∀ pl, t.byte pl = s.byte pl)

/-- Each knot instruction sends one request to its knot's bank, under its operation number, with what R338 to R344 say it carries, whether
it is a release (R335), and the A-cycle of its firing. KARM reads its 128-byte block first, and faults as a load of it would. -/
def Obligations.KnotRequests : Prop :=
  ∀ (x : FormK) (s : State), s.Runs x.pm →
    let f := s.cur
    let h := s.opKA f x
    let v := s.opKB f x
    let sent := fun (t : State) (h : Word) (op : KnotOp) (rel : Bool) =>
      let id := f.opId.getD t.serial
      let q : KReq := ⟨id, { f with opId := some id }, h, op, rel, none, t.aCycle⟩
      ({ t with serial := t.serial + 1, kreqs := t.kreqs ++ [q] } : State)
    let rel := decide (x.order = .release)
    exec (.kwait x) s = .next (sent s h (.wait v) false) ∧ exec (.kread x) s = .next (sent s h .read false) ∧
    (f.colour = 0 →
      exec (.kadd x) s = .next (sent s h (.add v (if x.sc = .zero then none else some (s.opKC f x))) rel) ∧
      exec (.klimit x) s = .next (sent s h (.limit v) false) ∧
      exec (.kalloc x) s = .next (sent s Sys2Proof.Machine.noKnot .alloc false) ∧
      exec (.kfree x) s = .next (sent s h .free false) ∧
      (let a := s.opKC f x
       (a.toNat % 128 ≠ 0 → exec (.karm x) s = .next (s.faultFiring f .align 0 a)) ∧
       (∀ bs t, a.toNat % 128 = 0 → a.toNat < 2 ^ 57 → s.gRead (s.clientOf f) a.toNat 128 Need.read = (.ok bs, t) →
         exec (.karm x) s = .next (sent t (t.opKA f x) (.arm (t.opKB f x) (wordsOf bs)) rel))))

/-- The add of R338: VALUE grows by the amount unless that would pass LIMIT, LIMIT 0 standing for 2^64 − 1; DATA is replaced when the add
carries one; an armed trigger whose value is reached is disarmed in the same step (R343). A request at its bank (R332, R333, R336, R338 to
R344), when no earlier one of its station to the bank is pending and every write that it captured is performed: KADD, KWAIT, KREAD and
KLIMIT of a knot within reach, KALLOC, KFREE and KARM, each with its reply, its fault or its TRAP. A release makes its sweep first, in an
A-cycle after that of its firing (R359), all at one instant (log 33). That a target which is armed already is 0x0702 before a block that is
not allowed is 0x0706 is log 52, and that a request counts 16 bytes for each die edge is log 32. -/
def Obligations.KnotBankApplies : Prop :=
  (
  ∀ (s : State) (key n : Nat) (d : Option Word),
    let k := s.knot key
    let limit := if k.limit = 0 then 2 ^ 64 - 1 else k.limit.toNat
    (limit < k.value.toNat + n → s.knotAdd key n d = none) ∧
    (k.value.toNat + n ≤ limit → ∃ t, s.knotAdd key n d = some t ∧
      (t.knot key).value.toNat = k.value.toNat + n ∧ (t.knot key).data = d.getD k.data ∧ (t.knot key).limit = k.limit ∧
      (t.knot key).waiters = k.waiters ∧ (t.knot key).armed = (k.armed && decide (k.value.toNat + n < k.tv.toNat)) ∧
      (∀ j, j ≠ key → t.knot j = s.knot j) ∧
      ∀ c, { t.cluster c with dir := [], triggers := [], fired := [] } = { s.cluster c with dir := [], triggers := [], fired := [] })) ∧
  (
  ∀ (r : Nat) (q : KReq) (s : State), s.kreqs.find? (fun p => decide (p.id = r)) = some q →
    (s.launch q.firing.launch).knotsLive = true → (q.release = true → q.captured ≠ none) → s.behind q = false →
    s.allPerformed q.firing.launch (q.captured.getD []) = true →
    let f := q.firing
    let key := q.handle.toNat % 2 ^ 21
    let die := key / 2 ^ 12 / 128
    let s1 := ((s.dropKreq q.id).meter f.launch die 15 1).crossing (s.clientOf f) (f.cl / 128) die knotBytes
    let k := s1.knot key
    let done := fun (t : State) (v : Word) => exec (.knotBankApply r) s = .next (t.knotReply f false .completion v)
    let trap := fun (c : Nat) => exec (.knotBankApply r) s = .next (s1.trap f c)
    let both := (s1.knotReply f false .value k.value).knotReply f true .value k.data
    (q.op ≠ .alloc → s1.reaches f.launch q.handle = false → exec (.knotBankApply r) s = .next (s1.faultFiring f .knotHandle q.handle 0)) ∧
    (s1.reaches f.launch q.handle = true →
      (∀ n d, q.op = .add n d →
        (s1.knotAdd key n.toNat d = none → exec (.knotBankApply r) s = .next (s1.faultFiring f .knotLimit q.handle 0)) ∧
        (∀ t, s1.knotAdd key n.toNat d = some t → done t (t.knot key).value)) ∧
      (∀ v, q.op = .wait v → v.toNat ≤ k.value.toNat → exec (.knotBankApply r) s = .next both) ∧
      (∀ v, q.op = .wait v → k.value.toNat < v.toNat → ∃ (t : State) (dir : Bool),
        exec (.knotBankApply r) s = .next (t.park f (.kwait q.handle.toNat v.toNat dir)) ∧ (t.knot key).waiters = k.waiters + 1) ∧
      (q.op = .read → exec (.knotBankApply r) s = .next both) ∧
      (∀ v, q.op = .limit v → (k.value = 0 → done (s1.setKnot key { k with limit := v }) 0) ∧ (k.value ≠ 0 → trap 0x0701)) ∧
      (q.op = .free → ∀ j, s1.poolIndex f.launch q.handle = some j →
        (j ∈ (s1.launch f.launch).poolOut → k.waiters = 0 → k.armed = false →
          done (s1.onLaunch f.launch fun y => { y with poolOut := y.poolOut.filter fun i => decide (i ≠ j) }) 0) ∧
        (j ∉ (s1.launch f.launch).poolOut → trap 0x0705)) ∧
      (∀ v b, q.op = .arm v b → (k.armed = true → trap 0x0702) ∧
        (k.armed = false → triggerBlockOk b k.opart.toNat = false → trap 0x0706) ∧
        (∀ n, k.armed = false → triggerBlockOk b k.opart.toNat = true → freeRecord (s1.cluster (key / 2 ^ 12)).triggers = some n →
          let rec_ : Trigger := ⟨n, key, k.opart.toNat, b.take 8, wordAt b 8, none, if k.owner = .pool then some f.launch else none⟩
          done (((s1.setKnot key { k with tv := v, armed := true, tslot := BitVec.ofNat 8 n }).onCluster (key / 2 ^ 12) fun c =>
            { c with triggers := c.triggers ++ [rec_] }).fireTrigger key) 0))) ∧
    (q.op = .alloc →
      let l := s1.launch f.launch
      let n := ((s1.pattern f.launch).map Pattern.knots).getD 0
      let free := (countFrom 0 n).find? fun j => decide (j ∉ l.poolTaken ∧ j ∉ l.poolOut)
      (free = none → trap 0x0703) ∧
      ∀ j, free = some j →
        let fresh : Knot := { Knot.blank with owner := .pool, opart := BitVec.ofNat 6 l.part, opanel := BitVec.ofNat 10 l.panel.home }
        exec (.knotBankApply r) s = .next (((s1.setKnot (l.panel.poolKey j) fresh).onLaunch f.launch fun y =>
          { y with poolOut := y.poolOut ++ [j] }).knotReply f false .value (handleOf l.part (l.panel.poolKey j))))) ∧
  (
  ∀ (r : Nat) (q : KReq) (s : State), s.kreqs.find? (fun p => decide (p.id = r)) = some q →
    (s.launch q.firing.launch).knotsLive = true → q.release = true → q.captured = none →
    (q.cyc < s.aCycle → exec (.knotBankApply r) s = .next { s with kreqs := s.kreqs.map fun p =>
      if p.id = q.id then { q with captured := some (s.capture q.firing q.handle) } else p }) ∧
    (s.aCycle ≤ q.cyc → exec (.knotBankApply r) s = .next s))

/-- Waiters and triggers (R339, R343): a notification releases the waiters of its cluster that the value meets, a polling waiter is
released when a re-read finds its threshold met, and a fired packet without a queue goes to the copy engine of its knot's cluster, reaching
the pool knots of the panel that armed it (R333). The knot window of a partition (R346, R363): a write of +0 of a standing knot of its own
is an add, one that would fault sets KNOTERR, a write of +16 sets LIMIT while VALUE is 0, and a read answers VALUE, DATA, LIMIT or ARMED
with WAITERS; any other knot ignores a write and reads 0 (log 60), one on a die that is held in reset among them (log 166). -/
def Obligations.WaitersTriggersAndWindow : Prop :=
  (
  ∀ (s : State) (cl kn l p : Nat),
    (∀ d v dat w t, (s.cluster (kn / 2 ^ 12)).dir = [d] → d.knot = kn → d.cl = cl → d.sent = some (v, dat) →
      s.waitersAt cl kn = [(l, w, t)] → (s.releaseWaiter l w kn v dat).waitersAt cl kn = [] → t ≤ v.toNat →
      ∃ u : State, exec (.waiterDirectoryNotify cl kn) s = .next (u.notify kn) ∧ (u.cluster (kn / 2 ^ 12)).dir = [] ∧
        { u with clusters := [] } = { s.releaseWaiter l w kn v dat with clusters := [] }) ∧
    (∀ d, (s.cluster (kn / 2 ^ 12)).dir.find? (fun d => decide (d.knot = kn ∧ d.cl = cl)) = some d → d.sent = none →
      exec (.waiterDirectoryNotify cl kn) s = .next s) ∧
    (∀ w h v, (s.launch l).saved = none → (s.launch l).parked.find? (fun w => decide (w.id = p)) = some w → w.why = .kwait h v false →
      let key := h % 2 ^ 21
      h < 2 ^ 64 →
      exec (.pollingWaiterReread l p) s = .next (if v ≤ (s.knot key).value.toNat
        then s.releaseWaiter l w key (s.knot key).value (s.knot key).data else s)) ∧
    (∀ t rest, (s.cluster cl).fired = t :: rest → t.queue = 0 →
      (s.popFired cl).packetError t.part (t.owner.filter fun l => (look s.launches l).isSome) t.packet = none →
      ∃ u : State, exec (.triggerEngineIssue cl) s = .next u ∧ (u.cluster cl).fired = rest ∧
        (u.cluster cl).copy.queued = (s.cluster cl).copy.queued ++
          [{ packetOf s.serial ⟨none, t.part, cl, true⟩ none t.packet with reach := t.owner }] ∧
        u.serial = s.serial + 1) ∧
    (∀ t rest, (s.cluster cl).fired = t :: rest → t.queue ≠ 0 → enabledIn (s.part t.part).lq t.queue.toNat = false →
      enabledIn (s.part t.part).cq t.queue.toNat = false →
      ∃ u : State, exec (.triggerEngineIssue cl) s = .next u ∧ (u.cluster cl).fired = rest ∧ (u.part t.part).trigerr = true)) ∧
  (
  ∀ (part off : Nat) (v : Word) (s : State),
    let key := off / 2 ^ 24 % 4 * 2 ^ 19 + off / 2 ^ 17 % 128 * 2 ^ 12 + off / 32 % 4096
    let s1 := s.meterPart part (key / 2 ^ 12 / 128) 15 1
    let k := s.knot key
    let own := s.isStanding part (handleOf part key) && !s.dieReset.getLsbD (key / 2 ^ 19)
    (own = true →
      (off % 32 = 0 →
        (∀ t, s1.knotAdd key v.toNat none = some t → exec (.knotWindowAdd part off v) s = .next t) ∧
        (s1.knotAdd key v.toNat none = none →
          exec (.knotWindowAdd part off v) s = .next (s1.onPart part fun p => { p with knoterr := true }))) ∧
      (off % 32 = 16 →
        exec (.knotWindowSetLimit part off v) s = .next (if k.value = 0 then s1.setKnot key { k with limit := v }
          else s1.onPart part fun p => { p with knoterr := true })) ∧
      (off % 8 = 0 →
        let read : Word := if off % 32 = 0 then k.value else if off % 32 = 8 then k.data else if off % 32 = 16 then k.limit
          else (if k.armed then 1 else 0) ||| (k.waiters.setWidth 64 <<< 16)
        exec (.knotWindowAcquire part off) s = .next { s1 with outbox := s.outbox ++ [leBytes 8 read.toNat] })) ∧
    (own = false →
      exec (.knotWindowAdd part off v) s = .next s ∧ exec (.knotWindowSetLimit part off v) s = .next s ∧
      exec (.knotWindowAcquire part off) s = .next { s1 with outbox := s.outbox ++ [leBytes 8 0] }))

/-- Each member of the copy family, within the limits of Table 11.4, puts one packet with the fields that the table gives at the end of
its cluster's copy FIFO, and makes the tracked lines that it covers empty (R210, R243, R244). A YB swatch's scale plane is a second run.
What stops each member at its issue (R68, R215, R244), in this order: a handle with a reserved bit, rows or an extent out of range, and a
destination in the weight store. -/
def Obligations.CopyCommandsEnter : Prop :=
  (
  ∀ (x : FormE) (ord : Bool) (s : State), s.RunsPlain x.pm →
    let f := s.cur
    let w1 := s.swatch f.launch x.sw1.toNat
    let w2 := s.swatch f.launch x.sw2.toNat
    let a := (s.opEA f x).toNat
    let b := (s.opEB f x).toNat
    let c := s.clientOf f
    let entered := fun (op sop : Nat) (w1 : Swatch) (runs covers : List CopyRun) (lim : Option Nat) (aux : Nat) =>
      let id := f.opId.getD s.serial
      let cover := s.coverLines c w2.space covers
      let pk : CopyPk := ⟨id, some { f with opId := some id }, none, c, f.st + 1, op, sop, w1.space, w2.space, runs, some w1.range,
        some w2.range, lim, aux, f.knotOf x, s.addOf f x, x.og0, ord, false, [], 0, 0, 0, 0, [], cover, [], none, none, none⟩
      (Host.Outcome.next { (s.setLines cover true).onCluster f.cl (fun k => { k with copy := { k.copy with fifo := k.copy.fifo ++ [pk] } })
        with serial := s.serial + 1 } : Host.Outcome State Fault Refusal)
    let scale := fun (srow drow dblock rows : Nat) => if w1.elem = 6 ∨ w1.elem = 7
      then [(⟨w1.scale + srow * w1.scaleBytes, w2.scale + drow * w2.scaleBytes + 2 * dblock, rows, w1.scaleBytes, w1.scaleBytes,
        w2.scaleBytes⟩ : CopyRun)] else []
    let row0 := a % 2 ^ 24
    let n := a / 2 ^ 24 % 2 ^ 24
    badHandle (f.knotOf x) = false → w2.space ≠ .w →
    (w1.kind = .region → a < w1.length → b + w1.length - a ≤ w2.length →
      let rs : List CopyRun := [⟨w1.base + a, w2.base + b, 1, w1.length - a, 0, 0⟩]
      exec (.copy x ord) s = entered 0 0 w1 rs rs none 0) ∧
    (w1.kind ≠ .region → a = 0 → b = 0 →
      let rs := ⟨w1.base, w2.base, w1.rows, w1.rowBytes, w1.stride, w2.stride⟩ :: scale 0 0 0 w1.rows
      exec (.copy x ord) s = entered 0 0 w1 rs rs none 0) ∧
    (row0 + n ≤ w1.rows → b + n ≤ w2.rows →
      let rs := ⟨w1.base + row0 * w1.stride, w2.base + b * w2.stride, n, w1.rowBytes, w1.stride, w2.stride⟩ :: scale row0 b 0 n
      exec (.copyr x ord) s = entered 1 0 w1 rs rs none 0) ∧
    (let rs : List CopyRun := [if w2.kind = .region then ⟨0, w2.base, 1, w2.length, 0, 0⟩
       else ⟨0, w2.base, w2.rows, w2.rowBytes, 0, w2.stride⟩]
     exec (.fill x ord) s = entered 2 0 w2 rs rs none (a % 2 ^ 32)) ∧
    (b ≤ w2.rows → a + 4 * b ≤ 2 ^ 20 →
      let rs : List CopyRun := [⟨w1.base, w2.base, b, w2.rowBytes, w1.stride, w2.stride⟩]
      exec (.gathr x ord) s = entered 3 0 w1 rs rs (some w1.rows) a) ∧
    (b ≤ w1.rows → a + 4 * b ≤ 2 ^ 20 →
      let rs : List CopyRun := [⟨w1.base, w2.base, b, w1.rowBytes, w1.stride, w2.stride⟩]
      let all : List CopyRun := [⟨0, w2.base, w2.rows, w2.rowBytes, 0, w2.stride⟩]
      exec (.scatr x ord) s = entered 4 0 w1 rs all (some w2.rows) a ∧
      exec (.scatrAdd x ord) s = entered 5 (if x.ty = .i64 then 1 else if x.ty = .f32 then 2 else 0) w1 rs all (some w2.rows) a) ∧
    (row0 + w1.rows ≤ w2.rows → n + w1.cols ≤ w2.cols → (w1.yb = true → n % 32 = 0) →
      let rs := ⟨w1.base, w2.base + row0 * w2.stride + n * elemBits w1.elem / 8, w1.rows, w1.rowBytes, w1.stride, w2.stride⟩ ::
        scale 0 row0 (n / 32) w1.rows
      exec (.overlay x ord) s = entered 6 0 w1 rs rs none 0)) ∧
  (
  ∀ (x : FormE) (ord : Bool) (s : State), s.RunsPlain x.pm →
    let f := s.cur
    let w1 := s.swatch f.launch x.sw1.toNat
    let w2 := s.swatch f.launch x.sw2.toNat
    let a := (s.opEA f x).toNat
    let b := (s.opEB f x).toNat
    let row0 := a % 2 ^ 24
    let n := a / 2 ^ 24 % 2 ^ 24
    let bad : Host.Outcome State Fault Refusal := .next (s.faultFiring f .knotHandle (f.knotOf x) 0)
    let trap := fun (c : Nat) => (Host.Outcome.next (s.trap f c) : Host.Outcome State Fault Refusal)
    let window := fun (at_ : Nat) =>
      (Host.Outcome.next (s.faultFiring f .weightWindow 0 (BitVec.ofNat 64 at_)) : Host.Outcome State Fault Refusal)
    let whole := if w1.kind = .region then a < w1.length ∧ b + w1.length - a ≤ w2.length else a = 0 ∧ b = 0
    let rows := row0 + n ≤ w1.rows ∧ b + n ≤ w2.rows
    let list := fun (most : Nat) => b ≤ most ∧ a + 4 * b ≤ 2 ^ 20
    let laid := row0 + w1.rows ≤ w2.rows ∧ n + w1.cols ≤ w2.cols ∧ (w1.yb = true → n % 32 = 0)
    (badHandle (f.knotOf x) = true →
      exec (.copy x ord) s = bad ∧ exec (.copyr x ord) s = bad ∧ exec (.fill x ord) s = bad ∧ exec (.gathr x ord) s = bad ∧
      exec (.scatr x ord) s = bad ∧ exec (.scatrAdd x ord) s = bad ∧ exec (.overlay x ord) s = bad) ∧
    (badHandle (f.knotOf x) = false →
      (¬ whole → exec (.copy x ord) s = trap 0x0201) ∧ (¬ rows → exec (.copyr x ord) s = trap 0x0201) ∧
      (¬ list w2.rows → exec (.gathr x ord) s = trap 0x0202) ∧
      (¬ list w1.rows → exec (.scatr x ord) s = trap 0x0202 ∧ exec (.scatrAdd x ord) s = trap 0x0202) ∧
      (¬ laid → exec (.overlay x ord) s = trap 0x0201) ∧
      (w2.space = .w →
        (whole → exec (.copy x ord) s = window (if w1.kind = .region then w2.base + b else w2.base)) ∧
        (rows → exec (.copyr x ord) s = window (w2.base + b * w2.stride)) ∧
        exec (.fill x ord) s = window w2.base ∧
        (list w2.rows → exec (.gathr x ord) s = window w2.base) ∧
        (list w1.rows → exec (.scatr x ord) s = window w2.base ∧ exec (.scatrAdd x ord) s = window w2.base) ∧
        (laid → exec (.overlay x ord) s = window (w2.base + row0 * w2.stride + n * elemBits w1.elem / 8)))))

/-- SPAWN and CQPUSH join the spawn slot's queue when the address is the header of an enabled launch or copy queue of their partition, and
trap otherwise (R184, R245). -/
def Obligations.SpawnCommandsEnter : Prop :=
  ∀ (x : FormE) (seed : Bool) (patch : CqPatch) (s : State), s.RunsPlain x.pm →
    let f := s.cur
    let p := s.part (s.launch f.launch).part
    let id := f.opId.getD s.serial
    let cmd : SpawnCmd := ⟨{ f with opId := some id }, 0, [], 0, [], none⟩
    let entered := (Host.Outcome.next { s.onCluster f.cl (fun k => { k with copy := { k.copy with spawn := k.copy.spawn ++ [cmd] } })
        with serial := s.serial + 1 } : Host.Outcome State Fault Refusal)
    badHandle (f.knotOf x) = false →
    ((∃ e ∈ p.lq, e.2.getLsbD 0 = true ∧ e.2.toNat / 64 * 64 = (s.opEB f x).toNat) → exec (.spawn x seed) s = entered) ∧
    ((∀ e ∈ p.lq, e.2.getLsbD 0 = true → e.2.toNat / 64 * 64 ≠ (s.opEB f x).toNat) →
      exec (.spawn x seed) s = .next (s.trap f 0x0104)) ∧
    ((∃ e ∈ p.cq, e.2.getLsbD 0 = true ∧ e.2.toNat / 64 * 64 = (s.opEA f x).toNat) → exec (.cqpush x patch) s = entered) ∧
    ((∀ e ∈ p.cq, e.2.getLsbD 0 = true → e.2.toNat / 64 * 64 ≠ (s.opEA f x).toNat) →
      exec (.cqpush x patch) s = .next (s.trap f 0x0204))

/-- The copy engine's steps (R234, R237, R240, R242): with one thing to do it does it; an ordering token is kept; a packet whose writes
are all performed fills the lines it covers, leaves the engine and makes its knot add and its token. A copy queue's next packet (R114,
R234, R239): in its queue's turn, published and VALID, it is taken, its slot's word 0 cleared and READ moved on, and the engine performs it
or refuses it; the steps of SPAWN and CQPUSH read the template, claim, wait for room, publish, and then add and answer (R184); a weight-load
command of an image joins its engine's packets, or, over a W range in use, sets WLERR and WLADDR, after which no command of that load is
issued (R215). -/
def Obligations.CopyEngineSteps : Prop :=
  (
  ∀ (s : State) (cl k p : Nat),
    (∀ a, s.copyActs cl = [a] →
      exec (.copyPacketStart cl) s = .next ({ s with freeCtr := s.freeCtr + 1 }.copyAct cl a)) ∧
    (s.copyActs cl = [] → exec (.copyPacketStart cl) s = .next s) ∧
    (∀ a inst, s.arrivalAt cl k = some a → a.out.eng = some (1, inst, 1) →
      exec (.copyOrdToken cl k) s = .next ((s.dropArrival cl k).onCluster cl fun c =>
        { c with copy := { c.copy with ord := c.copy.ord ++ [a.out.tok] } })) ∧
    (∀ pk, (s.cluster cl).copy.active.find? (fun q => decide (q.id = p)) = some pk → pk.finished = true → pk.parked = none →
      (s.cluster cl).copy.holds pk = false → (s.enginesRun cl = true ∨ pk.sched ≠ none) →
      let full := { pk with cover := [] }
      let s1 := (s.setLines pk.cover false).onCluster cl fun c => ({ c with copy := c.copy.finish full } : Cluster).storeImage full
      let r := s1.engineAdd (cl / 128) (s.packetReach full) pk.client.part pk.knot pk.add
      (s1.cluster cl).copy.active.all (fun q => decide (q.id ≠ pk.id)) = true ∧
      (r.1 = .done → exec (.copyPacketPerformed cl p) s = .next (match pk.firing with
        | some f => if pk.token then r.2.engineReply f false .completion 0 else r.2
        | none => r.2)))) ∧
  (
  ∀ (s : State) (part q cl image load : Nat) (v : Word) (h : QueueHdr) (w : List Word),
    let pt := s.part part
    let a := v.toNat / 64 * 64
    let c : Client := ⟨none, part, h.recbase, false⟩
    (look pt.cq q = some v → look pt.cqHdr q = some h → pt.enable = true → v.getLsbD 0 = true → s.published h = false →
      s.enginesRun h.recbase = true → s.enginesHalt h.recbase = false → (s.cluster h.recbase).copy.room = true →
      s.nextSource h.recbase = some (2 + part * 16 + q) → ∀ pkt s1 s2,
      s.queuePeek c a h.read h.log2 = (some pkt, s1) → s1.queueTake c a h.read h.log2 pkt = .ok (pkt, s2) →
      let s3 := (s2.onPart part fun x => { x with cqHdr := put x.cqHdr q { h with read := h.read + 1 } }).onCluster h.recbase fun k =>
        { k with copy := { k.copy with turn := 2 + part * 16 + q } }
      let pk := packetOf s3.serial { c with counts := true } (some (part, q, h.read)) pkt
      (∀ code, s3.packetError part none pkt = some code →
        exec (.copyQueuePacket part q) s = .next (s3.copyQueueError c a h.read code pkt)) ∧
      (s3.packetError part none pkt = none →
        let cover := if pk.op = 4 ∨ pk.op = 5 then [] else s3.coverLines pk.client pk.dspace pk.runs
        exec (.copyQueuePacket part q) s = .next { (s3.setLines cover true).onCluster h.recbase (fun k =>
          { k with copy := { k.copy with active := k.copy.active ++ [{ pk with cover := cover }] } }) with serial := s3.serial + 1 })) ∧
    (∀ (cmd : SpawnCmd) (rest : List SpawnCmd) (x : FormE) (seed : Bool) (patch : CqPatch) (ring : Nat) (packet : List Word),
      (s.cluster cl).copy.spawn = cmd :: rest → cmd.parked = none → s.enginesRun cl = true → s.enginesHalt cl = false →
      let f := cmd.firing
      let me := s.clientOf f
      let tmpl := wordsOf cmd.tmpl
      let low := fun (n k : Nat) (v : Word) => setNth tmpl n (BitVec.ofNat 64 ((wordAt tmpl n).toNat / 2 ^ k * 2 ^ k + v.toNat % 2 ^ k))
      (f.Is (.spawn x seed) ∧ ring = (s.opEB f x).toNat ∧ packet = (if seed then low 7 40 (s.opEA f x) else tmpl) ∨
        f.Is (.cqpush x patch) ∧ ring = (s.opEA f x).toNat ∧ packet = (match patch with
          | .none => tmpl
          | .src => low 1 57 (s.opEB f x)
          | .dst => low 2 57 (s.opEB f x))) →
      let w := s.swatch f.launch x.sw1.toNat
      let go := exec (.spawnSlotStep cl) s
      let put := fun (t : State) (n : SpawnCmd) => (Host.Outcome.next (t.onCluster cl fun k =>
        { k with copy := { k.copy with spawn := n :: k.copy.spawn.drop 1 } }) : Host.Outcome State Fault Refusal)
      (cmd.step = 0 → ∀ as_ t,
        s.accsStep me (if cmd.accs = [] then readsAt w.space (some w.range) w.base 64 else cmd.accs) = .moved as_ t →
        go = put t (if allDone as_ then { cmd with step := 1, tmpl := gotOf as_, accs := [] } else { cmd with accs := as_ })) ∧
      (cmd.step = 1 → (f.Is (.spawn x true) ∧ (wordAt tmpl 0).getLsbD 8 = true →
          go = .next (s.parkSpawn cl { cmd with step := 0 } .trap 0x0105 0)) ∧
        (¬ (f.Is (.spawn x true) ∧ (wordAt tmpl 0).getLsbD 8 = true) → ∀ bs s1 s2, s.gRead me ring 8 ⟨true, true, false, 3⟩ = (.ok bs, s1) →
          s1.gWrite me ring (leBytes 8 (leNat bs + 1)) ⟨true, true, false, 3⟩ = .ok s2 →
          go = put s2 { cmd with step := 2, index := leNat bs })) ∧
      (cmd.step = 2 → ∀ rd w3 s1 s2, s.gRead me (ring + 16) 8 Need.read = (.ok rd, s1) →
        s1.gRead me (ring + 24) 8 Need.read = (.ok w3, s2) →
        let room := (BitVec.ofNat 64 cmd.index - BitVec.ofNat 64 (leNat rd)).toNat < ringSize (leNat w3 % 16)
        (room → go = put s2 { cmd with step := 3 }) ∧ (¬ room → go = .next s2)) ∧
      (cmd.step = 3 → ∀ w3 kn s1 s2 s3 s4 u, s.gRead me (ring + 24) 8 Need.read = (.ok w3, s1) →
        let slot := ring + 64 + cmd.index % ringSize (leNat w3 % 16) * 64
        let w0 := (wordAt packet 0).toNat % 2 ^ 63
        s1.gWrite me slot (bytesOf (BitVec.ofNat 64 w0 :: packet.drop 1)) Need.write = .ok s2 →
        s2.gWrite me slot (leBytes 8 (w0 + 2 ^ 63)) Need.write = .ok s3 →
        s3.gRead me (ring + 8) 8 Need.read = (.ok kn, s4) →
        s4.engineAdd (f.cl / 128) (some f.launch) (s.launch f.launch).part (BitVec.ofNat 64 (leNat kn)) 1 = (.done, u) →
        go = put u { cmd with step := 4 }) ∧
      (cmd.step = 4 → ∀ u,
        (s.onCluster cl fun k => { k with copy := { k.copy with spawn := k.copy.spawn.drop 1 } }).engineAdd (cl / 128) (some f.launch)
          (s.launch f.launch).part (f.knotOf x) (s.addOf f x) = (.done, u) →
        go = .next (u.engineReply f false .value (BitVec.ofNat 64 cmd.index)))) ∧
    ((image, load) ∉ pt.wrefused → weightPacketOk part w = true → cl < 512 →
      let pk := { packetOf s.serial ⟨none, part, cl, true⟩ none w with sched := some (.weight image load) }
      (s.weightClash pk = true → exec (.weightLoadCommand part image load cl w) s = .next (s.onPart part fun x => { x with
        wlerr := true, wladdr := if x.wlerr then x.wladdr else (wordAt w 2).setWidth 57 |>.setWidth 64,
        wrefused := union x.wrefused [(image, load)] })) ∧
      (s.weightClash pk = false → exec (.weightLoadCommand part image load cl w) s = .next { s.onCluster cl (fun k =>
        { k with copy := { k.copy with queued := k.copy.queued ++ [pk] } }) with serial := s.serial + 1 })) ∧
    ((image, load) ∈ pt.wrefused → exec (.weightLoadCommand part image load cl w) s = .next s))

/-- A tensor instruction's firing sends one command, the firing itself with its number, to the back of its cluster's FIFO, and changes
nothing else (R249, R251). -/
def Obligations.TensorCommandsEnter : Prop :=
  ∀ (x : FormT) (fn : ActFn) (s : State), s.RunsPlain x.pm →
    let f := s.cur
    let t := { s.onUnit f.cl (fun u => { u with fifo := u.fifo ++ [{ f with opId := some (f.opId.getD s.serial) }] }) with
      serial := s.serial + 1 }
    exec (.tshape x) s = .next t ∧ exec (.trdsh x) s = .next t ∧ exec (.tld x) s = .next t ∧ exec (.tst x) s = .next t ∧
    exec (.tzeroTile x) s = .next t ∧ exec (.tzeroAcc x) s = .next t ∧ exec (.tzeroCarry x) s = .next t ∧ exec (.tmma x) s = .next t ∧
    exec (.tadd x) s = .next t ∧ exec (.tmul x) s = .next t ∧ exec (.tscale x) s = .next t ∧ exec (.tact x fn) s = .next t ∧
    exec (.tredSum x) s = .next t ∧ exec (.tredMax x) s = .next t ∧ exec (.tqnt x) s = .next t ∧ exec (.tdq x) s = .next t ∧
    exec (.tcvt x) s = .next t ∧ exec (.ttrn x) s = .next t ∧ exec (.trow x) s = .next t ∧ exec (.trowStr x) s = .next t ∧
    exec (.tscan x) s = .next t ∧ exec (.tcarrySave x) s = .next t ∧ exec (.tcarryLoad x) s = .next t ∧ exec (.tmovq x) s = .next t

/-- What a tensor unit does when the only thing open to it is its current command, which works on registers (R249, R256, R258, R263 to
R269): the shape that TSHAPE sets or its BAD_SHAPE trap, the word that TRDSH emits (an unset shape gives 0, log 172), what TZERO clears,
the elements of TADD, TMUL, TSCALE, TACT, TRED, TQNT, TDQ, TCVT and TMOVQ with the flags of them all, and the traps and waits of a command
that reads a tile. A token at `tensor.rowN` traps (R253, R254; an unset FE before a bad handle is log 170), waits as a remnant entry while
its row is full or another token's, takes a TENSION fault where it finds no entry, or starts its row's write; in a freeze one that would
take that fault stays in flight (R24, R255). The released TSCAN becomes the current command (R274); and a unit's output row enters its
circuit word by word (R262). -/
def Obligations.TensorUnitPerforms : Prop :=
  (
  ∀ (s : State) (cl l : Nat) (r : TRun), s.ownerOf cl = some l → (s.launch l).engines = true → s.unitActs cl = [.command] →
    (s.unit cl).cur = some r →
    let f := r.firing
    let u := s.unit cl
    let s1 : State := { s with freeCtr := s.freeCtr + 1 }
    let ends := fun (v : TensorUnit) (e : Exc) => ((s1.onUnit cl fun _ => v).unitFlags cl e).endCommand cl f .completion 0
    let traps := fun (d : Nat) => exec (.tensorCommandPerform cl) s = .next (s1.parkCommand cl r .trap (BitVec.ofNat 64 d) 0)
    let orOf := fun (m : List (List Exc)) => m.foldl (fun e row => row.foldl (fun e p => e ||| p) e) 0
    ∀ (x : FormT) (fn : ActFn),
      let ha := u.shape x.ta.val
      let hb := u.shape x.tb.val
      let code := codeOf x.ty
      let cvt := if x.flg.getLsbD 3 then 8 else code
      let reads := fun (h : Sys2Proof.Machine.Shape) (t : Nat) => h.set = true ∧ u.allFull t = true
      let gives := fun (h : Sys2Proof.Machine.Shape) (g : Nat → Nat → FRes) =>
        let cells := (countFrom 0 h.rows).map fun i => (countFrom 0 h.cols).map fun j => g i j
        (h.legal = false → traps (0x0304 + x.td.val * 2 ^ 16)) ∧
        (h.legal = true → exec (.tensorCommandPerform cl) s = .next (ends
          (u.putTile x.td.val h (cells.map fun row => row.map Prod.fst) (cells.map fun _ => [])) (orOf (cells.map fun row => row.map Prod.snd))))
      let one := f.Is (.tscale x) ∨ f.Is (.tact x fn) ∨ f.Is (.tredSum x) ∨ f.Is (.tredMax x) ∨ f.Is (.tcvt x) ∧ ha.yb = false ∨
        f.Is (.tdq x) ∧ ha.yb = true ∨ f.Is (.tqnt x) ∧ ha.elem ∈ [3, 4, 5]
      let spreads := hb.set = true ∧ (hb.rows = 1 ∨ hb.rows = ha.rows) ∧ (hb.cols = 1 ∨ hb.cols = ha.cols)
      let two := (f.Is (.tadd x) ∨ f.Is (.tmul x)) ∧ spreads
      let y := fun i j => u.elem x.tb.val (if hb.rows = 1 then 0 else i) (if hb.cols = 1 then 0 else j)
      (f.Is (.tshape x) → exec (.tensorCommandPerform cl) s = .next
        (if shapeWordOk (s.opTA f x) then ends (u.setShape x.td.val (shapeOf (s.opTA f x))) 0
        else s1.parkCommand cl r .trap (BitVec.ofNat 64 (0x0304 + x.td.val * 2 ^ 16)) 0)) ∧
      (f.Is (.trdsh x) → exec (.tensorCommandPerform cl) s =
        .next (((s1.onUnit cl fun _ => u).unitFlags cl 0).endCommand cl f .value (getAt u.shapes x.ta.val 0))) ∧
      (f.Is (.tzeroTile x) → exec (.tensorCommandPerform cl) s = .next (ends (u.zeroTile x.td.val) 0)) ∧
      (f.Is (.tzeroAcc x) → ∃ v : TensorUnit, exec (.tensorCommandPerform cl) s = .next (ends v 0) ∧
        (∀ i j, i < 128 → j < 128 → v.acc x.qa.val i j = 0) ∧
        (∀ q i j, q ≠ x.qa.val → i < 128 → j < 128 → v.acc q i j = u.acc q i j)) ∧
      (f.Is (.tzeroCarry x) →
        let h := x.flg.toNat % 8
        let n := u.aside.countP (asideOn h)
        ∃ v : TensorUnit, v.aside = u.aside.filter (fun g => !asideOn h g) ∧ v.swapped.getLsbD h = false ∧ v.swapHandle h = Machine.noKnot ∧
          (∀ j, j < 128 → v.car h j = 0) ∧ (∀ g j, g ≠ h → j < 128 → v.car g j = u.car g j) ∧
          (∀ g, g ≠ h → v.swapHandle g = u.swapHandle g ∧ v.swapped.getLsbD g = u.swapped.getLsbD g) ∧
          let w := (s1.onUnit cl fun _ => v).unitFlags cl 0
          exec (.tensorCommandPerform cl) s = .next ((if n = 0 ∨ u.swapHandle h = Machine.noKnot then w
            else w.addWaiters (knotKey (u.swapHandle h)) false n).endCommand cl f .completion 0)) ∧
      ((f.Is (.tadd x) ∨ f.Is (.tmul x) ∨ f.Is (.tscale x) ∨ f.Is (.tact x fn) ∨ f.Is (.tredSum x) ∨ f.Is (.tredMax x) ∨ f.Is (.tqnt x) ∨
        f.Is (.tdq x) ∨ f.Is (.tcvt x)) → ha.set = false → traps 0x0303) ∧
      ((f.Is (.tadd x) ∨ f.Is (.tmul x)) → ¬spreads → traps 0x0303) ∧
      (f.Is (.tcvt x) → ha.yb = true → traps 0x0303) ∧
      (f.Is (.tdq x) → ha.yb = false → traps 0x0303) ∧
      (f.Is (.tqnt x) → ha.elem ∉ [3, 4, 5] → traps 0x0303) ∧
      (one ∨ two → ha.set = true → u.allFull x.ta.val = false → exec (.tensorCommandPerform cl) s = .next s1) ∧
      (two → reads ha x.ta.val → u.allFull x.tb.val = false → exec (.tensorCommandPerform cl) s = .next s1) ∧
      (two → reads ha x.ta.val → u.allFull x.tb.val = true →
        (f.Is (.tadd x) → gives ⟨ha.rows, ha.cols, code, false⟩ fun i j => elemAdd code (u.elem x.ta.val i j) (y i j)) ∧
        (f.Is (.tmul x) → gives ⟨ha.rows, ha.cols, code, false⟩ fun i j =>
          elemMul (decide (ha.elem = 2 ∨ ha.elem = 8) && decide (hb.elem = 2 ∨ hb.elem = 8)) code (u.elem x.ta.val i j) (y i j))) ∧
      (reads ha x.ta.val →
        (f.Is (.tscale x) → gives ⟨ha.rows, ha.cols, code, false⟩ fun i j =>
          elemScale code (u.elem x.ta.val i j) (f32Of (s.opTA f x)) (f32Of (s.opTB f x))) ∧
        (f.Is (.tact x fn) → gives ⟨ha.rows, ha.cols, code, false⟩ fun i j => elemAct fn code (u.elem x.ta.val i j)) ∧
        (f.Is (.tredSum x) → x.flg.getLsbD 0 = false → gives ⟨ha.rows, 1, code, false⟩ fun i _ =>
          reduceSum code ((countFrom 0 ha.cols).map fun j => u.elem x.ta.val i j)) ∧
        (f.Is (.tredSum x) → x.flg.getLsbD 0 = true → gives ⟨1, ha.cols, code, false⟩ fun _ j =>
          reduceSum code ((countFrom 0 ha.rows).map fun i => u.elem x.ta.val i j)) ∧
        (f.Is (.tredMax x) → x.flg.getLsbD 0 = false → gives ⟨ha.rows, 1, code, false⟩ fun i _ =>
          reduceMax code ((countFrom 0 ha.cols).map fun j => u.elem x.ta.val i j)) ∧
        (f.Is (.tredMax x) → x.flg.getLsbD 0 = true → gives ⟨1, ha.cols, code, false⟩ fun _ j =>
          reduceMax code ((countFrom 0 ha.rows).map fun i => u.elem x.ta.val i j)) ∧
        (f.Is (.tdq x) → ha.yb = true → gives ⟨ha.rows, ha.cols, code, false⟩ fun i j => toElem code .rne (u.elem x.ta.val i j)) ∧
        (f.Is (.tcvt x) → ha.yb = false → gives ⟨ha.rows, ha.cols, cvt, false⟩ fun i j =>
          toElem cvt (rmOf (x.flg.toNat % 8)) (u.elem x.ta.val i j)) ∧
        (f.Is (.tqnt x) → ha.elem ∈ [3, 4, 5] →
          let h : Sys2Proof.Machine.Shape := ⟨ha.rows, ha.cols, code, false⟩
          let rm := x.flg.toNat % 8
          let d := (s.swatch f.launch x.sw.toNat).delta
          let delta := if x.flg.getLsbD 3 = true ∧ d ≠ 0 then d else if x.ty = .yb4 then 2 else 3
          let blocks := (countFrom 0 h.rows).map fun i => (countFrom 0 h.blocks).map fun b => quantBlock code delta u.dither.toNat rm
            ((countFrom (32 * b) 32).map fun j => if j < h.cols then u.elem x.ta.val i j else .fin false 0 0)
          let v := u.putTile x.td.val h (blocks.map fun row => (row.flatMap YbBlock.codes).take h.cols)
            (blocks.map fun row => row.flatMap fun b => [BitVec.ofNat 8 b.ehi, BitVec.ofNat 8 b.elo])
          (h.legal = false → traps (0x0304 + x.td.val * 2 ^ 16)) ∧
          (h.legal = true → exec (.tensorCommandPerform cl) s = .next (ends (if rm = 5 then { v with dither := v.dither + 1 } else v)
            (orOf (blocks.map fun row => row.map YbBlock.exc)))))) ∧
      (f.Is (.tmovq x) →
        let row0 := Machine.bitsOf (s.opTA f x).toNat 0 7
        let n := Machine.bitsOf (s.opTA f x).toNat 8 8
        let m := (s.opTB f x).toNat
        (n = 0 ∨ m = 0 ∨ 128 < m ∨ 128 < row0 + n → traps 0x0306) ∧
        (1 ≤ n → 1 ≤ m → m ≤ 128 → row0 + n ≤ 128 → gives ⟨n, m, cvt, false⟩ fun i j =>
          toElem cvt (rmOf (x.flg.toNat % 8)) (fp32.decode (u.acc x.qa.val (row0 + i) j).toNat)))) ∧
  (
  ∀ (s : State) (cl : Nat),
    (∀ (k : Nat) (a : Arrival) (i p : BitVec 8), s.arrivalAt cl k = some a → a.out.eng = some (2, i, p) →
      let t := p.toNat % 16
      let w := a.out.tok.payload.toNat
      let row := w / 2 ^ 20 % 256
      let u := s.unit cl
      let h := u.shape t
      let q := s.dropArrival cl k
      let bad := a.out.tok.cls ≠ .tile ∨ h.rows ≤ row ∨ w % 8 ≠ 0 ∨ w / 2 ^ 48 ≠ 0
      let busy := (h.fe = false ∨ getAt u.rowEmpty (t * 192 + row) false = false) ∨
        (∃ r ∈ u.rows, r.tile = t ∧ r.tok.payload.toNat / 2 ^ 20 % 256 = row) ∨ (∃ e ∈ (s.cluster cl).remnant, e.kind = .rowWait (t * 192 + row))
      let free := s.remnantUse a.launch cl < s.remnantLimit a.launch cl ∧ s.remnantUse a.launch cl + (s.cluster cl).stageUse < 8192
      let traps := fun (c : Word) =>
        let src : FaultSrc := ⟨2, a.out.tok.tag.die.toNat, 0x7FF, t, a.out.tok.phase, (s.launch a.launch).stage, some a.out.tok.tag, 0, 0, 0,
          (s.launch a.launch).panel.footprint cl⟩
        let (id, v) := q.engineFault a.launch .trap c 0 src false (.row cl)
        exec (.rowStreamToken cl k) s = .next (v.onUnit cl fun u => { u with rows := u.rows ++ [⟨a.out.tok, t, [], some id⟩] })
      (a.out.tok.cls = .tile → h.fe = false → traps 0x0301) ∧
      (bad → a.out.tok.cls ≠ .tile ∨ h.fe = true → traps 0x0302) ∧
      (¬bad → h.fe = true →
        (¬busy → exec (.rowStreamToken cl k) s = .next (q.onUnit cl fun u => { u with rows := u.rows ++ [⟨a.out.tok, t, [], none⟩] })) ∧
        (busy → free → exec (.rowStreamToken cl k) s = .next (q.onCluster cl fun c =>
          { c with remnant := c.remnant ++ [⟨a.out.tok, 0, .rowWait (t * 192 + row), 0, s.aCycle⟩] })) ∧
        (busy → ¬free → exec (.rowStreamToken cl k) s =
          .next (if (s.launch a.launch).freeze.isSome then s else q.tensionPark a.launch cl a.out)))) ∧
    (∀ (slot : Nat) (f : Firing), (s.unit cl).ready.getLsbD slot = true → (s.unit cl).cur = none → s.enginesRun cl = true →
      s.enginesHalt cl = false → (s.unit cl).aside.find? (asideOn slot) = some f →
      exec (.tscanSetAsideRelease cl slot) s = .next (s.onUnit cl fun u => { u with
        aside := u.aside.erase f, ready := u.ready &&& ~~~(BitVec.ofNat 8 (2 ^ slot)), cur := some ⟨f, false, 0, [], none⟩ })) ∧
    (∀ (l : Nat) (w : SWord) (ws : List SWord), s.ownerOf cl = some l → (s.unit cl).outRow = w :: ws → (s.launch l).engines = true →
      let from_ := endpoint ((s.launch l).panel.footprint cl) 15 0 0
      (s.fab l).canSend from_ = true →
      exec (.streamOutputRow cl) s = .next ((s.onUnit cl fun u => { u with outRow := ws }).sendWord l from_ w)))

/-- TTRN (R270): the result has TA's columns as rows and TA's rows as columns with its ELEM, its element (j, i) takes the bits of element
(i, j), and done is emitted; a shape that is not legal and a YB tile trap. And the ordered dither (R53). -/
def Obligations.TransposeAndDither : Prop :=
  (
  ∀ (s : State) (cl l : Nat) (r : TRun) (x : FormT), s.ownerOf cl = some l → (s.launch l).engines = true → s.unitActs cl = [.command] →
    (s.unit cl).cur = some r → r.firing.Is (.ttrn x) →
    let u := s.unit cl
    let ha := u.shape x.ta.val
    let s1 : State := { s with freeCtr := s.freeCtr + 1 }
    let h : Sys2Proof.Machine.Shape := ⟨ha.cols, ha.rows, ha.elem, false⟩
    (ha.yb = true → exec (.tensorCommandPerform cl) s = .next (s1.parkCommand cl r .trap 0x0303 0)) ∧
    (ha.set = true → ha.yb = false → u.allFull x.ta.val = true →
      (h.legal = false → exec (.tensorCommandPerform cl) s =
        .next (s1.parkCommand cl r .trap (BitVec.ofNat 64 (0x0304 + x.td.val * 2 ^ 16)) 0)) ∧
      (h.legal = true → exec (.tensorCommandPerform cl) s = .next (((s1.onUnit cl fun _ => u.putTile x.td.val h
        ((countFrom 0 ha.cols).map fun j => (countFrom 0 ha.rows).map fun i => u.raw x.ta.val i j)
        ((countFrom 0 ha.cols).map fun _ => [])).unitFlags cl 0).endCommand cl r.firing .completion 0)))) ∧
  (List.range 32).map dither = [0, 16, 8, 24, 4, 20, 12, 28, 2, 18, 10, 26, 6, 22, 14, 30, 1, 17, 9, 25, 5, 21, 13, 29, 3, 19, 11, 27,
    7, 23, 15, 31]

/-- What a tensor unit does when the only thing open to it is its current command, which works row by row. One row firing of TMMA (R259,
R260, R262): its traps, its wait for the rows of A and B and for the stream buffer (that B's rows are waited for is R248's), the sums it
writes (a chunk shorter than K is extended with zeros, log 153), the row it empties, the words it sends and the end after the last row.
TLD, TST and TROW (R257, R271): their traps, and the accesses of one row, freely ordered, with the padding of log 152, after which the row
is written and full or its handle emitted. One row of TROW to the circuit, one row of TSCAN (R272), and TCARRY's save and load (R273). -/
def Obligations.TensorRowCommands : Prop :=
  ∀ (s : State) (cl l : Nat) (r : TRun), s.ownerOf cl = some l → (s.launch l).engines = true → s.unitActs cl = [.command] →
    (s.unit cl).cur = some r →
    let f := r.firing
    let u := s.unit cl
    let s1 : State := { s with freeCtr := s.freeCtr + 1 }
    let goes := exec (.tensorCommandPerform cl) s
    let traps := fun (d : Nat) => goes = .next (s1.parkCommand cl r .trap (BitVec.ofNat 64 d) 0)
    let begun := fun (t : State) => t.putRun cl { r with started := true }
    let onward := fun (t : State) (last : Bool) =>
      if last then t.endCommand cl f .completion 0 else t.putRun cl { r with started := true, row := r.row + 1, accs := [] }
    let accesses := fun (fresh : List Acc) (k : List Acc → State → State) =>
      ∀ (as_ : List Acc) (t : State), (∀ kd d a, s1.accsStep (s1.clientOf f) (if r.accs = [] then fresh else r.accs) = .bad kd d a t →
          goes = .next (t.parkCommand cl r kd d a)) ∧
        (s1.accsStep (s1.clientOf f) (if r.accs = [] then fresh else r.accs) = .moved as_ t →
          goes = .next (if allDone as_ then k as_ t else t.putRun cl { r with accs := as_ }))
    ∀ x : FormT,
      let w := s.swatch f.launch x.sw.toNat
      let va := s.opTA f x
      let vb := s.opTB f x
      let code := codeOf x.ty
      let a := x.ta.val
      let b := x.tb.val
      let ha := u.shape a
      let hb := u.shape b
      let sel0 := Machine.bitsOf va.toNat 0 8
      let n := Machine.bitsOf va.toNat 8 8
      let reads := fun (row : Nat) => readsAt w.space (some w.range) (rowAddr w.base w.stride row) w.rowBytes ++
        if w.yb then readsAt w.space (some w.range) (rowAddr w.scale w.scaleBytes row) w.scaleBytes else []
      let writes := fun (row i : Nat) =>
        writesAt w.space (some w.range) (rowAddr w.base w.stride row) (packRow (elemBits ha.elem) ((countFrom 0 ha.cols).map fun j => u.raw a i j) ++
            List.replicate (if w.yb = true ∧ row + 1 < w.rows then min w.stride ((w.cols + 31) / 32 * 4 * elemBits w.elem) - w.rowBytes else 0) 0) ++
          if w.yb then writesAt w.space (some w.range) (rowAddr w.scale w.scaleBytes row) (u.rowScale a i) else []
      (f.Is (.tmma x) →
        let hc := u.shape (b + 1)
        let kc := hb.rows + if code = 7 then hc.rows else 0
        let acol := Machine.bitsOf va.toNat 16 9
        let qrow := Machine.bitsOf vb.toNat 0 7
        let okB := fun (h : Sys2Proof.Machine.Shape) => h.set = true ∧ (h.elem = code ∨ code < 2 ∧ h.elem < 2)
        let shapes := ha.set = true ∧ ha.elem = code ∧ okB hb ∧ (code = 7 → okB hc ∧ hc.cols = hb.cols) ∧ hb.cols ≤ 128 ∧ kc ≤ chunkK code
        let inside := 1 ≤ n ∧ sel0 + n ≤ ha.rows ∧ qrow + n ≤ 128 ∧ acol < ha.cols ∧ (ha.yb = true → acol % 32 = 0)
        let row := sel0 + r.row
        let out := qrow + r.row
        let ready := u.full a row = true ∧ u.allFull b = true ∧ (code = 7 → u.allFull (b + 1) = true) ∧ (x.flg.getLsbD 1 = true → u.outRow = [])
        let sum := fun (j : Nat) => tensorSum (decide (code = 2))
          (((countFrom 0 kc).map fun k => (if acol + k < ha.cols then u.elem a row (acol + k) else .fin false 0 0,
            if code = 7 ∧ hb.rows ≤ k then u.elem (b + 1) (k - hb.rows) j else u.elem b k j)) ++
            List.replicate (chunkK code - kc) (.fin false 0 0, .fin false 0 0))
          (if x.flg.getLsbD 0 then some (fp32.decode (u.acc x.qa.val out j).toNat) else none)
        let cells := (countFrom 0 hb.cols).map sum
        (r.started = false → ¬shapes → traps 0x0303) ∧
        (r.started = false → shapes → ¬inside → traps 0x0306) ∧
        (r.started = true ∨ shapes ∧ inside → ¬ready → goes = .next (begun s1)) ∧
        (r.started = true ∨ shapes ∧ inside → ready → hb.cols ≤ 128 → out < 128 → ∃ v : TensorUnit,
          (∀ j, j < hb.cols → v.acc x.qa.val out j = BitVec.ofNat 32 (sum j).1) ∧
          (∀ q i j, i < 128 → j < 128 → (q ≠ x.qa.val ∨ i ≠ out ∨ hb.cols ≤ j) → v.acc q i j = u.acc q i j) ∧
          v = { u with
            accs := v.accs
            rowEmpty := if x.flg.getLsbD 2 = true ∧ ha.fe = true then setAt u.rowEmpty (a * 192 + row) true false else u.rowEmpty
            outRow := if x.flg.getLsbD 1 then ((countFrom 0 hb.cols).filter fun j => decide ((sum j).1 % 2 ^ 31 ≠ 0)).map
                (fun j => ⟨BitVec.ofNat 32 (sum j).1, BitVec.ofNat 32 j, 0⟩) ++ [⟨0, BitVec.ofNat 32 out, 1⟩] else u.outRow } ∧
          let t := ((s1.onUnit cl fun _ => v).unitFlags cl (cells.foldl (fun e p => e ||| p.2) 0)).meter f.launch (cl / 128) (macMeter code)
            (kc * hb.cols)
          goes = .next (if r.row + 1 = n then t.endCommand cl f .completion 0
            else t.putRun cl { r with started := true, row := r.row + 1 }))) ∧
      (f.Is (.tld x) →
        let count := vb.toNat
        let h : Sys2Proof.Machine.Shape := ⟨count, w.cols, w.elem, false⟩
        (r.started = false → count < 1 ∨ 192 < count ∨ w.rows < va.toNat + count → traps 0x0306) ∧
        (r.started = false → 1 ≤ count → count ≤ 192 → va.toNat + count ≤ w.rows →
          (h.legal = false → traps (0x0304 + x.td.val * 2 ^ 16)) ∧
          (h.legal = true → goes = .next (begun (s1.onUnit cl fun _ => u.setShape x.td.val h)))) ∧
        (r.started = true → accesses (reads (va.toNat + r.row)) fun as_ t => onward (t.onUnit cl fun u =>
          u.putRow x.td.val r.row ((gotOf as_).take h.rowBytes) ((gotOf as_).drop h.rowBytes)) (decide (r.row + 1 = count)))) ∧
      (f.Is (.tst x) →
        let fits := ha.set = true ∧ ha.elem = w.elem ∧ ha.cols = w.cols
        (r.started = false → ¬fits → traps 0x0303) ∧
        (r.started = false → fits → w.rows < va.toNat + ha.rows → traps 0x0306) ∧
        (r.started = false → fits → va.toNat + ha.rows ≤ w.rows → goes = .next (begun s1)) ∧
        (r.started = true → u.full a r.row = false → goes = .next s1) ∧
        (r.started = true → u.full a r.row = true →
          accesses (writes (va.toNat + r.row) r.row) fun _ t => onward t (decide (r.row + 1 = ha.rows)))) ∧
      (f.Is (.trow x) →
        let i := sel0 + r.row
        let drow := vb.toNat + i
        let fits := ha.set = true ∧ ha.elem = w.elem ∧ ha.cols = w.cols
        let inside := 1 ≤ n ∧ sel0 + n ≤ ha.rows ∧ vb.toNat + sel0 + n ≤ w.rows
        let handle := BitVec.ofNat 64 (rowAddr w.base w.stride drow % 2 ^ 20 + i % 2 ^ 8 * 2 ^ 20 +
          (if w.yb then rowAddr w.scale w.scaleBytes drow % 2 ^ 20 * 2 ^ 28 else 0))
        (r.started = false → ¬fits → traps 0x0303) ∧
        (r.started = false → fits → ¬inside → traps 0x0306) ∧
        (r.started = false → fits → inside → goes = .next (begun s1)) ∧
        (r.started = true → u.full a i = false → goes = .next s1) ∧
        (r.started = true → u.full a i = true → accesses (writes drow i) fun _ t =>
          let v := t.engineReply f false .tile handle
          if r.row + 1 = n then v.onUnit cl (fun u => { u with cur := none }) else v.putRun cl { r with row := r.row + 1, accs := [] })) ∧
      (f.Is (.trowStr x) →
        let i := sel0 + r.row
        let inside := 1 ≤ n ∧ sel0 + n ≤ ha.rows
        let words := ((countFrom 0 ha.cols).filter fun j => !(u.streamElem a i j).2).map
            (fun j => ⟨BitVec.ofNat 32 (u.streamElem a i j).1, BitVec.ofNat 32 j, 0⟩) ++
          [⟨0, BitVec.ofNat 32 i, 1⟩] ++ if r.row + 1 = n ∧ x.flg.getLsbD 0 = true then [⟨0, 0, 15⟩] else []
        let t := s1.onUnit cl fun u => { u with outRow := words }
        (r.started = false → ha.set = false → traps 0x0303) ∧
        (r.started = false → ha.set = true → ¬inside → traps 0x0306) ∧
        (r.started = false → ha.set = true → inside → goes = .next (begun s1)) ∧
        (r.started = true → (u.full a i = false ∨ u.outRow ≠ []) → goes = .next s1) ∧
        (r.started = true → u.full a i = true → u.outRow = [] → goes = .next (if r.row + 1 = n then t.endCommand cl f .completion 0
          else t.putRun cl { r with row := r.row + 1 }))) ∧
      (f.Is (.tscan x) →
        let d := x.td.val
        let hd := u.shape d
        let i := sel0 + r.row
        let h := x.flg.toNat % 8
        let out := x.flg.getLsbD 3
        let shapes := ha.set = true ∧ hb.set = true ∧ ha.cols = 128 ∧ hb.cols = 128 ∧
          (out = true → hd.set = true ∧ hd.cols = 128 ∧ hd.elem = code)
        let inside := 1 ≤ n ∧ n ≤ 64 ∧ sel0 + n ≤ ha.rows ∧ sel0 + n ≤ hb.rows ∧ (out = true → sel0 + n ≤ hd.rows)
        let next := fun (j : Nat) => scanStep (u.elem a i j)
          (if vb.getLsbD r.row then .fin false 0 0 else fp32.decode (u.car h j).toNat) (u.elem b i j)
        let cells := (countFrom 0 128).map next
        let outs := cells.map fun c => toElem code .rne (fp32.decode c.1)
        (r.started = false → ¬shapes → traps 0x0303) ∧
        (r.started = false → shapes → ¬inside → traps 0x0306) ∧
        (r.started = true ∨ shapes ∧ inside → (u.full a i = false ∨ u.full b i = false) → goes = .next (begun s1)) ∧
        (r.started = true ∨ shapes ∧ inside → u.full a i = true → u.full b i = true → ∃ v : TensorUnit,
          (∀ j, j < 128 → v.car h j = BitVec.ofNat 32 (next j).1) ∧
          (∀ g j, g ≠ h → j < 128 → v.car g j = u.car g j) ∧
          v = { (if out then u.putRow d i (packRow (elemBits code) (outs.map Prod.fst)) [] else u) with carry := v.carry } ∧
          let t := (s1.onUnit cl fun _ => v).unitFlags cl ((cells ++ if out then outs else []).foldl (fun e p => e ||| p.2) 0)
          goes = .next (if r.row + 1 = n then t.endCommand cl f .completion 0
            else t.putRun cl { r with started := true, row := r.row + 1 }))) ∧
      (f.Is (.tcarrySave x) →
        let h := x.flg.toNat % 8
        let off := va.toNat
        let range := off % 8 = 0 ∧ off + 512 ≤ w.length
        (r.started = false → u.swapped.getLsbD h = true → traps 0x0305) ∧
        (r.started = false → u.swapped.getLsbD h = false → ¬range → traps 0x0306) ∧
        (r.started = false → u.swapped.getLsbD h = false → range → badHandle vb = true → goes = .next (s1.parkCommand cl r .knotHandle vb 0)) ∧
        (r.started = false → u.swapped.getLsbD h = false → range → badHandle vb = false → goes = .next (begun s1)) ∧
        (r.started = true → accesses (writesAt w.space (some w.range) (w.base + off)
            ((countFrom 0 128).flatMap fun j => leBytes 4 (u.car h j).toNat)) fun _ t =>
          (t.onUnit cl fun u => ({ u with carry := u.carry.filter fun e => decide (e.1 / 128 ≠ h) }).setSwap h true vb).endCommand cl f
            .completion 0)) ∧
      (f.Is (.tcarryLoad x) →
        let h := x.flg.toNat % 8
        let off := va.toNat
        let range := off % 8 = 0 ∧ off + 512 ≤ w.length
        (r.started = false → ¬range → traps 0x0306) ∧
        (r.started = false → range → goes = .next (begun s1)) ∧
        (r.started = true → accesses (readsAt w.space (some w.range) (w.base + off) 512) fun as_ t =>
          let v := t.unit cl
          let k := v.swapHandle h
          let t1 := t.onUnit cl fun u => ({ u.putCarry h ((chunks 4 128 (gotOf as_)).map leNat) with cur := none }).setSwap h false k
          if v.swapped.getLsbD h = false then t1.engineReply f false .completion 0
          else
            match t1.engineAdd (cl / 128) (some f.launch) (s.launch f.launch).part k 1 with
            | (.done, t2) =>
              let n := (t2.unit cl).aside.countP (asideOn h)
              let t3 := if n = 0 then t2 else t2.onUnit cl fun u => { u with ready := u.ready ||| BitVec.ofNat 8 (2 ^ h) }
              (if n = 0 ∨ k = Machine.noKnot then t3 else t3.addWaiters (knotKey k) false n).engineReply f false .completion 0
            | (res, t2) => t2.addFault (some f.launch) res k (s.engineSrc f 2)))

/-- SEMIT and SMARK enter their circuit and emit done, or park while it has no free slot, and a zero is not sent; SRECV takes the first
word of its queue, a data word to o0 and any other to o1, or parks (R288, R289). SPARM writes a parameter register of an idle instance,
traps on a P0 that is no instance's, and parks while the instance is not idle (R290); SSTAT reads its counts and state (R291); an instance
sends a waiting word where it has a free slot, counting an end of stream (R282, R291), and a consumer reports up to seven freed slots (R280).
What INTERSECT, UNION, MULT, FILTER, REDUCE and FORK do with the words at their inputs (Table 13.3), what an output takes (R278, R282), and
the errors of a word (R286; where both inputs err, which one is named is a free choice, log 3). -/
def Obligations.StreamFabric : Prop :=
  (
  ∀ (x : FormX) (ch : BitVec 2) (mark : BitVec 4) (s : State), s.RunsPlain x.pm →
    let f := s.cur
    let b := s.fab f.launch
    let from_ := endpoint ((s.launch f.launch).panel.footprint f.cl) 13 f.st ch.toNat
    let into := endpoint ((s.launch f.launch).panel.footprint f.cl) 14 f.st ch.toNat
    let v : BitVec 32 := (s.opXB f x).setWidth 32
    let c : BitVec 32 := (s.opXA f x).setWidth 32
    let sent := fun (w : SWord) =>
      let t := s.sendWord f.launch from_ w
      if (t.fab f.launch).canSend from_ then t.wakeAt f.launch from_ else t
    ((if x.ty = .f32 then v.toNat % 2 ^ 31 = 0 else v = 0) → exec (.semit x ch) s = .next (s.emit0 f x.pm .completion 0)) ∧
    (¬ (if x.ty = .f32 then v.toNat % 2 ^ 31 = 0 else v = 0) →
      exec (.semit x ch) s = .next (if b.canSend from_ = true ∧ s.aheadAtEnd f from_ = false
        then (sent ⟨v, c, 0⟩).emit0 f x.pm .completion 0 else s.park f .stream)) ∧
    exec (.smark x ch mark) s = .next (if b.canSend from_ = true ∧ s.aheadAtEnd f from_ = false
      then (sent ⟨0, c, mark⟩).emit0 f x.pm .completion 0 else s.park f .stream) ∧
    (∀ w ws, b.queue into = w :: ws → s.aheadAtEnd f into = false →
      let t0 := s.onFab f.launch fun b => b.take into
      let taken := if (t0.fab f.launch).queue into = [] then t0 else t0.wakeAt f.launch into
      exec (.srecv x ch) s = .next (if w.mark = 0
        then taken.emit0 f x.pm .value (w.value.setWidth 64 ||| (w.coord.setWidth 64) <<< 32)
        else taken.emit1 f .value (w.coord.setWidth 64 ||| (w.mark.setWidth 64) <<< 32))) ∧
    ((b.queue into = [] ∨ s.aheadAtEnd f into = true) → exec (.srecv x ch) s = .next (s.park f .stream))) ∧
  (
  ∀ (s : State) (i : Nat) (o : OpInst),
    (∀ (x : FormX) (kind : BitVec 4) (inst : BitVec 1) (preg : BitVec 2), s.RunsPlain x.pm →
      let f := s.cur
      let v := s.opXA f x
      let sw := ((s.pattern f.launch).map Pattern.swatches).getD []
      let ahead := (s.launch f.launch).parked.any fun p => p.ahead f && s.namesOp p.firing o
      s.opIndex f kind.toNat inst.toNat = some i → nth (s.fab f.launch).ops i = some o →
      ((o.idle = true ∧ ahead = false ∧ (preg ≠ 0 ∨ p0Ok o.kind v sw = true)) →
        exec (.sparm x kind inst preg) s = .next (((s.putOp f.launch i (if preg = 0 then { o with p0 := v }
          else if preg = 1 then { o with p1 := v } else { o with p2 := v })).wakeSparm f.launch i).emit0 f x.pm .completion 0)) ∧
      ((o.idle = true ∧ ahead = false ∧ preg = 0 ∧ p0Ok o.kind v sw = false) →
        exec (.sparm x kind inst preg) s = .next (s.trap f 0x0401)) ∧
      ((o.idle = false ∨ ahead = true) → exec (.sparm x kind inst preg) s = .next (s.park f .stream)) ∧
      (o.parked.isSome = true → exec (.sstat x kind inst) s = .next (s.emit0 f x.pm .value
        (o.inw.setWidth 64 ||| (o.eosn.setWidth 64) <<< 32 ||| BitVec.ofNat 64 (2 * 2 ^ 48 + o.pport * 2 ^ 52)))) ∧
      (o.parked = none → exec (.sstat x kind inst) s = .next (s.emit0 f x.pm .value
        (o.inw.setWidth 64 ||| (o.eosn.setWidth 64) <<< 32 ||| BitVec.ofNat 64 (s.opStatus f.launch o * 2 ^ 48))))) ∧
    (∀ (l port : Nat) (w : SWord), nth (s.fab l).ops i = some o → o.parked = none → (s.launch l).engines = true →
      o.acts (s.fab l) (!(s.launch l).halting) = [.send port w] →
      exec (.streamOperatorStep l i) s = .next
        (((({ s with freeCtr := s.freeCtr + 1 } : State).putOp l i { o with
          out := dropFirst port o.out, eosn := if w.mark = 15 then o.eosn + 1 else o.eosn }).sendWord l (o.output port) w).wakeSparm l i)) ∧
    (∀ (l ep from_ : Nat), (s.fab l).producer ep = some from_ → (s.launch l).moves = true →
      let n := min 7 (getAt (s.fab l).freed ep 0)
      n ≠ 0 →
      let fab : StreamFab := { s.fab l with
        freed := setAt (s.fab l).freed ep (getAt (s.fab l).freed ep 0 - n) 0
        credits := setAt (s.fab l).credits from_ (getAt (s.fab l).credits from_ 0 - n) 0 }
      exec (.circuitSlotReturn l ep) s = .next ((s.onFab l fun _ => fab).wakeAt l from_))) ∧
  (
  ∀ (o : OpInst) (b : StreamFab) (port : Nat) (w : SWord), w.mark = 0 →
    (zeroIn o.vt w.value = true → o.emit b port w = o) ∧
    (zeroIn o.vt w.value = false → b.consumer (o.output port) = none → (o.emit b port w).out = o.out) ∧
    (zeroIn o.vt w.value = false → b.consumer (o.output port) ≠ none → (o.emit b port w).out = o.out ++ [(port, w)])) ∧
  (
  ∀ (s : State) (l i : Nat) (o : OpInst), nth (s.fab l).ops i = some o → o.parked = none → (s.launch l).engines = true →
    o.acts (s.fab l) (!(s.launch l).halting) = [.words] → o.drop = 0 → o.pend = [] →
    let b := s.fab l
    let s1 : State := { s with freeCtr := s.freeCtr + 2 }
    let goes := exec (.streamOperatorStep l i) s
    let took := fun (in0 in1 : Bool) (o1 : OpInst) => goes =
      .next (((s1.takeWords l o in0 in1).putOp l i (if in0 then { o1 with inw := o1.inw + 1 } else o1)).wakeSparm l i)
    let errs := fun (code port : Nat) => goes = .next ((s1.parkOp l i o .streamProtocol (BitVec.ofNat 64 code) 0 port).wakeSparm l i)
    let known := fun (w : SWord) => w.mark.toNat ≤ 4 ∨ w.mark = 15
    let after := fun (last : Option (BitVec 32)) (w : SWord) => w.mark = 0 → ∀ c, last = some c → c < w.coord
    (∀ w ws, b.queue (o.input 0) = w :: ws →
      (o.kind ∈ [1, 2, 7, 8, 9, 10, 11, 12] → 5 ≤ w.mark.toNat → w.mark.toNat ≤ 13 → errs 2 0) ∧
      (o.kind = 11 → w.mark = 0 → (∃ c, o.prev0 = some c ∧ w.coord ≤ c) → errs 1 0) ∧
      (o.kind = 7 → known w →
        (w.mark = 0 → o.mode = 0 ∨ o.mode = 3 →
          let inside := o.p1.setWidth 32 ≤ w.coord ∧ w.coord ≤ o.p2.setWidth 32
          ((inside ↔ o.mode = 0) → took true false (o.emit b 0 w)) ∧ (¬ (inside ↔ o.mode = 0) → took true false o)) ∧
        (w.mark ≠ 0 → took true false (o.emit b 0 w))) ∧
      (o.kind = 8 →
        (w.mark = 0 → took true false { o with part := some (match o.part with
          | none => if o.mode = 3 then 1 else w.value
          | some a => if o.mode = 3 then a + 1 else combineIn o.vt o.mode a w.value) }) ∧
        (1 ≤ w.mark.toNat → w.mark.toNat ≤ 4 →
          let o1 := match o.part with
            | some v => ({ o with part := none } : OpInst).emit b 0 ⟨v, w.coord, 0⟩
            | none => o
          took true false (if w.mark = 1 then o1 else o1.emit b 0 ⟨0, w.coord, w.mark - 1⟩)) ∧
        (w.mark = 15 → took true false (({ o with part := none } : OpInst).emit b 0 ⟨0, 0, 15⟩))) ∧
      (o.kind = 12 → known w →
        (b.canSend (o.output 0) = true → b.canSend (o.output 1) = true → took true false ((o.emit b 0 w).emit b 1 w)) ∧
        (b.canSend (o.output 0) = false ∨ b.canSend (o.output 1) = false → goes = .next (s1.wakeSparm l i)))) ∧
    (∀ x xs y ys, b.queue (o.input 0) = x :: xs → b.queue (o.input 1) = y :: ys → known x → known y →
      (o.kind = 3 ∨ o.kind = 4 → after o.prev0 x → after o.prev1 y → x.mark = 0 → y.mark = 0 →
        (x.coord < y.coord → took true false (if o.kind = 4 then ({ o with prev0 := some x.coord } : OpInst).emit b 0 x
          else { o with prev0 := some x.coord })) ∧
        (y.coord < x.coord → took false true (if o.kind = 4 then ({ o with prev1 := some y.coord } : OpInst).emit b 0 y
          else { o with prev1 := some y.coord })) ∧
        (x.coord = y.coord →
          let both : OpInst := { o with prev0 := some x.coord, prev1 := some y.coord }
          took true true (if o.kind = 4 then both.emit b 0 ⟨combineIn o.vt o.mode x.value y.value, x.coord, 0⟩
            else (both.emit b 0 x).emit b 1 y))) ∧
      (o.kind = 6 → x.mark = 0 → y.mark = 0 →
        (x.coord = y.coord → took true true (o.emit b 0 ⟨mulIn o.vt x.value y.value, x.coord, 0⟩)) ∧
        (x.coord ≠ y.coord → errs 3 0 ∨ errs 3 1)) ∧
      (o.kind = 3 ∨ o.kind = 4 ∨ o.kind = 6 → x.mark ≠ 0 → y.mark ≠ 0 →
        (x.mark = y.mark →
          let o1 : OpInst := { o with prev0 := none, prev1 := none }
          took true true (if o.kind = 3 then (o1.emit b 0 ⟨0, x.coord, x.mark⟩).emit b 1 ⟨0, x.coord, x.mark⟩
            else o1.emit b 0 ⟨0, x.coord, x.mark⟩)) ∧
        (x.mark ≠ y.mark → errs 3 0 ∨ errs 3 1))))

/-- The seam instructions (R310 to R315): what SMOPEN binds and the traps of a bad configuration or a context that is not Free; SMFEED and
SMCLOSE, with their traps; SMSTAT of a handle that is and is not current; SMABORT. -/
def Obligations.SeamInstructions : Prop :=
  ∀ (x : FormE) (inst ctx : BitVec 2) (s : State), s.RunsPlain x.pm →
    let f := s.cur
    let cfg := (s.opEA f x).toNat
    let n := cfg % 2 ^ 13
    let ovcap := (s.opEB f x).toNat % 2 ^ 32
    let die := ((s.launch f.launch).panel.locate f.cl).1
    (n = 0 ∨ 4096 < n ∨ (s.sw2 f x).length < 32 + 8 * ovcap → exec (.smopen x inst ctx) s = .next (s.trap f 0x0501)) ∧
    (∀ key, n ≠ 0 → n ≤ 4096 → cfg / 2 ^ 13 % 8 = 0 → cfg / 2 ^ 18 = 0 → 32 + 8 * ovcap ≤ (s.sw2 f x).length →
      s.seamKey f.launch die inst.toNat = some key →
      let old := s.seamCtx key ctx.toNat
      (old.st ≠ .free → exec (.smopen x inst ctx) s = .next (s.trap f 0x0502)) ∧
      (old.st = .free → badHandle (f.knotOf x) = false →
        let new : SeamCtx := { SeamCtx.free (old.gen + 1) with
          st := .binding, firing := f, n := n, op := cfg / 2 ^ 16 % 4, sw1 := x.sw1.toNat, sw2 := x.sw2.toNat
          ovcap := ovcap, knot := f.knotOf x, add := s.addOf f x, charged := 32 + 8 * ovcap, phase := .opening }
        exec (.smopen x inst ctx) s = .next (s.putSeam key ctx.toNat new))) ∧
    (s.seamNamed f.launch (s.opEA f x) = none →
      exec (.smfeed x) s = .next (s.trap f 0x0503) ∧ exec (.smclose x) s = .next (s.trap f 0x0503) ∧
      exec (.smstat x) s = .next (s.engineReply f false .value 0) ∧ exec (.smabort x) s = .next (s.engineReply f false .completion 0)) ∧
    (∀ key c, s.seamNamed f.launch (s.opEA f x) = some (key, c) →
      let y := s.seamCtx key c
      let k := (s.opEB f x).toNat % 2 ^ 12
      let p := (s.opEB f x).toNat / 2 ^ 16 % 2 ^ 5
      (y.st ≠ .binding → exec (.smfeed x) s = .next (s.trap f 0x0505) ∧ exec (.smclose x) s = .next (s.trap f 0x0505)) ∧
      (y.st = .binding →
        (y.n ≤ k → exec (.smfeed x) s = .next (s.trap f 0x0504)) ∧
        (k < y.n → (y.inputs.any fun i => decide (i.idx = k)) = false → (s.seam key).portHeld c (s.seamGroup y) k p = false →
          exec (.smfeed x) s =
            .next ((s.putSeam key c { y with inputs := y.inputs ++ [SeamIn.bind k p] }).engineReply f false .completion 0)) ∧
        exec (.smclose x) s = .next (if y.inputs.length < y.n then s.trap f 0x0505
          else (s.putSeam key c { y with st := .merging, used := 1 }).engineReply f false .completion 0)) ∧
      exec (.smstat x) s = .next (s.engineReply f false .value y.statWord) ∧
      (y.st = .ending → y.parked = none → exec (.smabort x) s = .next (s.putSeam key c { y with aborters := y.aborters ++ [f] })) ∧
      (y.st ≠ .ending → y.parked = none → exec (.smabort x) s = .next
        (if y.phase = .boundary then s.endSeam key c { y with aborters := y.aborters ++ [f] } .aborted
        else s.putSeam key c (SeamCtx.stopWith { y with aborters := y.aborters ++ [f] } .aborted))) ∧
      (∀ id, y.parked = some id → y.st ≠ .ending → y.phase ≠ .opening → exec (.smabort x) s = .next
        ((s.discardRecord f.launch id).endSeam key c { y with aborters := y.aborters ++ [f] } .aborted)))

/-- The seam units' steps: a token joins its port's queue (R296); a port delivers a data word to the row being filled, or discards it for
an ended context (R298, R304); a context takes its next access of the row (R299, R300). The merge of a row at level 0 whose fibres are no longer
than the fibre buffer: its entries in ascending columns, the values of one column combined in member order (R300); where an entry goes, into
the CSR arrays, the overflow segment, or, where there is no room, an end with SPILL, and the row pointers (R301); a run's header and entries
(R302). At its end a context makes its completion add, is Free, and lets its SMABORTs emit done (R303, R315). -/
def Obligations.SeamSteps : Prop :=
  ∀ (s : State),
    (∀ (die k key : Nat) (a : Arrival) (i p : BitVec 8), behindSame (getAt s.dieArr die []) k = false →
      nth (getAt s.dieArr die []) k = some a → a.out.eng = some (3, i, p) →
      s.seamKey a.launch a.out.tok.tag.die.toNat i.toNat = some key → (s.launch a.launch).moves = true →
      exec (.seamTokenArrival die k) s =
        .next (({ s with dieArr := setAt s.dieArr die (dropNth (getAt s.dieArr die []) k) [] } : State).onSeam key fun u =>
          u.setPort p.toNat { u.port p.toNat with queue := (u.port p.toNat).queue ++ [a.out] })) ∧
    (∀ (l unit port key : Nat) (h : PortHead), s.seamKey l (unit / 4) (unit % 4) = some key → (s.launch l).engines = true →
      (s.launch l).halting = false → s.portHead l key (unit / 4) (unit % 4) port = some h →
      let q := (s.seam key).port port
      let taken := s.portTake l key (unit / 4) (unit % 4) port
      (q.discard ≠ 0 → exec (.seamPortWord l unit port) s = .next (taken.onSeam key fun u =>
        u.setPort port { u.port port with discard := if h.bad = false ∧ h.word.mark = 15 then q.discard - 1 else q.discard })) ∧
      (q.discard = 0 → ∀ (i : SeamIn),
        let x := s.seamCtx key 0
        x.st = .merging → x.level = 0 → x.parked = none → x.endWith = none → i.broken = false →
        (x.groupInputs (s.seamGroup x)).find? (fun i => decide (i.port = port) && !i.ended) = some i →
        h.bad = false → h.word.mark = 0 → i.lastCol ≤ h.word.coord.toNat → h.word.coord.toNat < (s.seamOut x).cols → i.cur.length < 1024 →
        exec (.seamPortWord l unit port) s = .next ((s.portTake l key (unit / 4) (unit % 4) i.port).putSeam key 0
          (x.putIn { i with cur := i.cur ++ [(h.word.coord.toNat, h.word.value)], lastCol := h.word.coord.toNat + 1 })))) ∧
    (∀ (l unit c key : Nat) (x : SeamCtx), s.seamActive l unit c = some (key, x) →
      (x.st ≠ .ending → ∀ as_ t, allDone x.accs = false → s.accsStep (s.seamClient x) x.accs = .moved as_ t →
        exec (.seamMergeRow l unit c) s = .next (t.putSeam key c { x with accs := as_ })) ∧
      (x.st ≠ .ending → ∀ k d a t, allDone x.accs = false → s.accsStep (s.seamClient x) x.accs = .bad k d a t →
        exec (.seamMergeRow l unit c) s = .next (t.parkSeam key c x k d a 0)) ∧
      (x.st = .merging →
        let goes := exec (.seamMergeRow l unit c) s
        let puts := fun (y : SeamCtx) => goes = .next (s.putSeam key c y)
        let out := s.seamOut x
        let sw := s.seamSpill x
        let is := x.groupInputs (s.seamGroup x)
        (x.phase = .reading → allDone x.accs = true → x.level = 0 → x.lastLevel (s.seamGroup x) = true →
          (∀ i ∈ is, ∀ f, i.rows.head? = some f → f.long = none) →
          let words := is.flatMap fun i => match i.rows.head? with
            | some f => if f.row = x.row then f.entries ++ f.held else []
            | none => []
          ∃ ents : List (Nat × BitVec 32), ents.Pairwise (fun a b => a.1 < b.1) ∧
            (∀ col, look ents col = match (words.filter fun e => decide (e.1 = col)).map Prod.snd with
              | [] => none
              | v :: vs => some (vs.foldl (combineIn 0 (if x.op = 1 then 2 else if x.op = 2 then 1 else x.op)) v)) ∧
            puts { x with
              accs := [], ents := ents, idx := 0, ptr := x.rowsDone + 1, mrow := x.row + 1, phase := .entries
              inputs := x.inputs.map fun i =>
                if is.any (fun j => decide (j.idx = i.idx)) = true ∧ i.rows.head?.map FibreRow.row = some x.row then { i with rows := i.rows.drop 1 }
                else i }) ∧
        (x.phase ≠ .reading → x.accs ≠ [] → allDone x.accs = true → puts { x with
          accs := [], idx := x.idx + 1, ptr := if x.phase = .pointers ∨ x.phase = .trailing then x.ptr + 1 else x.ptr }) ∧
        (x.phase = .entries → x.accs = [] → ∀ col v, nth x.ents x.idx = some (col, v) →
          let e := x.entries + x.idx
          let raw := if out.elem = 4 then (roundVal bf16 .rne (fp32.decode v.toNat)).1 else v.toNat
          let cap := out.aux0 / 2 ^ 32
          let bytes := if out.elem = 4 then 2 else 4
          (e < cap → puts { x with accs := [.wrElem out.space (out.base + (out.aux0 % 2 ^ 32 + 4 * e)) (leBytes 4 col) (some out.range),
            .wrElem out.space (out.base + (out.aux1 % 2 ^ 32 + bytes * e)) (leBytes bytes raw) (some out.range)] }) ∧
          (cap ≤ e → e - cap < x.ovcap → puts { x with accs :=
            [.wr sw.space (sw.base + (32 + 8 * (e - cap))) (leBytes 8 (col + raw * 2 ^ 32)) (some sw.range)] }) ∧
          (cap ≤ e → x.ovcap ≤ e - cap → goes = .next ((s.meter x.firing.launch (key / 4) 16 x.idx).endSeam key c
            { x with entries := e, ovcount := e - cap } .spill))) ∧
        (x.phase = .pointers → x.accs = [] →
          let put := fun (v : Nat) => puts { x with accs := [.wrElem out.space (out.base + 4 * x.ptr) (leBytes 4 v) (some out.range)] }
          (x.ptr ≤ x.row → put x.entries) ∧ (x.ptr = x.row + 1 → put (x.entries + x.ents.length)) ∧
          (x.row + 1 < x.ptr → goes = .next ((s.meter x.firing.launch (key / 4) 16 x.ents.length).putSeam key c { x with
            entries := x.entries + x.ents.length, ovcount := x.entries + x.ents.length - out.aux0 / 2 ^ 32
            phase := .boundary, rowsDone := x.row + 1, ents := [] }))) ∧
        (x.phase = .run → x.accs = [] → x.runAt ≠ 0 →
          let word := fun (off v : Nat) => Acc.wr sw.space (sw.base + off) (leBytes 8 v) (some sw.range)
          (x.idx = 0 → puts { x with accs := [word x.runAt (x.ents.length * 2 ^ 32 + x.row), word (x.runAt + 8) (x.level * 2 ^ 16 + x.group)] }) ∧
          (∀ k col v, x.idx = k + 1 → nth x.ents k = some (col, v) →
            puts { x with accs := [word (x.runAt + 8 + 8 * x.idx) (col + v.toNat * 2 ^ 32)] }))) ∧
      (x.st = .ending → x.phase = .add → allDone x.left = true →
        exec (.seamContextEnd l unit c) s =
          let p := s.engineAdd (key / 4) (some x.firing.launch) (s.launch x.firing.launch).part x.knot x.add
          let src := { s.engineSrc x.firing 4 with ctx := c, inst := s.panelInst x key }
          .next (x.aborters.foldl (fun s f => s.engineReply f false .completion 0)
            ((p.2.addFault (some x.firing.launch) p.1 x.knot src).putSeam key c (SeamCtx.free x.gen)))))

/-- The unmask instructions join their context's commands (R320); with a handle that is not current a query answers 0 and the others trap
(R322, R330); an open waits at the engine of the die that it names, or traps when its panel has no such die (R324); and a bad knot handle
faults before anything is sent (R321). The unmask engine's steps: the lowest-numbered free context is granted to the first open (R317); a
token at unmask.in joins its context's commands, or traps and is parked (R322, R325); the command at the head performs its accesses
(R320), and a release frees the context and keeps its GEN (R324).  What each command does, access by access, its accesses being done: a
confidence of a token or of UMSCORE written beside its ID (R325), UMRANK's share, its ranking, its list, its bitmap and its count (R326), the
taps of UMTAP (R327), the dirty entries and the seeds of UMDIRTY (R328), UMCLR's bit (R329), and the answers of UMQRY (R330).  The bits of a
tap entry past N are free values, with V clear. -/
def Obligations.UnmaskEngine : Prop :=
  (
  ∀ (x : FormE) (die : BitVec 2) (f16 : Bool) (s : State), s.RunsPlain x.pm →
    let f := s.cur
    let h := s.opEA f x
    (∀ d, nth (s.launch f.launch).panel.dies die.toNat = some d →
      exec (.umctxOpen x die) s = .next (s.onUm d fun e => { e with opens := e.opens ++ [f] })) ∧
    (nth (s.launch f.launch).panel.dies die.toNat = none → exec (.umctxOpen x die) s = .next (s.trap f 0x0601)) ∧
    (badHandle (f.knotOf x) = true →
      exec (.umrank x) s = .next (s.faultFiring f .knotHandle (f.knotOf x) 0) ∧
      exec (.umdirty x) s = .next (s.faultFiring f .knotHandle (f.knotOf x) 0)) ∧
    (∀ d c, s.umNamed f.launch h = some (d, c) →
      let ctx := s.umCtx d c
      let t := s.putUm d c { ctx with queue := ctx.queue ++ [{ UmCmd.ofFiring f with gen := some ctx.gen }] }
      exec (.umctxRelease x) s = .next t ∧ exec (.umscore x f16) s = .next t ∧ exec (.umtap x) s = .next t ∧
      exec (.umqryInfo x) s = .next t ∧ exec (.umqryMask x) s = .next t ∧ exec (.umqryDirty x) s = .next t ∧
      exec (.umqryRound x) s = .next t ∧ exec (.umclr x) s = .next t ∧
      (badHandle (f.knotOf x) = false → exec (.umrank x) s = .next t ∧ exec (.umdirty x) s = .next t)) ∧
    (s.umNamed f.launch h = none →
      let none_ := s.engineReply f false .value 0
      let stop := s.trap f 0x0602
      exec (.umctxRelease x) s = .next stop ∧ exec (.umscore x f16) s = .next stop ∧ exec (.umtap x) s = .next stop ∧
      exec (.umclr x) s = .next stop ∧ (badHandle (f.knotOf x) = false → exec (.umrank x) s = .next stop ∧ exec (.umdirty x) s = .next stop) ∧
      exec (.umqryInfo x) s = .next none_ ∧ exec (.umqryMask x) s = .next none_ ∧ exec (.umqryDirty x) s = .next none_ ∧
      exec (.umqryRound x) s = .next none_)) ∧
  (
  ∀ (s : State) (d c : Nat),
    (∀ (f : Firing) (fs : List Firing) (y : FormE) (die : BitVec 2), f.Is (.umctxOpen y die) →
      (s.launch f.launch).engines = true → (s.launch f.launch).halting = false → c < 256 →
      ((s.um d).ctx c).holder = none → (∀ j, j < c → ((s.um d).ctx j).holder ≠ none) →
      let new := { (s.um d).ctx c with
        holder := some f.launch, sw1 := y.sw1.toNat, sw2 := y.sw2.toNat, queue := [{ UmCmd.ofFiring f with started := true }] }
      ((s.um d).old = f :: fs → exec (.unmaskContextGrant d) s = .next (s.onUm d fun e => ({ e with old := fs }).setCtx c new)) ∧
      ((s.um d).old = [] → (s.um d).opens = f :: fs →
        (∀ k ∈ (s.launch f.launch).panel.dies, (s.um k).savedLeft f.launch = false) →
        exec (.unmaskContextGrant d) s = .next (s.onUm d fun e => ({ e with opens := fs }).setCtx c new))) ∧
    (∀ (k : Nat) (a : Arrival) (i p : BitVec 8), behindSame (getAt s.dieArr d []) k = false → nth (getAt s.dieArr d []) k = some a →
      a.out.eng = some (4, i, p) → (s.launch a.launch).moves = true → a.out.tok.payload.toNat / 2 ^ 47 % 256 = c →
      let x := s.umCtx d c
      let s1 : State := { s with dieArr := setAt s.dieArr d (dropNth (getAt s.dieArr d []) k) [] }
      (x.holder ≠ some a.launch → exec (.unmaskInToken d k) s = .next (s1.strayToken d c 0x0602 a)) ∧
      (x.holder = some a.launch → a.out.tok.payload.toNat / 2 ^ 55 ≠ 0 →
        exec (.unmaskInToken d k) s = .next (s1.strayToken d c 0x0603 a)) ∧
      (x.holder = some a.launch → a.out.tok.payload.toNat / 2 ^ 55 = 0 → ∃ src : Nat,
        exec (.unmaskInToken d k) s = .next ({ s1.putUm d c { x with
          queue := x.queue ++ [UmCmd.ofToken (tokenFiring a.launch a.out.tok) a.out src] } with serial := s.serial + 1 }))) ∧
    (∀ (q : UmCmd) (qs : List UmCmd) (y : FormE) (f16 : Bool), (s.umCtx d c).queue = q :: qs → (s.launch q.firing.launch).engines = true →
      q.parked = none → q.started = true →
      let x := s.umCtx d c
      let f := q.firing
      let t := s.swatch f.launch x.sw1
      let m := s.swatch f.launch x.sw2
      let src := s.swatch f.launch y.sw1.toNat
      let goes := exec (.unmaskCommandPerform d c) s
      let then_ := fun (p : UmCmd) => (Host.Outcome.next (s.putUm d c { x with queue := p :: qs }) : Host.Outcome State Fault Refusal)
      let gone := s.putUm d c { x with queue := qs }
      let w := (s.opEB f y).toNat
      let fld := fun (lo n : Nat) => w / 2 ^ lo % 2 ^ n
      let word := x.dirty + 8 * (fld 16 7 * x.dirtyWords + fld 0 16 / 64)
      (allDone q.accs = false → ∀ as_ t, s.accsStep (s.clientOf f) q.accs = .moved as_ t → goes =
        .next (t.putUm d c { x with queue := { q with accs := as_ } :: qs })) ∧
      (allDone q.accs = true → ∀ o, q.tok = some o →
        let pos := o.tok.payload.toNat / 2 ^ 32 % 2 ^ 15
        (q.phase = 0 → x.len ≤ pos → goes = .next (gone.strayToken d c 0x0603 ⟨f.launch, o, some q.src, s.nCycle, 4⟩)) ∧
        (q.phase = 0 → pos < x.len →
          goes = then_ { q with phase := 1, accs := t.writesTo (0x1000 + 8 * pos) (leBytes 4 o.tok.payload.toNat) }) ∧
        (q.phase ≠ 0 → goes = .next gone)) ∧
      (allDone q.accs = true → q.tok = none →
        (f.Is (.umqryInfo y) → goes = .next (gone.engineReply f false .value (BitVec.ofNat 64
          (x.remaining % 2 ^ 16 + x.len % 2 ^ 16 * 2 ^ 16 + x.layers * 2 ^ 32 + x.round.length % 2 ^ 16 * 2 ^ 40)))) ∧
        (f.Is (.umqryMask y) →
          (x.len ≤ w → goes = .next (gone.engineReply f false .value 0)) ∧
          (w < x.len → q.phase = 0 → goes = then_ { q with phase := 1, accs := m.readsFrom (w / 8) 1 }) ∧
          (w < x.len → q.phase ≠ 0 → goes = .next (gone.engineReply f false .value
            (BitVec.ofNat 64 (leNat (gotOf q.accs) / 2 ^ (w % 8) % 2))))) ∧
        (f.Is (.umqryDirty y) →
          (x.layers ≤ fld 16 7 ∨ x.blocks ≤ fld 0 16 → goes = .next (gone.engineReply f false .value 0)) ∧
          (fld 16 7 < x.layers → fld 0 16 < x.blocks →
            (q.phase = 0 → goes = then_ { q with phase := 1, accs := t.readsFrom word 8 }) ∧
            (q.phase ≠ 0 → goes = .next (gone.engineReply f false .value
              (BitVec.ofNat 64 (leNat (gotOf q.accs) / 2 ^ (fld 0 16 % 64) % 2)))))) ∧
        (f.Is (.umqryRound y) → goes = .next (gone.engineReply f false .value (if getAt x.round w false then 1 else 0))) ∧
        (f.Is (.umctxRelease y) → qs = [] → goes =
          .next ((gone.putUm d c { UmCtx.blank with gen := x.gen }).engineReply f false .completion 0)) ∧
        (f.Is (.umscore y f16) →
          let n := fld 16 16
          let off := w / 2 ^ 32
          let bad := n = 0 ∨ x.len < fld 0 16 + n ∨ off % 8 ≠ 0 ∨ src.length < off + 8 * n
          (q.phase = 0 → bad → goes = .next (gone.trap f 0x0603)) ∧
          (q.phase = 0 → ¬ bad → goes = then_ { q with phase := 1 }) ∧
          (q.phase = 1 → q.accs = [] → q.idx < n → goes = then_ { q with accs := src.readsFrom (off + 8 * q.idx) 8 }) ∧
          (q.phase = 1 → q.accs ≠ [] →
            let e := leNat (gotOf q.accs)
            goes = then_ { q with
              phase := 2
              accs := t.writesTo (0x1000 + 8 * (fld 0 16 + q.idx)) (leBytes 8 ((if f16 then fp16.widen (e % 2 ^ 16) else e % 2 ^ 32) + e / 2 ^ 32 * 2 ^ 32)) }) ∧
          (q.phase = 2 → goes = then_ { q with phase := 1, idx := q.idx + 1, accs := [] }) ∧
          (q.phase = 1 → q.accs = [] → n ≤ q.idx → goes = .next (gone.engineReply f false .completion 0))) ∧
        (f.Is (.umrank y) →
          let r := q.list.length
          let theta := fp32.decode x.theta.toNat
          let met := q.list.countP fun e =>
            let v := fp32.decode (e.2 % 2 ^ 32)
            !v.isNan && !theta.isNan && !ltVals v theta
          let n := min (min (max (max (max x.k ((x.f * r + 65535) / 65536)) met) x.minc) x.maxc) r
          (q.phase = 0 → src.length < 8 * min x.maxc x.len → goes = .next (gone.trap f 0x0603)) ∧
          (q.phase = 2 → q.accs = [] → q.seeds = [] → (q.list.map Prod.fst).Nodup → ∃ picked : List (Nat × Nat),
            goes = then_ { q with phase := 3, idx := 0, count := r, list := picked } ∧ picked.Sublist q.list ∧ picked.length = n ∧
            ∀ a ∈ picked, ∀ b ∈ q.list, b ∉ picked → ranksBefore a b = true) ∧
          (∀ p v, nth q.list q.idx = some (p, v) →
            (q.phase = 3 → q.accs = [] → goes = then_ { q with
              accs := src.writesTo (8 * q.idx) (leBytes 8 (p + v / 2 ^ 32 * 2 ^ 32)) }) ∧
            (q.phase = 3 → q.accs ≠ [] → ∃ b : Byte, goes = then_ { q with phase := 4, accs := m.writesTo (p / 8) [b] } ∧
              ∀ j, j < 8 → b.getLsbD j = ((getAt q.read (p / 8) 0).getLsbD j &&
                decide (p / 8 * 8 + j ∉ (q.list.take (q.idx + 1)).map Prod.fst))) ∧
            (q.phase = 4 → goes = .next (s.putUm d c { x with
              round := setAt x.round (p / 16) true false, queue := { q with phase := 3, idx := q.idx + 1, accs := [] } :: qs }))) ∧
          (q.phase = 3 → nth q.list q.idx = none → goes = .next (s.putUm d c { x with
            remaining := q.count - r, queue := { q with phase := 5 } :: qs })) ∧
          (q.phase = 5 → ∀ u, (s.meter f.launch d 17 r).engineAdd d (some f.launch) (s.launch f.launch).part (f.knotOf y) (s.addOf f y) =
            (.done, u) → goes = .next ((u.dropCmd d c).engineReply f false .value (BitVec.ofNat 64 r)))) ∧
        (f.Is (.umtap y) →
          let n := fld 8 4
          let off := w / 2 ^ 32
          let pairs := wordsOf (gotOf q.accs)
          let bad := fld 0 7 = 0 ∨ x.layers ≤ fld 0 7 ∨ 8 < n ∨ x.blocks ≤ fld 16 11 ∨ off % 8 ≠ 0 ∨ (n ≠ 0 ∧ src.length < off + 8 * n)
          (q.phase = 0 → bad → goes = .next (gone.trap f 0x0603)) ∧
          (q.phase = 0 → ¬ bad → goes = then_ { q with phase := 1, accs := src.readsFrom off (8 * n) }) ∧
          (q.phase = 1 → (∃ p ∈ pairs, x.blocks ≤ p.toNat % 2 ^ 16) → goes = .next (gone.trap f 0x0603)) ∧
          (q.phase = 1 → (∀ p ∈ pairs, p.toNat % 2 ^ 16 < x.blocks) → ∃ (k : Nat) (rest : List Word),
            rest.length = 8 - n ∧ (∀ v ∈ rest, v.getLsbD 31 = false) ∧
            let image := bytesOf ((pairs.map fun p => (p &&& 0xFFFFFFFF0000FFFF) ||| 0x80000000) ++ rest)
            let p := { q with phase := 2, accs := t.writesTo (x.taps + 64 * (fld 0 7 * x.blocks + fld 16 11)) image }
            goes = .next (({ s with freeCtr := k } : State).putUm d c { x with queue := p :: qs })) ∧
          (q.phase = 2 → goes = .next (gone.engineReply f false .completion 0))) ∧
        (f.Is (.umdirty y) →
          let b := x.blocks
          let first := (List.range b).filter fun i => getAt x.round i false
          let layer := q.idx / b
          let below := fun (k : Nat) => decide ((layer - 1) * 65536 + k ∈ q.seeds)
          (q.phase = 0 → first = [] → goes = .next (gone.engineReply f true .completion 0)) ∧
          (q.phase = 0 → first ≠ [] → goes = then_ { q with phase := 1, idx := b, seeds := first }) ∧
          (q.phase = 1 → q.idx < x.layers * b →
            (q.accs = [] → goes = then_ { q with accs := t.readsFrom (x.taps + 64 * q.idx) 64 }) ∧
            (q.accs ≠ [] →
              let mass := fp32.decode (tapMass b below (wordsOf (gotOf q.accs)))
              let th := fp32.decode (getAt x.thetas layer 0).toNat
              let dirty := below (q.idx % b) = true ∨ (mass.isNan = false ∧ th.isNan = false ∧ ltVals mass th = false)
              (dirty → goes = then_ { q with idx := q.idx + 1, accs := [], seeds := q.seeds ++ [layer * 65536 + q.idx % b] }) ∧
              (¬ dirty → goes = then_ { q with idx := q.idx + 1, accs := [] }))) ∧
          (q.phase = 1 → x.layers * b ≤ q.idx → goes = then_ { q with phase := 2, idx := 0 }) ∧
          (∀ e es, q.phase = 4 → q.seeds = e :: es → q.stopAdd = true → goes =
            .next ((s.umSeed d f e).putCmd d c x { q with seeds := es, count := q.count + 1 })) ∧
          (∀ e es u, q.phase = 4 → q.seeds = e :: es → q.stopAdd = false →
            (s.umSeed d f e).engineAdd d (some f.launch) ((s.umSeed d f e).launch f.launch).part (f.knotOf y) 1 = (.done, u) → goes =
            .next (u.putCmd d c x { q with seeds := es, count := q.count + 1 })) ∧
          (q.phase = 4 → q.seeds = [] → goes = .next ((s.putUm d c { x with round := [], queue := qs }).engineReply f true .completion
            (BitVec.ofNat 64 q.count)))) ∧
        (f.Is (.umclr y) →
          (q.phase = 0 → x.layers ≤ fld 16 7 ∨ x.blocks ≤ fld 0 16 → goes = .next (gone.trap f 0x0603)) ∧
          (q.phase = 0 → fld 16 7 < x.layers → fld 0 16 < x.blocks → goes = then_ { q with phase := 1, accs := t.readsFrom word 8 }) ∧
          (q.phase = 1 → ∃ new : Nat, goes = then_ { q with phase := 2, accs := t.writesTo word (leBytes 8 new) } ∧
            ∀ j, new.testBit j = ((leNat (gotOf q.accs)).testBit j && decide (j ≠ fld 0 16 % 64))) ∧
          (q.phase = 2 → goes = .next (gone.engineReply f false .completion 0))))))

/-- TRAP, BKPT, CYCLE, METER, YIELD, FLAG and HEM (R385), and YIELD's end. SYSRD emits the register it names (Table 18.5) and SYSWR writes
a constant register of its station, sets its modified bit and emits done, moves RDIDX of FQ up to WRIDX and never back, or resumes; the
registers that are only read take no write (R384 to R386). METER reads the meter that the issuing cluster's die keeps (log 39).
-/
def Obligations.SystemInstructions : Prop :=
  (
  ∀ (x : FormX) (code id mask : BitVec 16) (n : BitVec 24) (i : BitVec 5) (s : State),
    let f := s.cur
    let v := s.opXA f x
    let debug := (s.part (s.launch f.launch).part).debug
    (s.Runs x.pm →
      exec (.cycle x) s = .next (s.emit0 f x.pm .value (BitVec.ofNat 64 (s.nCycle / 2))) ∧
      exec (.cycleStamp x) s = .next (s.emit0 f x.pm .value (s.stamp.setWidth 64)) ∧
      exec (.meter x i) s = .next (s.emit0 f x.pm .value
        (getAt s.meters (((s.launch f.launch).part * 4 + f.cl / 128) * 32 + i.toNat) 0)) ∧
      exec (.yield x n) s = .next (s.park f (.yield (s.nCycle / 2 + n.toNat)))) ∧
    (s.RunsPlain x.pm →
      (f.retry = false → exec (.trap x code) s = .next (s.faultFiring f .trap (code.setWidth 64) v)) ∧
      (f.retry = true → exec (.trap x code) s = .next (s.emit0 f x.pm .value v) ∧ exec (.bkpt x id) s = .next (s.emit0 f x.pm .value v)) ∧
      (debug = true → f.retry = false →
        exec (.bkpt x id) s = .next (s.faultFiring f .trap (BitVec.ofNat 64 (0x0801 + id.toNat * 2 ^ 16)) v)) ∧
      (debug = false → exec (.bkpt x id) s = .next (s.emit0 f x.pm .value v)) ∧
      exec (.flag x mask) s =
        .next ((s.onLaunch f.launch fun y => { y with user := y.user ||| mask }).emit0 f x.pm .value v)) ∧
    (∀ (l p t : Nat) (w : Parked), (s.launch l).parkedAt p = some w → w.why = .yield t → w.firing.Is (.yield x n) → t ≤ s.nCycle / 2 →
      (s.launch l).runs = true → s.roomFor w.firing = true →
      exec (.yieldExpiry l p) s = .next ((s.unpark l p).emit0 w.firing x.pm .value (s.opXA w.firing x)))) ∧
  (
  ∀ (x : FormX) (n : BitVec 5) (s : State),
    let f := s.cur
    let l := s.launch f.launch
    (s.Runs x.pm →
      exec (.sysrd x 0) s = .next (s.emit0 f x.pm .value (BitVec.ofNat 64 (l.qidx + l.pkt % 2 ^ 32 * 2 ^ 16))) ∧
      exec (.sysrd x 1) s = .next (s.emit0 f x.pm .value (BitVec.ofNat 64 l.part)) ∧
      exec (.sysrd x 3) s = .next (s.emit0 f x.pm .value (BitVec.ofNat 64 l.stage)) ∧
      exec (.sysrd x 5) s = .next (s.emit0 f x.pm .value ((s.cluster f.cl).exc.setWidth 64)) ∧
      (∀ p, s.pattern f.launch = some p → exec (.sysrd x 2) s = .next (s.emit0 f x.pm .value (BitVec.ofNat 64
        (p.fw + p.fh * 2 ^ 8 + p.fdies * 2 ^ 16 + l.panel.home / 128 * 2 ^ 24 + l.panel.home % 128 * 2 ^ 32)))) ∧
      exec (.sysrd x 4) s =
        .next (s.emit0 f x.pm .value (BitVec.ofNat 64 (3 + s.stepping * 2 ^ 8 + l.panel.compat.toNat * 2 ^ 16))) ∧
      (∀ a bs t, l.ovArea = some a → s.gRead (queueClient l.part l.panel.home) (a + 4) 4 .read = (.ok bs, t) →
        exec (.sysrd x 6) s = .next (t.emit0 f x.pm .value (BitVec.ofNat 64 (l.wridx % 2 ^ 32 + leNat bs % 2 ^ 32 * 2 ^ 32)))) ∧
      exec (.sysrd x 8) s = .next (s.emit0 f x.pm .value (BitVec.ofNat 64 l.doneTally)) ∧
      (l.wdog = none → exec (.sysrd x 9) s = .next (s.emit0 f x.pm .value 0xFFFFFFFF)) ∧
      (∀ n, l.wdog = some n →
        exec (.sysrd x 9) s = .next (s.emit0 f x.pm .value (BitVec.ofNat 64 ((n * 2100 - l.wdogUsed) / 2100)))) ∧
      (∀ a, l.ovArea = some a → exec (.sysrd x 10) s = .next (s.emit0 f x.pm .value (BitVec.ofNat 64 a))) ∧
      exec (.sysrd x (0x100 + n.setWidth 12)) s = .next (s.emit0 f x.pm .value (getAt f.consts n.toNat 0))) ∧
    (s.RunsPlain x.pm →
      exec (.syswr x (0x100 + n.setWidth 12)) s = .next ((s.onStation f.cl f.st fun y => { y with
        consts := setAt y.consts n.toNat (s.opXA f x) 0
        modified := y.modified ||| BitVec.ofNat 32 (2 ^ n.toNat) }).emit0 f x.pm .completion 0) ∧
      (∀ r : BitVec 12, r.toNat < 6 ∨ r = 8 ∨ r = 9 ∨ r = 10 → exec (.syswr x r) s = .next (s.emit0 f x.pm .completion 0)) ∧
      (∀ a bs t, l.ovArea = some a → s.gRead (queueClient l.part l.panel.home) (a + 4) 4 .read = (.ok bs, t) →
        let v := (s.opXA f x).toNat / 2 ^ 32
        (v < leNat bs → exec (.syswr x 6) s = .next (t.emit0 f x.pm .completion 0)) ∧
        (leNat bs ≤ v → ∀ u, t.gWrite (queueClient l.part l.panel.home) (a + 4) (leBytes 4 (min v (l.wridx % 2 ^ 32))) .write = .ok u →
          exec (.syswr x 6) s = .next (u.emit0 f x.pm .completion 0))) ∧
      exec (.syswr x 7) s =
        .next ((s.resume f.launch ((s.opXA f x).toNat % 2 ^ 32) ((s.opXA f x).getLsbD 32)).emit0 f x.pm .completion 0)))

/-- HEM begins a hem at its panel's home cluster, where its token arrives (R365, R385); a cluster that sees it notes its open writes, marks
its engines' commands and notes the writes that they have issued, and forwards the token to its children by the output queue of its station
0 (log 95); an inbound token of a child is counted; a cluster with nothing of these left and all its children's tokens in sends its own to
its parent; and at the home cluster the hem completes (R366). -/
def Obligations.HemPasses : Prop :=
  ∀ (s : State),
    (∀ (x : FormX), s.RunsPlain x.pm →
      let f := s.cur
      let l := s.launch f.launch
      let h : Hem := ⟨l.hemSeq, .instr f, l.panel.all.map fun cl => ⟨cl, false, [], [], [], 0, false⟩, false⟩
      exec (.hem x) s = .next ((s.onLaunch f.launch fun y => { y with hemSeq := y.hemSeq + 1, hems := y.hems ++ [h] }).arrive l.panel.home
        ⟨f.launch, ⟨s.hemToken f.launch l.panel.home 0 l.hemSeq, none⟩, none, s.nCycle, 4⟩)) ∧
    (∀ (cl k : Nat) (a : Arrival) (h : Hem) (hc : HemCl), s.arrivalAt cl k = some a → a.out.tok.cls = .hem →
      a.out.tok.payload.toNat % 2 = 0 → (s.launch a.launch).hems = [h] → h.seq = BitVec.ofNat 8 (a.out.tok.payload.toNat / 2 ^ 8) →
      h.at cl = some hc → hc.seen = false →
      let l := a.launch
      let seen := h.onCl cl fun c => { c with
        seen := true, notes := s.openWrites l cl, marks := (s.cluster cl).openCommands, writes := s.openEngines l cl }
      exec (.hemTokenOutbound cl k) s = .next (((s.launch l).panel.hemChildren cl).foldl (fun s c => s.onStation cl 0 fun y =>
        { y with outq := y.outq ++ [⟨s.hemToken l c 0 h.seq, none⟩] }) ((s.dropArrival cl k).putHem l 0 seen))) ∧
    (∀ (l cl : Nat) (h : Hem) (hc : HemCl), (s.launch l).hems = [h] → h.at cl = some hc → hc.seen = true → hc.sent = false →
      (∀ k, s.inboundAt cl h.seq.toNat = some k → exec (.hemTokenInbound l cl h.seq.toNat) s =
        .next ((s.dropArrival cl k).putHem l 0 (h.onCl cl fun c => { c with inn := c.inn + 1 }))) ∧
      (s.inboundAt cl h.seq.toNat = none → (∀ n ∈ hc.notes, n ∉ s.openWrites l cl) → (∀ n ∈ hc.marks, n ∉ (s.cluster cl).openCommands) →
        (∀ w ∈ hc.writes, w ∉ s.openEngines l cl) → hc.inn = ((s.launch l).panel.hemChildren cl).length →
        let h1 := h.onCl cl fun _ => { hc with notes := [], marks := [], writes := [] }
        (cl = (s.launch l).panel.home → exec (.hemTokenInbound l cl h.seq.toNat) s = .next (s.hemDone l 0 h1)) ∧
        (∀ e, cl ≠ (s.launch l).panel.home → (s.launch l).panel.hemTree.find? (fun e => decide (e.1 = cl)) = some e →
          exec (.hemTokenInbound l cl h.seq.toNat) s = .next ((s.putHem l 0 (h1.onCl cl fun d => { d with sent := true })).onStation cl 0
            fun y => { y with outq := y.outq ++ [⟨s.hemToken l e.2 1 h.seq, none⟩] }))) ∧
      (s.inboundAt cl h.seq.toNat = none → (∃ n ∈ hc.notes, n ∈ s.openWrites l cl) → ∃ h1 : Hem,
        exec (.hemTokenInbound l cl h.seq.toNat) s = .next (s.putHem l 0 h1)))

/-- The fault queue and resumes: a fault without a record is written as the next record while the queue has room (R372, R373), and
delivered (R374), unless its panel is saved or being restored (log 154); a resume of a parked record changes its state and performs again,
or drops, what it covers, or is recorded until the panel runs again (R377), and one of any other record, or after an abort or a forced
retirement has begun (log 90), has no effect (R376). -/
def Obligations.FaultRecordsAndResumes : Prop :=
  ∀ (s : State) (l : Nat),
    (∀ (area : Nat) (r : FaultRec), (s.launch l).cfg = none → (s.launch l).ovArea = some area → (s.launch l).faults = [r] → r.recid = 0 →
      let away := ((s.launch l).st = .saved ∨ (s.launch l).st = .restoring) ∧ (s.launch l).ending = none
      ∀ rd s1, s.rdidx l = (rd, s1) →
      (away → exec (.faultRecordWrite l) s = .next s) ∧
      (¬ away → exec (.faultRecordWrite l) s =
        .next (if ((s.launch l).wridx + 2 ^ 32 - rd) % 2 ^ 32 < 255 then s1.writeRecord l area r else s))) ∧
    (∀ (area : Nat) (r : FaultRec) (s1 s2 : State),
      let n := (s.launch l).wridx + 1
      let r1 : FaultRec := { r with recid := n, stampA := s.aCycle, shown := r.showing }
      let c := queueClient (s.launch l).part (s.launch l).panel.home
      s.gWrite c (area + 64 * ((n - 1) % 255 + 1)) (bytesOf r1.words) .write = .ok s1 →
      s1.gWrite c area (leBytes 4 (n % 2 ^ 32)) .write = .ok s2 →
      s.writeRecord l area r = (((s2.onLaunch l fun x => { x with wridx := n }).putFault l r1).meter l (c.cl / 128) 20 1).deliverFault l r1) ∧
    (∀ (recid : Nat) (r : FaultRec), recid ≠ 0 → (s.launch l).faults.find? (fun q => decide (q.recid = recid ∧ recid ≠ 0)) = some r →
      (r.state ≠ .parked ∨ (s.launch l).ending ≠ none →
        exec (.resumeRetry l recid) s = .next s ∧ exec (.resumeDiscard l recid) s = .next s) ∧
      (r.state = .parked → (s.launch l).ending = none → (s.launch l).st = .running → (s.launch l).freeze = none →
        exec (.resumeRetry l recid) s = .next ((s.putFault l { r with state := .retried }).carryOut l r false) ∧
        exec (.resumeDiscard l recid) s = .next ((s.putFault l { r with state := .discarded }).carryOut l r true)) ∧
      (r.state = .parked → (s.launch l).ending = none →
        (s.launch l).st = .freezing ∨ (s.launch l).st = .saved ∨ (s.launch l).st = .restoring →
        exec (.resumeRetry l recid) s = .next (s.putFault l { r with state := .retried, pending := some false }) ∧
        exec (.resumeDiscard l recid) s = .next (s.putFault l { r with state := .discarded, pending := some true })))

/-- Reset leaves no launch, no pattern, no allotted knot and no request; memory lists nothing and is in canonical form; the counters are 0
and the functions are not presented (R411, R12, R214); an iteration that has ended is left nowhere. Counters: the stamp counter's tick
(R12); the sweep that brings every held token's age within 16,384 of it, those of a launch that is not saved in the overflow area too
(R13; log 74); a quota window's deduction, which never falls below 0 (R134), with an estimate of energy in its meters (log 158); and the
steps of bring-up, of which the last presents the functions (R411). Until bring-up has presented the functions (R411), a step with nothing
on the agenda is a step of bring-up. -/
def Obligations.ResetAndCounters : Prop :=
  (
  State.reset.launches = [] ∧ State.reset.patterns = [] ∧ (∀ k, (State.reset.knot k).owner = .free) ∧ State.reset.reqs = [] ∧
    (∀ p, State.reset.byte p = 0) ∧ State.reset.nCycle = 0 ∧ State.reset.stamp = 0 ∧ State.reset.presented = false ∧
    (∀ p, (State.reset.part p).enable = false) ∧ State.reset.heldHit = false ∧ State.reset.MemoryWf ∧ State.reset.Settled) ∧
  (
  ∀ (s : State),
    exec .stampCounterTick s = .next { s with stamp := s.stamp + 1 } ∧
    exec .ageClampSweep s = .next { s with
      clusters := s.clusters.map fun k => (k.1, k.2.clamp s.stamp)
      launches := s.launches.map fun l => (l.1, l.2.clamp s.stamp)
      agenda := s.agenda ++ s.launches.map fun e => .clampOvf e.1 } ∧
    (∀ l, s.clampOvf l = if (s.launch l).saved.isSome then s
      else s.setOvf l ((s.launch l).ovf.map fun o => { o with tok := o.tok.clamp s.stamp })) ∧
    (∀ t : Token, (t.clamp s.stamp).age = if 16384 < (s.stamp - t.age).toNat then s.stamp - 16384 else t.age) ∧
    (s.quotaWindow < s.nCycle / quotaSpan → ∃ (m : List (Nat × Word)) (n : Nat), exec .quotaWindowBegin s = .next { s with
      quotaWindow := s.quotaWindow + 1
      meters := m
      freeCtr := n
      parts := s.parts.map fun p => (p.1, { p.2 with
        deduct := min (p.2.quota.toNat * 2100000) (p.2.used - (p.2.quota.toNat * 2100000 - p.2.deduct)), used := 0 }) }) ∧
    (s.bringUp = 0 ∨ s.bringUp = 1 ∨ s.bringUp = 4 → exec .bringUp s = .next { s with bringUp := s.bringUp + 1 }) ∧
    (s.bringUp = 2 → exec .bringUp s = .next { s with bringUp := 3, calendar := 0 }) ∧
    (s.bringUp = 3 → exec .bringUp s = .next { s with bringUp := 4, nCycle := 0, stamp := 0 }) ∧
    (s.bringUp = 5 → exec .bringUp s = .next { s with bringUp := 6, presented := true }) ∧
    (s.bringUp = 6 → exec .bringUp s = .next s)) ∧
  (
  ∀ (s : State), s.agenda = [] → s.presented = false → s.heldHit = false →
    step s = s.settled (exec .bringUp { s with freeCtr := s.freeCtr + 1 }))

/-- The scheduler takes a packet once it has read the queue's header again after the publication (R112, R114, R117); a header read again
takes effect then or later, freely chosen, and only where it is accepted (R112); the checks 1 to 8 of Table 5.5, in order, with the record of
the one that fails, and the Depending launch that a packet which passes them becomes (R118 to R120, R124); aged priorities (R133); a launch whose dependences are
met enters Placing or is rejected (R118, R119); the first candidate that has a legal placement is placed (R132, R334), after the saved
launches that cannot be restored here are rejected (R406; log 159); and the blocked head's 2 ms (R133).  A registration: the handle of an
image that is registered already (R106), the status of the first check of Table 4.5 that fails, of those that read the image (R101; the
order within check 1 is log 157), after which nothing is registered, and the handle, the generation and the launch log where all pass
(R106, R401). -/
def Obligations.SchedulerSteps : Prop :=
  ∀ (s : State) (part q l : Nat),
    (∀ (v : Word) (h : QueueHdr) (w w' : List Word) (s1 s2 : State), look (s.part part).lq q = some v → look (s.part part).lqHdr q = some h →
      (s.part part).enable = true → v.getLsbD 0 = true → h.read < (s.knot (knotKey h.publish)).value.toNat →
      (s.launches.any fun e => decide (e.2.part = part ∧ e.2.qidx = q ∧ e.2.pkt + ringSize h.log2 = h.read)) = false →
      h.seen = (s.knot (knotKey h.publish)).value.toNat →
      s.queuePeek (s.schedClient part q) (entryAddr v) h.read h.log2 = (some w, s1) →
      s1.queueTake (s.schedClient part q) (entryAddr v) h.read h.log2 w = .ok (w', s2) →
      exec (.consumePacket part q) s = .next ((s2.onPart part fun x => { x with
        lqHdr := put x.lqHdr q { h with read := h.read + 1 } }).consumed part q h.read h w')) ∧
    (∀ (v : Word) (h n : QueueHdr) (s1 : State), look (s.part part).lq q = some v → look (s.part part).lqHdr q = some h →
      (s.part part).enable = true → v.getLsbD 0 = true → h.seen ≠ (s.knot (knotKey h.publish)).value.toNat →
      s.readHeader (s.schedClient part q) (entryAddr v) = (some n, s1) → ∃ h1 : QueueHdr,
        (h1 = { h with seen := (s.knot (knotKey h.publish)).value.toNat } ∨
          (s.headerFits part n = true ∧ h1 = { n with read := h.read, seen := (s1.knot (knotKey n.publish)).value.toNat })) ∧
        let t := ({ s1 with freeCtr := s1.freeCtr + 1 } : State).onPart part fun x => { x with lqHdr := put x.lqHdr q h1 }
        exec (.queueRereadPoll part q) s = .next t ∧
        (h.read < (s.knot (knotKey h.publish)).value.toNat →
          (s.launches.any fun e => decide (e.2.part = part ∧ e.2.qidx = q ∧ e.2.pkt + ringSize h.log2 = h.read)) = false →
          exec (.consumePacket part q) s = .next t)) ∧
    (∀ (i : Nat) (h : QueueHdr) (p : List Word), (wordAt p 0).toNat % 256 ≠ 0 → (wordAt p 0).toNat % 256 ≠ 3 →
      let pt := s.part part
      let w2 := (wordAt p 2).toNat
      let held := (countFrom 0 512).filter fun k => pt.allot.getLsbD k
      let valid := fun (h : Word) => h = Machine.noKnot ∨ s.isStanding part h = true
      let at_ := h.recbase + i % ringSize h.log2 * 64
      let rejects := fun (status res : Nat) => s.consumed part q i h p =
        ((s.writeReject part q i at_ p 0 status res).validAdd part ((s.schedClient part q).cl / 128) (wordAt p 6)).freeHandles
      let packet := (wordAt p 0).toNat % 256 = 1 ∧ launchPacketClean p = true
      let mine := (wordAt p 0).toNat / 2 ^ 32 % 2 ^ 6 = part ∧ pt.enable = true
      (¬ packet → rejects 2 0) ∧ (packet → ¬ mine → rejects 3 0) ∧
      (packet → mine → s.handleOf? part (wordAt p 1) = none → rejects 3 0) ∧
      (∀ n pat, packet → mine → s.handleOf? part (wordAt p 1) = some (n, pat) →
        let knots := valid (wordAt p 6) ∧ valid (wordAt p 3) ∧ valid (wordAt p 4)
        let stage := w2 % 2 ^ 4 < pat.stages.length
        let named := fun (x v : Nat) => x = 0 ∨ x = v
        let shape := named (w2 / 2 ^ 32 % 2 ^ 8) pat.fw ∧ named (w2 / 2 ^ 40 % 2 ^ 8) pat.fh ∧ named (w2 / 2 ^ 48 % 2 ^ 3) pat.fdies
        let mask := w2 / 2 ^ 8 % 2 ^ 4
        let dies := (countFrom 0 4).countP fun d => (decide (mask = 0) || mask.testBit d) && held.any fun k => decide (k / 128 = d)
        let room := pat.fw * pat.fh * pat.fdies ≤ held.length
        let pool := pat.knots ≤ 4096 * held.length - s.knots.countP fun k => decide (k.2.owner = .standing ∧ k.2.opart.toNat = part)
        (¬ knots → rejects 3 0) ∧ (knots → ¬ stage → rejects 2 7) ∧ (knots → stage → ¬ shape → rejects 2 8) ∧
        (knots → stage → shape → ¬ room → rejects 2 1) ∧ (knots → stage → shape → room → dies < pat.fdies → rejects 2 2) ∧
        (knots → stage → shape → room → pat.fdies ≤ dies → ¬ pool → rejects 2 3) ∧
        (knots → stage → shape → room → pat.fdies ≤ dies → pool →
          let prio := min ((wordAt p 0).toNat / 2 ^ 38 % 2 ^ 2) h.qpri
          let x : Launch := { Launch.blank with
            part := part, qidx := q, pkt := i, packet := p, recAddr := at_, pat := (wordAt p 1).toNat % 2 ^ 12, stage := w2 % 2 ^ 4
            prio := prio, aged := prio
            wdog := if h.wdog ≠ 0 then some h.wdog else if pt.wdogdef.toNat ≠ 0 then some pt.wdogdef.toNat else none }
          let t := ({ s with launches := put s.launches s.serial x, serial := s.serial + 1 } : State).depWaiters p true
          x.st = .depending ∧ s.consumed part q i h p = (if dependences p = []
            then ({ t with agenda := t.agenda ++ [.event (.dependencesMet s.serial)] } : State) else t).freeHandles))) ∧
    ((s.launch l).st = .placing ∨ (s.launch l).st = .saved → exec (.agedPriorityStep l) s = .next (s.onLaunch l fun y => { y with
      aged := min 3 (y.prio + (y.waited + (s.nCycle - y.since)) / 21000000) })) ∧
    (∀ (x : Launch), look s.launches l = some x → x.st = .depending →
      (∀ d ∈ dependences x.packet, d.2 ≤ (s.knot (knotKey d.1)).value.toNat) →
      (∀ ds s1, s.seedsOf x = (some ds, s1) →
        exec (.dependencesMet l) s = .next (((s1.depWaiters x.packet false).enterPlacing l ds).carveAll x.part)) ∧
      (∀ s1, s.seedsOf x = (none, s1) → exec (.dependencesMet l) s = .next (s1.rejectLaunch l 2 6))) ∧
    (∀ (x : Launch) (n : Nat) (r : Place) (rest : List (Nat × Launch)),
      let s0 := s.rejectLost part
      let s1 := (s0.inOrder part).foldl (fun s e => s.onLaunch e.1 fun x => { x with aged := s.agedNow x }) s0
      let s2 := s1.carveAll part
      (s.part part).enable = true → s2.candidates part = (l, x) :: rest → s2.legal l [] = some (n, r) →
        ((s2.launch l).saved = none → exec (.placementDecision part) s = .next (s2.placeAt l r)) ∧
        (∀ ok s3, s2.saveIntact (s2.launch l) = (ok, s3) →
          exec (.placementDecision part) s = .next (if ok then s3.placeAt l r else s3.rejectLaunch l 2 0))) ∧
    (∀ (x : Launch) (t : Nat) (rest : List (Nat × Launch)), s.candidates part = (l, x) :: rest → (s.launch l).blockedAt = some t →
      t + 4200000 ≤ s.nCycle → (s.part part).blocked ≠ some l →
      exec (.blockedHeadTimeout part) s = .next (s.onPart part fun p => { p with blocked := some l })) ∧
    (∀ (addr : Nat) (img : List Byte) (d : BitVec 384),
      let b := imgNat img
      let logged := s.onPart part fun x => { x with launchLog := sha384 (digestBytes x.launchLog ++ digestBytes d) }
      let header := 64 ≤ img.length ∧ b 0 4 = 0x594B5A01 ∧ b 4 2 = 1 ∧ b 7 1 < 8 ∧ 1 ≤ b 8 1 ∧ b 8 1 ≤ 16 ∧ 1 ≤ b 9 1 ∧ b 9 1 ≤ 8 ∧
        1 ≤ b 10 1 ∧ b 10 1 ≤ 4 ∧ 1 ≤ b 11 1 ∧ b 11 1 ≤ 16 ∧ 1 ≤ b 12 2 ∧ b 16 8 = img.length ∧ ∀ x ∈ (img.drop 24).take 40, x = 0
      ∃ (r : RegOut) (h : Word) (t : State), s.registerBytes part addr img d = (r, h, t) ∧
        (∀ i pt, s.patternBy part d = some (i, pt) → r.status = 0 ∧ r.warn = pt.warn.toNat + 8 ∧ h = handleWord i part pt.gen ∧ t = logged) ∧
        (s.patternBy part d = none →
          (r.status ≠ 0 → h = 0 ∧ t = s) ∧ (¬ header → r.status = 1) ∧ (header → 3 < b 6 1 → r.status = 2) ∧
          (header → b 6 1 ≤ 3 → directoryOk img = false → r.status = 1) ∧
          (∀ im, header → b 6 1 ≤ 3 → directoryOk img = true → parseImage img part addr d = some im →
            let a := im.analyse
            let failing := a.failing s.stepping
            let checks := [(a.tablesOk, 1), (im.pat.errata.all fun e => decide (e = 17), 4), (Config.summaryAgrees im.summary im.bytes, 1),
              ((sizeCode im.pat).isNone, 5), (a.certFault.isNone, 6), (!a.mixes, 7), (a.portalOk, 8),
              (a.racePair.isNone || (s.part part).permissive, 9), (s.freeIndex.isSome, 10)]
            (failing ≠ [] → (∀ x ∈ failing, x.2 ≠ 0) → r.fails = failing.length ∧ ∃ x ∈ failing, r.status = x.2 ∧ r.at_ = x.1.place) ∧
            (failing = [] → r.status = ((checks.find? fun c => !c.1).map Prod.snd).getD 0)) ∧
          (r.status = 0 → ∃ i, s.freeIndex = some i ∧ h = handleWord i part (getAt s.gens i 0 % 2 ^ 30) ∧
            (∀ j, j ≠ i → look t.patterns j = look s.patterns j) ∧
            (∃ pt, look t.patterns i = some pt ∧ pt.gen = getAt s.gens i 0 % 2 ^ 30) ∧
            t.gens = put s.gens i (getAt s.gens i 0 % 2 ^ 30 + 1) ∧ t.parts = logged.parts)))

/-- Configuration: a station takes its slots, route entries and constants from its stage image, every other constant register being 0,
and its cluster's memory port its slot table (R130, R143, R147, R236; logs 99 and 155); a cluster's store that holds the image of the stage to
be loaded is filled, and for one that does not the scheduler issues overlay packets: on entry to Configuring for that image and the others
that fit, in a switch for that image, once the images of other stages have been evicted in descending order and the one of the stage
switched from last (R146; log 155); with every station loaded a new launch runs (R118, R148), a restored one goes on (R381), and a
switched one goes on in its new stage (R143). A quiescent stage beside waiting tokens begins a switch (R142): to the stage of the token
that has waited longest where one has waited more than 2 ms, else to the one for which most tokens wait, ties going to the lower index; the
switch begins with a hem (R143, R144). A wave that finds the stage not quiescent clears the touched bits (R30; log 130). -/
def Obligations.ConfigurationSteps : Prop :=
  (
  ∀ (s : State) (l : Nat) (x : Launch) (g : Cfg) (p : Pattern) (img : StageImg), look s.launches l = some x → x.cfg = some g →
    s.pattern l = some p → nth p.stages x.target = some img →
    (∀ cl st, cl ∈ g.filled → cl * 16 + st ∉ g.loaded → st < 16 → x.switchHem = false →
      let r := (img.stations.find? fun r => decide (r.cluster = x.panel.footprint cl ∧ r.station = st)).getD ⟨0, 0, 0, [], [], []⟩
      exec (.stationLoad l cl st) s = .next (((s.onStation cl st fun y => { y with
        occ := r.occ, words := r.words, routes := r.routes
        consts := (r.consts.map fun c => (c.1, s.constantOf l c.2)).filter fun c => decide (c.2 ≠ 0), modified := 0 }).onCluster cl fun c =>
          { c with slots := (countFrom 0 64).map fun n => (Config.slotStream p.digest x.target (x.panel.footprint cl) n).toNat }).onLaunch l
            fun y => { y with cfg := some { g with loaded := g.loaded ++ [cl * 16 + st] } })) ∧
    (∀ cl, cl ∉ g.filled → cl ∈ x.panel.all → x.switchHem = false →
      let c := s.cluster cl
      let fcl := x.panel.footprint cl
      let kept := p.evictFor fcl x.target c.copy.filling
        ((sortNats (c.store.filter fun h => decide (h ≠ x.stage))).reverse ++ [x.stage]) c.store
      (x.target ∈ c.store → exec (.patternStoreFill l cl) s = .next (s.onLaunch l fun y =>
        { y with cfg := some { g with filled := g.filled ++ [cl] } })) ∧
      (x.target ∉ c.store → x.target ∈ c.copy.filling → exec (.patternStoreFill l cl) s = .next s) ∧
      (x.target ∉ c.store → x.target ∉ c.copy.filling → g.isSwitch = false → exec (.patternStoreFill l cl) s =
        .next (s.issueFills p cl fcl (p.fillMore fcl (countFrom 0 p.stages.length) [x.target]))) ∧
      (x.target ∉ c.store → x.target ∉ c.copy.filling → g.isSwitch = true →
        p.storeBytes fcl (kept ++ c.copy.filling ++ [x.target]) ≤ 262144 → exec (.patternStoreFill l cl) s =
          .next ((s.onCluster cl fun c => { c with
            store := kept, storeMem := c.storeMem.filter fun e => decide (e.1 / 262144 ∈ kept) }).issueFills p cl fcl [x.target]))) ∧
    (x.allLoaded = true → x.switchHem = false →
      (g.why = .initial → exec (.configurationCompleteWave l) s =
        .next (s.onLaunch l fun y => { y with st := .running, cfg := none, fab := StreamFab.ofStage img })) ∧
      (g.why = .restore → x.saved = none → exec (.configurationCompleteWave l) s =
        .next ((s.onLaunch l fun y => { y with st := .running, cfg := none, fab := y.fab.recount }).wakeRestored l)) ∧
      (∀ n, g.why = .switch n →
        let t := x.panel.all.foldl (fun s cl => s.reinject l cl)
          (s.onLaunch l fun y => { y with stage := n, cfg := none, freeze := none, fab := StreamFab.ofStage img })
        (x.freeze = none → exec (.configurationCompleteWave l) s = .next t) ∧
        (∀ z, x.freeze = some z → exec (.configurationCompleteWave l) s = .next (t.startFreeze l z.watchdog z.since))))) ∧
  (
  ∀ (s : State) (l : Nat), (s.launch l).runs = true → s.stageWaits l = true →
    (∀ g, s.quiescent l = true → s.nextStage l = some g →
      exec (.stageSwitch l) s = .next ((s.onLaunch l fun x => { x with cfg := some ⟨.switch g, [], []⟩ }).beginHem l .stage)) ∧
    (s.quiescent l = false → exec (.stageSwitch l) s = .next (s.clearTouched l)) ∧
    (s.waitingAt l ≠ [] → (∀ w ∈ s.waitingAt l, w.1 < 16) → ∃ g, s.nextStage l = some g ∧
      let wait := fun (w : Nat × Nat) => s.aCycle - w.2
      let tokens := fun (h : Nat) => (s.waitingAt l).countP fun w => decide (w.1 = h)
      ((∃ w ∈ s.waitingAt l, 2100000 < wait w) → ∃ w ∈ s.waitingAt l, w.1 = g ∧
        ∀ v ∈ s.waitingAt l, wait v < wait w ∨ (wait v = wait w ∧ g ≤ v.1)) ∧
      ((∀ w ∈ s.waitingAt l, wait w ≤ 2100000) → 0 < tokens g ∧ ∀ h, tokens h < tokens g ∨ (tokens h = tokens g ∧ g ≤ h))))

/-- An operand token that reaches its station takes a free entry of its table, or enters where it completes its firing, else takes a
remnant entry, else faults with TENSION and waits in the overflow area (R14, R24, R151, R154); one whose slot is an entry of a stage that
is not resident waits there (R140), and one under a kill mark is annihilated (R27); during a freeze one that finds no entry stays in flight
(R378). The earliest remnant entry of a station moves into its table when an entry is free (R154). The injector, once in an A-cycle, sends a
seed of an open group to its instance, and discards and counts one that addresses no entry (R122, R123); an entry with room admits its
oldest waiting activation (R22, R179). -/
def Obligations.TokensAndEntries : Prop :=
  (
  ∀ (s : State) (cl : Nat),
    (∀ (k : Nat) (a : Arrival), s.arrivalAt cl k = some a → a.out.eng = none → a.out.tok.cls.operand = true →
      let t := a.out.tok
      let s1 := s.dropArrival cl k
      ((s.launch a.launch).freeze = none ∨ s.fits a.launch cl a.out = true → s.otherStage a.launch t = none →
        (t.colour = 0 → exec (.tokenDelivered cl k) s = .next (s1.placeOperand a.launch cl a.out)) ∧
        (t.colour ≠ 0 → ((s1.station cl (t.station.toNat % 16)).mark t.slot.toNat t.tag t.colour).killed = true →
          exec (.tokenDelivered cl k) s = .next s1) ∧
        (t.colour ≠ 0 → ((s1.station cl (t.station.toNat % 16)).mark t.slot.toNat t.tag t.colour).killed = false →
          exec (.tokenDelivered cl k) s = .next (s1.placeOperand a.launch cl a.out))) ∧
      (∀ g, s.otherStage a.launch t = some g → exec (.tokenDelivered cl k) s = .next (s1.stageWaitAt a.launch cl g a.out)) ∧
      ((s.launch a.launch).freeze ≠ none → s.otherStage a.launch t = none → s.fits a.launch cl a.out = false →
        exec (.tokenDelivered cl k) s = .next s)) ∧
    (∀ (l : Nat) (t : OutTok),
      let n := t.tok.station.toNat % 16
      let y := s.station cl n
      let count := s.onStation cl n fun x => { x with arrseq := x.arrseq + 1 }
      let h : Held := ⟨t.tok, y.arrseq, s.nCycle / 2, false⟩
      let key := fun (s : State) => keyFiring l cl n (s.cluster cl) t.tok.slot t.tok.tag
      let enters := s.tableUse l cl n < s.cap l ∨
        (key s = none ∧ (key (count.onStation cl n fun x => { x with table := x.table ++ [h] })).isSome = true)
      (enters →
        (s.placeOperand l cl t).station cl n = { y with arrseq := y.arrseq + 1, table := y.table ++ [h] } ∧
        (∀ k m, ¬ (k = cl ∧ m = n) → (s.placeOperand l cl t).station k m = s.station k m) ∧
        (∀ k, (s.placeOperand l cl t).launch k = s.launch k)) ∧
      let stored := s.remnantUse l cl + (s.cluster cl).remnant.countP (fun r => decide (r.kind = .stageWait))
      let free := s.remnantUse l cl < s.remnantLimit l cl ∧ stored < 8192
      (¬ enters → free → s.placeOperand l cl t = count.onCluster cl fun c =>
        { c with remnant := c.remnant ++ [⟨t.tok, y.arrseq, .operand, n, s.nCycle / 2⟩] }) ∧
      (¬ enters → ¬ free → s.placeOperand l cl t = count.tensionPark l cl t) ∧
      (∀ g, let room := (s.cluster cl).remnant.countP (fun r => decide (r.kind = .stageWait)) + 1 ≤ 8192 - s.remnantLimit l cl ∧ stored < 8192
        (room → s.stageWaitAt l cl g t = s.onCluster cl fun c =>
          { c with remnant := c.remnant ++ [⟨t.tok, 0, .stageWait, n, s.nCycle / 2⟩] }) ∧
        (¬ room → s.stageWaitAt l cl g t = s.overflow l ⟨0, .stage g, t.tok, s.nCycle / 2, 0, t.eng, none⟩))) ∧
    (∀ (l st : Nat) (h : Held), (s.cluster cl).owner = some l → s.tableUse l cl st < s.cap l →
      earliest (s.station cl st).arrseq (((s.cluster cl).remnant.filter fun r => decide (r.kind = .operand ∧ r.stn = st)).map
        fun r => ⟨r.tok, r.seq, r.wstamp, false⟩) = some h →
      exec (.remnantPromote cl st) s = .next ((s.onCluster cl fun c => { c with remnant := c.remnant.filter fun r =>
        !(decide (r.kind = .operand ∧ r.stn = st ∧ r.seq = h.seq)) }).onStation cl st fun x => { x with table := x.table ++ [h] }))) ∧
  (
  ∀ (s : State) (l : Nat) (p : Pattern), s.pattern l = some p → (s.launch l).runs = true →
    let x := s.launch l
    (s.aCycle < x.seedAt → exec (.seedInject l) s = .next s) ∧
    (∀ (d : Seed), nextSeed x.seeds x.seedOrder = some d → x.seedAt ≤ s.aCycle →
      let s1 := s.onLaunch l fun y => { y with
        seeds := y.seeds.erase d, seedAt := s.nCycle / 2 + 1, wdogOn := true, startA := if y.wdogOn then y.startA else s.nCycle / 2 }
      ((s.seedBad l p d = true ∨ d.group ∈ x.badGroups) →
        exec (.seedInject l) s = .next (s1.onLaunch l fun y => { y with leftover := y.leftover + 1 })) ∧
      (s.seedBad l p d = false → d.group ∉ x.badGroups → ∀ e, seedEntry p x.firstStage d = some e →
        exec (.seedInject l) s = .next (s1.seedGo l p (getAt x.groupEntry d.group e) d))) ∧
    (∀ (e id : Nat) (r : EntryRec) (o : OvfRec), nth p.entries e = some r → x.freeId = some id →
      oldestGroup (x.ovf.filter fun o => decide (o.list = .entry e)) = some o → x.activations e < r.tension →
      let mine := fun (q : OvfRec) => decide (q.list = .entry e ∧ q.group = o.group)
      let b := BitVec.ofNat 10 id
      let s1 := (s.setOvf l (x.ovf.filter fun q => !mine q)).onLaunch l fun y => { (y.openRoot p e id) with
        groups := y.groups.map fun g => if g.2 = 2 * o.group + 1 then (g.1, 2 * id) else g }
      exec (.entryAdmit l e) s = .next ((x.ovf.filter mine).foldl (fun s q =>
        s.inject l ⟨{ q.tok with tag := { q.tok.tag with bobbin := b, iter := 0 } }, q.eng⟩ q.src) s1)))

/-- The network's steps: a router works once in an N-cycle. Its through tokens, oldest first, are ejected or take a productive output, the x
outputs first, or else the first free panel link (R159; the distance is over the panel's links, log 169); then one head of its stations
is injected where an output is left, and the uplink and the local path take theirs (R158), the heads being free choices (log 3). A
router whose token has waited 64 N-cycles raises STARVE (R160); a receiving port takes in its downlink's head (R162); a destination
returns between 1 and 16 of the credits that it owes (R161), the number being free (log 3); and a spine switch's heads leave oldest first
(R164). A commit token that completes its slot's ports uncolours what is held there, issues the held effects one after another, and then
raises what was deferred and passes on; a kill token annihilates and passes on; each is remembered until every port that can carry the
colour has had one (R26, R27, R28). Each waits while a reply to the slot is due under the colour, and for room in the output queue
(R150; log 62). -/
def Obligations.NetworkAndColourWaves : Prop :=
  (
  ∀ (s : State) (cl : Nat),
    (∀ l, (s.cluster cl).owner = some l → (s.launch l).moves = true → (s.cluster cl).routed = false →
      let lane := fun (f : Flit) => match f.at_ with | .router _ i => i | _ => 4
      let first := fun (f g : Flit) => older f.out.tok.age g.out.tok.age = true ∨ older g.out.tok.age f.out.tok.age = false ∧ lane f ≤ lane g
      let assigned := fun (acc : State × Router) (f : Flit) =>
        let (t, r) := acc
        let dst := match f.to_ with | .cluster k => k | _ => cl
        let lanes := (t.cluster cl).lanes
        if dst = cl ∧ r.eject < 2 ∧ t.admits cl f = true then
          (if (t.cluster cl).expects f = true then (t.portDeliver l cl f (lanes + 1)).onCluster cl fun c => { c with lanes := c.lanes + 1 }
            else (t.moveFlit f (.reorder cl)).onCluster cl fun c => c, { r with eject := r.eject + 1 })
        else
          match outputOf (s.launch l).panel r.used cl dst with
          | some (d, n) => (t.moveFlit f (.router n ((d + 2) % 4)), { r with used := setNth r.used d ((nth r.used d).getD 0 + 1) })
          | none => (t, r)
      ∃ order : List Flit, order.Perm (s.flits.filter fun f => !f.moved && match f.at_ with | .router k _ => decide (k = cl) | _ => false) ∧
        (∀ a b f g, order = a ++ f :: g :: b → first f g) ∧
        let (t, r) := order.foldl assigned (s, ⟨[0, 0, 0, 0], 0⟩)
        exec (.routerCycle cl) s = .next ((((t.injectMesh l cl r).injectSpine l cl).localPath l cl).onCluster cl fun c =>
          { c with routed := true })) ∧
    (∀ (p : Panel) (used : List Nat) (dst : Nat),
      let far := fun (k : Nat) =>
        let tree := bfsFrom (p.all.filter fun k => decide (k / 128 = cl / 128)) dst
        hopsGo tree tree.length k
      let nearer := fun (d : Nat) => (neighbour cl d).any fun n => decide (n ∈ p.all ∧ far n < far cl)
      let open_ := fun (d : Nat) => (neighbour cl d).any (fun n => decide (n ∈ p.all)) && decide ((nth used d).getD 0 < 2)
      outputOf p used cl dst =
        (([0, 2, 1, 3].filter nearer ++ [0, 1, 2, 3]).find? open_).map fun d => (d, (neighbour cl d).getD 0)) ∧
    (∀ l r, let hs := s.heads l cl fun w => match w with | .mesh k => (s.cluster cl).credit k | _ => false
      let waits := fun (hs : List (Nat × OutTok)) (t : State) =>
        hs.foldl (fun t h => t.onStation cl h.1 fun x => { x with injectWait := x.injectWait + 1 }) t
      let t : State := { s with freeCtr := s.freeCtr + 1 }
      (hs = [] → s.injectMesh l cl r = s) ∧
      (s.starved l cl = true → hs ≠ [] → s.injectMesh l cl r = waits hs t) ∧
      (s.starved l cl = false → hs ≠ [] → ∃ h ∈ hs, ∃ k, s.way l cl h.2 = .mesh k ∧
        (outputOf (s.launch l).panel r.used cl k = none → s.injectMesh l cl r = waits hs t) ∧
        (∀ d n, outputOf (s.launch l).panel r.used cl k = some (d, n) →
          let (q, c) := (s.cluster cl).depart k
          let f : Flit := ⟨s.serial, h.2, cl, h.1, .cluster k, q, .router n ((d + 2) % 4), true⟩
          s.injectMesh l cl r = waits (hs.filter fun g => decide (g.1 ≠ h.1))
            ((({ t with serial := s.serial + 1, flits := s.flits ++ [f] }).setCluster cl { c with starve := none }).popOut cl h.1)))) ∧
    (∀ l, let hs := s.heads l cl fun w => match w with | .spine (.cluster k) => (s.cluster cl).credit k | .spine _ => true | _ => false
      let full := 16 ≤ (s.spineFifo (cl / 128) (cl % 128)).length
      let t : State := { s with freeCtr := s.freeCtr + 1 }
      (hs = [] ∨ full → s.injectSpine l cl = s) ∧
      (hs ≠ [] → ¬full → ∃ h ∈ hs, ∃ to_, s.way l cl h.2 = .spine to_ ∧
        let (q, c) := match to_ with | .cluster k => (s.cluster cl).depart k | _ => (0, s.cluster cl)
        let f : Flit := ⟨s.serial, h.2, cl, h.1, to_, q, .spine (cl / 128) (cl % 128), true⟩
        s.injectSpine l cl = ((({ t with serial := s.serial + 1, flits := s.flits ++ [f] }).setCluster cl c).popOut cl h.1))) ∧
    (∀ l, s.localPath l cl = (s.heads l cl fun w => decide (w = .near) || decide (w = .lost)).foldl (fun t h =>
      if t.way l cl h.2 = .near then (t.popOut cl h.1).arrive cl ⟨l, h.2, some (cl * 16 + h.1), t.nCycle, 0⟩ else t.popOut cl h.1) s) ∧
    (∀ e ∈ (s.cluster cl).stations, 64 ≤ e.2.injectWait → (s.cluster cl).starve = none →
      exec (.starve cl) s = .next (s.onCluster cl fun c => { c with starve := some s.nCycle })) ∧
    (∀ n, (s.cluster cl).starve = some n → exec (.starve cl) s = .next s) ∧
    (∀ l f, (s.cluster cl).owner = some l → (s.launch l).moves = true → (s.cluster cl).routed = true →
      s.flits.find? (fun f => decide (f.at_ = .downlink cl)) = some f → (s.cluster cl).down = false → s.admits cl f = true →
      exec (.receivePortDelivery cl) s =
        .next (State.releases l cl 2 ((s.receive l cl f 3).onCluster cl fun c => { c with down := true }))) ∧
    (∀ src, getAt (s.cluster cl).owed src 0 ≠ 0 → ∃ n, 1 ≤ n ∧ n ≤ 16 ∧ n ≤ getAt (s.cluster cl).owed src 0 ∧
      exec (.creditReturn src cl) s = .next ((({ s with freeCtr := s.freeCtr + 1 } : State).onCluster cl fun c => { c with
        owed := setAt c.owed src (getAt (s.cluster cl).owed src 0 - n) 0 }).onCluster src fun c =>
          { c with credits := setAt c.credits cl (getAt c.credits cl 0 - n) 0 })) ∧
    (∀ d f, s.spineHeads d = [f] → (s.launch (s.flitLaunch f)).moves = true →
      exec (.spineSwitchCycle d) s = .next (s.spineTake d f))) ∧
  (
  ∀ (s : State) (cl k : Nat) (a : Arrival), s.arrivalAt cl k = some a → a.out.eng = none →
    let t := a.out.tok
    let l := a.launch
    let n := t.station.toNat % 16
    let slot := t.slot.toNat
    let c := BitVec.ofNat 2 t.payload.toNat
    let m := (s.station cl n).mark slot t.tag c
    let mc := { m with commitPorts := union m.commitPorts [t.port] }
    let mk := { m with killed := true, killPorts := union m.killPorts [t.port] }
    let s1 := s.dropArrival cl k
    (t.cls = .commit →
      let u := s.uncolour l cl n slot t.tag c
      let first := (u.station cl n).held.find? fun h => h.firing.under cl n slot t.tag c
      (m.killed = true → exec (.commitTokenArrival cl k) s = .next s1) ∧
      (m.killed = false → (∃ p ∈ s.carrying l t c, p ∉ mc.commitPorts) →
        exec (.commitTokenArrival cl k) s = .next (s1.onStation cl n fun x => x.setMark mc)) ∧
      (m.killed = false → (∀ p ∈ s.carrying l t c, p ∈ mc.commitPorts) →
        (s.replyDue cl n slot t.tag c = true → exec (.commitTokenArrival cl k) s = .next s) ∧
        (s.replyDue cl n slot t.tag c = false →
          (u.issuing l cl n slot t.tag = true → exec (.commitTokenArrival cl k) s = .next u) ∧
          (u.issuing l cl n slot t.tag = false →
            (∀ h, first = some h → h.tok = none → u.seamCredits h.firing = true → exec (.commitTokenArrival cl k) s =
              .next ((u.onStation h.firing.cl h.firing.st fun x => { x with held := x.held.erase h }).park
                { h.firing.plain with atCommit := true } .again)) ∧
            (∀ h, first = some h → h.tok = none → u.seamCredits h.firing = false → exec (.commitTokenArrival cl k) s = .next u) ∧
            (∀ h, first = some h → h.tok ≠ none → exec (.commitTokenArrival cl k) s =
              .next (u.onStation h.firing.cl h.firing.st fun x => { x with
                held := x.held.map fun g => if g = h then { h with firing := h.firing.plain } else g })) ∧
            (first = none → u.mayForward l cl t c = true → exec (.commitTokenArrival cl k) s =
              .next ((((((u.dropArrival cl k).raiseDeferred l cl n slot t.tag c).forward l cl t c).onStation cl n
                fun x => x.clearMark slot t.tag c)).wavePassed l t c)) ∧
            (first = none → u.mayForward l cl t c = false → exec (.commitTokenArrival cl k) s = .next u))))) ∧
    (t.cls = .kill →
      let s2 := if m.killed then s1 else (s1.annihilate l cl n slot t.tag c).forward l cl t c
      let waits := s.replyDue cl n slot t.tag c = true ∨ (m.killed = false ∧ s.mayForward l cl t c = false)
      (waits → exec (.killTokenArrival cl k) s = .next s) ∧
      (¬ waits → (∀ p ∈ s2.carrying l t c, p ∈ mk.killPorts) →
        exec (.killTokenArrival cl k) s = .next ((s2.onStation cl n fun x => x.clearMark slot t.tag c).wavePassed l t c)) ∧
      (¬ waits → (∃ p ∈ s2.carrying l t c, p ∉ mk.killPorts) →
        exec (.killTokenArrival cl k) s = .next (s2.onStation cl n fun x => x.setMark mk))))

/-- What waits is released: a phase's wave, after which each PHWAIT emits as soon as its output queue has room (R30, R183); a generator's
next iteration, whose ITER becomes Live with its number, whose value is base + j * step under the instance's own tag, and which marks the
instance's end when it is the last, no two in one A-cycle, while it waits for an ITER that is not Free or an instance that is freeing, and
its completion (R175); a NEXT whose iteration is Live (R176); a BALLOC that has an id (R173); and a ticket's grant (R186), which is a reply
(log 65) and after which a request that found the FIFO full enters it. -/
def Obligations.WaitersReleased : Prop :=
  ∀ (s : State) (l : Nat), (s.launch l).runs = true →
    (∀ ph, (s.launch l).phaseWaiters ph ≠ [] →
      let s1 := (s.launch l).panel.all.foldl (fun s cl => s.onCluster cl fun c =>
        { c with touched := c.touched &&& ~~~(BitVec.ofNat 16 (2 ^ ph)) }) s
      (s.phaseClosed l ph = false → exec (.phaseReductionWave l ph) s = .next s1) ∧
      (s.phaseClosed l ph = true → exec (.phaseReductionWave l ph) s = .next (s1.onLaunch l fun x => { x with
        parked := x.parked.map fun p => if p ∈ (s.launch l).phaseWaiters ph then { p with why := .phdone } else p }))) ∧
    (∀ (p : Parked) (x : FormX) (ph : BitVec 4) (src : Bool), p.why = .phdone → p.firing.Is (.phwait x ph src) →
      (Pick.again l p).run s = .next ((s.unpark l p.id).emit0 p.firing x.pm (passClass x.sa p.firing.a) (s.opXA p.firing x))) ∧
    (∀ (y : Generator) (rest : List Generator) (i : Instance), (s.launch l).gens = y :: rest → s.roomFor y.firing = true →
      s.seamCredits y.firing = true →
      (s.aCycle < y.last → exec (.generatorStep l y.id) s = .next s) ∧
      (y.last ≤ s.aCycle →
        (y.j = y.n → exec (.generatorStep l y.id) s =
          .next ((s.dropGen l y.id).emit1 y.firing .completion (BitVec.ofNat 64 y.n))) ∧
        (y.j ≠ y.n → y.stale = true → exec (.generatorStep l y.id) s = .next ((s.dropGen l y.id).trap y.firing 0x0101)) ∧
        (y.j ≠ y.n → y.stale = false → look (s.launch l).insts y.inst = some i → i.freeing = false →
          (i.iter (i.nextIter % i.iters.length)).st = .free →
          let k := i.nextIter
          let it := k % i.iters.length
          let opened : Instance := { i with
            iters := setNth i.iters it ⟨.live, k⟩, nextIter := k + 1, endMark := if y.j + 1 = y.n then some k else i.endMark }
          let t := (s.onLaunch l fun x => { x with
            insts := put x.insts y.inst opened
            gens := x.gens.map fun z => if z.id = y.id then { z with j := y.j + 1, last := s.aCycle + 1 } else z }).emitGroup y.firing false
              { y.firing.carry .value (y.base + BitVec.ofNat 64 y.j * y.step.signExtend 64) with
                bobbin := BitVec.ofNat 10 y.inst, iter := BitVec.ofNat 6 it }
          exec (.generatorStep l y.id) s = .next (if y.j + 1 = y.n then
            (t.dropGen l y.id).emit1 y.firing .completion (BitVec.ofNat 64 y.n) else t)) ∧
        (y.j ≠ y.n → y.stale = false → look (s.launch l).insts y.inst = some i →
          i.freeing = true ∨ (i.iter (i.nextIter % i.iters.length)).st ≠ .free → exec (.generatorStep l y.id) s = .next s))) ∧
    (∀ (p : Nat) (w : Parked) (x : FormA), (s.launch l).parkedAt p = some w → w.firing.Is (.next x) → w.why = .next →
      (s.launch l).nextStep w.firing ≠ .wait → s.roomFor w.firing = true →
      exec (.nextRelease l p) s = .next ((s.unpark l p).nextFiring w.firing (passClass x.sa w.firing.a) (s.opA w.firing x))) ∧
    (∀ (p : Nat) (w : Parked) (x : FormX) (cls : BitVec 6), (s.launch l).parkedAt p = some w → w.firing.Is (.balloc x cls) →
      w.why = .balloc → s.ballocReady w.firing cls.toNat = true → s.roomFor w.firing = true →
      exec (.ballocWake l p) s = .next ((s.unpark l p).balloc w.firing x.pm cls.toNat)) ∧
    (∀ (cl arb arc : Nat) (f : Firing) (rest : List (Nat × Firing)) (x : FormX) (b : BitVec 3) (n : BitVec 6),
      let a := (s.cluster cl).arbiter arb
      (s.cluster cl).owner = some l → a.holder = none → a.fifo = (arc, f) :: rest → a.released ≤ s.nCycle / 2 → f.Is (.ticket x b n) →
      let u := (s.onCluster cl fun c => c.setArbiter arb { a with holder := some (arc, f), fifo := rest }).reply0 f .value (s.opXA f x)
      exec (.ticketGrant cl arb) s = .next (match (u.launch l).parked.find? fun p =>
            decide (p.firing.cl = cl) && (match p.why with | .ticket a _ => decide (a = arb) | _ => false) with
        | some p => match p.why with
          | .ticket _ arc => (u.unpark l p.id).ticketRequest p.firing arb arc
          | _ => u
        | none => u))

/-- A panel that runs and finds a save area begins its freeze, or has it wait for the end of a stage switch (R135, R144, R378); once frozen
it is saved and its launch returns to Placing without its clusters (R380); with its stations loaded its saved state stands where it stood,
but for `.discard` ranges, which read as zero (R212, R381); a watchdog that has expired freezes the panel, or takes over a freeze under way;
a panel frozen within the bound is saved and its launch retires, and after the bound it is drained (R382; log 41); that an
expiry in a retirement sets the bound too is log 42, and that a launch which the watchdog saved passes no hem is log 102. A launch whose declared
count is reached and whose panel is quiescent retires normally: its records are written, and a hem begins (R387, R388); one that was forced
or aborted retires once its engines have stopped, and what it held is abandoned (R185); a wave that finds it not quiescent clears the
touched bits (R30; log 130); after the hem, and after a drain, the launch is gone (R388). -/
def Obligations.PreemptionAndRetirement : Prop :=
  (
  ∀ (s : State) (l : Nat) (x : Launch), look s.launches l = some x →
    (∀ a s1, s.mayFreeze l = true → s.saveArea l = some (a, s1) →
      (x.cfg = none ∨ x.switchHem = true → exec (.freeze l) s = .next ((s1.onLaunch l fun y => { y with
        cfg := none, hems := y.hems.filter fun h => decide (h.why ≠ .stage) }).startFreeze l false s.nCycle)) ∧
      (x.cfg ≠ none → x.switchHem = false → exec (.freeze l) s =
        .next (s1.onLaunch l fun y => { y with freeze := some ⟨s.nCycle, false⟩ }))) ∧
    (∀ w n, let y := (s.startFreeze l w n).launch l
      y.st = .freezing ∧ y.freeze = some ⟨n, w⟩ ∧ y.preempts = x.preempts + 1) ∧
    (∀ base s1 z, x.freeze = some z → x.st = .freezing → x.ending = none → s.frozen l = true → s.saveArea l = some (base, s1) →
      (z.watchdog = false → exec (.saveLaunch l) s = .next (s1.saveTo l base)) ∧
      (z.watchdog = true → s.nCycle - z.since < freezeBound x.panel.all.length → exec (.saveLaunch l) s =
        .next ((((s1.saveTo l base).onLaunch l fun y => { y with ending := some .wdogSaved }).watchdogRecord l 0).finish l (s1.panelExc l)))) ∧
    (∀ base, let t := s.saveTo l base
      (t.launch l).st = .saved ∧ (t.launch l).freeze = none ∧ (∀ cl ∈ x.panel.all, (t.cluster cl).owner = none) ∧
      ∃ v, (t.launch l).saved = some v ∧ v.base = base ∧ v.stamp = s.stamp ∧ v.tokens = s.savedTokens l ∧
        v.clusters = x.panel.all.map fun cl => (cl, ((s.leaveKnots l).cluster cl).portable (s.poolKeys l))) ∧
    (∀ v, x.saved = some v → x.st = .restoring → x.allLoaded = true → exec (.restoreLaunch l) s = .next (s.writeBack l v)) ∧
    (∀ v p, s.pattern l = some p → (v.clusters.map Prod.fst).Nodup → (v.knots.map Prod.fst).Nodup →
      let t := s.writeBack l v
      (t.launch l).saved = none ∧ (t.launch l).st = x.st ∧ (∀ e ∈ v.knots, t.knot e.1 = e.2) ∧
      ∀ e ∈ v.clusters, (t.cluster e.1).stations = e.2.stations.map (fun y => (y.1, y.2.retime v.stamp s.stamp)) ∧
        (t.cluster e.1).exc = e.2.exc ∧
        ∀ off, getAt (t.cluster e.1).mem off 0 = if p.discards x.panel e.1 off then 0 else getAt e.2.mem off 0) ∧
    (∀ n, x.wdog = some n → n * 2100 ≤ x.wdogUsed → x.st = .running ∨ x.st = .freezing ∨ x.st = .retiring →
      (x.freeze = none → x.ending = none → exec (.watchdogExpiry l) s = .next (s.askFreeze l true)) ∧
      (x.freeze = none → x.ending ≠ none → exec (.watchdogExpiry l) s =
        .next (s.onLaunch l fun y => { y with freeze := some ⟨s.nCycle, true⟩ })) ∧
      (∀ z, x.freeze = some z → exec (.watchdogExpiry l) s =
        .next (s.onLaunch l fun y => { y with freeze := some { z with watchdog := true } }))) ∧
    (∀ z, x.freeze = some z → z.watchdog = true → x.st = .freezing ∨ x.st = .running ∨ x.ending ≠ none →
      freezeBound x.panel.all.length ≤ s.nCycle - z.since →
      exec (.freezeBoundExpiry l) s = .next (s.drain l) ∧ look (s.drain l).launches l = none)) ∧
  (
  ∀ (s : State) (l : Nat),
    ((s.launch l).st = .running ∨ (s.launch l).st = .freezing → (s.launch l).expired = false →
      (s.mayRetire l = true → (s.flush l).mayRetire l = true →
        exec (.retirement l) s = .next (((s.flush l).onLaunch l fun y => { y with
          st := .retiring, retire := 1, ending := some .normal, freeze := none }).beginHem l .retire)) ∧
      ((s.launch l).ending = none → s.mayRetire l = false → s.tallied l = true →
        exec (.retirement l) s = .next (s.clearTouched l)) ∧
      ((s.launch l).ending = some .forced ∨ (s.launch l).ending = some .abortFault → s.stopped l = true →
        exec (.retirement l) s =
          .next (((s.abandon l).onLaunch l fun y => { y with st := .retiring, retire := 1 }).beginHem l .retire))) ∧
    ((s.launch l).st = .retiring → (s.launch l).retire = 2 → (∀ q ∈ s.reqs, q.ofLaunch l = false) → (∀ q ∈ s.kreqs, q.firing.launch ≠ l) →
      (∀ p ∈ s.portal, p.client.launch = some l → p.answer.isSome = true) →
      exec (.retirement l) s = .next ((s.flush l).finish l ((s.flush l).panelExc l))) ∧
    (∀ exc, look (s.finish l exc).launches l = none))

/-- The control block's writes (R111, R219, R239, R376, R391 to R393, R405) by the physical function of a partition that is not locked:
its switches, of which ENABLE also ends a migration's freeze (log 160), a queue entry turned off, an invalidation and its end, a dirty
snapshot, copied word by word, released areas, cleared error bits, and any field by its offset. Ronob's configuration requests (R394, R395,
Table 19.10), over an established session with a Ronob that is not restarting: each well-formed request that is neither refused nor busy
has its effect and answers 0 with the request's own word; a malformed one answers 3 and one that is refused, a key's of a locked partition
among them, 1, and they change nothing; while the Ronob restarts nothing is answered (R402). What the package's service does to the machine
(R397, R399 to R402, R407 to R410; log 161). The model's own there: a host page has 2^12 bytes (log 150), DIRTY and DSNAP hold physical
addresses (log 31), a power cap is taken where any Ronob answers (log 144), and virtual functions have their sessions with die 0's (logs 138
and 143). -/
def Obligations.ServiceInterface : Prop :=
  (
  ∀ (s : State) (part q : Nat) (v : Word),
    (s.locked part = false →
      let set := fun (p : Partition) =>
        { p with
          enable := v.getLsbD 0, metered := p.metered || v.getLsbD 0, permissive := v.getLsbD 1, keepovf := v.getLsbD 2, debug := v.getLsbD 3 }
      ((s.part part).enable = false → v.getLsbD 0 = false → exec (.cbEnable part v) s = .next (s.onPart part set)) ∧
      ((s.part part).enable = false → v.getLsbD 0 = true → exec (.cbEnable part v) s =
        .next ((s.onPart part set).onPart part fun p => { p with deduct := 0, migrating := false })) ∧
      ((s.part part).enable = true → v.getLsbD 0 = true → exec (.cbEnable part v) s = .next (s.onPart part set)) ∧
      ((s.part part).enable = true → v.getLsbD 0 = false → exec (.cbEnable part v) s =
        .next ((s.onPart part set).rejectWaiting part fun _ => true)) ∧
      exec (.cbDsnap part v) s = .next (s.onPart part fun p => { p with dsnap := v, dsnapAt := 0 }) ∧
      (part < 64 → exec (.controlBlockWrite .pf part 0x48 v) s = .next (s.onPart part fun p => { p with quota := v.setWidth 32 }) ∧
        exec (.controlBlockWrite .pf part 0x50 v) s = .next (s.onPart part fun p => { p with wdogdef := v.setWidth 32 }))) ∧
    (s.locked part = true →
      let t := { s with tdisp := setAt s.tdisp part .error .configUnlocked }
      exec (.cbEnable part v) s = .next t ∧ exec (.cbDsnap part v) s = .next t ∧
      (part < 64 → exec (.controlBlockWrite .pf part 0x48 v) s = .next t)) ∧
    (part < 64 → exec (.controlBlockWrite .vf part 0x48 v) s = .next s ∧
      exec (.controlBlockWrite .vf part 0x88 v) s = .next (s.onPart part fun p => { p with mdring := v })) ∧
    (q < 16 → v.getLsbD 0 = false →
      exec (.cbQueueEntry part q v) s = .next ((s.onPart part fun p => { p with
        lq := put p.lq q v, lqHdr := del p.lqHdr q }).rejectWaiting part fun x => decide (x.qidx = q)) ∧
      exec (.cbCopyQueueEntry part q v) s = .next (s.onPart part fun p => { p with cq := put p.cq q v, cqHdr := del p.cqHdr q })) ∧
    (∀ h s1, q < 16 → v.getLsbD 0 = true → look (s.part part).lq q = none →
      s.readHeader (s.schedClient part q) (entryAddr v) = (some h, s1) →
      exec (.cbQueueEntry part q v) s = .next (if s1.headerFits part h
        then s1.onPart part fun p => { p with
          lq := put p.lq q v, lqHdr := put p.lqHdr q { h with seen := (s1.knot (knotKey h.publish)).value.toNat } } else s1)) ∧
    (∀ h s1, q < 16 → v.getLsbD 0 = true → look (s.part part).cq q = none →
      s.readHeader (queueClient part 0) (entryAddr v) = (some h, s1) →
      (s1.copyHeader part h = none → exec (.cbCopyQueueEntry part q v) s = .next s1) ∧
      (∀ h1, s1.copyHeader part h = some h1 → exec (.cbCopyQueueEntry part q v) s = .next (s1.onPart part fun p => { p with
        cq := put p.cq q v, cqHdr := put p.cqHdr q { h1 with seen := (s1.knot (knotKey h.publish)).value.toNat } }))) ∧
    ((s.part part).invalBusy = false →
      exec (.cbInvalidate part v) s = .next (s.onPart part fun p => { p with inval := v, invalBusy := true })) ∧
    ((s.part part).invalBusy = true → ∃ t : State, exec (.invalidationComplete part) s = .next t ∧ (t.part part).invalBusy = false ∧
      ∀ c ∈ t.clusters, ∀ e ∈ c.2.tcache, e.part = part → invalidates (s.part part).inval e = false) ∧
    ((s.part part).dsnap ≠ 0 →
      let n := (s.part part).dsnapAt
      let src := (s.part part).dirty.toNat / 2 * 2 + 8 * n
      let dst := (s.part part).dsnap.toNat + 8 * n
      ∃ t : State, exec (.dsnapComplete part) s = .next t ∧
        t.hbm = writeBytes (writeBytes s.hbm src (List.replicate 8 0)) dst (readBytes s.hbm src 8) ∧
        (147456 ≤ n + 1 → (t.part part).dsnap = 0) ∧
        (n + 1 < 147456 → (t.part part).dsnap = (s.part part).dsnap ∧ (t.part part).dsnapAt = n + 1) ∧
        t.clusters = s.clusters ∧ t.launches = s.launches) ∧
    (s.launches = [] → exec (.cbOvrel part v) s = .next (s.onPart part fun p =>
      let other := fun (a : Nat × Nat × Nat × Nat) => decide (a.2.2.1 ≠ v.toNat % 16 ∨ a.2.2.2 % 2 ^ 32 ≠ v.toNat / 2 ^ 16 % 2 ^ 32)
      { p with ovrel := v, ovAreas := p.ovAreas.filter other, svAreas := p.svAreas.filter other })) ∧
    exec (.cbErrorClear part v) s = .next (s.onPart part fun p => { p with
      trigerr := p.trigerr && !v.getLsbD 0, knoterr := p.knoterr && !v.getLsbD 1, wlerr := p.wlerr && !v.getLsbD 2 })) ∧
  (
  ∀ (s : State) (r : DoeReq), getAt s.spdm r.session false = true →
    let answer := fun (t : State) (status : Nat) => ({ t with outbox := t.outbox ++
      [leBytes 8 (status + r.header.toNat / 2 ^ 32 % 2 ^ 32 * 2 ^ 32)] } : State)
    let deaf := s.deaf (fnDie r.session) || s.deaf (r.header.toNat / 2 ^ 16 % 2 ^ 2)
    (deaf = true → ∀ i ∈ [Instr.knotAllot r, .knotReturn r, .slotTable r, .queueHome r, .portMask r, .selfId r, .bridge r, .keyLoad r,
      .keyUnload r], exec i s = .next s) ∧
    (deaf = false →
      (r.wellFormed 1 2 = false → exec (.knotAllot r) s = .next (answer s 3)) ∧
      (r.wellFormed 8 9 = false → exec (.keyLoad r) s = .next (answer s 3)) ∧
      (r.fromPf = true → s.locked r.part = false → s.anyQueue r.part = false →
        (r.wellFormed 1 2 = true → r.knotsBad = false → (∀ k ∈ r.knots, (s.knot k).owner = .free) →
          exec (.knotAllot r) s = .next (answer (r.knots.foldl (fun s k =>
            s.setKnot k { Knot.blank with owner := .standing, opart := BitVec.ofNat 6 r.part }) s) 0)) ∧
        (r.wellFormed 2 2 = true → r.knotsBad = false → (∀ k ∈ r.knots, (s.knot k).owner = .standing ∧ (s.knot k).opart.toNat = r.part ∧
            (s.knot k).waiters = 0 ∧ (s.knot k).armed = false ∧ s.publishKnot k = false) →
          exec (.knotReturn r) s = .next (answer (r.knots.foldl (fun s k =>
            (s.onCluster (bankOf k) fun c => { c with dir := c.dir.filter fun d => decide (d.knot ≠ k) }).setKnot k Knot.blank) s) 0)) ∧
        (r.wellFormed 3 17 = true → r.word 0 < 288 → exec (.slotTable r) s = .next (answer { s with
          slotTables := put s.slotTables (r.word 0) ((r.words.drop 1).flatMap fun w =>
            (countFrom 0 4).map fun i => w.toNat / 2 ^ (16 * i) % 2 ^ 16) } 0)) ∧
        (r.wellFormed 4 1 = true → r.word 0 / 16 % 16 = 0 → r.word 0 < 1024 →
          exec (.queueHome r) s = .next (answer (s.onPart r.part fun p =>
            { p with hdie := setAt p.hdie (r.word 0 % 16) (r.word 0 / 2 ^ 8 % 4) 0 }) 0))) ∧
      (r.fromPf = true →
        (r.wellFormed 5 2 = true → r.word 0 < 1024 → r.word 1 < 2 ^ 48 →
          exec (.portMask r) s = .next (answer { s with portMasks := setAt s.portMasks (r.word 0) (BitVec.ofNat 48 (r.word 1)) 0 } 0)) ∧
        (r.wellFormed 6 1 = true → r.word 0 < 2 ^ 14 → (∀ e ∈ s.launches, e.2.holdsPanel = false) →
          exec (.selfId r) s = .next (answer { s with
            selfPod := BitVec.ofNat 4 (r.word 0), selfAcc := BitVec.ofNat 10 (r.word 0 / 16) } 0)) ∧
        (r.wellFormed 7 2 = true → r.word 0 / 2 ^ 5 % 2 ^ 11 = 0 → r.word 0 < 2 ^ 26 → r.word 1 < 2 ^ 48 →
          let b : Bridge := ⟨(r.word 0).testBit 4, BitVec.ofNat 10 (r.word 0 / 2 ^ 16 % 2 ^ 10), BitVec.ofNat 48 (r.word 1)⟩
          exec (.bridge r) s = .next (answer { s with bridges := setAt s.bridges (r.word 0 % 16) b Bridge.none } 0))) ∧
      (r.fromPf = false → r.fn = r.part → r.word 0 < 4096 →
        (s.locked r.part = true → (r.wellFormed 8 9 = true → exec (.keyLoad r) s = .next (answer s 1)) ∧
          (r.wellFormed 9 1 = true → exec (.keyUnload r) s = .next (answer s 1))) ∧
        (s.locked r.part = false → r.wellFormed 8 9 = true → (s.key (r.word 0)).owner = none ∨ (s.key (r.word 0)).owner = some r.part →
          let key : KeySlot := ⟨some r.part, true, BitVec.ofNat 256 (leNat (bytesOf ((r.words.drop 1).take 4))),
            BitVec.ofNat 256 (leNat (bytesOf ((r.words.drop 5).take 4)))⟩
          exec (.keyLoad r) s = .next (answer { s with keys := setAt s.keys (r.word 0) key KeySlot.blank } 0)) ∧
        (s.locked r.part = false → r.wellFormed 9 1 = true → (s.key (r.word 0)).owner = some r.part →
          exec (.keyUnload r) s = .next (answer { s with keys := setAt s.keys (r.word 0) KeySlot.blank KeySlot.blank } 0))))) ∧
  (
  ∀ (s : State) (fn die part n addr len : Nat) (nonce : BitVec 256) (d : BitVec 384) (w : Word) (on : Bool) (to_ : Tdisp) (k : LinkUnit),
    (s.deaf (fnDie fn) = false → exec (.spdmSession fn on) s = .next { s with spdm := setAt s.spdm fn on false }) ∧
    (s.deaf 0 = false → exec (.ideStreamKeying part) s = .next { s with ide := setAt s.ide part true false } ∧
      exec (.tdispRequest part to_) s = .next { s with tdisp := setAt s.tdisp part to_ .configUnlocked }) ∧
    (s.deaf (fnDie fn) = true → exec (.spdmSession fn on) s = .next s ∧ exec (.getMeasurements fn die n) s = .next s ∧
      exec (.meterSnapshot fn die part nonce) s = .next s) ∧
    exec (.ronobFirmwareUpdate die d) s = .next { s with
      firmware := setAt s.firmware die d 0
      spdm := s.spdm.filter fun e => decide (fnDie e.1 ≠ die)
      restarting := s.restarting ||| BitVec.ofNat 4 (2 ^ die) } ∧
    (Pick.ronobUp die).run s = .next { s with restarting := s.restarting &&& ~~~(BitVec.ofNat 4 (2 ^ die)) } ∧
    exec (.schedulerMicrocodeUpdate d) s = .next { s with microcode := d } ∧
    (∃ t : State, exec (.laneRecalibration k on) s = .next t ∧ (k ∈ t.lanes ↔ on = true) ∧ { t with lanes := [] } = { s with lanes := [] }) ∧
    exec (.thermalRecalibration die w) s = .next { s with sensors := setAt s.sensors die w 0 } ∧
    (n < 12 → exec (.hbmRetraining n) s = .next { s with retraining := union s.retraining [n] }) ∧
    exec (.hbmRetrainingEnd n) s = .next { s with retraining := s.retraining.filter fun k => decide (k ≠ n) } ∧
    exec (.thermalGating die on) s = .next { s with
      dieGated := if on then s.dieGated ||| BitVec.ofNat 4 (2 ^ die) else s.dieGated &&& ~~~(BitVec.ofNat 4 (2 ^ die)) } ∧
    (let t := (s.launches.filter fun e => e.2.holdsPanel && decide (die ∈ e.2.panel.dies)).foldl (fun s e => s.drain e.1) s;
      exec (.thermalTrip die) s = .next { t with dieReset := t.dieReset ||| BitVec.ofNat 4 (2 ^ die) }) ∧
    (s.restarting ≠ 15 → exec (.powerCapSet n) s = .next { s with powerCap := min n 2800 }) ∧
    (s.restarting = 15 → exec (.powerCapSet n) s = .next s) ∧
    (∃ t : State, exec (.atsInvalidation die addr len) s = .next t ∧ { t with ats := [] } = { s with ats := [] } ∧
      (∀ p, p < 2 ^ 48 → p * 2 ^ 12 < addr + len → addr < (p + 1) * 2 ^ 12 → die * 2 ^ 48 + p ∉ t.ats)) ∧
    (getAt s.spdm fn false = true → s.deaf (fnDie fn) = false → s.deaf die = false →
      (∃ sig : List Byte, sig.length = 96 ∧
        exec (.getMeasurements fn die n) s = .next { s with outbox := s.outbox ++ [s.measurement fn die n ++ sig] }) ∧
      (∃ sig : List Byte, sig.length = 96 ∧ exec (.meterSnapshot fn die part nonce) s = .next { s with outbox := s.outbox ++
        [leBytes 4 0x594B4D53 ++ leBytes 1 die ++ leBytes 1 part ++ leBytes 2 0 ++ leBytes 8 (s.nCycle / 2) ++ leBytes 32 nonce.toNat ++
          ((countFrom 0 24).flatMap fun i => leBytes 8 (getAt s.meters ((part * 4 + die) * 32 + i) 0).toNat) ++ sig] })) ∧
    (getAt s.spdm fn false = false → exec (.getMeasurements fn die n) s = .next s ∧ exec (.meterSnapshot fn die part nonce) s = .next s))

/-- Every step leaves the bobbin table settled: no ended iteration that holds no token, request or child is left unretired, and no freeing
instance with every iteration free keeps its id (R19, R21).  No step leaves a request that waits for its home slices half done (R408). -/
def Obligations.EveryStepSettles : Prop :=
  (∀ (s t : State), step s = .next t → t.Settled) ∧
  ∀ (s t : State), s.heldHit = false → step s = .next t → t.heldHit = false
end

