-- ==== Sys2Proof/Laws/Encoding.lean ====
section
/-! SUPPORT. Laws/Encoding.lean: each code read back gives what was coded, each format's fields stand in the word where the
decoder reads them, and every encoded instruction is a 64-bit number. -/

namespace Sys2Proof

/-! A code read back. -/

theorem Ty.ofCode_code (x : Ty) : Ty.ofCode x.code = some x := by cases x <;> rfl
theorem Elem.ofCode_code (x : Elem) : Elem.ofCode x.code = some x := by cases x <;> rfl
theorem Pred.ofCode_code (x : Pred) : Pred.ofCode x.code = some x := by cases x <;> rfl
theorem RM.ofCode_code (x : RM) : RM.ofCode x.code = some x := by cases x <;> rfl
theorem Width.ofCode_code (x : Width) : Width.ofCode x.code = some x := by cases x <;> rfl
theorem Scope.ofCode_code (x : Scope) : Scope.ofCode x.code = some x := by cases x <;> rfl
theorem Order.ofCode_code (x : Order) : Order.ofCode x.code = some x := by cases x <;> rfl
theorem CmpRel.ofCode_code (x : CmpRel) : CmpRel.ofCode x.code = some x := by cases x <;> rfl
theorem FcmpPred.ofCode_code (x : FcmpPred) : FcmpPred.ofCode x.code = some x := by cases x <;> rfl
theorem CvtSrc.ofCode_code (x : CvtSrc) : CvtSrc.ofCode x.code = some x := by cases x <;> rfl
theorem IntTy.ofCode_code (x : IntTy) : IntTy.ofCode x.code = some x := by cases x <;> rfl
theorem AmoOp.ofCode_code (x : AmoOp) : AmoOp.ofCode x.code = some x := by cases x <;> rfl
theorem UpdOp.ofCode_code (x : UpdOp) : UpdOp.ofCode x.code = some x := by cases x <;> rfl
theorem CqPatch.ofCode_code (x : CqPatch) : CqPatch.ofCode x.code = some x := by cases x <;> rfl
theorem ActFn.ofCode_code (x : ActFn) : ActFn.ofCode x.code = some x := by cases x <;> rfl

theorem Spec.ofCode_code (x : Spec) : Spec.ofCode x.code = some x := by
  cases x with
  | const n => revert n; decide
  | _ => rfl

/-! A code's width. -/

theorem Ty.code_lt (x : Ty) : x.code < 8 := by cases x <;> decide
theorem Elem.code_lt (x : Elem) : x.code < 8 := by cases x <;> decide
theorem Pred.code_lt (x : Pred) : x.code < 4 := by cases x <;> decide
theorem RM.code_lt (x : RM) : x.code < 8 := by cases x <;> decide
theorem Width.code_lt (x : Width) : x.code < 4 := by cases x <;> decide
theorem Scope.code_lt (x : Scope) : x.code < 4 := by cases x <;> decide
theorem Order.code_lt (x : Order) : x.code < 4 := by cases x <;> decide
theorem CmpRel.code_lt (x : CmpRel) : x.code < 16 := by cases x <;> decide
theorem FcmpPred.code_lt (x : FcmpPred) : x.code < 16 := by cases x <;> decide
theorem CvtSrc.code_lt (x : CvtSrc) : x.code < 16 := by cases x <;> decide
theorem IntTy.code_lt (x : IntTy) : x.code < 16 := by cases x <;> decide
theorem AmoOp.code_lt (x : AmoOp) : x.code < 16 := by cases x <;> decide
theorem UpdOp.code_lt (x : UpdOp) : x.code < 16 := by cases x <;> decide
theorem CqPatch.code_lt (x : CqPatch) : x.code < 16 := by cases x <;> decide
theorem ActFn.code_lt (x : ActFn) : x.code < 16 := by cases x <;> decide

theorem Spec.code_lt (x : Spec) : x.code < 64 := by
  cases x with
  | const n => simp only [Spec.code]; omega
  | _ => decide

theorem toNat_lt_two (b : Bool) : b.toNat < 2 := by cases b <;> decide

theorem ogCode_lt (a b : Bool) : ogCode a b < 4 := by cases a <;> cases b <;> decide
theorem ogBit_zero (a b : Bool) : ogBit (ogCode a b) 0 = a := by cases a <;> cases b <;> rfl
theorem ogBit_one (a b : Bool) : ogBit (ogCode a b) 1 = b := by cases a <;> cases b <;> rfl

/-! The fields in the word. -/

/-- Every field of the common layout fits its place (Table 3.1). -/
def RawC.Fits (r : RawC) : Prop :=
  r.opc < 2 ^ 8 ∧ r.fn < 2 ^ 4 ∧ r.ty < 2 ^ 3 ∧ r.sa < 2 ^ 6 ∧ r.sb < 2 ^ 6 ∧ r.sc < 2 ^ 6 ∧ r.og < 2 ^ 2 ∧ r.pm < 2 ^ 2 ∧
    r.rm < 2 ^ 3 ∧ r.imm < 2 ^ 24

/-- Every field of format T fits its place (Table 3.4). -/
def RawT.Fits (r : RawT) : Prop :=
  r.opc < 2 ^ 8 ∧ r.fn < 2 ^ 4 ∧ r.ty < 2 ^ 3 ∧ r.sa < 2 ^ 6 ∧ r.sb < 2 ^ 6 ∧ r.td < 2 ^ 4 ∧ r.ta < 2 ^ 4 ∧ r.tb < 2 ^ 4 ∧
    r.qa < 2 ^ 2 ∧ r.sw < 2 ^ 8 ∧ r.flg < 2 ^ 7 ∧ r.og < 2 ^ 2 ∧ r.pm < 2 ^ 2 ∧ r.top < 2 ^ 4

theorem RawC.pack_lt (r : RawC) (h : r.Fits) : r.pack < 2 ^ 64 := by
  unfold RawC.Fits at h; unfold RawC.pack; omega

theorem RawT.pack_lt (r : RawT) (h : r.Fits) : r.pack < 2 ^ 64 := by
  unfold RawT.Fits at h; unfold RawT.pack; omega

theorem RawC.unpack_pack (r : RawC) (h : r.Fits) : RawC.unpack r.pack = r := by
  obtain ⟨opc, fn, ty, sa, sb, sc, og, pm, rm, imm⟩ := r
  unfold RawC.Fits at h
  simp only [RawC.unpack, RawC.pack, bitsOf, RawC.mk.injEq] at h ⊢
  omega

theorem RawT.unpack_pack (r : RawT) (h : r.Fits) : RawT.unpack r.pack = r := by
  obtain ⟨opc, fn, ty, sa, sb, td, ta, tb, qa, sw, flg, og, pm, top⟩ := r
  unfold RawT.Fits at h
  simp only [RawT.unpack, RawT.pack, bitsOf, RawT.mk.injEq] at h ⊢
  omega

/-! Each format's fields fit. -/

theorem FormA.raw_fits (f : FormA) (opc fn : Nat) (h : opc < 2 ^ 8) (h' : fn < 2 ^ 4) : (f.raw opc fn).Fits :=
  ⟨h, h', f.ty.code_lt, f.sa.code_lt, f.sb.code_lt, f.sc.code_lt, ogCode_lt _ _, f.pm.code_lt, f.rm.code_lt, f.imm.isLt⟩

theorem FormX.raw_fits (f : FormX) (opc fn imm : Nat) (h : opc < 2 ^ 8) (h' : fn < 2 ^ 4) (hi : imm < 2 ^ 24) :
    (f.raw opc fn imm).Fits :=
  ⟨h, h', f.ty.code_lt, f.sa.code_lt, f.sb.code_lt, f.sc.code_lt, ogCode_lt _ _, f.pm.code_lt, (by decide : 0 < 2 ^ 3), hi⟩

theorem FormM.raw_fits (f : FormM) (opc imm : Nat) (h : opc < 2 ^ 8) (hi : imm < 2 ^ 24) : (f.raw opc imm).Fits :=
  ⟨h, by have := f.width.code_lt; have := toNat_lt_two f.rel; have := toNat_lt_two f.spc; simp only [FormM.raw]; omega,
    f.ty.code_lt, f.sa.code_lt, f.sb.code_lt, f.range.isLt, ogCode_lt _ _, f.pm.code_lt, (by decide : 0 < 2 ^ 3), hi⟩

theorem FormK.raw_fits (f : FormK) (opc : Nat) (h : opc < 2 ^ 8) : (f.raw opc).Fits :=
  ⟨h, by have := f.scope.code_lt; have := f.order.code_lt; simp only [FormK.raw]; omega,
    (by decide : 3 < 2 ^ 3), f.sa.code_lt, f.sb.code_lt, f.sc.code_lt, ogCode_lt _ _, f.pm.code_lt, (by decide : 0 < 2 ^ 3), f.imm.isLt⟩

theorem FormE.raw_fits (f : FormE) (opc fn : Nat) (h : opc < 2 ^ 8) (h' : fn < 2 ^ 4) : (f.raw opc fn).Fits :=
  ⟨h, h', f.ty.code_lt, f.sa.code_lt, f.sb.code_lt, f.sc.code_lt, ogCode_lt _ _, f.pm.code_lt, (by decide : 0 < 2 ^ 3),
    by have := f.sw1.isLt; have := f.sw2.isLt; have := f.kc.isLt; have := toNat_lt_two f.kv; simp only [FormE.raw]; omega⟩

theorem FormT.raw_fits (f : FormT) (opc fn : Nat) (h : opc < 2 ^ 8) (h' : fn < 2 ^ 4) : (f.raw opc fn).Fits :=
  ⟨h, h', f.ty.code_lt, f.sa.code_lt, f.sb.code_lt, f.td.isLt, f.ta.isLt, f.tb.isLt, f.qa.isLt, f.sw.isLt, f.flg.isLt,
    ogCode_lt _ _, f.pm.code_lt, (by decide : 0 < 2 ^ 4)⟩

/-- A word below 2^64 is the number it was made from. -/
theorem encode_toNat (i : Instr) (h : i.word < 2 ^ 64) : (encode i).toNat = i.word := by
  simp only [encode, BitVec.toNat_ofNat]; exact Nat.mod_eq_of_lt h

end Sys2Proof
end

