-- ==== Sys2Proof/Laws/Exec.lean ====
section
/-! SUPPORT. Laws/Exec.lean: what every arm of exec does first. -/

namespace Sys2Proof.Machine

/-- Every slot instruction is one firing: colours, then its predicate, then its body. -/
theorem exec_fires (i : Instr) (v : View) (h : i.view = some v) :
    ∃ body : State → State → Firing → State, ∀ s, exec i s = s.fire v.pm (body s) := by
  cases i <;> first | (cases h; done) | skip
  case mov => cases h; exact ⟨_, fun s => by simp only [exec, execMov]; rfl⟩
  case fanout => cases h; exact ⟨_, fun s => by simp only [exec, execFanout]; rfl⟩
  case sink => cases h; exact ⟨_, fun s => by simp only [exec, execSink]; rfl⟩
  case steer => cases h; exact ⟨_, fun s => by simp only [exec, execSteer]; rfl⟩
  case gate => cases h; exact ⟨_, fun s => by simp only [exec, execGate]; rfl⟩
  case join => cases h; exact ⟨_, fun s => by simp only [exec, execJoin]; rfl⟩
  case inv => cases h; exact ⟨_, fun s => by simp only [exec, execInv]; rfl⟩
  case balloc => cases h; exact ⟨_, fun s => by simp only [exec, execBalloc, State.fireHeld]; rfl⟩
  case bfree => cases h; exact ⟨_, fun s => by simp only [exec, execBfree, State.fireHeld]; rfl⟩
  case loopgen => cases h; exact ⟨_, fun s => by simp only [exec, execLoopgen, State.fireHeld]; rfl⟩
  case next => cases h; exact ⟨_, fun s => by simp only [exec, execNext, State.fireHeld]; rfl⟩
  case iend => cases h; exact ⟨_, fun s => by simp only [exec, execIend, State.fireHeld]; rfl⟩
  case retag => cases h; exact ⟨_, fun s => by simp only [exec, execRetag, State.fireHeld]; rfl⟩
  case retagCall => cases h; exact ⟨_, fun s => by simp only [exec, execRetagCall, State.fireHeld]; rfl⟩
  case spec => cases h; exact ⟨_, fun s => by simp only [exec, execSpec]; rfl⟩
  case commit => cases h; exact ⟨_, fun s => by simp only [exec, execCommit]; rfl⟩
  case kill => cases h; exact ⟨_, fun s => by simp only [exec, execKill]; rfl⟩
  case phset => cases h; exact ⟨_, fun s => by simp only [exec, execPhset]; rfl⟩
  case phwait => cases h; exact ⟨_, fun s => by simp only [exec, execPhwait]; rfl⟩
  case spawn => cases h; exact ⟨_, fun s => by simp only [exec, execSpawn, State.spawnCmd, State.fireHeld]; rfl⟩
  case done => cases h; exact ⟨_, fun s => by simp only [exec, execDone, State.fireHeld]; rfl⟩
  case doneForce => cases h; exact ⟨_, fun s => by simp only [exec, execDoneForce, State.fireHeld]; rfl⟩
  case ticket => cases h; exact ⟨_, fun s => by simp only [exec, execTicket, State.fireHeld]; rfl⟩
  case ticketRelease => cases h; exact ⟨_, fun s => by simp only [exec, execTicketRelease, State.fireHeld]; rfl⟩
  case add => cases h; exact ⟨_, fun s => by simp only [exec, execAdd, State.int2]; rfl⟩
  case sub => cases h; exact ⟨_, fun s => by simp only [exec, execSub, State.int2]; rfl⟩
  case mul => cases h; exact ⟨_, fun s => by simp only [exec, execMul, State.int2]; rfl⟩
  case mulh => cases h; exact ⟨_, fun s => by simp only [exec, execMulh, State.int2]; rfl⟩
  case div => cases h; exact ⟨_, fun s => by simp only [exec, execDiv, State.intDiv]; rfl⟩
  case rem => cases h; exact ⟨_, fun s => by simp only [exec, execRem, State.intDiv]; rfl⟩
  case and => cases h; exact ⟨_, fun s => by simp only [exec, execAnd, State.int2]; rfl⟩
  case or => cases h; exact ⟨_, fun s => by simp only [exec, execOr, State.int2]; rfl⟩
  case xor => cases h; exact ⟨_, fun s => by simp only [exec, execXor, State.int2]; rfl⟩
  case andn => cases h; exact ⟨_, fun s => by simp only [exec, execAndn, State.int2]; rfl⟩
  case shl => cases h; exact ⟨_, fun s => by simp only [exec, execShl, State.int2]; rfl⟩
  case shr => cases h; exact ⟨_, fun s => by simp only [exec, execShr, State.int2]; rfl⟩
  case sra => cases h; exact ⟨_, fun s => by simp only [exec, execSra, State.int2]; rfl⟩
  case rot => cases h; exact ⟨_, fun s => by simp only [exec, execRot, State.int2]; rfl⟩
  case min => cases h; exact ⟨_, fun s => by simp only [exec, execMin, State.int2]; rfl⟩
  case max => cases h; exact ⟨_, fun s => by simp only [exec, execMax, State.int2]; rfl⟩
  case abs => cases h; exact ⟨_, fun s => by simp only [exec, execAbs, State.int1]; rfl⟩
  case neg => cases h; exact ⟨_, fun s => by simp only [exec, execNeg, State.int1]; rfl⟩
  case clz => cases h; exact ⟨_, fun s => by simp only [exec, execClz, State.int1]; rfl⟩
  case ctz => cases h; exact ⟨_, fun s => by simp only [exec, execCtz, State.int1]; rfl⟩
  case popc => cases h; exact ⟨_, fun s => by simp only [exec, execPopc, State.int1]; rfl⟩
  case brev => cases h; exact ⟨_, fun s => by simp only [exec, execBrev, State.int1]; rfl⟩
  case cmp => cases h; exact ⟨_, fun s => by simp only [exec, execCmp, State.int2]; rfl⟩
  case sel => cases h; exact ⟨_, fun s => by simp only [exec, execSel, State.int3]; rfl⟩
  case ext => cases h; exact ⟨_, fun s => by simp only [exec, execExt, State.int2]; rfl⟩
  case ins => cases h; exact ⟨_, fun s => by simp only [exec, execIns, State.int3]; rfl⟩
  case lea => cases h; exact ⟨_, fun s => by simp only [exec, execLea, State.int2]; rfl⟩
  case constLo => cases h; exact ⟨_, fun s => by simp only [exec, execConstLo, State.constant]; rfl⟩
  case constMid => cases h; exact ⟨_, fun s => by simp only [exec, execConstMid, State.constant]; rfl⟩
  case constHi => cases h; exact ⟨_, fun s => by simp only [exec, execConstHi, State.constant]; rfl⟩
  case consth => cases h; exact ⟨_, fun s => by simp only [exec, execConsth, State.constant]; rfl⟩
  case fadd => cases h; exact ⟨_, fun s => by simp only [exec, execFadd, State.float2]; rfl⟩
  case fsub => cases h; exact ⟨_, fun s => by simp only [exec, execFsub, State.float2]; rfl⟩
  case fmul => cases h; exact ⟨_, fun s => by simp only [exec, execFmul, State.float2]; rfl⟩
  case fma => cases h; exact ⟨_, fun s => by simp only [exec, execFma, State.float3]; rfl⟩
  case fnma => cases h; exact ⟨_, fun s => by simp only [exec, execFnma, State.float3]; rfl⟩
  case fdiv => cases h; exact ⟨_, fun s => by simp only [exec, execFdiv, State.float2]; rfl⟩
  case fsqrt => cases h; exact ⟨_, fun s => by simp only [exec, execFsqrt, State.float1]; rfl⟩
  case fmin => cases h; exact ⟨_, fun s => by simp only [exec, execFmin, State.floatBits]; rfl⟩
  case fmax => cases h; exact ⟨_, fun s => by simp only [exec, execFmax, State.floatBits]; rfl⟩
  case fabs => cases h; exact ⟨_, fun s => by simp only [exec, execFabs, State.floatBits]; rfl⟩
  case fneg => cases h; exact ⟨_, fun s => by simp only [exec, execFneg, State.floatBits]; rfl⟩
  case fcmp => cases h; exact ⟨_, fun s => by simp only [exec, execFcmp, State.floatBits]; rfl⟩
  case fclass => cases h; exact ⟨_, fun s => by simp only [exec, execFclass, State.floatBits]; rfl⟩
  case fcvt => cases h; exact ⟨_, fun s => by simp only [exec, execFcvt]; rfl⟩
  case ftoi => cases h; exact ⟨_, fun s => by simp only [exec, execFtoi]; rfl⟩
  case itof => cases h; exact ⟨_, fun s => by simp only [exec, execItof]; rfl⟩
  case fexp2 => cases h; exact ⟨_, fun s => by simp only [exec, execFexp2, State.float1]; rfl⟩
  case flog2 => cases h; exact ⟨_, fun s => by simp only [exec, execFlog2, State.float1]; rfl⟩
  case frcp => cases h; exact ⟨_, fun s => by simp only [exec, execFrcp, State.float1]; rfl⟩
  case frsq => cases h; exact ⟨_, fun s => by simp only [exec, execFrsq, State.float1]; rfl⟩
  case frint => cases h; exact ⟨_, fun s => by simp only [exec, execFrint, State.floatBits]; rfl⟩
  case frintX => cases h; exact ⟨_, fun s => by simp only [exec, execFrintX, State.floatBits]; rfl⟩
  case ldl => cases h; exact ⟨_, fun s => by simp only [exec, execLdl, State.load]; rfl⟩
  case stl => cases h; exact ⟨_, fun s => by simp only [exec, execStl, State.store, State.fireHeld]; rfl⟩
  case ldn => cases h; exact ⟨_, fun s => by simp only [exec, execLdn, State.load]; rfl⟩
  case stn => cases h; exact ⟨_, fun s => by simp only [exec, execStn, State.store, State.fireHeld]; rfl⟩
  case ldg => cases h; exact ⟨_, fun s => by simp only [exec, execLdg, State.load]; rfl⟩
  case stg => cases h; exact ⟨_, fun s => by simp only [exec, execStg, State.store, State.fireHeld]; rfl⟩
  case ldw => cases h; exact ⟨_, fun s => by simp only [exec, execLdw, State.load]; rfl⟩
  case feclr => cases h; exact ⟨_, fun s => by simp only [exec, execFeclr, State.fireHeld]; rfl⟩
  case feset => cases h; exact ⟨_, fun s => by simp only [exec, execFeset, State.fireHeld]; rfl⟩
  case wcal => cases h; exact ⟨_, fun s => by simp only [exec, execWcal]; rfl⟩
  case amol => cases h; exact ⟨_, fun s => by simp only [exec, execAmol, State.fireHeld]; rfl⟩
  case amog => cases h; exact ⟨_, fun s => by simp only [exec, execAmog, State.fireHeld]; rfl⟩
  case updg => cases h; exact ⟨_, fun s => by simp only [exec, execUpdg, State.fireHeld]; rfl⟩
  case kadd => cases h; exact ⟨_, fun s => by simp only [exec, execKadd, State.fireHeld]; rfl⟩
  case kwait => cases h; exact ⟨_, fun s => by simp only [exec, execKwait]; rfl⟩
  case kread => cases h; exact ⟨_, fun s => by simp only [exec, execKread]; rfl⟩
  case klimit => cases h; exact ⟨_, fun s => by simp only [exec, execKlimit, State.fireHeld]; rfl⟩
  case karm => cases h; exact ⟨_, fun s => by simp only [exec, execKarm, State.fireHeld]; rfl⟩
  case kalloc => cases h; exact ⟨_, fun s => by simp only [exec, execKalloc, State.fireHeld]; rfl⟩
  case kfree => cases h; exact ⟨_, fun s => by simp only [exec, execKfree, State.fireHeld]; rfl⟩
  case copy => cases h; exact ⟨_, fun s => by simp only [exec, execCopy, State.copyCmd, State.fireHeld]; rfl⟩
  case copyr => cases h; exact ⟨_, fun s => by simp only [exec, execCopyr, State.copyCmd, State.fireHeld]; rfl⟩
  case fill => cases h; exact ⟨_, fun s => by simp only [exec, execFill, State.copyCmd, State.fireHeld]; rfl⟩
  case gathr => cases h; exact ⟨_, fun s => by simp only [exec, execGathr, State.copyCmd, State.fireHeld]; rfl⟩
  case scatr => cases h; exact ⟨_, fun s => by simp only [exec, execScatr, State.copyCmd, State.fireHeld]; rfl⟩
  case scatrAdd => cases h; exact ⟨_, fun s => by simp only [exec, execScatrAdd, State.copyCmd, State.fireHeld]; rfl⟩
  case overlay => cases h; exact ⟨_, fun s => by simp only [exec, execOverlay, State.copyCmd, State.fireHeld]; rfl⟩
  case cqpush => cases h; exact ⟨_, fun s => by simp only [exec, execCqpush, State.spawnCmd, State.fireHeld]; rfl⟩
  case tshape => cases h; exact ⟨_, fun s => by simp only [exec, execTshape, State.tensorCmd, State.fireHeld]; rfl⟩
  case trdsh => cases h; exact ⟨_, fun s => by simp only [exec, execTrdsh, State.tensorCmd, State.fireHeld]; rfl⟩
  case tld => cases h; exact ⟨_, fun s => by simp only [exec, execTld, State.tensorCmd, State.fireHeld]; rfl⟩
  case tst => cases h; exact ⟨_, fun s => by simp only [exec, execTst, State.tensorCmd, State.fireHeld]; rfl⟩
  case tzeroTile => cases h; exact ⟨_, fun s => by simp only [exec, execTzeroTile, State.tensorCmd, State.fireHeld]; rfl⟩
  case tzeroAcc => cases h; exact ⟨_, fun s => by simp only [exec, execTzeroAcc, State.tensorCmd, State.fireHeld]; rfl⟩
  case tzeroCarry => cases h; exact ⟨_, fun s => by simp only [exec, execTzeroCarry, State.tensorCmd, State.fireHeld]; rfl⟩
  case tmma => cases h; exact ⟨_, fun s => by simp only [exec, execTmma, State.tensorCmd, State.fireHeld]; rfl⟩
  case tadd => cases h; exact ⟨_, fun s => by simp only [exec, execTadd, State.tensorCmd, State.fireHeld]; rfl⟩
  case tmul => cases h; exact ⟨_, fun s => by simp only [exec, execTmul, State.tensorCmd, State.fireHeld]; rfl⟩
  case tscale => cases h; exact ⟨_, fun s => by simp only [exec, execTscale, State.tensorCmd, State.fireHeld]; rfl⟩
  case tact => cases h; exact ⟨_, fun s => by simp only [exec, execTact, State.tensorCmd, State.fireHeld]; rfl⟩
  case tredSum => cases h; exact ⟨_, fun s => by simp only [exec, execTredSum, State.tensorCmd, State.fireHeld]; rfl⟩
  case tredMax => cases h; exact ⟨_, fun s => by simp only [exec, execTredMax, State.tensorCmd, State.fireHeld]; rfl⟩
  case tqnt => cases h; exact ⟨_, fun s => by simp only [exec, execTqnt, State.tensorCmd, State.fireHeld]; rfl⟩
  case tdq => cases h; exact ⟨_, fun s => by simp only [exec, execTdq, State.tensorCmd, State.fireHeld]; rfl⟩
  case tcvt => cases h; exact ⟨_, fun s => by simp only [exec, execTcvt, State.tensorCmd, State.fireHeld]; rfl⟩
  case ttrn => cases h; exact ⟨_, fun s => by simp only [exec, execTtrn, State.tensorCmd, State.fireHeld]; rfl⟩
  case trow => cases h; exact ⟨_, fun s => by simp only [exec, execTrow, State.tensorCmd, State.fireHeld]; rfl⟩
  case trowStr => cases h; exact ⟨_, fun s => by simp only [exec, execTrowStr, State.tensorCmd, State.fireHeld]; rfl⟩
  case tscan => cases h; exact ⟨_, fun s => by simp only [exec, execTscan, State.tensorCmd, State.fireHeld]; rfl⟩
  case tcarrySave => cases h; exact ⟨_, fun s => by simp only [exec, execTcarrySave, State.tensorCmd, State.fireHeld]; rfl⟩
  case tcarryLoad => cases h; exact ⟨_, fun s => by simp only [exec, execTcarryLoad, State.tensorCmd, State.fireHeld]; rfl⟩
  case tmovq => cases h; exact ⟨_, fun s => by simp only [exec, execTmovq, State.tensorCmd, State.fireHeld]; rfl⟩
  case semit => cases h; exact ⟨_, fun s => by simp only [exec, execSemit, State.fireHeld]; rfl⟩
  case smark => cases h; exact ⟨_, fun s => by simp only [exec, execSmark, State.fireHeld]; rfl⟩
  case srecv => cases h; exact ⟨_, fun s => by simp only [exec, execSrecv, State.fireHeld]; rfl⟩
  case sparm => cases h; exact ⟨_, fun s => by simp only [exec, execSparm, State.fireHeld]; rfl⟩
  case sstat => cases h; exact ⟨_, fun s => by simp only [exec, execSstat]; rfl⟩
  case smopen => cases h; exact ⟨_, fun s => by simp only [exec, execSmopen, State.fireHeld]; rfl⟩
  case smfeed => cases h; exact ⟨_, fun s => by simp only [exec, execSmfeed, State.fireHeld]; rfl⟩
  case smclose => cases h; exact ⟨_, fun s => by simp only [exec, execSmclose, State.fireHeld]; rfl⟩
  case smstat => cases h; exact ⟨_, fun s => by simp only [exec, execSmstat]; rfl⟩
  case smabort => cases h; exact ⟨_, fun s => by simp only [exec, execSmabort, State.fireHeld]; rfl⟩
  case umctxOpen => cases h; exact ⟨_, fun s => by simp only [exec, execUmctxOpen, State.fireHeld]; rfl⟩
  case umctxRelease => cases h; exact ⟨_, fun s => by simp only [exec, execUmctxRelease, State.fireHeld]; rfl⟩
  case umscore => cases h; exact ⟨_, fun s => by simp only [exec, execUmscore, State.fireHeld]; rfl⟩
  case umrank => cases h; exact ⟨_, fun s => by simp only [exec, execUmrank, State.fireHeld]; rfl⟩
  case umtap => cases h; exact ⟨_, fun s => by simp only [exec, execUmtap, State.fireHeld]; rfl⟩
  case umdirty => cases h; exact ⟨_, fun s => by simp only [exec, execUmdirty, State.fireHeld]; rfl⟩
  case umqryInfo => cases h; exact ⟨_, fun s => by simp only [exec, execUmqryInfo]; rfl⟩
  case umqryMask => cases h; exact ⟨_, fun s => by simp only [exec, execUmqryMask]; rfl⟩
  case umqryDirty => cases h; exact ⟨_, fun s => by simp only [exec, execUmqryDirty]; rfl⟩
  case umqryRound => cases h; exact ⟨_, fun s => by simp only [exec, execUmqryRound]; rfl⟩
  case umclr => cases h; exact ⟨_, fun s => by simp only [exec, execUmclr, State.fireHeld]; rfl⟩
  case trap => cases h; exact ⟨_, fun s => by simp only [exec, execTrap, State.fireHeld]; rfl⟩
  case sysrd => cases h; exact ⟨_, fun s => by simp only [exec, execSysrd]; rfl⟩
  case syswr => cases h; exact ⟨_, fun s => by simp only [exec, execSyswr, State.fireHeld]; rfl⟩
  case hem => cases h; exact ⟨_, fun s => by simp only [exec, execHem, State.fireHeld]; rfl⟩
  case cycle => cases h; exact ⟨_, fun s => by simp only [exec, execCycle]; rfl⟩
  case cycleStamp => cases h; exact ⟨_, fun s => by simp only [exec, execCycleStamp]; rfl⟩
  case meter => cases h; exact ⟨_, fun s => by simp only [exec, execMeter]; rfl⟩
  case bkpt => cases h; exact ⟨_, fun s => by simp only [exec, execBkpt, State.fireHeld]; rfl⟩
  case yield => cases h; exact ⟨_, fun s => by simp only [exec, execYield]; rfl⟩
  case flag => cases h; exact ⟨_, fun s => by simp only [exec, execFlag, State.fireHeld]; rfl⟩
/-- An instruction whose effect a colour holds whole does so. -/
theorem exec_held (i : Instr) (v : View) (h : i.view = some v) (hw : heldWhole i = true) :
    ∃ body : State → State → Firing → State, ∀ s, exec i s = s.fireHeld v.pm (body s) := by
  cases i <;> first | (cases hw; done) | skip
  case balloc => cases h; exact ⟨_, fun s => by simp only [exec, execBalloc]; rfl⟩
  case bfree => cases h; exact ⟨_, fun s => by simp only [exec, execBfree]; rfl⟩
  case loopgen => cases h; exact ⟨_, fun s => by simp only [exec, execLoopgen]; rfl⟩
  case next => cases h; exact ⟨_, fun s => by simp only [exec, execNext]; rfl⟩
  case iend => cases h; exact ⟨_, fun s => by simp only [exec, execIend]; rfl⟩
  case retag => cases h; exact ⟨_, fun s => by simp only [exec, execRetag]; rfl⟩
  case retagCall => cases h; exact ⟨_, fun s => by simp only [exec, execRetagCall]; rfl⟩
  case spawn => cases h; exact ⟨_, fun s => by simp only [exec, execSpawn, State.spawnCmd]; rfl⟩
  case done => cases h; exact ⟨_, fun s => by simp only [exec, execDone]; rfl⟩
  case doneForce => cases h; exact ⟨_, fun s => by simp only [exec, execDoneForce]; rfl⟩
  case ticket => cases h; exact ⟨_, fun s => by simp only [exec, execTicket]; rfl⟩
  case ticketRelease => cases h; exact ⟨_, fun s => by simp only [exec, execTicketRelease]; rfl⟩
  case stl => cases h; exact ⟨_, fun s => by simp only [exec, execStl, State.store]; rfl⟩
  case stn => cases h; exact ⟨_, fun s => by simp only [exec, execStn, State.store]; rfl⟩
  case stg => cases h; exact ⟨_, fun s => by simp only [exec, execStg, State.store]; rfl⟩
  case feclr => cases h; exact ⟨_, fun s => by simp only [exec, execFeclr]; rfl⟩
  case feset => cases h; exact ⟨_, fun s => by simp only [exec, execFeset]; rfl⟩
  case amol => cases h; exact ⟨_, fun s => by simp only [exec, execAmol]; rfl⟩
  case amog => cases h; exact ⟨_, fun s => by simp only [exec, execAmog]; rfl⟩
  case updg => cases h; exact ⟨_, fun s => by simp only [exec, execUpdg]; rfl⟩
  case kadd => cases h; exact ⟨_, fun s => by simp only [exec, execKadd]; rfl⟩
  case klimit => cases h; exact ⟨_, fun s => by simp only [exec, execKlimit]; rfl⟩
  case karm => cases h; exact ⟨_, fun s => by simp only [exec, execKarm]; rfl⟩
  case kalloc => cases h; exact ⟨_, fun s => by simp only [exec, execKalloc]; rfl⟩
  case kfree => cases h; exact ⟨_, fun s => by simp only [exec, execKfree]; rfl⟩
  case copy => cases h; exact ⟨_, fun s => by simp only [exec, execCopy, State.copyCmd]; rfl⟩
  case copyr => cases h; exact ⟨_, fun s => by simp only [exec, execCopyr, State.copyCmd]; rfl⟩
  case fill => cases h; exact ⟨_, fun s => by simp only [exec, execFill, State.copyCmd]; rfl⟩
  case gathr => cases h; exact ⟨_, fun s => by simp only [exec, execGathr, State.copyCmd]; rfl⟩
  case scatr => cases h; exact ⟨_, fun s => by simp only [exec, execScatr, State.copyCmd]; rfl⟩
  case scatrAdd => cases h; exact ⟨_, fun s => by simp only [exec, execScatrAdd, State.copyCmd]; rfl⟩
  case overlay => cases h; exact ⟨_, fun s => by simp only [exec, execOverlay, State.copyCmd]; rfl⟩
  case cqpush => cases h; exact ⟨_, fun s => by simp only [exec, execCqpush, State.spawnCmd]; rfl⟩
  case tshape => cases h; exact ⟨_, fun s => by simp only [exec, execTshape, State.tensorCmd]; rfl⟩
  case trdsh => cases h; exact ⟨_, fun s => by simp only [exec, execTrdsh, State.tensorCmd]; rfl⟩
  case tld => cases h; exact ⟨_, fun s => by simp only [exec, execTld, State.tensorCmd]; rfl⟩
  case tst => cases h; exact ⟨_, fun s => by simp only [exec, execTst, State.tensorCmd]; rfl⟩
  case tzeroTile => cases h; exact ⟨_, fun s => by simp only [exec, execTzeroTile, State.tensorCmd]; rfl⟩
  case tzeroAcc => cases h; exact ⟨_, fun s => by simp only [exec, execTzeroAcc, State.tensorCmd]; rfl⟩
  case tzeroCarry => cases h; exact ⟨_, fun s => by simp only [exec, execTzeroCarry, State.tensorCmd]; rfl⟩
  case tmma => cases h; exact ⟨_, fun s => by simp only [exec, execTmma, State.tensorCmd]; rfl⟩
  case tadd => cases h; exact ⟨_, fun s => by simp only [exec, execTadd, State.tensorCmd]; rfl⟩
  case tmul => cases h; exact ⟨_, fun s => by simp only [exec, execTmul, State.tensorCmd]; rfl⟩
  case tscale => cases h; exact ⟨_, fun s => by simp only [exec, execTscale, State.tensorCmd]; rfl⟩
  case tact => cases h; exact ⟨_, fun s => by simp only [exec, execTact, State.tensorCmd]; rfl⟩
  case tredSum => cases h; exact ⟨_, fun s => by simp only [exec, execTredSum, State.tensorCmd]; rfl⟩
  case tredMax => cases h; exact ⟨_, fun s => by simp only [exec, execTredMax, State.tensorCmd]; rfl⟩
  case tqnt => cases h; exact ⟨_, fun s => by simp only [exec, execTqnt, State.tensorCmd]; rfl⟩
  case tdq => cases h; exact ⟨_, fun s => by simp only [exec, execTdq, State.tensorCmd]; rfl⟩
  case tcvt => cases h; exact ⟨_, fun s => by simp only [exec, execTcvt, State.tensorCmd]; rfl⟩
  case ttrn => cases h; exact ⟨_, fun s => by simp only [exec, execTtrn, State.tensorCmd]; rfl⟩
  case trow => cases h; exact ⟨_, fun s => by simp only [exec, execTrow, State.tensorCmd]; rfl⟩
  case trowStr => cases h; exact ⟨_, fun s => by simp only [exec, execTrowStr, State.tensorCmd]; rfl⟩
  case tscan => cases h; exact ⟨_, fun s => by simp only [exec, execTscan, State.tensorCmd]; rfl⟩
  case tcarrySave => cases h; exact ⟨_, fun s => by simp only [exec, execTcarrySave, State.tensorCmd]; rfl⟩
  case tcarryLoad => cases h; exact ⟨_, fun s => by simp only [exec, execTcarryLoad, State.tensorCmd]; rfl⟩
  case tmovq => cases h; exact ⟨_, fun s => by simp only [exec, execTmovq, State.tensorCmd]; rfl⟩
  case semit => cases h; exact ⟨_, fun s => by simp only [exec, execSemit]; rfl⟩
  case smark => cases h; exact ⟨_, fun s => by simp only [exec, execSmark]; rfl⟩
  case srecv => cases h; exact ⟨_, fun s => by simp only [exec, execSrecv]; rfl⟩
  case sparm => cases h; exact ⟨_, fun s => by simp only [exec, execSparm]; rfl⟩
  case smopen => cases h; exact ⟨_, fun s => by simp only [exec, execSmopen]; rfl⟩
  case smfeed => cases h; exact ⟨_, fun s => by simp only [exec, execSmfeed]; rfl⟩
  case smclose => cases h; exact ⟨_, fun s => by simp only [exec, execSmclose]; rfl⟩
  case smabort => cases h; exact ⟨_, fun s => by simp only [exec, execSmabort]; rfl⟩
  case umctxOpen => cases h; exact ⟨_, fun s => by simp only [exec, execUmctxOpen]; rfl⟩
  case umctxRelease => cases h; exact ⟨_, fun s => by simp only [exec, execUmctxRelease]; rfl⟩
  case umscore => cases h; exact ⟨_, fun s => by simp only [exec, execUmscore]; rfl⟩
  case umrank => cases h; exact ⟨_, fun s => by simp only [exec, execUmrank]; rfl⟩
  case umtap => cases h; exact ⟨_, fun s => by simp only [exec, execUmtap]; rfl⟩
  case umdirty => cases h; exact ⟨_, fun s => by simp only [exec, execUmdirty]; rfl⟩
  case umclr => cases h; exact ⟨_, fun s => by simp only [exec, execUmclr]; rfl⟩
  case trap => cases h; exact ⟨_, fun s => by simp only [exec, execTrap]; rfl⟩
  case syswr => cases h; exact ⟨_, fun s => by simp only [exec, execSyswr]; rfl⟩
  case hem => cases h; exact ⟨_, fun s => by simp only [exec, execHem]; rfl⟩
  case bkpt => cases h; exact ⟨_, fun s => by simp only [exec, execBkpt]; rfl⟩
  case flag => cases h; exact ⟨_, fun s => by simp only [exec, execFlag]; rfl⟩
/-- An event of the machine always answers a next state. -/
theorem exec_event (i : Instr) (h : i.view = none) (s : State) : ∃ t, exec i s = .next t := by
  cases i <;> first | (cases h; done) | exact ⟨_, rfl⟩

end Sys2Proof.Machine
end

