-- ==== Sys2Proof/Laws/Sparse.lean ====
section
/-! SUPPORT. Laws/Sparse.lean: reading a sparse table after a write, and the canonical form that every table operation keeps. -/

namespace Sys2Proof.Machine

theorem look_put_same {α : Type} (m : List (Nat × α)) (k : Nat) (v : α) : look (put m k v) k = some v := by
  induction m with
  | nil => simp [put, look]
  | cons e m ih =>
    obtain ⟨j, w⟩ := e
    by_cases h : k < j
    · simp [put, look, h]
    · by_cases h2 : k = j
      · simp [put, look, h2]
      · simp [put, look, h, h2, ih, Ne.symm h2]

theorem look_put_ne {α : Type} (m : List (Nat × α)) (k l : Nat) (v : α) (h : l ≠ k) : look (put m k v) l = look m l := by
  induction m with
  | nil => simp [put, look, Ne.symm h]
  | cons e m ih =>
    obtain ⟨j, w⟩ := e
    by_cases h1 : k < j
    · simp [put, look, h1, Ne.symm h]
    · by_cases h2 : k = j
      · subst h2; simp [put, look, Ne.symm h]
      · simp [put, look, h1, h2, ih]

theorem del_cons {α : Type} (j : Nat) (w : α) (m : List (Nat × α)) (k : Nat) :
    del ((j, w) :: m) k = if j = k then del m k else (j, w) :: del m k := by
  unfold del
  by_cases h : j = k <;> simp [h]

theorem look_del_same {α : Type} (m : List (Nat × α)) (k : Nat) : look (del m k) k = none := by
  induction m with
  | nil => rfl
  | cons e m ih =>
    rw [del_cons]
    split
    · exact ih
    · rename_i h; simp only [look, h, if_false, ih]

theorem look_del_ne {α : Type} (m : List (Nat × α)) (k l : Nat) (h : l ≠ k) : look (del m k) l = look m l := by
  induction m with
  | nil => rfl
  | cons e m ih =>
    rw [del_cons]
    split
    · rename_i h1; rw [ih]; simp only [look, h1, Ne.symm h, if_false]
    · simp only [look, ih]

@[simp] theorem getAt_nil {α : Type} (k : Nat) (d : α) : getAt ([] : List (Nat × α)) k d = d := rfl

/-- Read after write, at the same key. -/
@[simp] theorem getAt_setAt_same {α : Type} [DecidableEq α] (m : List (Nat × α)) (k : Nat) (v d : α) :
    getAt (setAt m k v d) k d = v := by
  unfold getAt setAt
  by_cases h : v = d
  · simp [h, look_del_same]
  · simp [h, look_put_same]

/-- Read after write, at another key. -/
theorem getAt_setAt_ne {α : Type} [DecidableEq α] (m : List (Nat × α)) (k l : Nat) (v d : α) (h : l ≠ k) :
    getAt (setAt m k v d) l d = getAt m l d := by
  unfold getAt setAt
  by_cases h1 : v = d
  · simp [h1, look_del_ne m k l h]
  · simp [h1, look_put_ne m k l v h]

/-- Read after write, at any key. -/
theorem getAt_setAt {α : Type} [DecidableEq α] (m : List (Nat × α)) (k l : Nat) (v d : α) :
    getAt (setAt m k v d) l d = if l = k then v else getAt m l d := by
  by_cases h : l = k
  · subst h; simp
  · simp [h, getAt_setAt_ne]

/-! The canonical form. -/

theorem rising_mono {α : Type} (m : List (Nat × α)) {lo hi : Nat} (h : hi ≤ lo) (r : rising m lo = true) : rising m hi = true := by
  cases m with
  | nil => rfl
  | cons e m =>
    obtain ⟨j, w⟩ := e
    simp only [rising, Bool.and_eq_true, decide_eq_true_eq] at *
    exact ⟨by omega, r.2⟩

theorem rising_put {α : Type} (m : List (Nat × α)) (k : Nat) (v : α) (lo : Nat) (h : lo ≤ k) (r : rising m lo = true) :
    rising (put m k v) lo = true := by
  induction m generalizing lo with
  | nil => simp [put, rising, h]
  | cons e m ih =>
    obtain ⟨j, w⟩ := e
    simp only [rising, Bool.and_eq_true, decide_eq_true_eq] at r
    by_cases h1 : k < j
    · have : k + 1 ≤ j := h1
      simp [put, rising, h1, h, r.2, this]
    · by_cases h2 : k = j
      · subst h2; simp [put, rising, r.2, h]
      · simp only [put, h1, h2, if_false, rising, Bool.and_eq_true, decide_eq_true_eq]
        exact ⟨r.1, ih (j + 1) (by omega) r.2⟩

theorem rising_del {α : Type} (m : List (Nat × α)) (k lo : Nat) (r : rising m lo = true) : rising (del m k) lo = true := by
  induction m generalizing lo with
  | nil => rfl
  | cons e m ih =>
    obtain ⟨j, w⟩ := e
    simp only [rising, Bool.and_eq_true, decide_eq_true_eq] at r
    rw [del_cons]
    split
    · exact ih lo (rising_mono m (by omega) r.2)
    · simp only [rising, Bool.and_eq_true, decide_eq_true_eq]
      exact ⟨r.1, ih (j + 1) r.2⟩

theorem all_put {α : Type} (p : Nat × α → Bool) (m : List (Nat × α)) (k : Nat) (v : α) (hv : p (k, v) = true) (h : m.all p = true) :
    (put m k v).all p = true := by
  induction m with
  | nil => simp [put, hv]
  | cons e m ih =>
    obtain ⟨j, w⟩ := e
    simp only [List.all_cons, Bool.and_eq_true] at h
    by_cases h1 : k < j
    · simp [put, h1, hv, h.1]; simpa using h.2
    · by_cases h2 : k = j
      · subst h2; simp only [put, Nat.lt_irrefl, if_false, if_true, List.all_cons, hv, Bool.true_and]; exact h.2
      · simp only [put, h1, h2, if_false, List.all_cons, h.1, Bool.true_and]; exact ih h.2

/-- Every write keeps the canonical form. -/
theorem canonical_setAt {α : Type} [DecidableEq α] (m : List (Nat × α)) (k : Nat) (v d : α) (h : canonical m d = true) :
    canonical (setAt m k v d) d = true := by
  simp only [canonical, Bool.and_eq_true] at h ⊢
  unfold setAt
  by_cases hv : v = d
  · simp only [hv, if_true]
    refine ⟨rising_del m k 0 h.1, ?_⟩
    simp only [del, List.all_filter]
    simp only [List.all_eq_true] at h ⊢
    intro e he
    simp [h.2 e he]
  · simp only [hv, if_false]
    exact ⟨rising_put m k v 0 (Nat.zero_le _) h.1, all_put _ m k v (by simpa using hv) h.2⟩

/-- Writing consecutive bytes keeps the canonical form. -/
theorem canonical_writeBytes (bs : List Byte) (m : List (Nat × Byte)) (a : Nat) (h : canonical m 0 = true) :
    canonical (writeBytes m a bs) 0 = true := by
  induction bs generalizing m a with
  | nil => exact h
  | cons b bs ih => exact ih _ _ (canonical_setAt m a b 0 h)

/-- A byte outside those written reads as before. -/
theorem getAt_writeBytes_ne (bs : List Byte) (m : List (Nat × Byte)) (a i : Nat) (h : i < a ∨ a + bs.length ≤ i) :
    getAt (writeBytes m a bs) i 0 = getAt m i 0 := by
  induction bs generalizing m a with
  | nil => rfl
  | cons b bs ih =>
    simp only [List.length_cons] at h
    simp only [writeBytes]
    rw [ih _ _ (by omega), getAt_setAt_ne _ _ _ _ _ (by omega)]

/-- A byte among those written reads as written. -/
theorem getAt_writeBytes (bs : List Byte) (m : List (Nat × Byte)) (a i : Nat) (h : i < bs.length) :
    getAt (writeBytes m a bs) (a + i) 0 = bs[i] := by
  induction bs generalizing m a i with
  | nil => simp at h
  | cons b bs ih =>
    simp only [writeBytes]
    cases i with
    | zero => rw [getAt_writeBytes_ne _ _ _ _ (by omega)]; simp
    | succ i =>
      have := ih (setAt m a b 0) (a + 1) i (by simpa using h)
      rw [show a + (i + 1) = a + 1 + i by omega, this]; rfl

end Sys2Proof.Machine
end

