-- ==== Sys2Proof/Laws/State.lean ====
section
/-! SUPPORT. Laws/State.lean: what each update of a part of the state leaves alone, one lemma per field, and reading the part back. -/

namespace Sys2Proof.Machine

/-! setCluster changes `clusters` only. -/

@[simp] theorem State.setCluster_nCycle (s : State) (k : Nat) (c : Cluster) : (s.setCluster k c).nCycle = s.nCycle := rfl
@[simp] theorem State.setCluster_stamp (s : State) (k : Nat) (c : Cluster) : (s.setCluster k c).stamp = s.stamp := rfl
@[simp] theorem State.setCluster_calendar (s : State) (k : Nat) (c : Cluster) : (s.setCluster k c).calendar = s.calendar := rfl
@[simp] theorem State.setCluster_stepping (s : State) (k : Nat) (c : Cluster) : (s.setCluster k c).stepping = s.stepping := rfl
@[simp] theorem State.setCluster_bringUp (s : State) (k : Nat) (c : Cluster) : (s.setCluster k c).bringUp = s.bringUp := rfl
@[simp] theorem State.setCluster_presented (s : State) (k : Nat) (c : Cluster) : (s.setCluster k c).presented = s.presented := rfl
@[simp] theorem State.setCluster_quotaWindow (s : State) (k : Nat) (c : Cluster) : (s.setCluster k c).quotaWindow = s.quotaWindow := rfl
@[simp] theorem State.setCluster_powerCap (s : State) (k : Nat) (c : Cluster) : (s.setCluster k c).powerCap = s.powerCap := rfl
@[simp] theorem State.setCluster_dieReset (s : State) (k : Nat) (c : Cluster) : (s.setCluster k c).dieReset = s.dieReset := rfl
@[simp] theorem State.setCluster_dieGated (s : State) (k : Nat) (c : Cluster) : (s.setCluster k c).dieGated = s.dieGated := rfl
@[simp] theorem State.setCluster_restarting (s : State) (k : Nat) (c : Cluster) : (s.setCluster k c).restarting = s.restarting := rfl
@[simp] theorem State.setCluster_firmware (s : State) (k : Nat) (c : Cluster) : (s.setCluster k c).firmware = s.firmware := rfl
@[simp] theorem State.setCluster_microcode (s : State) (k : Nat) (c : Cluster) : (s.setCluster k c).microcode = s.microcode := rfl
@[simp] theorem State.setCluster_romVersion (s : State) (k : Nat) (c : Cluster) : (s.setCluster k c).romVersion = s.romVersion := rfl
@[simp] theorem State.setCluster_fuses (s : State) (k : Nat) (c : Cluster) : (s.setCluster k c).fuses = s.fuses := rfl
@[simp] theorem State.setCluster_sensors (s : State) (k : Nat) (c : Cluster) : (s.setCluster k c).sensors = s.sensors := rfl
@[simp] theorem State.setCluster_lanes (s : State) (k : Nat) (c : Cluster) : (s.setCluster k c).lanes = s.lanes := rfl
@[simp] theorem State.setCluster_retraining (s : State) (k : Nat) (c : Cluster) : (s.setCluster k c).retraining = s.retraining := rfl
@[simp] theorem State.setCluster_selfPod (s : State) (k : Nat) (c : Cluster) : (s.setCluster k c).selfPod = s.selfPod := rfl
@[simp] theorem State.setCluster_selfAcc (s : State) (k : Nat) (c : Cluster) : (s.setCluster k c).selfAcc = s.selfAcc := rfl
@[simp] theorem State.setCluster_bridges (s : State) (k : Nat) (c : Cluster) : (s.setCluster k c).bridges = s.bridges := rfl
@[simp] theorem State.setCluster_portMasks (s : State) (k : Nat) (c : Cluster) : (s.setCluster k c).portMasks = s.portMasks := rfl
@[simp] theorem State.setCluster_slotTables (s : State) (k : Nat) (c : Cluster) : (s.setCluster k c).slotTables = s.slotTables := rfl
@[simp] theorem State.setCluster_ats (s : State) (k : Nat) (c : Cluster) : (s.setCluster k c).ats = s.ats := rfl
@[simp] theorem State.setCluster_spdm (s : State) (k : Nat) (c : Cluster) : (s.setCluster k c).spdm = s.spdm := rfl
@[simp] theorem State.setCluster_ide (s : State) (k : Nat) (c : Cluster) : (s.setCluster k c).ide = s.ide := rfl
@[simp] theorem State.setCluster_tdisp (s : State) (k : Nat) (c : Cluster) : (s.setCluster k c).tdisp = s.tdisp := rfl
@[simp] theorem State.setCluster_hbm (s : State) (k : Nat) (c : Cluster) : (s.setCluster k c).hbm = s.hbm := rfl
@[simp] theorem State.setCluster_wstore (s : State) (k : Nat) (c : Cluster) : (s.setCluster k c).wstore = s.wstore := rfl
@[simp] theorem State.setCluster_poison (s : State) (k : Nat) (c : Cluster) : (s.setCluster k c).poison = s.poison := rfl
@[simp] theorem State.setCluster_parts (s : State) (k : Nat) (c : Cluster) : (s.setCluster k c).parts = s.parts := rfl
@[simp] theorem State.setCluster_keys (s : State) (k : Nat) (c : Cluster) : (s.setCluster k c).keys = s.keys := rfl
@[simp] theorem State.setCluster_meters (s : State) (k : Nat) (c : Cluster) : (s.setCluster k c).meters = s.meters := rfl
@[simp] theorem State.setCluster_knots (s : State) (k : Nat) (c : Cluster) : (s.setCluster k c).knots = s.knots := rfl
@[simp] theorem State.setCluster_seams (s : State) (k : Nat) (c : Cluster) : (s.setCluster k c).seams = s.seams := rfl
@[simp] theorem State.setCluster_ums (s : State) (k : Nat) (c : Cluster) : (s.setCluster k c).ums = s.ums := rfl
@[simp] theorem State.setCluster_dieArr (s : State) (k : Nat) (c : Cluster) : (s.setCluster k c).dieArr = s.dieArr := rfl
@[simp] theorem State.setCluster_patterns (s : State) (k : Nat) (c : Cluster) : (s.setCluster k c).patterns = s.patterns := rfl
@[simp] theorem State.setCluster_gens (s : State) (k : Nat) (c : Cluster) : (s.setCluster k c).gens = s.gens := rfl
@[simp] theorem State.setCluster_launches (s : State) (k : Nat) (c : Cluster) : (s.setCluster k c).launches = s.launches := rfl
@[simp] theorem State.setCluster_reqs (s : State) (k : Nat) (c : Cluster) : (s.setCluster k c).reqs = s.reqs := rfl
@[simp] theorem State.setCluster_kreqs (s : State) (k : Nat) (c : Cluster) : (s.setCluster k c).kreqs = s.kreqs := rfl
@[simp] theorem State.setCluster_portal (s : State) (k : Nat) (c : Cluster) : (s.setCluster k c).portal = s.portal := rfl
@[simp] theorem State.setCluster_ports (s : State) (k : Nat) (c : Cluster) : (s.setCluster k c).ports = s.ports := rfl
@[simp] theorem State.setCluster_flits (s : State) (k : Nat) (c : Cluster) : (s.setCluster k c).flits = s.flits := rfl
@[simp] theorem State.setCluster_heldHit (s : State) (k : Nat) (c : Cluster) : (s.setCluster k c).heldHit = s.heldHit := rfl
@[simp] theorem State.setCluster_cur (s : State) (k : Nat) (c : Cluster) : (s.setCluster k c).cur = s.cur := rfl
@[simp] theorem State.setCluster_agenda (s : State) (k : Nat) (c : Cluster) : (s.setCluster k c).agenda = s.agenda := rfl
@[simp] theorem State.setCluster_inbox (s : State) (k : Nat) (c : Cluster) : (s.setCluster k c).inbox = s.inbox := rfl
@[simp] theorem State.setCluster_outbox (s : State) (k : Nat) (c : Cluster) : (s.setCluster k c).outbox = s.outbox := rfl
@[simp] theorem State.setCluster_freeCtr (s : State) (k : Nat) (c : Cluster) : (s.setCluster k c).freeCtr = s.freeCtr := rfl
@[simp] theorem State.setCluster_serial (s : State) (k : Nat) (c : Cluster) : (s.setCluster k c).serial = s.serial := rfl

/-! onCluster changes `clusters` only. -/

@[simp] theorem State.onCluster_nCycle (s : State) (k : Nat) (f : Cluster → Cluster) : (s.onCluster k f).nCycle = s.nCycle := rfl
@[simp] theorem State.onCluster_stamp (s : State) (k : Nat) (f : Cluster → Cluster) : (s.onCluster k f).stamp = s.stamp := rfl
@[simp] theorem State.onCluster_calendar (s : State) (k : Nat) (f : Cluster → Cluster) : (s.onCluster k f).calendar = s.calendar := rfl
@[simp] theorem State.onCluster_stepping (s : State) (k : Nat) (f : Cluster → Cluster) : (s.onCluster k f).stepping = s.stepping := rfl
@[simp] theorem State.onCluster_bringUp (s : State) (k : Nat) (f : Cluster → Cluster) : (s.onCluster k f).bringUp = s.bringUp := rfl
@[simp] theorem State.onCluster_presented (s : State) (k : Nat) (f : Cluster → Cluster) : (s.onCluster k f).presented = s.presented := rfl
@[simp] theorem State.onCluster_quotaWindow (s : State) (k : Nat) (f : Cluster → Cluster) : (s.onCluster k f).quotaWindow = s.quotaWindow := rfl
@[simp] theorem State.onCluster_powerCap (s : State) (k : Nat) (f : Cluster → Cluster) : (s.onCluster k f).powerCap = s.powerCap := rfl
@[simp] theorem State.onCluster_dieReset (s : State) (k : Nat) (f : Cluster → Cluster) : (s.onCluster k f).dieReset = s.dieReset := rfl
@[simp] theorem State.onCluster_dieGated (s : State) (k : Nat) (f : Cluster → Cluster) : (s.onCluster k f).dieGated = s.dieGated := rfl
@[simp] theorem State.onCluster_restarting (s : State) (k : Nat) (f : Cluster → Cluster) : (s.onCluster k f).restarting = s.restarting := rfl
@[simp] theorem State.onCluster_firmware (s : State) (k : Nat) (f : Cluster → Cluster) : (s.onCluster k f).firmware = s.firmware := rfl
@[simp] theorem State.onCluster_microcode (s : State) (k : Nat) (f : Cluster → Cluster) : (s.onCluster k f).microcode = s.microcode := rfl
@[simp] theorem State.onCluster_romVersion (s : State) (k : Nat) (f : Cluster → Cluster) : (s.onCluster k f).romVersion = s.romVersion := rfl
@[simp] theorem State.onCluster_fuses (s : State) (k : Nat) (f : Cluster → Cluster) : (s.onCluster k f).fuses = s.fuses := rfl
@[simp] theorem State.onCluster_sensors (s : State) (k : Nat) (f : Cluster → Cluster) : (s.onCluster k f).sensors = s.sensors := rfl
@[simp] theorem State.onCluster_lanes (s : State) (k : Nat) (f : Cluster → Cluster) : (s.onCluster k f).lanes = s.lanes := rfl
@[simp] theorem State.onCluster_retraining (s : State) (k : Nat) (f : Cluster → Cluster) : (s.onCluster k f).retraining = s.retraining := rfl
@[simp] theorem State.onCluster_selfPod (s : State) (k : Nat) (f : Cluster → Cluster) : (s.onCluster k f).selfPod = s.selfPod := rfl
@[simp] theorem State.onCluster_selfAcc (s : State) (k : Nat) (f : Cluster → Cluster) : (s.onCluster k f).selfAcc = s.selfAcc := rfl
@[simp] theorem State.onCluster_bridges (s : State) (k : Nat) (f : Cluster → Cluster) : (s.onCluster k f).bridges = s.bridges := rfl
@[simp] theorem State.onCluster_portMasks (s : State) (k : Nat) (f : Cluster → Cluster) : (s.onCluster k f).portMasks = s.portMasks := rfl
@[simp] theorem State.onCluster_slotTables (s : State) (k : Nat) (f : Cluster → Cluster) : (s.onCluster k f).slotTables = s.slotTables := rfl
@[simp] theorem State.onCluster_ats (s : State) (k : Nat) (f : Cluster → Cluster) : (s.onCluster k f).ats = s.ats := rfl
@[simp] theorem State.onCluster_spdm (s : State) (k : Nat) (f : Cluster → Cluster) : (s.onCluster k f).spdm = s.spdm := rfl
@[simp] theorem State.onCluster_ide (s : State) (k : Nat) (f : Cluster → Cluster) : (s.onCluster k f).ide = s.ide := rfl
@[simp] theorem State.onCluster_tdisp (s : State) (k : Nat) (f : Cluster → Cluster) : (s.onCluster k f).tdisp = s.tdisp := rfl
@[simp] theorem State.onCluster_hbm (s : State) (k : Nat) (f : Cluster → Cluster) : (s.onCluster k f).hbm = s.hbm := rfl
@[simp] theorem State.onCluster_wstore (s : State) (k : Nat) (f : Cluster → Cluster) : (s.onCluster k f).wstore = s.wstore := rfl
@[simp] theorem State.onCluster_poison (s : State) (k : Nat) (f : Cluster → Cluster) : (s.onCluster k f).poison = s.poison := rfl
@[simp] theorem State.onCluster_parts (s : State) (k : Nat) (f : Cluster → Cluster) : (s.onCluster k f).parts = s.parts := rfl
@[simp] theorem State.onCluster_keys (s : State) (k : Nat) (f : Cluster → Cluster) : (s.onCluster k f).keys = s.keys := rfl
@[simp] theorem State.onCluster_meters (s : State) (k : Nat) (f : Cluster → Cluster) : (s.onCluster k f).meters = s.meters := rfl
@[simp] theorem State.onCluster_knots (s : State) (k : Nat) (f : Cluster → Cluster) : (s.onCluster k f).knots = s.knots := rfl
@[simp] theorem State.onCluster_seams (s : State) (k : Nat) (f : Cluster → Cluster) : (s.onCluster k f).seams = s.seams := rfl
@[simp] theorem State.onCluster_ums (s : State) (k : Nat) (f : Cluster → Cluster) : (s.onCluster k f).ums = s.ums := rfl
@[simp] theorem State.onCluster_dieArr (s : State) (k : Nat) (f : Cluster → Cluster) : (s.onCluster k f).dieArr = s.dieArr := rfl
@[simp] theorem State.onCluster_patterns (s : State) (k : Nat) (f : Cluster → Cluster) : (s.onCluster k f).patterns = s.patterns := rfl
@[simp] theorem State.onCluster_gens (s : State) (k : Nat) (f : Cluster → Cluster) : (s.onCluster k f).gens = s.gens := rfl
@[simp] theorem State.onCluster_launches (s : State) (k : Nat) (f : Cluster → Cluster) : (s.onCluster k f).launches = s.launches := rfl
@[simp] theorem State.onCluster_reqs (s : State) (k : Nat) (f : Cluster → Cluster) : (s.onCluster k f).reqs = s.reqs := rfl
@[simp] theorem State.onCluster_kreqs (s : State) (k : Nat) (f : Cluster → Cluster) : (s.onCluster k f).kreqs = s.kreqs := rfl
@[simp] theorem State.onCluster_portal (s : State) (k : Nat) (f : Cluster → Cluster) : (s.onCluster k f).portal = s.portal := rfl
@[simp] theorem State.onCluster_ports (s : State) (k : Nat) (f : Cluster → Cluster) : (s.onCluster k f).ports = s.ports := rfl
@[simp] theorem State.onCluster_flits (s : State) (k : Nat) (f : Cluster → Cluster) : (s.onCluster k f).flits = s.flits := rfl
@[simp] theorem State.onCluster_heldHit (s : State) (k : Nat) (f : Cluster → Cluster) : (s.onCluster k f).heldHit = s.heldHit := rfl
@[simp] theorem State.onCluster_cur (s : State) (k : Nat) (f : Cluster → Cluster) : (s.onCluster k f).cur = s.cur := rfl
@[simp] theorem State.onCluster_agenda (s : State) (k : Nat) (f : Cluster → Cluster) : (s.onCluster k f).agenda = s.agenda := rfl
@[simp] theorem State.onCluster_inbox (s : State) (k : Nat) (f : Cluster → Cluster) : (s.onCluster k f).inbox = s.inbox := rfl
@[simp] theorem State.onCluster_outbox (s : State) (k : Nat) (f : Cluster → Cluster) : (s.onCluster k f).outbox = s.outbox := rfl
@[simp] theorem State.onCluster_freeCtr (s : State) (k : Nat) (f : Cluster → Cluster) : (s.onCluster k f).freeCtr = s.freeCtr := rfl
@[simp] theorem State.onCluster_serial (s : State) (k : Nat) (f : Cluster → Cluster) : (s.onCluster k f).serial = s.serial := rfl

/-! onStation changes `clusters` only. -/

@[simp] theorem State.onStation_nCycle (s : State) (k n : Nat) (f : Station → Station) : (s.onStation k n f).nCycle = s.nCycle := rfl
@[simp] theorem State.onStation_stamp (s : State) (k n : Nat) (f : Station → Station) : (s.onStation k n f).stamp = s.stamp := rfl
@[simp] theorem State.onStation_calendar (s : State) (k n : Nat) (f : Station → Station) : (s.onStation k n f).calendar = s.calendar := rfl
@[simp] theorem State.onStation_stepping (s : State) (k n : Nat) (f : Station → Station) : (s.onStation k n f).stepping = s.stepping := rfl
@[simp] theorem State.onStation_bringUp (s : State) (k n : Nat) (f : Station → Station) : (s.onStation k n f).bringUp = s.bringUp := rfl
@[simp] theorem State.onStation_presented (s : State) (k n : Nat) (f : Station → Station) : (s.onStation k n f).presented = s.presented := rfl
@[simp] theorem State.onStation_quotaWindow (s : State) (k n : Nat) (f : Station → Station) : (s.onStation k n f).quotaWindow = s.quotaWindow := rfl
@[simp] theorem State.onStation_powerCap (s : State) (k n : Nat) (f : Station → Station) : (s.onStation k n f).powerCap = s.powerCap := rfl
@[simp] theorem State.onStation_dieReset (s : State) (k n : Nat) (f : Station → Station) : (s.onStation k n f).dieReset = s.dieReset := rfl
@[simp] theorem State.onStation_dieGated (s : State) (k n : Nat) (f : Station → Station) : (s.onStation k n f).dieGated = s.dieGated := rfl
@[simp] theorem State.onStation_restarting (s : State) (k n : Nat) (f : Station → Station) : (s.onStation k n f).restarting = s.restarting := rfl
@[simp] theorem State.onStation_firmware (s : State) (k n : Nat) (f : Station → Station) : (s.onStation k n f).firmware = s.firmware := rfl
@[simp] theorem State.onStation_microcode (s : State) (k n : Nat) (f : Station → Station) : (s.onStation k n f).microcode = s.microcode := rfl
@[simp] theorem State.onStation_romVersion (s : State) (k n : Nat) (f : Station → Station) : (s.onStation k n f).romVersion = s.romVersion := rfl
@[simp] theorem State.onStation_fuses (s : State) (k n : Nat) (f : Station → Station) : (s.onStation k n f).fuses = s.fuses := rfl
@[simp] theorem State.onStation_sensors (s : State) (k n : Nat) (f : Station → Station) : (s.onStation k n f).sensors = s.sensors := rfl
@[simp] theorem State.onStation_lanes (s : State) (k n : Nat) (f : Station → Station) : (s.onStation k n f).lanes = s.lanes := rfl
@[simp] theorem State.onStation_retraining (s : State) (k n : Nat) (f : Station → Station) : (s.onStation k n f).retraining = s.retraining := rfl
@[simp] theorem State.onStation_selfPod (s : State) (k n : Nat) (f : Station → Station) : (s.onStation k n f).selfPod = s.selfPod := rfl
@[simp] theorem State.onStation_selfAcc (s : State) (k n : Nat) (f : Station → Station) : (s.onStation k n f).selfAcc = s.selfAcc := rfl
@[simp] theorem State.onStation_bridges (s : State) (k n : Nat) (f : Station → Station) : (s.onStation k n f).bridges = s.bridges := rfl
@[simp] theorem State.onStation_portMasks (s : State) (k n : Nat) (f : Station → Station) : (s.onStation k n f).portMasks = s.portMasks := rfl
@[simp] theorem State.onStation_slotTables (s : State) (k n : Nat) (f : Station → Station) : (s.onStation k n f).slotTables = s.slotTables := rfl
@[simp] theorem State.onStation_ats (s : State) (k n : Nat) (f : Station → Station) : (s.onStation k n f).ats = s.ats := rfl
@[simp] theorem State.onStation_spdm (s : State) (k n : Nat) (f : Station → Station) : (s.onStation k n f).spdm = s.spdm := rfl
@[simp] theorem State.onStation_ide (s : State) (k n : Nat) (f : Station → Station) : (s.onStation k n f).ide = s.ide := rfl
@[simp] theorem State.onStation_tdisp (s : State) (k n : Nat) (f : Station → Station) : (s.onStation k n f).tdisp = s.tdisp := rfl
@[simp] theorem State.onStation_hbm (s : State) (k n : Nat) (f : Station → Station) : (s.onStation k n f).hbm = s.hbm := rfl
@[simp] theorem State.onStation_wstore (s : State) (k n : Nat) (f : Station → Station) : (s.onStation k n f).wstore = s.wstore := rfl
@[simp] theorem State.onStation_poison (s : State) (k n : Nat) (f : Station → Station) : (s.onStation k n f).poison = s.poison := rfl
@[simp] theorem State.onStation_parts (s : State) (k n : Nat) (f : Station → Station) : (s.onStation k n f).parts = s.parts := rfl
@[simp] theorem State.onStation_keys (s : State) (k n : Nat) (f : Station → Station) : (s.onStation k n f).keys = s.keys := rfl
@[simp] theorem State.onStation_meters (s : State) (k n : Nat) (f : Station → Station) : (s.onStation k n f).meters = s.meters := rfl
@[simp] theorem State.onStation_knots (s : State) (k n : Nat) (f : Station → Station) : (s.onStation k n f).knots = s.knots := rfl
@[simp] theorem State.onStation_seams (s : State) (k n : Nat) (f : Station → Station) : (s.onStation k n f).seams = s.seams := rfl
@[simp] theorem State.onStation_ums (s : State) (k n : Nat) (f : Station → Station) : (s.onStation k n f).ums = s.ums := rfl
@[simp] theorem State.onStation_dieArr (s : State) (k n : Nat) (f : Station → Station) : (s.onStation k n f).dieArr = s.dieArr := rfl
@[simp] theorem State.onStation_patterns (s : State) (k n : Nat) (f : Station → Station) : (s.onStation k n f).patterns = s.patterns := rfl
@[simp] theorem State.onStation_gens (s : State) (k n : Nat) (f : Station → Station) : (s.onStation k n f).gens = s.gens := rfl
@[simp] theorem State.onStation_launches (s : State) (k n : Nat) (f : Station → Station) : (s.onStation k n f).launches = s.launches := rfl
@[simp] theorem State.onStation_reqs (s : State) (k n : Nat) (f : Station → Station) : (s.onStation k n f).reqs = s.reqs := rfl
@[simp] theorem State.onStation_kreqs (s : State) (k n : Nat) (f : Station → Station) : (s.onStation k n f).kreqs = s.kreqs := rfl
@[simp] theorem State.onStation_portal (s : State) (k n : Nat) (f : Station → Station) : (s.onStation k n f).portal = s.portal := rfl
@[simp] theorem State.onStation_ports (s : State) (k n : Nat) (f : Station → Station) : (s.onStation k n f).ports = s.ports := rfl
@[simp] theorem State.onStation_flits (s : State) (k n : Nat) (f : Station → Station) : (s.onStation k n f).flits = s.flits := rfl
@[simp] theorem State.onStation_heldHit (s : State) (k n : Nat) (f : Station → Station) : (s.onStation k n f).heldHit = s.heldHit := rfl
@[simp] theorem State.onStation_cur (s : State) (k n : Nat) (f : Station → Station) : (s.onStation k n f).cur = s.cur := rfl
@[simp] theorem State.onStation_agenda (s : State) (k n : Nat) (f : Station → Station) : (s.onStation k n f).agenda = s.agenda := rfl
@[simp] theorem State.onStation_inbox (s : State) (k n : Nat) (f : Station → Station) : (s.onStation k n f).inbox = s.inbox := rfl
@[simp] theorem State.onStation_outbox (s : State) (k n : Nat) (f : Station → Station) : (s.onStation k n f).outbox = s.outbox := rfl
@[simp] theorem State.onStation_freeCtr (s : State) (k n : Nat) (f : Station → Station) : (s.onStation k n f).freeCtr = s.freeCtr := rfl
@[simp] theorem State.onStation_serial (s : State) (k n : Nat) (f : Station → Station) : (s.onStation k n f).serial = s.serial := rfl

/-! enqueue changes `clusters` only. -/

@[simp] theorem State.enqueue_nCycle (s : State) (k n : Nat) (ts : List OutTok) : (s.enqueue k n ts).nCycle = s.nCycle := rfl
@[simp] theorem State.enqueue_stamp (s : State) (k n : Nat) (ts : List OutTok) : (s.enqueue k n ts).stamp = s.stamp := rfl
@[simp] theorem State.enqueue_calendar (s : State) (k n : Nat) (ts : List OutTok) : (s.enqueue k n ts).calendar = s.calendar := rfl
@[simp] theorem State.enqueue_stepping (s : State) (k n : Nat) (ts : List OutTok) : (s.enqueue k n ts).stepping = s.stepping := rfl
@[simp] theorem State.enqueue_bringUp (s : State) (k n : Nat) (ts : List OutTok) : (s.enqueue k n ts).bringUp = s.bringUp := rfl
@[simp] theorem State.enqueue_presented (s : State) (k n : Nat) (ts : List OutTok) : (s.enqueue k n ts).presented = s.presented := rfl
@[simp] theorem State.enqueue_quotaWindow (s : State) (k n : Nat) (ts : List OutTok) : (s.enqueue k n ts).quotaWindow = s.quotaWindow := rfl
@[simp] theorem State.enqueue_powerCap (s : State) (k n : Nat) (ts : List OutTok) : (s.enqueue k n ts).powerCap = s.powerCap := rfl
@[simp] theorem State.enqueue_dieReset (s : State) (k n : Nat) (ts : List OutTok) : (s.enqueue k n ts).dieReset = s.dieReset := rfl
@[simp] theorem State.enqueue_dieGated (s : State) (k n : Nat) (ts : List OutTok) : (s.enqueue k n ts).dieGated = s.dieGated := rfl
@[simp] theorem State.enqueue_restarting (s : State) (k n : Nat) (ts : List OutTok) : (s.enqueue k n ts).restarting = s.restarting := rfl
@[simp] theorem State.enqueue_firmware (s : State) (k n : Nat) (ts : List OutTok) : (s.enqueue k n ts).firmware = s.firmware := rfl
@[simp] theorem State.enqueue_microcode (s : State) (k n : Nat) (ts : List OutTok) : (s.enqueue k n ts).microcode = s.microcode := rfl
@[simp] theorem State.enqueue_romVersion (s : State) (k n : Nat) (ts : List OutTok) : (s.enqueue k n ts).romVersion = s.romVersion := rfl
@[simp] theorem State.enqueue_fuses (s : State) (k n : Nat) (ts : List OutTok) : (s.enqueue k n ts).fuses = s.fuses := rfl
@[simp] theorem State.enqueue_sensors (s : State) (k n : Nat) (ts : List OutTok) : (s.enqueue k n ts).sensors = s.sensors := rfl
@[simp] theorem State.enqueue_lanes (s : State) (k n : Nat) (ts : List OutTok) : (s.enqueue k n ts).lanes = s.lanes := rfl
@[simp] theorem State.enqueue_retraining (s : State) (k n : Nat) (ts : List OutTok) : (s.enqueue k n ts).retraining = s.retraining := rfl
@[simp] theorem State.enqueue_selfPod (s : State) (k n : Nat) (ts : List OutTok) : (s.enqueue k n ts).selfPod = s.selfPod := rfl
@[simp] theorem State.enqueue_selfAcc (s : State) (k n : Nat) (ts : List OutTok) : (s.enqueue k n ts).selfAcc = s.selfAcc := rfl
@[simp] theorem State.enqueue_bridges (s : State) (k n : Nat) (ts : List OutTok) : (s.enqueue k n ts).bridges = s.bridges := rfl
@[simp] theorem State.enqueue_portMasks (s : State) (k n : Nat) (ts : List OutTok) : (s.enqueue k n ts).portMasks = s.portMasks := rfl
@[simp] theorem State.enqueue_slotTables (s : State) (k n : Nat) (ts : List OutTok) : (s.enqueue k n ts).slotTables = s.slotTables := rfl
@[simp] theorem State.enqueue_ats (s : State) (k n : Nat) (ts : List OutTok) : (s.enqueue k n ts).ats = s.ats := rfl
@[simp] theorem State.enqueue_spdm (s : State) (k n : Nat) (ts : List OutTok) : (s.enqueue k n ts).spdm = s.spdm := rfl
@[simp] theorem State.enqueue_ide (s : State) (k n : Nat) (ts : List OutTok) : (s.enqueue k n ts).ide = s.ide := rfl
@[simp] theorem State.enqueue_tdisp (s : State) (k n : Nat) (ts : List OutTok) : (s.enqueue k n ts).tdisp = s.tdisp := rfl
@[simp] theorem State.enqueue_hbm (s : State) (k n : Nat) (ts : List OutTok) : (s.enqueue k n ts).hbm = s.hbm := rfl
@[simp] theorem State.enqueue_wstore (s : State) (k n : Nat) (ts : List OutTok) : (s.enqueue k n ts).wstore = s.wstore := rfl
@[simp] theorem State.enqueue_poison (s : State) (k n : Nat) (ts : List OutTok) : (s.enqueue k n ts).poison = s.poison := rfl
@[simp] theorem State.enqueue_parts (s : State) (k n : Nat) (ts : List OutTok) : (s.enqueue k n ts).parts = s.parts := rfl
@[simp] theorem State.enqueue_keys (s : State) (k n : Nat) (ts : List OutTok) : (s.enqueue k n ts).keys = s.keys := rfl
@[simp] theorem State.enqueue_meters (s : State) (k n : Nat) (ts : List OutTok) : (s.enqueue k n ts).meters = s.meters := rfl
@[simp] theorem State.enqueue_knots (s : State) (k n : Nat) (ts : List OutTok) : (s.enqueue k n ts).knots = s.knots := rfl
@[simp] theorem State.enqueue_seams (s : State) (k n : Nat) (ts : List OutTok) : (s.enqueue k n ts).seams = s.seams := rfl
@[simp] theorem State.enqueue_ums (s : State) (k n : Nat) (ts : List OutTok) : (s.enqueue k n ts).ums = s.ums := rfl
@[simp] theorem State.enqueue_dieArr (s : State) (k n : Nat) (ts : List OutTok) : (s.enqueue k n ts).dieArr = s.dieArr := rfl
@[simp] theorem State.enqueue_patterns (s : State) (k n : Nat) (ts : List OutTok) : (s.enqueue k n ts).patterns = s.patterns := rfl
@[simp] theorem State.enqueue_gens (s : State) (k n : Nat) (ts : List OutTok) : (s.enqueue k n ts).gens = s.gens := rfl
@[simp] theorem State.enqueue_launches (s : State) (k n : Nat) (ts : List OutTok) : (s.enqueue k n ts).launches = s.launches := rfl
@[simp] theorem State.enqueue_reqs (s : State) (k n : Nat) (ts : List OutTok) : (s.enqueue k n ts).reqs = s.reqs := rfl
@[simp] theorem State.enqueue_kreqs (s : State) (k n : Nat) (ts : List OutTok) : (s.enqueue k n ts).kreqs = s.kreqs := rfl
@[simp] theorem State.enqueue_portal (s : State) (k n : Nat) (ts : List OutTok) : (s.enqueue k n ts).portal = s.portal := rfl
@[simp] theorem State.enqueue_ports (s : State) (k n : Nat) (ts : List OutTok) : (s.enqueue k n ts).ports = s.ports := rfl
@[simp] theorem State.enqueue_flits (s : State) (k n : Nat) (ts : List OutTok) : (s.enqueue k n ts).flits = s.flits := rfl
@[simp] theorem State.enqueue_heldHit (s : State) (k n : Nat) (ts : List OutTok) : (s.enqueue k n ts).heldHit = s.heldHit := rfl
@[simp] theorem State.enqueue_cur (s : State) (k n : Nat) (ts : List OutTok) : (s.enqueue k n ts).cur = s.cur := rfl
@[simp] theorem State.enqueue_agenda (s : State) (k n : Nat) (ts : List OutTok) : (s.enqueue k n ts).agenda = s.agenda := rfl
@[simp] theorem State.enqueue_inbox (s : State) (k n : Nat) (ts : List OutTok) : (s.enqueue k n ts).inbox = s.inbox := rfl
@[simp] theorem State.enqueue_outbox (s : State) (k n : Nat) (ts : List OutTok) : (s.enqueue k n ts).outbox = s.outbox := rfl
@[simp] theorem State.enqueue_freeCtr (s : State) (k n : Nat) (ts : List OutTok) : (s.enqueue k n ts).freeCtr = s.freeCtr := rfl
@[simp] theorem State.enqueue_serial (s : State) (k n : Nat) (ts : List OutTok) : (s.enqueue k n ts).serial = s.serial := rfl

/-! onPart changes `parts` only. -/

@[simp] theorem State.onPart_nCycle (s : State) (p : Nat) (f : Partition → Partition) : (s.onPart p f).nCycle = s.nCycle := rfl
@[simp] theorem State.onPart_stamp (s : State) (p : Nat) (f : Partition → Partition) : (s.onPart p f).stamp = s.stamp := rfl
@[simp] theorem State.onPart_calendar (s : State) (p : Nat) (f : Partition → Partition) : (s.onPart p f).calendar = s.calendar := rfl
@[simp] theorem State.onPart_stepping (s : State) (p : Nat) (f : Partition → Partition) : (s.onPart p f).stepping = s.stepping := rfl
@[simp] theorem State.onPart_bringUp (s : State) (p : Nat) (f : Partition → Partition) : (s.onPart p f).bringUp = s.bringUp := rfl
@[simp] theorem State.onPart_presented (s : State) (p : Nat) (f : Partition → Partition) : (s.onPart p f).presented = s.presented := rfl
@[simp] theorem State.onPart_quotaWindow (s : State) (p : Nat) (f : Partition → Partition) : (s.onPart p f).quotaWindow = s.quotaWindow := rfl
@[simp] theorem State.onPart_powerCap (s : State) (p : Nat) (f : Partition → Partition) : (s.onPart p f).powerCap = s.powerCap := rfl
@[simp] theorem State.onPart_dieReset (s : State) (p : Nat) (f : Partition → Partition) : (s.onPart p f).dieReset = s.dieReset := rfl
@[simp] theorem State.onPart_dieGated (s : State) (p : Nat) (f : Partition → Partition) : (s.onPart p f).dieGated = s.dieGated := rfl
@[simp] theorem State.onPart_restarting (s : State) (p : Nat) (f : Partition → Partition) : (s.onPart p f).restarting = s.restarting := rfl
@[simp] theorem State.onPart_firmware (s : State) (p : Nat) (f : Partition → Partition) : (s.onPart p f).firmware = s.firmware := rfl
@[simp] theorem State.onPart_microcode (s : State) (p : Nat) (f : Partition → Partition) : (s.onPart p f).microcode = s.microcode := rfl
@[simp] theorem State.onPart_romVersion (s : State) (p : Nat) (f : Partition → Partition) : (s.onPart p f).romVersion = s.romVersion := rfl
@[simp] theorem State.onPart_fuses (s : State) (p : Nat) (f : Partition → Partition) : (s.onPart p f).fuses = s.fuses := rfl
@[simp] theorem State.onPart_sensors (s : State) (p : Nat) (f : Partition → Partition) : (s.onPart p f).sensors = s.sensors := rfl
@[simp] theorem State.onPart_lanes (s : State) (p : Nat) (f : Partition → Partition) : (s.onPart p f).lanes = s.lanes := rfl
@[simp] theorem State.onPart_retraining (s : State) (p : Nat) (f : Partition → Partition) : (s.onPart p f).retraining = s.retraining := rfl
@[simp] theorem State.onPart_selfPod (s : State) (p : Nat) (f : Partition → Partition) : (s.onPart p f).selfPod = s.selfPod := rfl
@[simp] theorem State.onPart_selfAcc (s : State) (p : Nat) (f : Partition → Partition) : (s.onPart p f).selfAcc = s.selfAcc := rfl
@[simp] theorem State.onPart_bridges (s : State) (p : Nat) (f : Partition → Partition) : (s.onPart p f).bridges = s.bridges := rfl
@[simp] theorem State.onPart_portMasks (s : State) (p : Nat) (f : Partition → Partition) : (s.onPart p f).portMasks = s.portMasks := rfl
@[simp] theorem State.onPart_slotTables (s : State) (p : Nat) (f : Partition → Partition) : (s.onPart p f).slotTables = s.slotTables := rfl
@[simp] theorem State.onPart_ats (s : State) (p : Nat) (f : Partition → Partition) : (s.onPart p f).ats = s.ats := rfl
@[simp] theorem State.onPart_spdm (s : State) (p : Nat) (f : Partition → Partition) : (s.onPart p f).spdm = s.spdm := rfl
@[simp] theorem State.onPart_ide (s : State) (p : Nat) (f : Partition → Partition) : (s.onPart p f).ide = s.ide := rfl
@[simp] theorem State.onPart_tdisp (s : State) (p : Nat) (f : Partition → Partition) : (s.onPart p f).tdisp = s.tdisp := rfl
@[simp] theorem State.onPart_hbm (s : State) (p : Nat) (f : Partition → Partition) : (s.onPart p f).hbm = s.hbm := rfl
@[simp] theorem State.onPart_wstore (s : State) (p : Nat) (f : Partition → Partition) : (s.onPart p f).wstore = s.wstore := rfl
@[simp] theorem State.onPart_poison (s : State) (p : Nat) (f : Partition → Partition) : (s.onPart p f).poison = s.poison := rfl
@[simp] theorem State.onPart_keys (s : State) (p : Nat) (f : Partition → Partition) : (s.onPart p f).keys = s.keys := rfl
@[simp] theorem State.onPart_meters (s : State) (p : Nat) (f : Partition → Partition) : (s.onPart p f).meters = s.meters := rfl
@[simp] theorem State.onPart_clusters (s : State) (p : Nat) (f : Partition → Partition) : (s.onPart p f).clusters = s.clusters := rfl
@[simp] theorem State.onPart_knots (s : State) (p : Nat) (f : Partition → Partition) : (s.onPart p f).knots = s.knots := rfl
@[simp] theorem State.onPart_seams (s : State) (p : Nat) (f : Partition → Partition) : (s.onPart p f).seams = s.seams := rfl
@[simp] theorem State.onPart_ums (s : State) (p : Nat) (f : Partition → Partition) : (s.onPart p f).ums = s.ums := rfl
@[simp] theorem State.onPart_dieArr (s : State) (p : Nat) (f : Partition → Partition) : (s.onPart p f).dieArr = s.dieArr := rfl
@[simp] theorem State.onPart_patterns (s : State) (p : Nat) (f : Partition → Partition) : (s.onPart p f).patterns = s.patterns := rfl
@[simp] theorem State.onPart_gens (s : State) (p : Nat) (f : Partition → Partition) : (s.onPart p f).gens = s.gens := rfl
@[simp] theorem State.onPart_launches (s : State) (p : Nat) (f : Partition → Partition) : (s.onPart p f).launches = s.launches := rfl
@[simp] theorem State.onPart_reqs (s : State) (p : Nat) (f : Partition → Partition) : (s.onPart p f).reqs = s.reqs := rfl
@[simp] theorem State.onPart_kreqs (s : State) (p : Nat) (f : Partition → Partition) : (s.onPart p f).kreqs = s.kreqs := rfl
@[simp] theorem State.onPart_portal (s : State) (p : Nat) (f : Partition → Partition) : (s.onPart p f).portal = s.portal := rfl
@[simp] theorem State.onPart_ports (s : State) (p : Nat) (f : Partition → Partition) : (s.onPart p f).ports = s.ports := rfl
@[simp] theorem State.onPart_flits (s : State) (p : Nat) (f : Partition → Partition) : (s.onPart p f).flits = s.flits := rfl
@[simp] theorem State.onPart_heldHit (s : State) (p : Nat) (f : Partition → Partition) : (s.onPart p f).heldHit = s.heldHit := rfl
@[simp] theorem State.onPart_cur (s : State) (p : Nat) (f : Partition → Partition) : (s.onPart p f).cur = s.cur := rfl
@[simp] theorem State.onPart_agenda (s : State) (p : Nat) (f : Partition → Partition) : (s.onPart p f).agenda = s.agenda := rfl
@[simp] theorem State.onPart_inbox (s : State) (p : Nat) (f : Partition → Partition) : (s.onPart p f).inbox = s.inbox := rfl
@[simp] theorem State.onPart_outbox (s : State) (p : Nat) (f : Partition → Partition) : (s.onPart p f).outbox = s.outbox := rfl
@[simp] theorem State.onPart_freeCtr (s : State) (p : Nat) (f : Partition → Partition) : (s.onPart p f).freeCtr = s.freeCtr := rfl
@[simp] theorem State.onPart_serial (s : State) (p : Nat) (f : Partition → Partition) : (s.onPart p f).serial = s.serial := rfl

/-! meterPart changes `meters` only. -/

@[simp] theorem State.meterPart_nCycle (s : State) (p d i n : Nat) : (s.meterPart p d i n).nCycle = s.nCycle := rfl
@[simp] theorem State.meterPart_stamp (s : State) (p d i n : Nat) : (s.meterPart p d i n).stamp = s.stamp := rfl
@[simp] theorem State.meterPart_calendar (s : State) (p d i n : Nat) : (s.meterPart p d i n).calendar = s.calendar := rfl
@[simp] theorem State.meterPart_stepping (s : State) (p d i n : Nat) : (s.meterPart p d i n).stepping = s.stepping := rfl
@[simp] theorem State.meterPart_bringUp (s : State) (p d i n : Nat) : (s.meterPart p d i n).bringUp = s.bringUp := rfl
@[simp] theorem State.meterPart_presented (s : State) (p d i n : Nat) : (s.meterPart p d i n).presented = s.presented := rfl
@[simp] theorem State.meterPart_quotaWindow (s : State) (p d i n : Nat) : (s.meterPart p d i n).quotaWindow = s.quotaWindow := rfl
@[simp] theorem State.meterPart_powerCap (s : State) (p d i n : Nat) : (s.meterPart p d i n).powerCap = s.powerCap := rfl
@[simp] theorem State.meterPart_dieReset (s : State) (p d i n : Nat) : (s.meterPart p d i n).dieReset = s.dieReset := rfl
@[simp] theorem State.meterPart_dieGated (s : State) (p d i n : Nat) : (s.meterPart p d i n).dieGated = s.dieGated := rfl
@[simp] theorem State.meterPart_restarting (s : State) (p d i n : Nat) : (s.meterPart p d i n).restarting = s.restarting := rfl
@[simp] theorem State.meterPart_firmware (s : State) (p d i n : Nat) : (s.meterPart p d i n).firmware = s.firmware := rfl
@[simp] theorem State.meterPart_microcode (s : State) (p d i n : Nat) : (s.meterPart p d i n).microcode = s.microcode := rfl
@[simp] theorem State.meterPart_romVersion (s : State) (p d i n : Nat) : (s.meterPart p d i n).romVersion = s.romVersion := rfl
@[simp] theorem State.meterPart_fuses (s : State) (p d i n : Nat) : (s.meterPart p d i n).fuses = s.fuses := rfl
@[simp] theorem State.meterPart_sensors (s : State) (p d i n : Nat) : (s.meterPart p d i n).sensors = s.sensors := rfl
@[simp] theorem State.meterPart_lanes (s : State) (p d i n : Nat) : (s.meterPart p d i n).lanes = s.lanes := rfl
@[simp] theorem State.meterPart_retraining (s : State) (p d i n : Nat) : (s.meterPart p d i n).retraining = s.retraining := rfl
@[simp] theorem State.meterPart_selfPod (s : State) (p d i n : Nat) : (s.meterPart p d i n).selfPod = s.selfPod := rfl
@[simp] theorem State.meterPart_selfAcc (s : State) (p d i n : Nat) : (s.meterPart p d i n).selfAcc = s.selfAcc := rfl
@[simp] theorem State.meterPart_bridges (s : State) (p d i n : Nat) : (s.meterPart p d i n).bridges = s.bridges := rfl
@[simp] theorem State.meterPart_portMasks (s : State) (p d i n : Nat) : (s.meterPart p d i n).portMasks = s.portMasks := rfl
@[simp] theorem State.meterPart_slotTables (s : State) (p d i n : Nat) : (s.meterPart p d i n).slotTables = s.slotTables := rfl
@[simp] theorem State.meterPart_ats (s : State) (p d i n : Nat) : (s.meterPart p d i n).ats = s.ats := rfl
@[simp] theorem State.meterPart_spdm (s : State) (p d i n : Nat) : (s.meterPart p d i n).spdm = s.spdm := rfl
@[simp] theorem State.meterPart_ide (s : State) (p d i n : Nat) : (s.meterPart p d i n).ide = s.ide := rfl
@[simp] theorem State.meterPart_tdisp (s : State) (p d i n : Nat) : (s.meterPart p d i n).tdisp = s.tdisp := rfl
@[simp] theorem State.meterPart_hbm (s : State) (p d i n : Nat) : (s.meterPart p d i n).hbm = s.hbm := rfl
@[simp] theorem State.meterPart_wstore (s : State) (p d i n : Nat) : (s.meterPart p d i n).wstore = s.wstore := rfl
@[simp] theorem State.meterPart_poison (s : State) (p d i n : Nat) : (s.meterPart p d i n).poison = s.poison := rfl
@[simp] theorem State.meterPart_parts (s : State) (p d i n : Nat) : (s.meterPart p d i n).parts = s.parts := rfl
@[simp] theorem State.meterPart_keys (s : State) (p d i n : Nat) : (s.meterPart p d i n).keys = s.keys := rfl
@[simp] theorem State.meterPart_clusters (s : State) (p d i n : Nat) : (s.meterPart p d i n).clusters = s.clusters := rfl
@[simp] theorem State.meterPart_knots (s : State) (p d i n : Nat) : (s.meterPart p d i n).knots = s.knots := rfl
@[simp] theorem State.meterPart_seams (s : State) (p d i n : Nat) : (s.meterPart p d i n).seams = s.seams := rfl
@[simp] theorem State.meterPart_ums (s : State) (p d i n : Nat) : (s.meterPart p d i n).ums = s.ums := rfl
@[simp] theorem State.meterPart_dieArr (s : State) (p d i n : Nat) : (s.meterPart p d i n).dieArr = s.dieArr := rfl
@[simp] theorem State.meterPart_patterns (s : State) (p d i n : Nat) : (s.meterPart p d i n).patterns = s.patterns := rfl
@[simp] theorem State.meterPart_gens (s : State) (p d i n : Nat) : (s.meterPart p d i n).gens = s.gens := rfl
@[simp] theorem State.meterPart_launches (s : State) (p d i n : Nat) : (s.meterPart p d i n).launches = s.launches := rfl
@[simp] theorem State.meterPart_reqs (s : State) (p d i n : Nat) : (s.meterPart p d i n).reqs = s.reqs := rfl
@[simp] theorem State.meterPart_kreqs (s : State) (p d i n : Nat) : (s.meterPart p d i n).kreqs = s.kreqs := rfl
@[simp] theorem State.meterPart_portal (s : State) (p d i n : Nat) : (s.meterPart p d i n).portal = s.portal := rfl
@[simp] theorem State.meterPart_ports (s : State) (p d i n : Nat) : (s.meterPart p d i n).ports = s.ports := rfl
@[simp] theorem State.meterPart_flits (s : State) (p d i n : Nat) : (s.meterPart p d i n).flits = s.flits := rfl
@[simp] theorem State.meterPart_heldHit (s : State) (p d i n : Nat) : (s.meterPart p d i n).heldHit = s.heldHit := rfl
@[simp] theorem State.meterPart_cur (s : State) (p d i n : Nat) : (s.meterPart p d i n).cur = s.cur := rfl
@[simp] theorem State.meterPart_agenda (s : State) (p d i n : Nat) : (s.meterPart p d i n).agenda = s.agenda := rfl
@[simp] theorem State.meterPart_inbox (s : State) (p d i n : Nat) : (s.meterPart p d i n).inbox = s.inbox := rfl
@[simp] theorem State.meterPart_outbox (s : State) (p d i n : Nat) : (s.meterPart p d i n).outbox = s.outbox := rfl
@[simp] theorem State.meterPart_freeCtr (s : State) (p d i n : Nat) : (s.meterPart p d i n).freeCtr = s.freeCtr := rfl
@[simp] theorem State.meterPart_serial (s : State) (p d i n : Nat) : (s.meterPart p d i n).serial = s.serial := rfl

/-! onLaunch changes `launches` only. -/

theorem State.onLaunch_eq (s : State) (l : Nat) (f : Launch → Launch) : ∃ m, s.onLaunch l f = { s with launches := m } := by
  unfold State.onLaunch
  split
  · exact ⟨_, rfl⟩
  · exact ⟨s.launches, rfl⟩

@[simp] theorem State.onLaunch_nCycle (s : State) (l : Nat) (g : Launch → Launch) : (s.onLaunch l g).nCycle = s.nCycle := by
  unfold State.onLaunch; split <;> rfl
@[simp] theorem State.onLaunch_stamp (s : State) (l : Nat) (g : Launch → Launch) : (s.onLaunch l g).stamp = s.stamp := by
  unfold State.onLaunch; split <;> rfl
@[simp] theorem State.onLaunch_calendar (s : State) (l : Nat) (g : Launch → Launch) : (s.onLaunch l g).calendar = s.calendar := by
  unfold State.onLaunch; split <;> rfl
@[simp] theorem State.onLaunch_stepping (s : State) (l : Nat) (g : Launch → Launch) : (s.onLaunch l g).stepping = s.stepping := by
  unfold State.onLaunch; split <;> rfl
@[simp] theorem State.onLaunch_bringUp (s : State) (l : Nat) (g : Launch → Launch) : (s.onLaunch l g).bringUp = s.bringUp := by
  unfold State.onLaunch; split <;> rfl
@[simp] theorem State.onLaunch_presented (s : State) (l : Nat) (g : Launch → Launch) : (s.onLaunch l g).presented = s.presented := by
  unfold State.onLaunch; split <;> rfl
@[simp] theorem State.onLaunch_quotaWindow (s : State) (l : Nat) (g : Launch → Launch) : (s.onLaunch l g).quotaWindow = s.quotaWindow := by
  unfold State.onLaunch; split <;> rfl
@[simp] theorem State.onLaunch_powerCap (s : State) (l : Nat) (g : Launch → Launch) : (s.onLaunch l g).powerCap = s.powerCap := by
  unfold State.onLaunch; split <;> rfl
@[simp] theorem State.onLaunch_dieReset (s : State) (l : Nat) (g : Launch → Launch) : (s.onLaunch l g).dieReset = s.dieReset := by
  unfold State.onLaunch; split <;> rfl
@[simp] theorem State.onLaunch_dieGated (s : State) (l : Nat) (g : Launch → Launch) : (s.onLaunch l g).dieGated = s.dieGated := by
  unfold State.onLaunch; split <;> rfl
@[simp] theorem State.onLaunch_restarting (s : State) (l : Nat) (g : Launch → Launch) : (s.onLaunch l g).restarting = s.restarting := by
  unfold State.onLaunch; split <;> rfl
@[simp] theorem State.onLaunch_firmware (s : State) (l : Nat) (g : Launch → Launch) : (s.onLaunch l g).firmware = s.firmware := by
  unfold State.onLaunch; split <;> rfl
@[simp] theorem State.onLaunch_microcode (s : State) (l : Nat) (g : Launch → Launch) : (s.onLaunch l g).microcode = s.microcode := by
  unfold State.onLaunch; split <;> rfl
@[simp] theorem State.onLaunch_romVersion (s : State) (l : Nat) (g : Launch → Launch) : (s.onLaunch l g).romVersion = s.romVersion := by
  unfold State.onLaunch; split <;> rfl
@[simp] theorem State.onLaunch_fuses (s : State) (l : Nat) (g : Launch → Launch) : (s.onLaunch l g).fuses = s.fuses := by
  unfold State.onLaunch; split <;> rfl
@[simp] theorem State.onLaunch_sensors (s : State) (l : Nat) (g : Launch → Launch) : (s.onLaunch l g).sensors = s.sensors := by
  unfold State.onLaunch; split <;> rfl
@[simp] theorem State.onLaunch_lanes (s : State) (l : Nat) (g : Launch → Launch) : (s.onLaunch l g).lanes = s.lanes := by
  unfold State.onLaunch; split <;> rfl
@[simp] theorem State.onLaunch_retraining (s : State) (l : Nat) (g : Launch → Launch) : (s.onLaunch l g).retraining = s.retraining := by
  unfold State.onLaunch; split <;> rfl
@[simp] theorem State.onLaunch_selfPod (s : State) (l : Nat) (g : Launch → Launch) : (s.onLaunch l g).selfPod = s.selfPod := by
  unfold State.onLaunch; split <;> rfl
@[simp] theorem State.onLaunch_selfAcc (s : State) (l : Nat) (g : Launch → Launch) : (s.onLaunch l g).selfAcc = s.selfAcc := by
  unfold State.onLaunch; split <;> rfl
@[simp] theorem State.onLaunch_bridges (s : State) (l : Nat) (g : Launch → Launch) : (s.onLaunch l g).bridges = s.bridges := by
  unfold State.onLaunch; split <;> rfl
@[simp] theorem State.onLaunch_portMasks (s : State) (l : Nat) (g : Launch → Launch) : (s.onLaunch l g).portMasks = s.portMasks := by
  unfold State.onLaunch; split <;> rfl
@[simp] theorem State.onLaunch_slotTables (s : State) (l : Nat) (g : Launch → Launch) : (s.onLaunch l g).slotTables = s.slotTables := by
  unfold State.onLaunch; split <;> rfl
@[simp] theorem State.onLaunch_ats (s : State) (l : Nat) (g : Launch → Launch) : (s.onLaunch l g).ats = s.ats := by
  unfold State.onLaunch; split <;> rfl
@[simp] theorem State.onLaunch_spdm (s : State) (l : Nat) (g : Launch → Launch) : (s.onLaunch l g).spdm = s.spdm := by
  unfold State.onLaunch; split <;> rfl
@[simp] theorem State.onLaunch_ide (s : State) (l : Nat) (g : Launch → Launch) : (s.onLaunch l g).ide = s.ide := by
  unfold State.onLaunch; split <;> rfl
@[simp] theorem State.onLaunch_tdisp (s : State) (l : Nat) (g : Launch → Launch) : (s.onLaunch l g).tdisp = s.tdisp := by
  unfold State.onLaunch; split <;> rfl
@[simp] theorem State.onLaunch_hbm (s : State) (l : Nat) (g : Launch → Launch) : (s.onLaunch l g).hbm = s.hbm := by
  unfold State.onLaunch; split <;> rfl
@[simp] theorem State.onLaunch_wstore (s : State) (l : Nat) (g : Launch → Launch) : (s.onLaunch l g).wstore = s.wstore := by
  unfold State.onLaunch; split <;> rfl
@[simp] theorem State.onLaunch_poison (s : State) (l : Nat) (g : Launch → Launch) : (s.onLaunch l g).poison = s.poison := by
  unfold State.onLaunch; split <;> rfl
@[simp] theorem State.onLaunch_parts (s : State) (l : Nat) (g : Launch → Launch) : (s.onLaunch l g).parts = s.parts := by
  unfold State.onLaunch; split <;> rfl
@[simp] theorem State.onLaunch_keys (s : State) (l : Nat) (g : Launch → Launch) : (s.onLaunch l g).keys = s.keys := by
  unfold State.onLaunch; split <;> rfl
@[simp] theorem State.onLaunch_meters (s : State) (l : Nat) (g : Launch → Launch) : (s.onLaunch l g).meters = s.meters := by
  unfold State.onLaunch; split <;> rfl
@[simp] theorem State.onLaunch_clusters (s : State) (l : Nat) (g : Launch → Launch) : (s.onLaunch l g).clusters = s.clusters := by
  unfold State.onLaunch; split <;> rfl
@[simp] theorem State.onLaunch_knots (s : State) (l : Nat) (g : Launch → Launch) : (s.onLaunch l g).knots = s.knots := by
  unfold State.onLaunch; split <;> rfl
@[simp] theorem State.onLaunch_seams (s : State) (l : Nat) (g : Launch → Launch) : (s.onLaunch l g).seams = s.seams := by
  unfold State.onLaunch; split <;> rfl
@[simp] theorem State.onLaunch_ums (s : State) (l : Nat) (g : Launch → Launch) : (s.onLaunch l g).ums = s.ums := by
  unfold State.onLaunch; split <;> rfl
@[simp] theorem State.onLaunch_dieArr (s : State) (l : Nat) (g : Launch → Launch) : (s.onLaunch l g).dieArr = s.dieArr := by
  unfold State.onLaunch; split <;> rfl
@[simp] theorem State.onLaunch_patterns (s : State) (l : Nat) (g : Launch → Launch) : (s.onLaunch l g).patterns = s.patterns := by
  unfold State.onLaunch; split <;> rfl
@[simp] theorem State.onLaunch_gens (s : State) (l : Nat) (g : Launch → Launch) : (s.onLaunch l g).gens = s.gens := by
  unfold State.onLaunch; split <;> rfl
@[simp] theorem State.onLaunch_reqs (s : State) (l : Nat) (g : Launch → Launch) : (s.onLaunch l g).reqs = s.reqs := by
  unfold State.onLaunch; split <;> rfl
@[simp] theorem State.onLaunch_kreqs (s : State) (l : Nat) (g : Launch → Launch) : (s.onLaunch l g).kreqs = s.kreqs := by
  unfold State.onLaunch; split <;> rfl
@[simp] theorem State.onLaunch_portal (s : State) (l : Nat) (g : Launch → Launch) : (s.onLaunch l g).portal = s.portal := by
  unfold State.onLaunch; split <;> rfl
@[simp] theorem State.onLaunch_ports (s : State) (l : Nat) (g : Launch → Launch) : (s.onLaunch l g).ports = s.ports := by
  unfold State.onLaunch; split <;> rfl
@[simp] theorem State.onLaunch_flits (s : State) (l : Nat) (g : Launch → Launch) : (s.onLaunch l g).flits = s.flits := by
  unfold State.onLaunch; split <;> rfl
@[simp] theorem State.onLaunch_heldHit (s : State) (l : Nat) (g : Launch → Launch) : (s.onLaunch l g).heldHit = s.heldHit := by
  unfold State.onLaunch; split <;> rfl
@[simp] theorem State.onLaunch_cur (s : State) (l : Nat) (g : Launch → Launch) : (s.onLaunch l g).cur = s.cur := by
  unfold State.onLaunch; split <;> rfl
@[simp] theorem State.onLaunch_agenda (s : State) (l : Nat) (g : Launch → Launch) : (s.onLaunch l g).agenda = s.agenda := by
  unfold State.onLaunch; split <;> rfl
@[simp] theorem State.onLaunch_inbox (s : State) (l : Nat) (g : Launch → Launch) : (s.onLaunch l g).inbox = s.inbox := by
  unfold State.onLaunch; split <;> rfl
@[simp] theorem State.onLaunch_outbox (s : State) (l : Nat) (g : Launch → Launch) : (s.onLaunch l g).outbox = s.outbox := by
  unfold State.onLaunch; split <;> rfl
@[simp] theorem State.onLaunch_freeCtr (s : State) (l : Nat) (g : Launch → Launch) : (s.onLaunch l g).freeCtr = s.freeCtr := by
  unfold State.onLaunch; split <;> rfl
@[simp] theorem State.onLaunch_serial (s : State) (l : Nat) (g : Launch → Launch) : (s.onLaunch l g).serial = s.serial := by
  unfold State.onLaunch; split <;> rfl

/-! Reading a part back. -/

@[simp] theorem State.cluster_setCluster (s : State) (k : Nat) (c : Cluster) : (s.setCluster k c).cluster k = c := by
  simp [State.cluster, State.setCluster]

theorem State.cluster_setCluster_ne (s : State) (k j : Nat) (c : Cluster) (h : j ≠ k) : (s.setCluster k c).cluster j = s.cluster j := by
  simp [State.cluster, State.setCluster, getAt_setAt_ne _ _ _ _ _ h]

@[simp] theorem State.cluster_onCluster (s : State) (k : Nat) (f : Cluster → Cluster) :
    (s.onCluster k f).cluster k = f (s.cluster k) := by
  simp [State.onCluster]

theorem State.cluster_onCluster_ne (s : State) (k j : Nat) (f : Cluster → Cluster) (h : j ≠ k) :
    (s.onCluster k f).cluster j = s.cluster j := by
  simp [State.onCluster, State.cluster_setCluster_ne _ _ _ _ h]

@[simp] theorem Cluster.station_onStation (c : Cluster) (n : Nat) (f : Station → Station) :
    (c.onStation n f).station n = f (c.station n) := by
  simp [Cluster.station, Cluster.onStation]

theorem Cluster.station_onStation_ne (c : Cluster) (n m : Nat) (f : Station → Station) (h : m ≠ n) :
    (c.onStation n f).station m = c.station m := by
  simp [Cluster.station, Cluster.onStation, getAt_setAt_ne _ _ _ _ _ h]

@[simp] theorem State.station_onStation (s : State) (k n : Nat) (f : Station → Station) :
    (s.onStation k n f).station k n = f (s.station k n) := by
  simp [State.station, State.onStation]

theorem State.station_onStation_ne (s : State) (k n j m : Nat) (f : Station → Station) (h : (j, m) ≠ (k, n)) :
    (s.onStation k n f).station j m = s.station j m := by
  unfold State.station State.onStation
  by_cases hj : j = k
  · subst hj
    have hm : m ≠ n := fun e => h (by rw [e])
    simp [Cluster.station_onStation_ne _ _ _ _ hm]
  · rw [State.cluster_onCluster_ne _ _ _ _ hj]

theorem State.cluster_onStation_ne (s : State) (k n j : Nat) (f : Station → Station) (h : j ≠ k) :
    (s.onStation k n f).cluster j = s.cluster j := State.cluster_onCluster_ne _ _ _ _ h

/-- A station's change leaves everything else of its cluster. -/
theorem State.cluster_onStation_still (s : State) (k n j : Nat) (f : Station → Station) :
    { (s.onStation k n f).cluster j with stations := [] } = { s.cluster j with stations := [] } := by
  by_cases h : j = k
  · subst h; simp [State.onStation, Cluster.onStation]
  · rw [State.cluster_onStation_ne _ _ _ _ _ h]

@[simp] theorem State.part_onPart (s : State) (p : Nat) (f : Partition → Partition) : (s.onPart p f).part p = f (s.part p) := by
  simp [State.part, State.onPart]

theorem State.part_onPart_ne (s : State) (p q : Nat) (f : Partition → Partition) (h : q ≠ p) : (s.onPart p f).part q = s.part q := by
  simp [State.part, State.onPart, getAt_setAt_ne _ _ _ _ _ h]

theorem State.launch_onLaunch (s : State) (l : Nat) (f : Launch → Launch) (x : Launch) (h : look s.launches l = some x) :
    (s.onLaunch l f).launch l = f x := by
  simp [State.launch, State.onLaunch, h, look_put_same]

/-- Two changes of a launch that agree on it. -/
theorem State.onLaunch_congr (s : State) (l : Nat) (f g : Launch → Launch) (h : f (s.launch l) = g (s.launch l)) :
    s.onLaunch l f = s.onLaunch l g := by
  unfold State.onLaunch
  unfold State.launch at h
  split
  · rename_i x hx
    rw [hx] at h
    simp only [Option.getD_some] at h
    rw [h]
  · rfl

theorem State.launch_onLaunch_ne (s : State) (l k : Nat) (f : Launch → Launch) (h : k ≠ l) :
    (s.onLaunch l f).launch k = s.launch k := by
  unfold State.launch State.onLaunch
  split
  · simp only [look_put_ne _ _ _ _ h]
  · rfl

/-- The launches that exist stay the same. -/
theorem State.look_onLaunch (s : State) (l k : Nat) (f : Launch → Launch) :
    look (s.onLaunch l f).launches k = (look s.launches k).map fun x => if k = l then f x else x := by
  unfold State.onLaunch
  split
  · rename_i x h
    by_cases hk : k = l
    · subst hk; simp [look_put_same, h]
    · simp [look_put_ne _ _ _ _ hk, hk]
  · rename_i h
    by_cases hk : k = l
    · subst hk; simp [h]
    · simp [hk]

end Sys2Proof.Machine
end

