-- ==== Sys2Proof/Laws/Ops.lean ====
section
/-! SUPPORT. Laws/Ops.lean: one lemma for each shared operation of Machine/Ops.lean that says what it can do. -/

namespace Sys2Proof.Machine

/-! Firing. -/

/-- A firing that proceeds performs its body. -/
theorem State.fire_runs {s : State} {pm : Pred} (h : s.Runs pm) (body : State → Firing → State) :
    s.fire pm body = .next (body s s.cur) := by
  obtain ⟨hl, hm, hp⟩ := h
  obtain ⟨l, hl⟩ := Option.isSome_iff_exists.1 hl
  simp [State.fire, hl, hm, hp]

/-- A firing under colour 0 performs its body even when a colour would hold it. -/
theorem State.fireHeld_plain {s : State} {pm : Pred} (h : s.RunsPlain pm) (body : State → Firing → State) :
    s.fireHeld pm body = .next (body s s.cur) := by
  simp [State.fireHeld, State.fire_runs h.1, h.2]

/-- A firing under a colour that holds its effect is held. -/
theorem State.fireHeld_coloured {s : State} {pm : Pred} (h : s.Runs pm) (hc : s.cur.colour ≠ 0) (body : State → Firing → State) :
    s.fireHeld pm body = .next (s.hold s.cur) := by
  rw [State.fireHeld, State.fire_runs h, if_pos hc]

/-! Emission. -/

/-- Under colour 0 no destination is held. -/
@[simp] theorem State.heldDest_plain (s : State) (f : Firing) (d : Dest) : s.heldDest f 0#2 d = false := rfl

@[simp] theorem State.holdTokens_nil (s : State) (f : Firing) (k : Carry) : s.holdTokens f k [] = s := rfl

/-- An emission under colour 0 only enters the output queue. -/
theorem State.emitGroup_plain (s : State) (f : Firing) (o1 : Bool) (k : Carry) (h : k.colour = 0) :
    s.emitGroup f o1 k = s.enqueue f.cl f.st ((routeGroup f.route o1).map (k.token s.stamp)) := by
  have h0 : s.heldDest f 0#2 = fun _ => false := rfl
  simp [State.emitGroup, h, h0]

theorem State.emit0_plain (s : State) (f : Firing) (pm : Pred) (c : TokClass) (v : Word) (h : f.colour = 0) :
    s.emit0 f pm c v = s.enqueue f.cl f.st ((routeGroup f.route (f.group0 pm)).map ((f.carry c v).token s.stamp)) :=
  s.emitGroup_plain f _ _ h

theorem State.emit1_plain (s : State) (f : Firing) (c : TokClass) (v : Word) (h : f.colour = 0) :
    s.emit1 f c v = s.enqueue f.cl f.st ((routeGroup f.route true).map ((f.carry c v).token s.stamp)) :=
  s.emitGroup_plain f _ _ h

/-- What enters an output queue stands at its end. -/
@[simp] theorem State.outq_enqueue (s : State) (k n : Nat) (ts : List OutTok) :
    ((s.enqueue k n ts).station k n).outq = (s.station k n).outq ++ ts := by
  simp [State.enqueue]

/-! Only emissions. -/

theorem State.still_eq {s t : State} (h : t.still = s.still) : t.cur = s.cur ∧ t.stamp = s.stamp ∧ t.patterns = s.patterns := by
  refine ⟨?_, ?_, ?_⟩
  · have := congrArg State.cur h; simpa [State.still] using this
  · have := congrArg State.stamp h; simpa [State.still] using this
  · have := congrArg State.patterns h; simpa [State.still] using this

theorem State.OnlyEmits.refl (s : State) : s.OnlyEmits s :=
  ⟨rfl, fun _ => rfl, fun _ _ => rfl, fun _ _ => rfl, fun _ _ => rfl, fun _ => rfl, fun _ _ => rfl⟩

theorem State.OnlyEmits.trans {s t u : State} (h : s.OnlyEmits t) (g : t.OnlyEmits u) : s.OnlyEmits u := by
  obtain ⟨a1, a2, a3, a4, a5, a6, a7⟩ := h
  obtain ⟨b1, b2, b3, b4, b5, b6, b7⟩ := g
  have hc := (State.still_eq a1).1
  rw [hc] at b4 b5 b7
  exact ⟨b1.trans a1, fun k => (b2 k).trans (a2 k), fun k n => (b3 k n).trans (a3 k n), fun k hk => (b4 k hk).trans (a4 k hk),
    fun n hn => (b5 n hn).trans (a5 n hn), fun l => (b6 l).trans (a6 l), fun l hl => (b7 l hl).trans (a7 l hl)⟩

/-- A change of the firing's station in what an emission changes. -/
theorem State.onlyEmits_onStation (s : State) (g : Station → Station) (h : ∀ x, (g x).still = x.still) :
    s.OnlyEmits (s.onStation s.cur.cl s.cur.st g) := by
  refine ⟨rfl, fun k => ?_, fun k n => ?_, fun k hk => ?_, fun n hn => ?_, fun l => rfl, fun l _ => rfl⟩
  · have := s.cluster_onStation_still s.cur.cl s.cur.st k g
    unfold Cluster.still
    have h2 := congrArg (fun c : Cluster => { c with exc := 0 }) this
    simpa using h2
  · by_cases e : (k, n) = (s.cur.cl, s.cur.st)
    · cases e; simp [h]
    · rw [State.station_onStation_ne _ _ _ _ _ _ e]
  · exact State.cluster_onStation_ne _ _ _ _ _ hk
  · exact State.station_onStation_ne _ _ _ _ _ _ (fun e => hn (by cases e; rfl))

/-- A change of the firing's launch in its parked operations and its faults. -/
theorem State.onlyEmits_onLaunch (s : State) (g : Launch → Launch) (h : ∀ x, (g x).still = x.still) :
    s.OnlyEmits (s.onLaunch s.cur.launch g) := by
  obtain ⟨m, hm⟩ := s.onLaunch_eq s.cur.launch g
  refine ⟨by rw [hm]; rfl, fun k => by rw [hm]; rfl, fun k n => by rw [hm]; rfl, fun k _ => by rw [hm]; rfl,
    fun n _ => by rw [hm]; rfl, fun l => ?_, fun l hl => State.launch_onLaunch_ne _ _ _ _ hl⟩
  by_cases e : l = s.cur.launch
  · subst e
    unfold State.launch
    rw [State.look_onLaunch]
    cases look s.launches s.cur.launch with
    | none => rfl
    | some x => simp [h]
  · rw [State.launch_onLaunch_ne _ _ _ _ e]

/-- A new unique number. -/
theorem State.onlyEmits_serial (s : State) (n : Nat) : s.OnlyEmits { s with serial := n } :=
  ⟨rfl, fun _ => rfl, fun _ _ => rfl, fun _ _ => rfl, fun _ _ => rfl, fun _ => rfl, fun _ _ => rfl⟩

theorem State.onlyEmits_enqueue (s : State) (ts : List OutTok) : s.OnlyEmits (s.enqueue s.cur.cl s.cur.st ts) :=
  s.onlyEmits_onStation _ fun _ => rfl

theorem State.onlyEmits_exc (s : State) (e : Exc) :
    s.OnlyEmits (s.onCluster s.cur.cl fun c => { c with exc := c.exc ||| e }) := by
  refine ⟨rfl, fun k => ?_, fun k n => ?_, fun k hk => State.cluster_onCluster_ne _ _ _ _ hk, fun n _ => ?_, fun _ => rfl, fun _ _ => rfl⟩
  · by_cases h : k = s.cur.cl
    · subst h; simp [Cluster.still]
    · rw [State.cluster_onCluster_ne _ _ _ _ h]
  · unfold State.station
    by_cases h : k = s.cur.cl
    · subst h; simp [Cluster.station]
    · rw [State.cluster_onCluster_ne _ _ _ _ h]
  · simp [State.station, Cluster.station]

theorem State.onlyEmits_hold (s : State) : s.OnlyEmits (s.hold s.cur) :=
  (s.onlyEmits_onStation (fun x => { x with held := x.held ++ [⟨s.serial, s.cur, none⟩] }) fun _ => rfl).trans
    (State.onlyEmits_serial _ _)

theorem State.onlyEmits_raise (s : State) (e : Exc) : s.OnlyEmits (s.raise s.cur e) := by
  unfold State.raise
  split
  · exact .refl s
  · split
    · exact s.onlyEmits_exc e
    · exact s.onlyEmits_onStation _ fun _ => rfl

/-- What is held at a firing's own station is held there and changes nothing else. -/
theorem State.onlyEmits_holdTokens (s : State) (k : Carry) (ds : List Dest) : s.OnlyEmits (s.holdTokens s.cur k ds) := by
  unfold State.holdTokens
  generalize (ds.map fun d => (⟨s.serial, { s.cur with colour := k.colour }, some (k.token s.stamp d)⟩ : HeldEffect)) = hs
  dsimp only
  split
  · exact .refl s
  · exact (s.onlyEmits_onStation (fun x => { x with held := x.held ++ hs }) fun _ => rfl).trans (State.onlyEmits_serial _ _)

theorem State.onlyEmits_emitGroup (s : State) (o1 : Bool) (k : Carry) : s.OnlyEmits (s.emitGroup s.cur o1 k) :=
  (s.onlyEmits_enqueue _).trans (State.onlyEmits_holdTokens (s.enqueue s.cur.cl s.cur.st _) k _)

theorem State.onlyEmits_emit0 (s : State) (pm : Pred) (c : TokClass) (v : Word) : s.OnlyEmits (s.emit0 s.cur pm c v) :=
  s.onlyEmits_emitGroup _ _

theorem State.onlyEmits_emit1 (s : State) (c : TokClass) (v : Word) : s.OnlyEmits (s.emit1 s.cur c v) :=
  s.onlyEmits_emitGroup _ _

theorem State.onlyEmits_park (s : State) (why : ParkWhy) : s.OnlyEmits (s.park s.cur why) :=
  (s.onlyEmits_onLaunch (fun l => { l with parked := l.parked ++
    [⟨s.cur.opId.getD s.serial, { s.cur with opId := some (s.cur.opId.getD s.serial) }, why, s.aCycle⟩] }) fun _ => rfl).trans
    (State.onlyEmits_serial _ _)

theorem State.onlyEmits_newFault (s : State) (kind : FaultKind) (d a : Word) (src : FaultSrc) (dfr : Bool) (n : Nat) (st : RecState) :
    s.OnlyEmits (s.newFault s.cur.launch kind d a src dfr n st) :=
  (s.onlyEmits_onLaunch (fun x => { x with faults := x.faults ++
    [⟨s.serial, 0, kind, d, a, src, dfr, n, st, 0, 0, none, 0, []⟩] }) fun _ => rfl).trans (State.onlyEmits_serial _ _)

theorem State.OnlyEmits.cur {s t : State} (h : s.OnlyEmits t) : t.cur = s.cur := (State.still_eq h.1).1

theorem State.OnlyEmits.park {s t : State} (h : s.OnlyEmits t) (why : ParkWhy) : s.OnlyEmits (t.park s.cur why) := by
  have h2 := t.onlyEmits_park why
  rw [h.cur] at h2
  exact h.trans h2

/-- What parks at a fault is counted in its record, which is the launch's own. -/
theorem State.onlyEmits_cover (s : State) (id n : Nat) (w : Parker) : s.OnlyEmits (s.cover s.cur.launch id n w) :=
  s.onlyEmits_onLaunch _ fun _ => rfl

theorem State.OnlyEmits.cover {s t : State} (h : s.OnlyEmits t) (id n : Nat) (w : Parker) :
    s.OnlyEmits (t.cover s.cur.launch id n w) := by
  have h2 := t.onlyEmits_cover id n w
  rw [h.cur] at h2
  exact h.trans h2

theorem State.onlyEmits_faultFiring (s : State) (kind : FaultKind) (d a : Word) : s.OnlyEmits (s.faultFiring s.cur kind d a) := by
  unfold State.faultFiring
  split
  · exact (s.onlyEmits_cover _ _ _).park _
  · exact ((s.onlyEmits_newFault kind d a (s.srcOf s.cur) s.cur.atCommit 1 .parked).cover _ _ _).park _

theorem State.onlyEmits_trap (s : State) (c : Nat) : s.OnlyEmits (s.trap s.cur c) := s.onlyEmits_faultFiring _ _ _

/-- A scalar instruction's end. -/
theorem State.onlyEmits_scalar (s : State) (pm : Pred) (r : Word) (e : Exc) : s.OnlyEmits (s.scalar s.cur pm r e) := by
  unfold State.scalar
  have h1 := s.onlyEmits_raise e
  have h2 := State.onlyEmits_emit0 (s.raise s.cur e) pm .value r
  rw [h1.cur] at h2
  exact h1.trans h2

/-! Flags. -/

theorem State.exc_raise_plain (s : State) (f : Firing) (e : Exc) (h : f.colour = 0) :
    ((s.raise f e).cluster f.cl).exc = (s.cluster f.cl).exc ||| e := by
  unfold State.raise
  split
  · rename_i h0; subst h0; simp
  · simp

/-! Parking and faults. -/

/-- A parked operation stands last among its launch's. -/
theorem State.parked_park (s : State) (f : Firing) (why : ParkWhy) (x : Launch) (h : look s.launches f.launch = some x) :
    ((s.park f why).launch f.launch).parked = x.parked ++
      [⟨f.opId.getD s.serial, { f with opId := some (f.opId.getD s.serial) }, why, s.aCycle⟩] :=
  congrArg Launch.parked (State.launch_onLaunch s f.launch _ x h)

end Sys2Proof.Machine
end

