-- ==== Sys2Proof/Laws/Memory.lean ====
section
/-! SUPPORT. Laws/Memory.lean: every operation that writes a memory keeps its canonical form, and reset has it. -/

namespace Sys2Proof.Machine

theorem reset_memoryWf : State.reset.MemoryWf := ⟨rfl, rfl, fun _ h => by cases h⟩

/-- The form rests on the memories alone. -/
theorem State.MemoryWf.of_eq {s t : State} (h : s.MemoryWf) (h1 : t.hbm = s.hbm) (h2 : t.wstore = s.wstore)
    (h3 : t.clusters = s.clusters) : t.MemoryWf := by
  unfold State.MemoryWf at *; rw [h1, h2, h3]; exact h

theorem mem_del {α : Type} {m : List (Nat × α)} {k : Nat} {e : Nat × α} (h : e ∈ del m k) : e ∈ m := (List.mem_filter.1 h).1

theorem mem_put {α : Type} {m : List (Nat × α)} {k : Nat} {v : α} {e : Nat × α} (h : e ∈ put m k v) : e = (k, v) ∨ e ∈ m := by
  induction m with
  | nil => simpa [put] using h
  | cons j m ih =>
    obtain ⟨j, w⟩ := j
    by_cases h1 : k < j
    · simpa [put, h1] using h
    · by_cases h2 : k = j
      · simp only [put, h2, if_false, if_true, Nat.lt_irrefl] at h
        rcases List.mem_cons.1 h with h | h
        · exact .inl (by rw [h, h2])
        · exact .inr (List.mem_cons_of_mem _ h)
      · simp only [put, h1, h2, if_false] at h
        rcases List.mem_cons.1 h with h | h
        · exact .inr (by rw [h]; exact List.mem_cons_self ..)
        · exact (ih h).imp_right (List.mem_cons_of_mem _)

theorem mem_setAt {α : Type} [DecidableEq α] {m : List (Nat × α)} {k : Nat} {v d : α} {e : Nat × α} (h : e ∈ setAt m k v d) :
    e = (k, v) ∨ e ∈ m := by
  unfold setAt at h
  split at h
  · exact .inr (mem_del h)
  · exact mem_put h

theorem mem_of_look {α : Type} {m : List (Nat × α)} {k : Nat} {v : α} (h : look m k = some v) : (k, v) ∈ m := by
  induction m with
  | nil => simp [look] at h
  | cons e m ih =>
    obtain ⟨j, w⟩ := e
    unfold look at h
    split at h
    · rename_i hj; cases h; subst hj; exact List.mem_cons_self ..
    · exact List.mem_cons_of_mem _ (ih h)

/-- Every cluster's memory and pattern store are in the form, a cluster that the table does not list included. -/
theorem State.MemoryWf.both {s : State} (h : s.MemoryWf) (k : Nat) :
    Memory.wf (s.cluster k).mem = true ∧ Memory.wf (s.cluster k).storeMem = true := by
  unfold State.cluster getAt
  cases hk : look s.clusters k with
  | none => exact ⟨rfl, rfl⟩
  | some c => exact h.2.2 _ (mem_of_look hk)

/-- Every cluster's memory is in the form. -/
theorem State.MemoryWf.cluster {s : State} (h : s.MemoryWf) (k : Nat) : Memory.wf (s.cluster k).mem = true := (h.both k).1

/-- A change of a cluster that keeps the form of its memory and its pattern store keeps the state's. -/
theorem State.MemoryWf.onCluster {s : State} (h : s.MemoryWf) (k : Nat) (f : Cluster → Cluster)
    (hf : Memory.wf (f (s.cluster k)).mem = true) (hs : Memory.wf (f (s.cluster k)).storeMem = true) : (s.onCluster k f).MemoryWf := by
  refine ⟨h.1, h.2.1, fun e he => ?_⟩
  rcases mem_setAt he with rfl | he
  · exact ⟨hf, hs⟩
  · exact h.2.2 e he

theorem State.MemoryWf.hbm {s : State} (h : s.MemoryWf) (m : List Host.Cell) (hm : Memory.wf m = true) : { s with hbm := m }.MemoryWf :=
  ⟨hm, h.2.1, h.2.2⟩

theorem State.MemoryWf.wstore {s : State} (h : s.MemoryWf) (m : List Host.Cell) (hm : Memory.wf m = true) :
    { s with wstore := m }.MemoryWf := ⟨h.1, hm, h.2.2⟩

/-- A soft-error mark stands in no memory. -/
theorem State.MemoryWf.heal {s : State} (h : s.MemoryWf) (a n : Nat) : (s.heal a n).MemoryWf := h.of_eq rfl rfl rfl

/-- A write of a cluster's memory. -/
theorem State.MemoryWf.memWrite {s : State} (h : s.MemoryWf) (cl off : Nat) (bs : List Byte) : (s.memWrite cl off bs).MemoryWf :=
  (h.onCluster cl (fun c => { c with mem := writeBytes c.mem off bs }) (canonical_writeBytes bs _ off (h.cluster cl)) (h.both cl).2).heal _ _

/-- A write of a cluster's pattern store. -/
theorem State.MemoryWf.storeWrite {s : State} (h : s.MemoryWf) (cl off : Nat) (bs : List Byte) :
    (s.onCluster cl fun c => { c with storeMem := writeBytes c.storeMem off bs }).MemoryWf :=
  h.onCluster cl _ (h.cluster cl) (canonical_writeBytes bs _ off (h.both cl).2)

/-- A write of one data unit of HBM. -/
theorem State.MemoryWf.unitWrite {s : State} (h : s.MemoryWf) (key unit : Nat) (plain : List Nat) : (s.unitWrite key unit plain).MemoryWf :=
  h.hbm _ (canonical_writeBytes _ _ _ h.1)

theorem State.MemoryWf.units {s : State} (h : s.MemoryWf) (key : Nat) (us : List Nat) (plain : List Nat) :
    (us.foldl (fun (acc : State × List Nat) u => (acc.1.unitWrite key u (acc.2.take 64), acc.2.drop 64)) (s, plain)).1.MemoryWf := by
  induction us generalizing s plain with
  | nil => exact h
  | cons u us ih => simp only [List.foldl_cons]; exact ih (h.unitWrite key u _) _

/-- A write of HBM under a key. -/
theorem State.MemoryWf.hbmPut {s : State} (h : s.MemoryWf) (key pa : Nat) (bs : List Byte) : (s.hbmPut key pa bs).MemoryWf := by
  unfold State.hbmPut
  split
  · exact h.hbm _ (canonical_writeBytes _ _ _ h.1)
  · exact h.units _ _ _

theorem State.MemoryWf.setDirty {s : State} (h : s.MemoryWf) (part pa : Nat) : (s.setDirty part pa).MemoryWf := by
  unfold State.setDirty
  dsimp only
  split
  · exact h.hbm _ (canonical_setAt _ _ _ _ h.1)
  · exact h

/-- A write of a partition to HBM. -/
theorem State.MemoryWf.hbmWrite {s : State} (h : s.MemoryWf) (part key pa : Nat) (bs : List Byte) : (s.hbmWrite part key pa bs).MemoryWf :=
  ((h.hbmPut key pa bs).heal _ _).setDirty _ _

/-- One word of a weight load. -/
theorem State.MemoryWf.weightWrite {s : State} (h : s.MemoryWf) (a : Nat) (bs : List Byte) :
    { s with wstore := writeBytes s.wstore a bs }.MemoryWf := h.wstore _ (canonical_writeBytes _ _ _ h.2.1)

theorem rising_filter {α : Type} (p : Nat × α → Bool) (m : List (Nat × α)) (lo : Nat) (h : rising m lo = true) :
    rising (m.filter p) lo = true := by
  induction m generalizing lo with
  | nil => rfl
  | cons e m ih =>
    obtain ⟨j, w⟩ := e
    simp only [rising, Bool.and_eq_true, decide_eq_true_eq] at h
    simp only [List.filter_cons]
    split
    · simp only [rising, Bool.and_eq_true, decide_eq_true_eq]; exact ⟨h.1, ih _ h.2⟩
    · exact ih lo (rising_mono m (by omega) h.2)

/-- What is kept of a memory is in the form: the `.discard` ranges dropped at a save, the pages dropped by a snapshot. -/
theorem canonical_filter {α : Type} [DecidableEq α] (p : Nat × α → Bool) (m : List (Nat × α)) (d : α) (h : canonical m d = true) :
    canonical (m.filter p) d = true := by
  simp only [canonical, Bool.and_eq_true] at h ⊢
  refine ⟨rising_filter p m 0 h.1, ?_⟩
  simp only [List.all_eq_true] at h ⊢
  exact fun e he => h.2 e (List.mem_filter.1 he).1

/-- A cluster written back (R391). -/
theorem Cluster.putBack_wf (cur c : Cluster) (pat : Option Pattern) (p : Panel) (cl : Nat) (h : Memory.wf c.mem = true) :
    Memory.wf (cur.putBack c pat p cl).mem = true := canonical_filter _ _ _ h

/-- A note that a stack is held writes no memory. -/
theorem State.MemoryWf.touchPa {s : State} (h : s.MemoryWf) (pa : Nat) : (s.touchPa pa).MemoryWf := by
  unfold State.touchPa
  split
  · exact h.of_eq rfl rfl rfl
  · exact h

/-- A word of the snapshot of the dirty bitmap is copied and cleared (R405). -/
theorem execDsnapComplete_memoryWf {s t : State} (h : s.MemoryWf) (part : Nat) (e : execDsnapComplete part s = .next t) : t.MemoryWf := by
  unfold execDsnapComplete at e
  injection e with e
  subst e
  dsimp only
  split
  · exact h
  · exact (((h.hbm _ (canonical_writeBytes _ _ _ (canonical_writeBytes _ _ _ h.1))).touchPa _).touchPa _).of_eq rfl rfl rfl

end Sys2Proof.Machine
end

