-- ==== Sys2Proof/Laws/PerInstr.lean ====
section
/-! SUPPORT. Laws/PerInstr.lean: the family "encodes": the word of every instruction is a number of 64 bits, one lemma for each
constructor. -/

namespace Sys2Proof.Laws.encodes

/-- The instruction's word is a 64-bit number (R59). -/
def Statement (i : Instr) : Prop := i.word < 2 ^ 64

theorem mov (f : FormA) : Statement (.mov f) :=
  RawC.pack_lt _ (f.raw_fits _ _ (by decide) (by decide))
theorem fanout (f : FormA) : Statement (.fanout f) :=
  RawC.pack_lt _ (f.raw_fits _ _ (by decide) (by decide))
theorem sink (f : FormA) : Statement (.sink f) :=
  RawC.pack_lt _ (f.raw_fits _ _ (by decide) (by decide))
theorem steer (f : FormA) : Statement (.steer f) :=
  RawC.pack_lt _ (f.raw_fits _ _ (by decide) (by decide))
theorem gate (f : FormA) : Statement (.gate f) :=
  RawC.pack_lt _ (f.raw_fits _ _ (by decide) (by decide))
theorem join (f : FormA) : Statement (.join f) :=
  RawC.pack_lt _ (f.raw_fits _ _ (by decide) (by decide))
theorem inv (f : FormA) : Statement (.inv f) :=
  RawC.pack_lt _ (f.raw_fits _ _ (by decide) (by decide))
theorem balloc (f : FormX) (cls : BitVec 6) : Statement (.balloc f cls) :=
  RawC.pack_lt _ (f.raw_fits _ _ _ (by decide) (by decide) (by have := cls.isLt; omega))
theorem bfree (f : FormA) : Statement (.bfree f) :=
  RawC.pack_lt _ (f.raw_fits _ _ (by decide) (by decide))
theorem loopgen (f : FormX) (step : BitVec 16) : Statement (.loopgen f step) :=
  RawC.pack_lt _ (f.raw_fits _ _ _ (by decide) (by decide) (by have := step.isLt; omega))
theorem next (f : FormA) : Statement (.next f) :=
  RawC.pack_lt _ (f.raw_fits _ _ (by decide) (by decide))
theorem iend (f : FormA) : Statement (.iend f) :=
  RawC.pack_lt _ (f.raw_fits _ _ (by decide) (by decide))
theorem retag (f : FormA) : Statement (.retag f) :=
  RawC.pack_lt _ (f.raw_fits _ _ (by decide) (by decide))
theorem retagCall (f : FormA) : Statement (.retagCall f) :=
  RawC.pack_lt _ (f.raw_fits _ _ (by decide) (by decide))
theorem spec (f : FormX) (colour : BitVec 2) : Statement (.spec f colour) :=
  RawC.pack_lt _ (f.raw_fits _ _ _ (by decide) (by decide) (by have := colour.isLt; omega))
theorem commit (f : FormX) (colour : BitVec 2) : Statement (.commit f colour) :=
  RawC.pack_lt _ (f.raw_fits _ _ _ (by decide) (by decide) (by have := colour.isLt; omega))
theorem kill (f : FormX) (colour : BitVec 2) : Statement (.kill f colour) :=
  RawC.pack_lt _ (f.raw_fits _ _ _ (by decide) (by decide) (by have := colour.isLt; omega))
theorem phset (f : FormX) (ph : BitVec 4) (rel : Bool) : Statement (.phset f ph rel) :=
  RawC.pack_lt _ (f.raw_fits _ _ _ (by decide) (by decide) (by have := ph.isLt; have := toNat_lt_two rel; omega))
theorem phwait (f : FormX) (ph : BitVec 4) (src : Bool) : Statement (.phwait f ph src) :=
  RawC.pack_lt _ (f.raw_fits _ _ _ (by decide) (by decide) (by have := ph.isLt; have := toNat_lt_two src; omega))
theorem spawn (f : FormE) (setSeed : Bool) : Statement (.spawn f setSeed) :=
  RawC.pack_lt _ (f.raw_fits _ _ (by decide) (by have := toNat_lt_two setSeed; omega))
theorem done (f : FormX) : Statement (.done f) :=
  RawC.pack_lt _ (f.raw_fits _ _ _ (by decide) (by decide) (by decide))
theorem doneForce (f : FormX) : Statement (.doneForce f) :=
  RawC.pack_lt _ (f.raw_fits _ _ _ (by decide) (by decide) (by decide))
theorem ticket (f : FormX) (arb : BitVec 3) (arc : BitVec 6) : Statement (.ticket f arb arc) :=
  RawC.pack_lt _ (f.raw_fits _ _ _ (by decide) (by decide) (by have := arb.isLt; have := arc.isLt; omega))
theorem ticketRelease (f : FormX) (arb : BitVec 3) (arc : BitVec 6) : Statement (.ticketRelease f arb arc) :=
  RawC.pack_lt _ (f.raw_fits _ _ _ (by decide) (by decide) (by have := arb.isLt; have := arc.isLt; omega))
theorem add (f : FormA) : Statement (.add f) :=
  RawC.pack_lt _ (f.raw_fits _ _ (by decide) (by decide))
theorem sub (f : FormA) : Statement (.sub f) :=
  RawC.pack_lt _ (f.raw_fits _ _ (by decide) (by decide))
theorem mul (f : FormA) : Statement (.mul f) :=
  RawC.pack_lt _ (f.raw_fits _ _ (by decide) (by decide))
theorem mulh (f : FormA) : Statement (.mulh f) :=
  RawC.pack_lt _ (f.raw_fits _ _ (by decide) (by decide))
theorem div (f : FormA) : Statement (.div f) :=
  RawC.pack_lt _ (f.raw_fits _ _ (by decide) (by decide))
theorem rem (f : FormA) : Statement (.rem f) :=
  RawC.pack_lt _ (f.raw_fits _ _ (by decide) (by decide))
theorem and (f : FormA) : Statement (.and f) :=
  RawC.pack_lt _ (f.raw_fits _ _ (by decide) (by decide))
theorem or (f : FormA) : Statement (.or f) :=
  RawC.pack_lt _ (f.raw_fits _ _ (by decide) (by decide))
theorem xor (f : FormA) : Statement (.xor f) :=
  RawC.pack_lt _ (f.raw_fits _ _ (by decide) (by decide))
theorem andn (f : FormA) : Statement (.andn f) :=
  RawC.pack_lt _ (f.raw_fits _ _ (by decide) (by decide))
theorem shl (f : FormA) : Statement (.shl f) :=
  RawC.pack_lt _ (f.raw_fits _ _ (by decide) (by decide))
theorem shr (f : FormA) : Statement (.shr f) :=
  RawC.pack_lt _ (f.raw_fits _ _ (by decide) (by decide))
theorem sra (f : FormA) : Statement (.sra f) :=
  RawC.pack_lt _ (f.raw_fits _ _ (by decide) (by decide))
theorem rot (f : FormA) : Statement (.rot f) :=
  RawC.pack_lt _ (f.raw_fits _ _ (by decide) (by decide))
theorem min (f : FormA) : Statement (.min f) :=
  RawC.pack_lt _ (f.raw_fits _ _ (by decide) (by decide))
theorem max (f : FormA) : Statement (.max f) :=
  RawC.pack_lt _ (f.raw_fits _ _ (by decide) (by decide))
theorem abs (f : FormA) : Statement (.abs f) :=
  RawC.pack_lt _ (f.raw_fits _ _ (by decide) (by decide))
theorem neg (f : FormA) : Statement (.neg f) :=
  RawC.pack_lt _ (f.raw_fits _ _ (by decide) (by decide))
theorem clz (f : FormA) : Statement (.clz f) :=
  RawC.pack_lt _ (f.raw_fits _ _ (by decide) (by decide))
theorem ctz (f : FormA) : Statement (.ctz f) :=
  RawC.pack_lt _ (f.raw_fits _ _ (by decide) (by decide))
theorem popc (f : FormA) : Statement (.popc f) :=
  RawC.pack_lt _ (f.raw_fits _ _ (by decide) (by decide))
theorem brev (f : FormA) : Statement (.brev f) :=
  RawC.pack_lt _ (f.raw_fits _ _ (by decide) (by decide))
theorem cmp (f : FormA) (rel : CmpRel) : Statement (.cmp f rel) :=
  RawC.pack_lt _ (f.raw_fits _ _ (by decide) (by have := rel.code_lt; omega))
theorem sel (f : FormA) : Statement (.sel f) :=
  RawC.pack_lt _ (f.raw_fits _ _ (by decide) (by decide))
theorem ext (f : FormA) : Statement (.ext f) :=
  RawC.pack_lt _ (f.raw_fits _ _ (by decide) (by decide))
theorem ins (f : FormA) : Statement (.ins f) :=
  RawC.pack_lt _ (f.raw_fits _ _ (by decide) (by decide))
theorem lea (f : FormA) (sh : BitVec 4) : Statement (.lea f sh) :=
  RawC.pack_lt _ (f.raw_fits _ _ (by decide) (by have := sh.isLt; omega))
theorem constLo (f : FormX) (imm : BitVec 24) : Statement (.constLo f imm) :=
  RawC.pack_lt _ (f.raw_fits _ _ _ (by decide) (by decide) (by have := imm.isLt; omega))
theorem constMid (f : FormX) (imm : BitVec 24) : Statement (.constMid f imm) :=
  RawC.pack_lt _ (f.raw_fits _ _ _ (by decide) (by decide) (by have := imm.isLt; omega))
theorem constHi (f : FormX) (imm : BitVec 16) : Statement (.constHi f imm) :=
  RawC.pack_lt _ (f.raw_fits _ _ _ (by decide) (by decide) (by have := imm.isLt; omega))
theorem consth (f : FormX) (imm : BitVec 24) : Statement (.consth f imm) :=
  RawC.pack_lt _ (f.raw_fits _ _ _ (by decide) (by decide) (by have := imm.isLt; omega))
theorem fadd (f : FormA) : Statement (.fadd f) :=
  RawC.pack_lt _ (f.raw_fits _ _ (by decide) (by decide))
theorem fsub (f : FormA) : Statement (.fsub f) :=
  RawC.pack_lt _ (f.raw_fits _ _ (by decide) (by decide))
theorem fmul (f : FormA) : Statement (.fmul f) :=
  RawC.pack_lt _ (f.raw_fits _ _ (by decide) (by decide))
theorem fma (f : FormA) : Statement (.fma f) :=
  RawC.pack_lt _ (f.raw_fits _ _ (by decide) (by decide))
theorem fnma (f : FormA) : Statement (.fnma f) :=
  RawC.pack_lt _ (f.raw_fits _ _ (by decide) (by decide))
theorem fdiv (f : FormA) : Statement (.fdiv f) :=
  RawC.pack_lt _ (f.raw_fits _ _ (by decide) (by decide))
theorem fsqrt (f : FormA) : Statement (.fsqrt f) :=
  RawC.pack_lt _ (f.raw_fits _ _ (by decide) (by decide))
theorem fmin (f : FormA) : Statement (.fmin f) :=
  RawC.pack_lt _ (f.raw_fits _ _ (by decide) (by decide))
theorem fmax (f : FormA) : Statement (.fmax f) :=
  RawC.pack_lt _ (f.raw_fits _ _ (by decide) (by decide))
theorem fabs (f : FormA) : Statement (.fabs f) :=
  RawC.pack_lt _ (f.raw_fits _ _ (by decide) (by decide))
theorem fneg (f : FormA) : Statement (.fneg f) :=
  RawC.pack_lt _ (f.raw_fits _ _ (by decide) (by decide))
theorem fcmp (f : FormA) (pred : FcmpPred) : Statement (.fcmp f pred) :=
  RawC.pack_lt _ (f.raw_fits _ _ (by decide) (by have := pred.code_lt; omega))
theorem fclass (f : FormA) : Statement (.fclass f) :=
  RawC.pack_lt _ (f.raw_fits _ _ (by decide) (by decide))
theorem fcvt (f : FormA) (src : CvtSrc) : Statement (.fcvt f src) :=
  RawC.pack_lt _ (f.raw_fits _ _ (by decide) (by have := src.code_lt; omega))
theorem ftoi (f : FormA) (dst : IntTy) : Statement (.ftoi f dst) :=
  RawC.pack_lt _ (f.raw_fits _ _ (by decide) (by have := dst.code_lt; omega))
theorem itof (f : FormA) (src : IntTy) : Statement (.itof f src) :=
  RawC.pack_lt _ (f.raw_fits _ _ (by decide) (by have := src.code_lt; omega))
theorem fexp2 (f : FormA) : Statement (.fexp2 f) :=
  RawC.pack_lt _ (f.raw_fits _ _ (by decide) (by decide))
theorem flog2 (f : FormA) : Statement (.flog2 f) :=
  RawC.pack_lt _ (f.raw_fits _ _ (by decide) (by decide))
theorem frcp (f : FormA) : Statement (.frcp f) :=
  RawC.pack_lt _ (f.raw_fits _ _ (by decide) (by decide))
theorem frsq (f : FormA) : Statement (.frsq f) :=
  RawC.pack_lt _ (f.raw_fits _ _ (by decide) (by decide))
theorem frint (f : FormA) : Statement (.frint f) :=
  RawC.pack_lt _ (f.raw_fits _ _ (by decide) (by decide))
theorem frintX (f : FormA) : Statement (.frintX f) :=
  RawC.pack_lt _ (f.raw_fits _ _ (by decide) (by decide))
theorem ldl (f : FormM) (off : BitVec 24) : Statement (.ldl f off) :=
  RawC.pack_lt _ (f.raw_fits _ _ (by decide) (by have := off.isLt; omega))
theorem stl (f : FormM) (off : BitVec 24) : Statement (.stl f off) :=
  RawC.pack_lt _ (f.raw_fits _ _ (by decide) (by have := off.isLt; omega))
theorem ldn (f : FormM) (off : BitVec 24) : Statement (.ldn f off) :=
  RawC.pack_lt _ (f.raw_fits _ _ (by decide) (by have := off.isLt; omega))
theorem stn (f : FormM) (off : BitVec 24) : Statement (.stn f off) :=
  RawC.pack_lt _ (f.raw_fits _ _ (by decide) (by have := off.isLt; omega))
theorem ldg (f : FormM) (off : BitVec 24) : Statement (.ldg f off) :=
  RawC.pack_lt _ (f.raw_fits _ _ (by decide) (by have := off.isLt; omega))
theorem stg (f : FormM) (off : BitVec 24) : Statement (.stg f off) :=
  RawC.pack_lt _ (f.raw_fits _ _ (by decide) (by have := off.isLt; omega))
theorem ldw (f : FormM) (off : BitVec 24) : Statement (.ldw f off) :=
  RawC.pack_lt _ (f.raw_fits _ _ (by decide) (by have := off.isLt; omega))
theorem feclr (f : FormM) (off : BitVec 24) : Statement (.feclr f off) :=
  RawC.pack_lt _ (f.raw_fits _ _ (by decide) (by have := off.isLt; omega))
theorem feset (f : FormM) (off : BitVec 24) : Statement (.feset f off) :=
  RawC.pack_lt _ (f.raw_fits _ _ (by decide) (by have := off.isLt; omega))
theorem wcal (f : FormM) (off : BitVec 24) : Statement (.wcal f off) :=
  RawC.pack_lt _ (f.raw_fits _ _ (by decide) (by have := off.isLt; omega))
theorem amol (f : FormM) (op : AmoOp) (k : Spec) (off : BitVec 14) : Statement (.amol f op k off) :=
  RawC.pack_lt _ (f.raw_fits _ _ (by decide) (by have := op.code_lt; have := k.code_lt; have := off.isLt; omega))
theorem amog (f : FormM) (op : AmoOp) (k : Spec) (off : BitVec 14) : Statement (.amog f op k off) :=
  RawC.pack_lt _ (f.raw_fits _ _ (by decide) (by have := op.code_lt; have := k.code_lt; have := off.isLt; omega))
theorem updg (f : FormM) (op : UpdOp) (off : BitVec 14) : Statement (.updg f op off) :=
  RawC.pack_lt _ (f.raw_fits _ _ (by decide) (by have := op.code_lt; have := off.isLt; omega))
theorem kadd (f : FormK) : Statement (.kadd f) :=
  RawC.pack_lt _ (f.raw_fits _ (by decide))
theorem kwait (f : FormK) : Statement (.kwait f) :=
  RawC.pack_lt _ (f.raw_fits _ (by decide))
theorem kread (f : FormK) : Statement (.kread f) :=
  RawC.pack_lt _ (f.raw_fits _ (by decide))
theorem klimit (f : FormK) : Statement (.klimit f) :=
  RawC.pack_lt _ (f.raw_fits _ (by decide))
theorem karm (f : FormK) : Statement (.karm f) :=
  RawC.pack_lt _ (f.raw_fits _ (by decide))
theorem kalloc (f : FormK) : Statement (.kalloc f) :=
  RawC.pack_lt _ (f.raw_fits _ (by decide))
theorem kfree (f : FormK) : Statement (.kfree f) :=
  RawC.pack_lt _ (f.raw_fits _ (by decide))
theorem copy (f : FormE) (ord : Bool) : Statement (.copy f ord) :=
  RawC.pack_lt _ (f.raw_fits _ _ (by decide) (by have := toNat_lt_two ord; omega))
theorem copyr (f : FormE) (ord : Bool) : Statement (.copyr f ord) :=
  RawC.pack_lt _ (f.raw_fits _ _ (by decide) (by have := toNat_lt_two ord; omega))
theorem fill (f : FormE) (ord : Bool) : Statement (.fill f ord) :=
  RawC.pack_lt _ (f.raw_fits _ _ (by decide) (by have := toNat_lt_two ord; omega))
theorem gathr (f : FormE) (ord : Bool) : Statement (.gathr f ord) :=
  RawC.pack_lt _ (f.raw_fits _ _ (by decide) (by have := toNat_lt_two ord; omega))
theorem scatr (f : FormE) (ord : Bool) : Statement (.scatr f ord) :=
  RawC.pack_lt _ (f.raw_fits _ _ (by decide) (by have := toNat_lt_two ord; omega))
theorem scatrAdd (f : FormE) (ord : Bool) : Statement (.scatrAdd f ord) :=
  RawC.pack_lt _ (f.raw_fits _ _ (by decide) (by have := toNat_lt_two ord; omega))
theorem overlay (f : FormE) (ord : Bool) : Statement (.overlay f ord) :=
  RawC.pack_lt _ (f.raw_fits _ _ (by decide) (by have := toNat_lt_two ord; omega))
theorem cqpush (f : FormE) (patch : CqPatch) : Statement (.cqpush f patch) :=
  RawC.pack_lt _ (f.raw_fits _ _ (by decide) (by have := patch.code_lt; omega))
theorem tshape (f : FormT) : Statement (.tshape f) :=
  RawT.pack_lt _ (f.raw_fits _ _ (by decide) (by decide))
theorem trdsh (f : FormT) : Statement (.trdsh f) :=
  RawT.pack_lt _ (f.raw_fits _ _ (by decide) (by decide))
theorem tld (f : FormT) : Statement (.tld f) :=
  RawT.pack_lt _ (f.raw_fits _ _ (by decide) (by decide))
theorem tst (f : FormT) : Statement (.tst f) :=
  RawT.pack_lt _ (f.raw_fits _ _ (by decide) (by decide))
theorem tzeroTile (f : FormT) : Statement (.tzeroTile f) :=
  RawT.pack_lt _ (f.raw_fits _ _ (by decide) (by decide))
theorem tzeroAcc (f : FormT) : Statement (.tzeroAcc f) :=
  RawT.pack_lt _ (f.raw_fits _ _ (by decide) (by decide))
theorem tzeroCarry (f : FormT) : Statement (.tzeroCarry f) :=
  RawT.pack_lt _ (f.raw_fits _ _ (by decide) (by decide))
theorem tmma (f : FormT) : Statement (.tmma f) :=
  RawT.pack_lt _ (f.raw_fits _ _ (by decide) (by decide))
theorem tadd (f : FormT) : Statement (.tadd f) :=
  RawT.pack_lt _ (f.raw_fits _ _ (by decide) (by decide))
theorem tmul (f : FormT) : Statement (.tmul f) :=
  RawT.pack_lt _ (f.raw_fits _ _ (by decide) (by decide))
theorem tscale (f : FormT) : Statement (.tscale f) :=
  RawT.pack_lt _ (f.raw_fits _ _ (by decide) (by decide))
theorem tact (f : FormT) (fn : ActFn) : Statement (.tact f fn) :=
  RawT.pack_lt _ (f.raw_fits _ _ (by decide) (by have := fn.code_lt; omega))
theorem tredSum (f : FormT) : Statement (.tredSum f) :=
  RawT.pack_lt _ (f.raw_fits _ _ (by decide) (by decide))
theorem tredMax (f : FormT) : Statement (.tredMax f) :=
  RawT.pack_lt _ (f.raw_fits _ _ (by decide) (by decide))
theorem tqnt (f : FormT) : Statement (.tqnt f) :=
  RawT.pack_lt _ (f.raw_fits _ _ (by decide) (by decide))
theorem tdq (f : FormT) : Statement (.tdq f) :=
  RawT.pack_lt _ (f.raw_fits _ _ (by decide) (by decide))
theorem tcvt (f : FormT) : Statement (.tcvt f) :=
  RawT.pack_lt _ (f.raw_fits _ _ (by decide) (by decide))
theorem ttrn (f : FormT) : Statement (.ttrn f) :=
  RawT.pack_lt _ (f.raw_fits _ _ (by decide) (by decide))
theorem trow (f : FormT) : Statement (.trow f) :=
  RawT.pack_lt _ (f.raw_fits _ _ (by decide) (by decide))
theorem trowStr (f : FormT) : Statement (.trowStr f) :=
  RawT.pack_lt _ (f.raw_fits _ _ (by decide) (by decide))
theorem tscan (f : FormT) : Statement (.tscan f) :=
  RawT.pack_lt _ (f.raw_fits _ _ (by decide) (by decide))
theorem tcarrySave (f : FormT) : Statement (.tcarrySave f) :=
  RawT.pack_lt _ (f.raw_fits _ _ (by decide) (by decide))
theorem tcarryLoad (f : FormT) : Statement (.tcarryLoad f) :=
  RawT.pack_lt _ (f.raw_fits _ _ (by decide) (by decide))
theorem tmovq (f : FormT) : Statement (.tmovq f) :=
  RawT.pack_lt _ (f.raw_fits _ _ (by decide) (by decide))
theorem semit (f : FormX) (ch : BitVec 2) : Statement (.semit f ch) :=
  RawC.pack_lt _ (f.raw_fits _ _ _ (by decide) (by decide) (by have := ch.isLt; omega))
theorem smark (f : FormX) (ch : BitVec 2) (mark : BitVec 4) : Statement (.smark f ch mark) :=
  RawC.pack_lt _ (f.raw_fits _ _ _ (by decide) (by decide) (by have := ch.isLt; have := mark.isLt; omega))
theorem srecv (f : FormX) (ch : BitVec 2) : Statement (.srecv f ch) :=
  RawC.pack_lt _ (f.raw_fits _ _ _ (by decide) (by decide) (by have := ch.isLt; omega))
theorem sparm (f : FormX) (kind : BitVec 4) (inst : BitVec 1) (preg : BitVec 2) : Statement (.sparm f kind inst preg) :=
  RawC.pack_lt _ (f.raw_fits _ _ _ (by decide) (by decide) (by have := kind.isLt; have := inst.isLt; have := preg.isLt; omega))
theorem sstat (f : FormX) (kind : BitVec 4) (inst : BitVec 1) : Statement (.sstat f kind inst) :=
  RawC.pack_lt _ (f.raw_fits _ _ _ (by decide) (by decide) (by have := kind.isLt; have := inst.isLt; omega))
theorem smopen (f : FormE) (inst : BitVec 2) (ctx : BitVec 2) : Statement (.smopen f inst ctx) :=
  RawC.pack_lt _ (f.raw_fits _ _ (by decide) (by have := inst.isLt; have := ctx.isLt; omega))
theorem smfeed (f : FormE) : Statement (.smfeed f) :=
  RawC.pack_lt _ (f.raw_fits _ _ (by decide) (by decide))
theorem smclose (f : FormE) : Statement (.smclose f) :=
  RawC.pack_lt _ (f.raw_fits _ _ (by decide) (by decide))
theorem smstat (f : FormE) : Statement (.smstat f) :=
  RawC.pack_lt _ (f.raw_fits _ _ (by decide) (by decide))
theorem smabort (f : FormE) : Statement (.smabort f) :=
  RawC.pack_lt _ (f.raw_fits _ _ (by decide) (by decide))
theorem umctxOpen (f : FormE) (die : BitVec 2) : Statement (.umctxOpen f die) :=
  RawC.pack_lt _ (f.raw_fits _ _ (by decide) (by have := die.isLt; omega))
theorem umctxRelease (f : FormE) : Statement (.umctxRelease f) :=
  RawC.pack_lt _ (f.raw_fits _ _ (by decide) (by decide))
theorem umscore (f : FormE) (f16 : Bool) : Statement (.umscore f f16) :=
  RawC.pack_lt _ (f.raw_fits _ _ (by decide) (by have := toNat_lt_two f16; omega))
theorem umrank (f : FormE) : Statement (.umrank f) :=
  RawC.pack_lt _ (f.raw_fits _ _ (by decide) (by decide))
theorem umtap (f : FormE) : Statement (.umtap f) :=
  RawC.pack_lt _ (f.raw_fits _ _ (by decide) (by decide))
theorem umdirty (f : FormE) : Statement (.umdirty f) :=
  RawC.pack_lt _ (f.raw_fits _ _ (by decide) (by decide))
theorem umqryInfo (f : FormE) : Statement (.umqryInfo f) :=
  RawC.pack_lt _ (f.raw_fits _ _ (by decide) (by decide))
theorem umqryMask (f : FormE) : Statement (.umqryMask f) :=
  RawC.pack_lt _ (f.raw_fits _ _ (by decide) (by decide))
theorem umqryDirty (f : FormE) : Statement (.umqryDirty f) :=
  RawC.pack_lt _ (f.raw_fits _ _ (by decide) (by decide))
theorem umqryRound (f : FormE) : Statement (.umqryRound f) :=
  RawC.pack_lt _ (f.raw_fits _ _ (by decide) (by decide))
theorem umclr (f : FormE) : Statement (.umclr f) :=
  RawC.pack_lt _ (f.raw_fits _ _ (by decide) (by decide))
theorem trap (f : FormX) (code : BitVec 16) : Statement (.trap f code) :=
  RawC.pack_lt _ (f.raw_fits _ _ _ (by decide) (by decide) (by have := code.isLt; omega))
theorem sysrd (f : FormX) (reg : BitVec 12) : Statement (.sysrd f reg) :=
  RawC.pack_lt _ (f.raw_fits _ _ _ (by decide) (by decide) (by have := reg.isLt; omega))
theorem syswr (f : FormX) (reg : BitVec 12) : Statement (.syswr f reg) :=
  RawC.pack_lt _ (f.raw_fits _ _ _ (by decide) (by decide) (by have := reg.isLt; omega))
theorem hem (f : FormX) : Statement (.hem f) :=
  RawC.pack_lt _ (f.raw_fits _ _ _ (by decide) (by decide) (by decide))
theorem cycle (f : FormX) : Statement (.cycle f) :=
  RawC.pack_lt _ (f.raw_fits _ _ _ (by decide) (by decide) (by decide))
theorem cycleStamp (f : FormX) : Statement (.cycleStamp f) :=
  RawC.pack_lt _ (f.raw_fits _ _ _ (by decide) (by decide) (by decide))
theorem meter (f : FormX) (idx : BitVec 5) : Statement (.meter f idx) :=
  RawC.pack_lt _ (f.raw_fits _ _ _ (by decide) (by decide) (by have := idx.isLt; omega))
theorem bkpt (f : FormX) (id : BitVec 16) : Statement (.bkpt f id) :=
  RawC.pack_lt _ (f.raw_fits _ _ _ (by decide) (by decide) (by have := id.isLt; omega))
theorem yield (f : FormX) (n : BitVec 24) : Statement (.yield f n) :=
  RawC.pack_lt _ (f.raw_fits _ _ _ (by decide) (by decide) (by have := n.isLt; omega))
theorem flag (f : FormX) (mask : BitVec 16) : Statement (.flag f mask) :=
  RawC.pack_lt _ (f.raw_fits _ _ _ (by decide) (by decide) (by have := mask.isLt; omega))
theorem bringUp : Statement (.bringUp) := (by decide : 0 < 2 ^ 64)
theorem stampCounterTick : Statement (.stampCounterTick) := (by decide : 0 < 2 ^ 64)
theorem ageClampSweep : Statement (.ageClampSweep) := (by decide : 0 < 2 ^ 64)
theorem queueRereadPoll (part : Nat) (q : Nat) : Statement (.queueRereadPoll part q) := (by decide : 0 < 2 ^ 64)
theorem consumePacket (part : Nat) (q : Nat) : Statement (.consumePacket part q) := (by decide : 0 < 2 ^ 64)
theorem dependencesMet (l : Nat) : Statement (.dependencesMet l) := (by decide : 0 < 2 ^ 64)
theorem placementDecision (part : Nat) : Statement (.placementDecision part) := (by decide : 0 < 2 ^ 64)
theorem agedPriorityStep (l : Nat) : Statement (.agedPriorityStep l) := (by decide : 0 < 2 ^ 64)
theorem blockedHeadTimeout (part : Nat) : Statement (.blockedHeadTimeout part) := (by decide : 0 < 2 ^ 64)
theorem quotaWindowBegin : Statement (.quotaWindowBegin) := (by decide : 0 < 2 ^ 64)
theorem patternStoreFill (l : Nat) (cl : Nat) : Statement (.patternStoreFill l cl) := (by decide : 0 < 2 ^ 64)
theorem stationLoad (l : Nat) (cl : Nat) (st : Nat) : Statement (.stationLoad l cl st) := (by decide : 0 < 2 ^ 64)
theorem configurationCompleteWave (l : Nat) : Statement (.configurationCompleteWave l) := (by decide : 0 < 2 ^ 64)
theorem seedInject (l : Nat) : Statement (.seedInject l) := (by decide : 0 < 2 ^ 64)
theorem entryAdmit (l : Nat) (entry : Nat) : Statement (.entryAdmit l entry) := (by decide : 0 < 2 ^ 64)
theorem tokenDelivered (cl : Nat) (k : Nat) : Statement (.tokenDelivered cl k) := (by decide : 0 < 2 ^ 64)
theorem remnantPromote (cl : Nat) (st : Nat) : Statement (.remnantPromote cl st) := (by decide : 0 < 2 ^ 64)
theorem routerCycle (cl : Nat) : Statement (.routerCycle cl) := (by decide : 0 < 2 ^ 64)
theorem starve (cl : Nat) : Statement (.starve cl) := (by decide : 0 < 2 ^ 64)
theorem receivePortDelivery (cl : Nat) : Statement (.receivePortDelivery cl) := (by decide : 0 < 2 ^ 64)
theorem creditReturn (src : Nat) (dst : Nat) : Statement (.creditReturn src dst) := (by decide : 0 < 2 ^ 64)
theorem spineSwitchCycle (die : Nat) : Statement (.spineSwitchCycle die) := (by decide : 0 < 2 ^ 64)
theorem commitTokenArrival (cl : Nat) (k : Nat) : Statement (.commitTokenArrival cl k) := (by decide : 0 < 2 ^ 64)
theorem killTokenArrival (cl : Nat) (k : Nat) : Statement (.killTokenArrival cl k) := (by decide : 0 < 2 ^ 64)
theorem phaseReductionWave (l : Nat) (ph : Nat) : Statement (.phaseReductionWave l ph) := (by decide : 0 < 2 ^ 64)
theorem generatorStep (l : Nat) (g : Nat) : Statement (.generatorStep l g) := (by decide : 0 < 2 ^ 64)
theorem nextRelease (l : Nat) (p : Nat) : Statement (.nextRelease l p) := (by decide : 0 < 2 ^ 64)
theorem ballocWake (l : Nat) (p : Nat) : Statement (.ballocWake l p) := (by decide : 0 < 2 ^ 64)
theorem ticketGrant (cl : Nat) (arb : Nat) : Statement (.ticketGrant cl arb) := (by decide : 0 < 2 ^ 64)
theorem stageSwitch (l : Nat) : Statement (.stageSwitch l) := (by decide : 0 < 2 ^ 64)
theorem memoryAccessPerformed (r : Nat) : Statement (.memoryAccessPerformed r) := (by decide : 0 < 2 ^ 64)
theorem translationWalk (r : Nat) : Statement (.translationWalk r) := (by decide : 0 < 2 ^ 64)
theorem homeSliceApply (r : Nat) : Statement (.homeSliceApply r) := (by decide : 0 < 2 ^ 64)
theorem lineFullWake (cl : Nat) (line : Nat) : Statement (.lineFullWake cl line) := (by decide : 0 < 2 ^ 64)
theorem refreshWindowEnd (die : Nat) (group : Nat) : Statement (.refreshWindowEnd die group) := (by decide : 0 < 2 ^ 64)
theorem portalCompletion (r : Nat) (ok : Bool) (data : BitVec 64) : Statement (.portalCompletion r ok data) := (by decide : 0 < 2 ^ 64)
theorem priPageRequest (r : Nat) (granted : Bool) : Statement (.priPageRequest r granted) := (by decide : 0 < 2 ^ 64)
theorem copyPacketStart (cl : Nat) : Statement (.copyPacketStart cl) := (by decide : 0 < 2 ^ 64)
theorem copyOrdToken (cl : Nat) (k : Nat) : Statement (.copyOrdToken cl k) := (by decide : 0 < 2 ^ 64)
theorem copyPacketPerformed (cl : Nat) (p : Nat) : Statement (.copyPacketPerformed cl p) := (by decide : 0 < 2 ^ 64)
theorem copyQueuePacket (part : Nat) (q : Nat) : Statement (.copyQueuePacket part q) := (by decide : 0 < 2 ^ 64)
theorem weightLoadCommand (part : Nat) (image : Nat) (load : Nat) (cl : Nat) (packet : List (BitVec 64)) : Statement (.weightLoadCommand part image load cl packet) := (by decide : 0 < 2 ^ 64)
theorem spawnSlotStep (cl : Nat) : Statement (.spawnSlotStep cl) := (by decide : 0 < 2 ^ 64)
theorem tensorCommandPerform (cl : Nat) : Statement (.tensorCommandPerform cl) := (by decide : 0 < 2 ^ 64)
theorem rowStreamToken (cl : Nat) (k : Nat) : Statement (.rowStreamToken cl k) := (by decide : 0 < 2 ^ 64)
theorem tscanSetAsideRelease (cl : Nat) (slot : Nat) : Statement (.tscanSetAsideRelease cl slot) := (by decide : 0 < 2 ^ 64)
theorem streamOutputRow (cl : Nat) : Statement (.streamOutputRow cl) := (by decide : 0 < 2 ^ 64)
theorem circuitSlotReturn (l : Nat) (ep : Nat) : Statement (.circuitSlotReturn l ep) := (by decide : 0 < 2 ^ 64)
theorem streamOperatorStep (l : Nat) (op : Nat) : Statement (.streamOperatorStep l op) := (by decide : 0 < 2 ^ 64)
theorem seamTokenArrival (die : Nat) (k : Nat) : Statement (.seamTokenArrival die k) := (by decide : 0 < 2 ^ 64)
theorem seamPortWord (l : Nat) (unit : Nat) (port : Nat) : Statement (.seamPortWord l unit port) := (by decide : 0 < 2 ^ 64)
theorem seamMergeRow (l : Nat) (unit : Nat) (ctx : Nat) : Statement (.seamMergeRow l unit ctx) := (by decide : 0 < 2 ^ 64)
theorem seamContextEnd (l : Nat) (unit : Nat) (ctx : Nat) : Statement (.seamContextEnd l unit ctx) := (by decide : 0 < 2 ^ 64)
theorem unmaskContextGrant (die : Nat) : Statement (.unmaskContextGrant die) := (by decide : 0 < 2 ^ 64)
theorem unmaskInToken (die : Nat) (k : Nat) : Statement (.unmaskInToken die k) := (by decide : 0 < 2 ^ 64)
theorem knotBankApply (r : Nat) : Statement (.knotBankApply r) := (by decide : 0 < 2 ^ 64)
theorem waiterDirectoryNotify (cl : Nat) (kn : Nat) : Statement (.waiterDirectoryNotify cl kn) := (by decide : 0 < 2 ^ 64)
theorem pollingWaiterReread (l : Nat) (p : Nat) : Statement (.pollingWaiterReread l p) := (by decide : 0 < 2 ^ 64)
theorem triggerEngineIssue (cl : Nat) : Statement (.triggerEngineIssue cl) := (by decide : 0 < 2 ^ 64)
theorem knotWindowAdd (part : Nat) (off : Nat) (v : BitVec 64) : Statement (.knotWindowAdd part off v) := (by decide : 0 < 2 ^ 64)
theorem knotWindowSetLimit (part : Nat) (off : Nat) (v : BitVec 64) : Statement (.knotWindowSetLimit part off v) := (by decide : 0 < 2 ^ 64)
theorem knotWindowAcquire (part : Nat) (off : Nat) : Statement (.knotWindowAcquire part off) := (by decide : 0 < 2 ^ 64)
theorem hemTokenOutbound (cl : Nat) (k : Nat) : Statement (.hemTokenOutbound cl k) := (by decide : 0 < 2 ^ 64)
theorem hemTokenInbound (l : Nat) (cl : Nat) (hseq : Nat) : Statement (.hemTokenInbound l cl hseq) := (by decide : 0 < 2 ^ 64)
theorem faultRecordWrite (l : Nat) : Statement (.faultRecordWrite l) := (by decide : 0 < 2 ^ 64)
theorem resumeRetry (l : Nat) (recid : Nat) : Statement (.resumeRetry l recid) := (by decide : 0 < 2 ^ 64)
theorem resumeDiscard (l : Nat) (recid : Nat) : Statement (.resumeDiscard l recid) := (by decide : 0 < 2 ^ 64)
theorem freeze (l : Nat) : Statement (.freeze l) := (by decide : 0 < 2 ^ 64)
theorem freezeBoundExpiry (l : Nat) : Statement (.freezeBoundExpiry l) := (by decide : 0 < 2 ^ 64)
theorem saveLaunch (l : Nat) : Statement (.saveLaunch l) := (by decide : 0 < 2 ^ 64)
theorem restoreLaunch (l : Nat) : Statement (.restoreLaunch l) := (by decide : 0 < 2 ^ 64)
theorem watchdogExpiry (l : Nat) : Statement (.watchdogExpiry l) := (by decide : 0 < 2 ^ 64)
theorem yieldExpiry (l : Nat) (p : Nat) : Statement (.yieldExpiry l p) := (by decide : 0 < 2 ^ 64)
theorem retirement (l : Nat) : Statement (.retirement l) := (by decide : 0 < 2 ^ 64)
theorem cbEnable (part : Nat) (v : BitVec 64) : Statement (.cbEnable part v) := (by decide : 0 < 2 ^ 64)
theorem cbQueueEntry (part : Nat) (q : Nat) (v : BitVec 64) : Statement (.cbQueueEntry part q v) := (by decide : 0 < 2 ^ 64)
theorem cbCopyQueueEntry (part : Nat) (q : Nat) (v : BitVec 64) : Statement (.cbCopyQueueEntry part q v) := (by decide : 0 < 2 ^ 64)
theorem cbInvalidate (part : Nat) (v : BitVec 64) : Statement (.cbInvalidate part v) := (by decide : 0 < 2 ^ 64)
theorem cbDsnap (part : Nat) (v : BitVec 64) : Statement (.cbDsnap part v) := (by decide : 0 < 2 ^ 64)
theorem cbOvrel (part : Nat) (v : BitVec 64) : Statement (.cbOvrel part v) := (by decide : 0 < 2 ^ 64)
theorem cbErrorClear (part : Nat) (v : BitVec 64) : Statement (.cbErrorClear part v) := (by decide : 0 < 2 ^ 64)
theorem controlBlockWrite (writer : CbWriter) (part : Nat) (off : Nat) (v : BitVec 64) : Statement (.controlBlockWrite writer part off v) := (by decide : 0 < 2 ^ 64)
theorem knotAllot (rq : DoeReq) : Statement (.knotAllot rq) := (by decide : 0 < 2 ^ 64)
theorem knotReturn (rq : DoeReq) : Statement (.knotReturn rq) := (by decide : 0 < 2 ^ 64)
theorem slotTable (rq : DoeReq) : Statement (.slotTable rq) := (by decide : 0 < 2 ^ 64)
theorem queueHome (rq : DoeReq) : Statement (.queueHome rq) := (by decide : 0 < 2 ^ 64)
theorem portMask (rq : DoeReq) : Statement (.portMask rq) := (by decide : 0 < 2 ^ 64)
theorem selfId (rq : DoeReq) : Statement (.selfId rq) := (by decide : 0 < 2 ^ 64)
theorem bridge (rq : DoeReq) : Statement (.bridge rq) := (by decide : 0 < 2 ^ 64)
theorem keyLoad (rq : DoeReq) : Statement (.keyLoad rq) := (by decide : 0 < 2 ^ 64)
theorem keyUnload (rq : DoeReq) : Statement (.keyUnload rq) := (by decide : 0 < 2 ^ 64)
theorem meterSnapshot (fn : Nat) (die : Nat) (part : Nat) (nonce : BitVec 256) : Statement (.meterSnapshot fn die part nonce) := (by decide : 0 < 2 ^ 64)
theorem getMeasurements (fn : Nat) (die : Nat) (index : Nat) : Statement (.getMeasurements fn die index) := (by decide : 0 < 2 ^ 64)
theorem ronobFirmwareUpdate (die : Nat) (digest : BitVec 384) : Statement (.ronobFirmwareUpdate die digest) := (by decide : 0 < 2 ^ 64)
theorem schedulerMicrocodeUpdate (digest : BitVec 384) : Statement (.schedulerMicrocodeUpdate digest) := (by decide : 0 < 2 ^ 64)
theorem laneRecalibration (link : LinkUnit) (start : Bool) : Statement (.laneRecalibration link start) := (by decide : 0 < 2 ^ 64)
theorem thermalRecalibration (die : Nat) (offsets : BitVec 64) : Statement (.thermalRecalibration die offsets) := (by decide : 0 < 2 ^ 64)
theorem hbmRetraining (stack : Nat) : Statement (.hbmRetraining stack) := (by decide : 0 < 2 ^ 64)
theorem thermalGating (die : Nat) (on : Bool) : Statement (.thermalGating die on) := (by decide : 0 < 2 ^ 64)
theorem thermalTrip (die : Nat) : Statement (.thermalTrip die) := (by decide : 0 < 2 ^ 64)
theorem powerCapSet (watts : Nat) : Statement (.powerCapSet watts) := (by decide : 0 < 2 ^ 64)
theorem unmaskCommandPerform (die : Nat) (ctx : Nat) : Statement (.unmaskCommandPerform die ctx) := (by decide : 0 < 2 ^ 64)
theorem hbmRetrainingEnd (stack : Nat) : Statement (.hbmRetrainingEnd stack) := (by decide : 0 < 2 ^ 64)
theorem invalidationComplete (part : Nat) : Statement (.invalidationComplete part) := (by decide : 0 < 2 ^ 64)
theorem dsnapComplete (part : Nat) : Statement (.dsnapComplete part) := (by decide : 0 < 2 ^ 64)
theorem atsInvalidation (die : Nat) (addr : Nat) (len : Nat) : Statement (.atsInvalidation die addr len) := (by decide : 0 < 2 ^ 64)
theorem spdmSession (fn : Nat) (up : Bool) : Statement (.spdmSession fn up) := (by decide : 0 < 2 ^ 64)
theorem ideStreamKeying (part : Nat) : Statement (.ideStreamKeying part) := (by decide : 0 < 2 ^ 64)
theorem tdispRequest (part : Nat) (to_ : Tdisp) : Statement (.tdispRequest part to_) := (by decide : 0 < 2 ^ 64)

end Sys2Proof.Laws.encodes
end

