-- ==== Sys2Proof/Tests/Slice0.lean ====
section
/-! SUPPORT. Tests/Slice0.lean: the well-formedness smoke test, words written out from the spec's encodings, one step of instructions on
small states, and a state that meets the hypotheses of each statement. -/

namespace Sys2Proof.Tests

open Sys2Proof Sys2Proof.Machine


/-! Well-formedness: for each check an ill-formed term, which it refuses by name. -/

/-- A format A field set. -/
def fa : FormA := ⟨.port, .port, .zero, true, false, .always, .i32, .rne, 0⟩
/-- A format X field set. -/
def fx : FormX := ⟨.port, .zero, .zero, true, false, .always, .i32⟩
/-- A format M field set. -/
def fm : FormM := ⟨.port, .zero, 3, true, false, .always, .u64, .b64, false, false⟩
/-- A format K field set. -/
def fk : FormK := ⟨.port, .port, .zero, true, false, .always, .device, .relaxed, 0⟩
/-- A format E field set. -/
def fe : FormE := ⟨.port, .port, .zero, true, false, .always, .i32, false, 0, 17, 18⟩
/-- A format T field set. -/
def ft : FormT := ⟨.port, .zero, 1, 2, 3, 0, 0, 0, true, false, .always, .f32⟩

theorem smoke_opcode : (Instr.bringUp).check = some .opcode := by decide
theorem smoke_scalarType : (Instr.add { fa with ty := .f32 }).check = some .scalarType := by decide
theorem smoke_rounding : (Instr.add { fa with rm := .rz }).check = some .rounding := by decide
theorem smoke_predication : (Instr.fanout { fa with sb := .zero, og1 := true, pm := .steer }).check = some .predication := by decide
theorem smoke_port : (Instr.join { fa with sa := .iter }).check = some .specifier := by decide
theorem smoke_portOpt : (Instr.gate { fa with sc := .ones }).check = some .specifier := by decide
theorem smoke_unused : (Instr.mov fa).check = some .unusedOperand := by decide
theorem smoke_kv : (Instr.copy { fe with sc := .port } false).check = some .unusedOperand := by decide
theorem smoke_kvPort : (Instr.spawn { fe with kv := true, sc := .ones, sw2 := 0 } false).check = some .specifier := by decide
theorem smoke_immediateTwice : (Instr.sink { fa with sa := .imm, sb := .imm, og0 := false }).check = some .immediateUse := by decide
theorem smoke_immediateWhere : (Instr.lea { fa with sa := .imm } 0).check = some .immediateUse := by decide
theorem smoke_o0 : (Instr.done fx).check = some .outputGroup := by decide
theorem smoke_o1 : (Instr.add { fa with og1 := true }).check = some .outputGroup := by decide
theorem smoke_loopgen_o0 : (Instr.loopgen { fx with sb := .port, og0 := false } 1).check = some .outputGroup := by decide
theorem smoke_colour : (Instr.spec fx 0).check = some .parameter ∧ (Instr.commit fx 0).check = some .parameter ∧
    (Instr.kill fx 0).check = some .parameter := by decide
theorem smoke_loadWidth : (Instr.ldg { fm with ty := .u32 } 0).check = some .subOperation := by decide
theorem smoke_floatWidth : (Instr.ldg { fm with ty := .f32, width := .b16 } 0).check = some .subOperation := by decide
theorem smoke_loadRel : (Instr.ldg { fm with rel := true } 0).check = some .subOperation := by decide
theorem smoke_storeSpc : (Instr.stg { fm with og0 := false, spc := true } 0).check = some .subOperation := by decide
theorem smoke_noWidth : (Instr.wcal fm 0).check = some .subOperation := by decide
theorem smoke_atomWidth : (Instr.amol { fm with width := .b16 } .add .zero 0).check = some .subOperation := by decide
theorem smoke_cmpUnused : (Instr.amol fm .add .port 0).check = some .unusedOperand := by decide
theorem smoke_cmpImmediate : (Instr.amol fm .cas .imm 0).check = some .immediateUse := by decide
theorem smoke_updType : (Instr.updg { fm with og0 := false } .fadd 0).check = some .scalarType := by decide
theorem smoke_knotOrder : (Instr.kadd { fk with order := .acquire }).check = some .subOperation := by decide
theorem smoke_knotScope : (Instr.kalloc { fk with sb := .zero }).check = some .subOperation := by decide
theorem smoke_tensorFlg : (Instr.tadd { ft with flg := 1 }).check = some .reservedBits := by decide
theorem smoke_tensorType : (Instr.tadd { ft with ty := .i8 }).check = some .scalarType := by decide
theorem smoke_tensorFields : (Instr.tshape { ft with ty := .e4m3, ta := 0, tb := 0, sw := 1 }).check = some .reservedBits ∧
    (Instr.tshape { ft with ty := .e4m3, tb := 0 }).check = some .reservedBits ∧
    (Instr.tshape { ft with ty := .e4m3, ta := 0 }).check = some .reservedBits ∧
    (Instr.trdsh { ft with ty := .e4m3, tb := 0 }).check = some .reservedBits ∧
    (Instr.tshape { ft with ty := .e4m3, ta := 0, tb := 0, qa := 1 }).check = some .reservedBits := by decide
theorem smoke_tmmaPair : (Instr.tmma { ft with td := 0, ty := .yb4 }).check = some .parameter := by decide
theorem smoke_tqntRm : (Instr.tqnt { ft with ty := .yb8, tb := 0, flg := 6 }).check = some .rounding := by decide
theorem smoke_tqntSw : (Instr.tqnt { ft with ty := .yb8, tb := 0, sw := 1 }).check = some .reservedBits := by decide
theorem smoke_i32Flag : (Instr.tcvt { ft with tb := 0, flg := 8 }).check = some .scalarType := by decide
theorem smoke_fillSw : (Instr.fill { fe with sb := .zero } false).check = some .unusedOperand := by decide
theorem smoke_cqpush : (Instr.cqpush { fe with ty := .u64, sw2 := 0 } .none).check = some .unusedOperand := by decide
theorem smoke_smark : (Instr.smark fx 0 5).check = some .parameter := by decide
theorem smoke_sparm : (Instr.sparm fx 0 0 3).check = some .parameter := by decide
theorem smoke_smfeedKnot : (Instr.smfeed { fe with sw1 := 0, sw2 := 0, kc := 1 }).check = some .unusedOperand := by decide
theorem smoke_umdirty : (Instr.umdirty { fe with sb := .zero, og0 := false, sw1 := 0, sw2 := 0 }).check = some .outputGroup := by decide
theorem smoke_trap : (Instr.trap fx 0x7FFF).check = some .parameter := by decide
theorem smoke_sysrd : (Instr.sysrd { fx with ty := .u64 } 11).check = some .parameter := by decide
theorem smoke_syswr : (Instr.syswr { fx with ty := .u64 } 5).check = some .parameter := by decide
theorem smoke_meter : (Instr.meter { fx with ty := .u64 } 24).check = some .parameter := by decide
theorem smoke_yield : (Instr.yield fx 0).check = some .parameter := by decide
theorem smoke_systemGroups : (Instr.sysrd { fx with ty := .u64, og1 := true, pm := .steer } 0).check = some .outputGroup := by decide
theorem smoke_phwaitPhase : (Instr.phwait fx 5 true).check = some .parameter := by decide
theorem smoke_flag : (Instr.flag fx 0).check = some .parameter := by decide

/-! The decoder's own checks, which no term of the syntax can fail. -/

theorem reject_opcode : decode 0x00000000280000FF = .error .opcode ∧ decode 0 = .error .opcode := by decide
theorem reject_specifier : decode 0x0000000228048020 = .error .specifier := by decide
theorem reject_rounding : decode 0x000000A228006040 = .error .rounding := by decide
theorem reject_subOperation : decode 0x0000000228000120 = .error .subOperation := by decide
theorem reject_reservedBits : decode 0x0000040228A0000F = .error .reservedBits ∧ decode 0x1100000000A000B0 = .error .reservedBits := by decide
theorem reject_scalarType : decode 0x000000022C102A90 = .error .scalarType := by decide


/-! Decoding: one word of each instruction, its fields placed by hand as Tables 3.1 to 3.5 give them. -/

/-- Whether each word decodes to its instruction. -/
def decodesTo (ps : List (Word × Instr)) : Bool := ps.all fun p => decide (decode p.1 = .ok p.2)

theorem test_decode_control_1 : decodesTo
    [ (0xABCD010A28BF8001, .mov ⟨(.const 31), .zero, .zero, true, false, .ifTrue, .i32, .rne, 0xABCD01⟩),
      (0xABCD021628A08002, .fanout ⟨.iter, .zero, .zero, true, true, .ifFalse, .i32, .rne, 0xABCD02⟩),
      (0xABCD03018C600003, .sink ⟨.port, (.const 3), (.const 17), false, false, .always, .i32, .rne, 0xABCD03⟩),
      (0xABCD040E285F8004, .steer ⟨(.const 31), .bobbin, .zero, true, true, .ifTrue, .i32, .rne, 0xABCD04⟩),
      (0xABCD051200008005, .gate ⟨.iter, .port, .port, true, false, .ifFalse, .i32, .rne, 0xABCD05⟩),
      (0xABCD060200000006, .join ⟨.port, .port, .port, true, false, .always, .i32, .rne, 0xABCD06⟩),
      (0xABCD070A28BF8007, .inv ⟨(.const 31), .zero, .zero, true, false, .ifTrue, .i32, .rne, 0xABCD07⟩),
      (0x00003F1E28A08008, .balloc ⟨.iter, .zero, .zero, true, true, .steer, .i32⟩ 63),
      (0xABCD090228A00009, .bfree ⟨.port, .zero, .zero, true, false, .always, .i32, .rne, 0xABCD09⟩),
      (0x00FF9C0E005F800A, .loopgen ⟨(.const 31), .bobbin, .port, true, true, .ifTrue, .i32⟩ 0xFF9C) ] = true := by decide

theorem test_decode_control_2 : decodesTo
    [ (0xABCD0B1228A0800B, .next ⟨.iter, .zero, .zero, true, false, .ifFalse, .i32, .rne, 0xABCD0B⟩),
      (0xABCD0C0028A0000C, .iend ⟨.port, .zero, .zero, false, false, .always, .i32, .rne, 0xABCD0C⟩),
      (0xABCD0D0A285F800D, .retag ⟨(.const 31), .bobbin, .zero, true, false, .ifTrue, .i32, .rne, 0xABCD0D⟩),
      (0xABCD0E162800810D, .retagCall ⟨.iter, .port, .zero, true, true, .ifFalse, .i32, .rne, 0xABCD0E⟩),
      (0x0000030228A0000E, .spec ⟨.port, .zero, .zero, true, false, .always, .i32⟩ 3),
      (0x0000010A28BF800F, .commit ⟨(.const 31), .zero, .zero, true, false, .ifTrue, .i32⟩ 1),
      (0x0000021228A08010, .kill ⟨.iter, .zero, .zero, true, false, .ifFalse, .i32⟩ 2),
      (0x00001A0228A00011, .phset ⟨.port, .zero, .zero, true, false, .always, .i32⟩ 10 true),
      (0x00000F0A28BF8012, .phwait ⟨(.const 31), .zero, .zero, true, false, .ifTrue, .i32⟩ 15 false),
      (0x3500091200008113, .spawn ⟨.iter, .port, .port, true, false, .ifFalse, .i32, true, 21, 9, 0⟩ true) ] = true := by decide

theorem test_decode_control_3 : decodesTo
    [ (0x0000000028A00014, .done ⟨.port, .zero, .zero, false, false, .always, .i32⟩),
      (0x0000000828BF8114, .doneForce ⟨(.const 31), .zero, .zero, false, false, .ifTrue, .i32⟩),
      (0x00012D1228A08015, .ticket ⟨.iter, .zero, .zero, true, false, .ifFalse, .i32⟩ 5 37),
      (0x0001FA0228A00115, .ticketRelease ⟨.port, .zero, .zero, true, false, .always, .i32⟩ 2 63) ] = true := by decide

theorem test_decode_integer_1 : decodesTo
    [ (0xABCD190A285F9020, .add ⟨(.const 31), .bobbin, .zero, true, false, .ifTrue, .u32, .rne, 0xABCD19⟩),
      (0xABCD1A122800A021, .sub ⟨.iter, .port, .zero, true, false, .ifFalse, .i64, .rne, 0xABCD1A⟩),
      (0xABCD1B022C603022, .mul ⟨.port, (.const 3), .zero, true, false, .always, .u64, .rne, 0xABCD1B⟩),
      (0xABCD1C1E285F8023, .mulh ⟨(.const 31), .bobbin, .zero, true, true, .steer, .i32, .rne, 0xABCD1C⟩),
      (0xABCD1D1228009024, .div ⟨.iter, .port, .zero, true, false, .ifFalse, .u32, .rne, 0xABCD1D⟩),
      (0xABCD1E022C602025, .rem ⟨.port, (.const 3), .zero, true, false, .always, .i64, .rne, 0xABCD1E⟩),
      (0xABCD1F0A285FB026, .and ⟨(.const 31), .bobbin, .zero, true, false, .ifTrue, .u64, .rne, 0xABCD1F⟩),
      (0xABCD201E28008027, .or ⟨.iter, .port, .zero, true, true, .steer, .i32, .rne, 0xABCD20⟩),
      (0xABCD21022C601028, .xor ⟨.port, (.const 3), .zero, true, false, .always, .u32, .rne, 0xABCD21⟩),
      (0xABCD220A285FA029, .andn ⟨(.const 31), .bobbin, .zero, true, false, .ifTrue, .i64, .rne, 0xABCD22⟩) ] = true := by decide

theorem test_decode_integer_2 : decodesTo
    [ (0xABCD23122800B02A, .shl ⟨.iter, .port, .zero, true, false, .ifFalse, .u64, .rne, 0xABCD23⟩),
      (0xABCD241E2C60002B, .shr ⟨.port, (.const 3), .zero, true, true, .steer, .i32, .rne, 0xABCD24⟩),
      (0xABCD250A285F902C, .sra ⟨(.const 31), .bobbin, .zero, true, false, .ifTrue, .u32, .rne, 0xABCD25⟩),
      (0xABCD26122800A02D, .rot ⟨.iter, .port, .zero, true, false, .ifFalse, .i64, .rne, 0xABCD26⟩),
      (0xABCD27022C60302E, .min ⟨.port, (.const 3), .zero, true, false, .always, .u64, .rne, 0xABCD27⟩),
      (0xABCD281E285F802F, .max ⟨(.const 31), .bobbin, .zero, true, true, .steer, .i32, .rne, 0xABCD28⟩),
      (0xABCD291228A0A030, .abs ⟨.iter, .zero, .zero, true, false, .ifFalse, .i64, .rne, 0xABCD29⟩),
      (0xABCD2A0228A02031, .neg ⟨.port, .zero, .zero, true, false, .always, .i64, .rne, 0xABCD2A⟩),
      (0xABCD2B0A28BFB032, .clz ⟨(.const 31), .zero, .zero, true, false, .ifTrue, .u64, .rne, 0xABCD2B⟩),
      (0xABCD2C1E28A08033, .ctz ⟨.iter, .zero, .zero, true, true, .steer, .i32, .rne, 0xABCD2C⟩) ] = true := by decide

theorem test_decode_integer_3 : decodesTo
    [ (0xABCD2D0228A01034, .popc ⟨.port, .zero, .zero, true, false, .always, .u32, .rne, 0xABCD2D⟩),
      (0xABCD2E0A28BFA035, .brev ⟨(.const 31), .zero, .zero, true, false, .ifTrue, .i64, .rne, 0xABCD2E⟩),
      (0xABCD2F122800B536, .cmp ⟨.iter, .port, .zero, true, false, .ifFalse, .u64, .rne, 0xABCD2F⟩ .ge),
      (0xABCD301F8C600037, .sel ⟨.port, (.const 3), (.const 17), true, true, .steer, .i32, .rne, 0xABCD30⟩),
      (0xABCD310A285F9038, .ext ⟨(.const 31), .bobbin, .zero, true, false, .ifTrue, .u32, .rne, 0xABCD31⟩),
      (0xABCD32124000A039, .ins ⟨.iter, .port, .phase, true, false, .ifFalse, .i64, .rne, 0xABCD32⟩),
      (0xABCD33022C60393A, .lea ⟨.port, (.const 3), .zero, true, false, .always, .u64, .rne, 0xABCD33⟩ 9),
      (0x8000011E28BFC03B, .constLo ⟨(.const 31), .zero, .zero, true, true, .steer, .f16⟩ 0x800001),
      (0x1234561228A0F13B, .constMid ⟨.iter, .zero, .zero, true, false, .ifFalse, .f64⟩ 0x123456),
      (0x00FEDC0228A0223B, .constHi ⟨.port, .zero, .zero, true, false, .always, .i64⟩ 0xFEDC) ] = true := by decide

theorem test_decode_integer_4 : decodesTo
    [ (0x6543210A28BFB03C, .consth ⟨(.const 31), .zero, .zero, true, false, .ifTrue, .u64⟩ 0x654321) ] = true := by decide

theorem test_decode_float_1 : decodesTo
    [ (0xABCD383E2800C040, .fadd ⟨.iter, .port, .zero, true, true, .steer, .f16, .rz, 0xABCD38⟩),
      (0xABCD39422C605041, .fsub ⟨.port, (.const 3), .zero, true, false, .always, .bf16, .ru, 0xABCD39⟩),
      (0xABCD3A6A285FE042, .fmul ⟨(.const 31), .bobbin, .zero, true, false, .ifTrue, .f32, .rd, 0xABCD3A⟩),
      (0xABCD3B924000F043, .fma ⟨.iter, .port, .phase, true, false, .ifFalse, .f64, .rna, 0xABCD3B⟩),
      (0xABCD3C3F8C604044, .fnma ⟨.port, (.const 3), (.const 17), true, true, .steer, .f16, .rz, 0xABCD3C⟩),
      (0xABCD3D4A285FD045, .fdiv ⟨(.const 31), .bobbin, .zero, true, false, .ifTrue, .bf16, .ru, 0xABCD3D⟩),
      (0xABCD3E7228A0E046, .fsqrt ⟨.iter, .zero, .zero, true, false, .ifFalse, .f32, .rd, 0xABCD3E⟩),
      (0xABCD3F022C607047, .fmin ⟨.port, (.const 3), .zero, true, false, .always, .f64, .rne, 0xABCD3F⟩),
      (0xABCD401E285FC048, .fmax ⟨(.const 31), .bobbin, .zero, true, true, .steer, .f16, .rne, 0xABCD40⟩),
      (0xABCD411228A0D049, .fabs ⟨.iter, .zero, .zero, true, false, .ifFalse, .bf16, .rne, 0xABCD41⟩) ] = true := by decide

theorem test_decode_float_2 : decodesTo
    [ (0xABCD420228A0604A, .fneg ⟨.port, .zero, .zero, true, false, .always, .f32, .rne, 0xABCD42⟩),
      (0xABCD430A285FF64B, .fcmp ⟨(.const 31), .bobbin, .zero, true, false, .ifTrue, .f64, .rne, 0xABCD43⟩ .un),
      (0xABCD441E28A0C04C, .fclass ⟨.iter, .zero, .zero, true, true, .steer, .f16, .rne, 0xABCD44⟩),
      (0xABCD454228A0584D, .fcvt ⟨.port, .zero, .zero, true, false, .always, .bf16, .ru, 0xABCD45⟩ .e4m3),
      (0xABCD466A28BFE24E, .ftoi ⟨(.const 31), .zero, .zero, true, false, .ifTrue, .f32, .rd, 0xABCD46⟩ .i64),
      (0xABCD479228A0F14F, .itof ⟨.iter, .zero, .zero, true, false, .ifFalse, .f64, .rna, 0xABCD47⟩ .u32),
      (0xABCD483E28A04050, .fexp2 ⟨.port, .zero, .zero, true, true, .steer, .f16, .rz, 0xABCD48⟩),
      (0xABCD494A28BFD051, .flog2 ⟨(.const 31), .zero, .zero, true, false, .ifTrue, .bf16, .ru, 0xABCD49⟩),
      (0xABCD4A7228A0E052, .frcp ⟨.iter, .zero, .zero, true, false, .ifFalse, .f32, .rd, 0xABCD4A⟩),
      (0xABCD4B8228A07053, .frsq ⟨.port, .zero, .zero, true, false, .always, .f64, .rna, 0xABCD4B⟩) ] = true := by decide

theorem test_decode_float_3 : decodesTo
    [ (0xABCD4C3E28BFC054, .frint ⟨(.const 31), .zero, .zero, true, true, .steer, .f16, .rz, 0xABCD4C⟩),
      (0xABCD4D5228A0D154, .frintX ⟨.iter, .zero, .zero, true, false, .ifFalse, .bf16, .ru, 0xABCD4D⟩) ] = true := by decide

theorem test_decode_memory_1 : decodesTo
    [ (0xFFFF4E0710A06270, .ldl ⟨.port, .zero, 34, true, true, .always, .f32, .b32, false, false⟩ 0xFFFF4E),
      (0xFFFF4F09485FF771, .stl ⟨(.const 31), .bobbin, 41, false, false, .ifTrue, .f64, .b64, true, false⟩ 0xFFFF4F),
      (0xFFFF501780A08972, .ldn ⟨.iter, .zero, 48, true, true, .ifFalse, .i32, .b16, false, true⟩ 0xFFFF50),
      (0xFFFF5101BC601473, .stn ⟨.port, (.const 3), 55, false, false, .always, .u32, .b8, true, false⟩ 0xFFFF51),
      (0xFFFF520FF0BFAB74, .ldg ⟨(.const 31), .zero, 62, true, true, .ifTrue, .i64, .b64, false, true⟩ 0xFFFF52),
      (0xFFFF53102800B675, .stg ⟨.iter, .port, 5, false, false, .ifFalse, .u64, .b32, true, false⟩ 0xFFFF53),
      (0xFFFF540660A04176, .ldw ⟨.port, .zero, 12, true, true, .always, .f16, .b16, false, false⟩ 0xFFFF54),
      (0xFFFF550898BF8077, .feclr ⟨(.const 31), .zero, 19, false, false, .ifTrue, .i32, .b8, false, false⟩ 0xFFFF55),
      (0xFFFF5614D0A08478, .feset ⟨.iter, .zero, 26, false, true, .ifFalse, .i32, .b8, true, false⟩ 0xFFFF56),
      (0xFFFF570308A03079, .wcal ⟨.port, .zero, 33, true, false, .always, .u64, .b8, false, false⟩ 0xFFFF57) ] = true := by decide

theorem test_decode_memory_2 : decodesTo
    [ (0x18BFFF0F405F827A, .amol ⟨(.const 31), .bobbin, 40, true, true, .ifTrue, .i32, .b32, false, false⟩ .cas (.const 2) 0x3FFF),
      (0x416008137800B77B, .amog ⟨.iter, .port, 47, true, false, .ifFalse, .u64, .b64, true, false⟩ .max .zero 0x2008),
      (0x71401005B460667C, .updg ⟨.port, (.const 3), 54, false, true, .always, .f32, .b32, true, false⟩ .faddNd 0x10) ] = true := by decide

theorem test_decode_knot : decodesTo
    [ (0x5A005B0A305FBB90, .kadd ⟨(.const 31), .bobbin, .ones, true, false, .ifTrue, .system, .release, 0x5A005B⟩),
      (0x5A005C162800B691, .kwait ⟨.iter, .port, .zero, true, true, .ifFalse, .device, .acquire, 0x5A005C⟩),
      (0x5A005D022C603092, .kread ⟨.port, (.const 3), .zero, true, false, .always, .bobbin, .relaxed, 0x5A005D⟩),
      (0x5A005E0A285FB193, .klimit ⟨(.const 31), .bobbin, .zero, true, false, .ifTrue, .panel, .relaxed, 0x5A005E⟩),
      (0x5A005F124000BA94, .karm ⟨.iter, .port, .phase, true, false, .ifFalse, .device, .release, 0x5A005F⟩),
      (0x5A00600228A03195, .kalloc ⟨.port, .zero, .zero, true, false, .always, .panel, .relaxed, 0x5A0060⟩),
      (0x5A00610A28BFB196, .kfree ⟨(.const 31), .zero, .zero, true, false, .ifTrue, .panel, .relaxed, 0x5A0061⟩) ] = true := by decide

theorem test_decode_copy : decodesTo
    [ (0x35C81113200088A0, .copy ⟨.iter, .port, (.const 4), true, false, .ifFalse, .i32, true, 21, 17, 200⟩ true),
      (0x35C81103246008A1, .copyr ⟨.port, (.const 3), (.const 4), true, false, .always, .i32, true, 21, 17, 200⟩ true),
      (0x35C8000B20BF88A2, .fill ⟨(.const 31), .zero, (.const 4), true, false, .ifTrue, .i32, true, 21, 0, 200⟩ true),
      (0x35C81113200088A3, .gathr ⟨.iter, .port, (.const 4), true, false, .ifFalse, .i32, true, 21, 17, 200⟩ true),
      (0x35C81103246008A4, .scatr ⟨.port, (.const 3), (.const 4), true, false, .always, .i32, true, 21, 17, 200⟩ true),
      (0x35C8110B205FA9A4, .scatrAdd ⟨(.const 31), .bobbin, (.const 4), true, false, .ifTrue, .i64, true, 21, 17, 200⟩ true),
      (0x35C8111320A088A5, .overlay ⟨.iter, .zero, (.const 4), true, false, .ifFalse, .i32, true, 21, 17, 200⟩ true),
      (0x35000903246032A6, .cqpush ⟨.port, (.const 3), (.const 4), true, false, .always, .u64, true, 21, 9, 0⟩ .dst) ] = true := by decide

theorem test_decode_tensor_1 : decodesTo
    [ (0x0500000068BF80B0, .tshape ⟨(.const 31), .zero, 13, 0, 0, 0, 0, 0, true, false, .ifTrue, .e4m3⟩),
      (0x0900000100A080B1, .trdsh ⟨.iter, .zero, 0, 2, 0, 0, 0, 0, true, false, .ifFalse, .e4m3⟩),
      (0x010192006C6000B2, .tld ⟨.port, (.const 3), 13, 0, 0, 0, 201, 0, true, false, .always, .e4m3⟩),
      (0x0503920100BF80B3, .tst ⟨(.const 31), .zero, 0, 2, 0, 0, 201, 1, true, false, .ifTrue, .e4m3⟩),
      (0x0900000068A080B4, .tzeroTile ⟨.iter, .zero, 13, 0, 0, 0, 0, 0, true, false, .ifFalse, .e4m3⟩),
      (0x0100018000A001B4, .tzeroAcc ⟨.port, .zero, 0, 0, 0, 3, 0, 0, true, false, .always, .e4m3⟩),
      (0x050A000000BF82B4, .tzeroCarry ⟨(.const 31), .zero, 0, 0, 0, 0, 0, 5, true, false, .ifTrue, .e4m3⟩),
      (0x090A01F90000C0B5, .tmma ⟨.iter, .port, 0, 2, 15, 3, 0, 5, true, false, .ifFalse, .bf16⟩),
      (0x0100007968A050B6, .tadd ⟨.port, .zero, 13, 2, 15, 0, 0, 0, true, false, .always, .f32⟩),
      (0x0500007968BF90B7, .tmul ⟨(.const 31), .zero, 13, 2, 15, 0, 0, 0, true, false, .ifTrue, .e5m2⟩) ] = true := by decide

theorem test_decode_tensor_2 : decodesTo
    [ (0x090000016800B0B8, .tscale ⟨.iter, .port, 13, 2, 0, 0, 0, 0, true, false, .ifFalse, .f16⟩),
      (0x0100000168A046B9, .tact ⟨.port, .zero, 13, 2, 0, 0, 0, 0, true, false, .always, .bf16⟩ .softp),
      (0x0502000168BFB0BA, .tredSum ⟨(.const 31), .zero, 13, 2, 0, 0, 0, 1, true, false, .ifTrue, .f16⟩),
      (0x0902000168A0D1BA, .tredMax ⟨.iter, .zero, 13, 2, 0, 0, 0, 1, true, false, .ifFalse, .f32⟩),
      (0x0119920168A070BB, .tqnt ⟨.port, .zero, 13, 2, 0, 0, 201, 12, true, false, .always, .yb4⟩),
      (0x0500000168BFC0BC, .tdq ⟨(.const 31), .zero, 13, 2, 0, 0, 0, 0, true, false, .ifTrue, .bf16⟩),
      (0x0908000168A0B0BD, .tcvt ⟨.iter, .zero, 13, 2, 0, 0, 0, 4, true, false, .ifFalse, .f16⟩),
      (0x0100000168A000BE, .ttrn ⟨.port, .zero, 13, 2, 0, 0, 0, 0, true, false, .always, .e4m3⟩),
      (0x05019201005F80BF, .trow ⟨(.const 31), .bobbin, 0, 2, 0, 0, 201, 0, true, false, .ifTrue, .e4m3⟩),
      (0x0902000100A081BF, .trowStr ⟨.iter, .zero, 0, 2, 0, 0, 0, 1, true, false, .ifFalse, .e4m3⟩) ] = true := by decide

theorem test_decode_tensor_3 : decodesTo
    [ (0x011800796C6050C0, .tscan ⟨.port, (.const 3), 13, 2, 15, 0, 0, 12, true, false, .always, .f32⟩),
      (0x05199200005F80C1, .tcarrySave ⟨(.const 31), .bobbin, 0, 0, 0, 0, 201, 12, true, false, .ifTrue, .e4m3⟩),
      (0x090B920000A081C1, .tcarryLoad ⟨.iter, .zero, 0, 0, 0, 0, 201, 5, true, false, .ifFalse, .e4m3⟩),
      (0x010801806C6040C2, .tmovq ⟨.port, (.const 3), 13, 0, 0, 3, 0, 4, true, false, .always, .bf16⟩) ] = true := by decide

theorem test_decode_stream : decodesTo
    [ (0x0000030A285F80D0, .semit ⟨(.const 31), .bobbin, .zero, true, false, .ifTrue, .i32⟩ 3),
      (0x0000E21228A080D1, .smark ⟨.iter, .zero, .zero, true, false, .ifFalse, .i32⟩ 2 14),
      (0x0000010628A000D2, .srecv ⟨.port, .zero, .zero, true, true, .always, .i32⟩ 1),
      (0x0000590A28BF80D3, .sparm ⟨(.const 31), .zero, .zero, true, false, .ifTrue, .i32⟩ 9 1 2),
      (0x0000171228A080D4, .sstat ⟨.iter, .zero, .zero, true, false, .ifFalse, .i32⟩ 7 1) ] = true := by decide

theorem test_decode_seam : decodesTo
    [ (0x35C8110324600BD8, .smopen ⟨.port, (.const 3), (.const 4), true, false, .always, .i32, true, 21, 17, 200⟩ 3 2),
      (0x0000000A285F80D9, .smfeed ⟨(.const 31), .bobbin, .zero, true, false, .ifTrue, .i32, false, 0, 0, 0⟩),
      (0x00000012280080DA, .smclose ⟨.iter, .port, .zero, true, false, .ifFalse, .i32, false, 0, 0, 0⟩),
      (0x000000022C6000DB, .smstat ⟨.port, (.const 3), .zero, true, false, .always, .i32, false, 0, 0, 0⟩),
      (0x0000000A285F80DC, .smabort ⟨(.const 31), .bobbin, .zero, true, false, .ifTrue, .i32, false, 0, 0, 0⟩) ] = true := by decide

theorem test_decode_unmask_1 : decodesTo
    [ (0x00C8111228A08CE0, .umctxOpen ⟨.iter, .zero, .zero, true, false, .ifFalse, .i32, false, 0, 17, 200⟩ 3),
      (0x0000000228A001E0, .umctxRelease ⟨.port, .zero, .zero, true, false, .always, .i32, false, 0, 0, 0⟩),
      (0x0000090A285F81E1, .umscore ⟨(.const 31), .bobbin, .zero, true, false, .ifTrue, .i32, false, 0, 9, 0⟩ true),
      (0x3500091320A080E2, .umrank ⟨.iter, .zero, (.const 4), true, false, .ifFalse, .i32, true, 21, 9, 0⟩),
      (0x000009022C6000E3, .umtap ⟨.port, (.const 3), .zero, true, false, .always, .i32, false, 0, 9, 0⟩),
      (0x1500000A28BF80E4, .umdirty ⟨(.const 31), .zero, .zero, true, false, .ifTrue, .i32, false, 21, 0, 0⟩),
      (0x00000012280080E5, .umqryInfo ⟨.iter, .port, .zero, true, false, .ifFalse, .i32, false, 0, 0, 0⟩),
      (0x000000022C6001E5, .umqryMask ⟨.port, (.const 3), .zero, true, false, .always, .i32, false, 0, 0, 0⟩),
      (0x0000000A285F82E5, .umqryDirty ⟨(.const 31), .bobbin, .zero, true, false, .ifTrue, .i32, false, 0, 0, 0⟩),
      (0x00000012280083E5, .umqryRound ⟨.iter, .port, .zero, true, false, .ifFalse, .i32, false, 0, 0, 0⟩) ] = true := by decide

theorem test_decode_unmask_2 : decodesTo
    [ (0x000000022C6000E6, .umclr ⟨.port, (.const 3), .zero, true, false, .always, .i32, false, 0, 0, 0⟩) ] = true := by decide

theorem test_decode_system : decodesTo
    [ (0x0081230A28BF80F0, .trap ⟨(.const 31), .zero, .zero, true, false, .ifTrue, .i32⟩ 0x8123),
      (0x00011F1A28A0B0F1, .sysrd ⟨.iter, .zero, .zero, true, false, .steer, .u64⟩ 0x11F),
      (0x0001050228A030F2, .syswr ⟨.port, .zero, .zero, true, false, .always, .u64⟩ 0x105),
      (0x0000000A28BF80F3, .hem ⟨(.const 31), .zero, .zero, true, false, .ifTrue, .i32⟩),
      (0x0000001228A0B0F4, .cycle ⟨.iter, .zero, .zero, true, false, .ifFalse, .u64⟩),
      (0x0000001A28A031F4, .cycleStamp ⟨.port, .zero, .zero, true, false, .steer, .u64⟩),
      (0x0000170A28BFB0F5, .meter ⟨(.const 31), .zero, .zero, true, false, .ifTrue, .u64⟩ 23),
      (0x007FFF1228A080F6, .bkpt ⟨.iter, .zero, .zero, true, false, .ifFalse, .i32⟩ 0x7FFF),
      (0xFFFFFF0228A000F7, .yield ⟨.port, .zero, .zero, true, false, .always, .i32⟩ 0xFFFFFF),
      (0x0080010A28BF80F8, .flag ⟨(.const 31), .zero, .zero, true, false, .ifTrue, .i32⟩ 0x8001) ] = true := by decide


/-! The words that the spec works out, and what it writes beside them. -/

theorem test_spec_words_1 : decodesTo
    [ (0x0000050228E00020, .add ⟨.port, .imm, .zero, true, false, .always, .i32, .rne, 5⟩),
      (0x0000001E28002021, .sub ⟨.port, .port, .zero, true, true, .steer, .i64, .rne, 0⟩),
      (0x0000100618A01274, .ldg ⟨.port, .zero, 3, true, true, .always, .u32, .b32, false, false⟩ 16),
      (0x0000100218A01274, .ldg ⟨.port, .zero, 3, true, false, .always, .u32, .b32, false, false⟩ 16),
      (0x000001062800000A, .loopgen ⟨.port, .port, .zero, true, true, .always, .i32⟩ 1),
      (0x0000000628A0000B, .next ⟨.port, .zero, .zero, true, true, .always, .i32, .rne, 0⟩),
      (0x000C040228E02038, .ext ⟨.port, .imm, .zero, true, false, .always, .i64, .rne, 0xC04⟩),
      (0x56789A0228A0313B, .constMid ⟨.port, .zero, .zero, true, false, .always, .u64⟩ 0x56789A),
      (0x0000002300006043, .fma ⟨.port, .port, .const 0, true, false, .always, .f32, .rz, 0⟩),
      (0x000000040002B371, .stl ⟨.zero, .port, 0, false, true, .always, .u64, .b64, false, false⟩ 0),
      (0x100008062800337B, .amog ⟨.port, .port, 5, true, true, .always, .u64, .b64, false, false⟩ .cas .port 8) ] = true := by decide

theorem test_spec_words_2 : decodesTo
    [ (0x04050202280000A3, .gathr ⟨.port, .port, .zero, true, false, .always, .i32, false, 4, 2, 5⟩ false),
      (0x010000A90491B0B5, .tmma ⟨.const 3, .const 4, 0, 2, 5, 1, 0, 0, true, false, .always, .f16⟩),
      (0x011000323C7150C0, .tscan ⟨.const 2, .const 3, 7, 4, 6, 0, 0, 8, true, false, .always, .f32⟩),
      (0x00000202280000D0, .semit ⟨.port, .port, .zero, true, false, .always, .i32⟩ 2),
      (0x0000100228A000D1, .smark ⟨.port, .zero, .zero, true, false, .always, .i32⟩ 0 1),
      (0x060504022C7101D8, .smopen ⟨.const 2, .const 3, .zero, true, false, .always, .i32, false, 6, 4, 5⟩ 1 0),
      (0x00000002280000D9, .smfeed ⟨.port, .port, .zero, true, false, .always, .i32, false, 0, 0, 0⟩),
      (0x0700030228A000E2, .umrank ⟨.port, .zero, .zero, true, false, .always, .i32, false, 7, 3, 0⟩),
      (0x0900000628A000E4, .umdirty ⟨.port, .zero, .zero, true, true, .always, .i32, false, 9, 0, 0⟩),
      (0x0000010228E03A90, .kadd ⟨.port, .imm, .zero, true, false, .always, .device, .release, 1⟩),
      (0x0000000628123791, .kwait ⟨.const 4, .port, .zero, true, true, .always, .system, .acquire, 0⟩),
      (0x0000010200E03A90, .kadd ⟨.port, .imm, .port, true, false, .always, .device, .release, 1⟩),
      (0x0000010628E03691, .kwait ⟨.port, .imm, .zero, true, true, .always, .device, .acquire, 1⟩),
      (0x0000070228A030F2, .syswr ⟨.port, .zero, .zero, true, false, .always, .u64⟩ 7),
      (0x0080050028A000F0, .trap ⟨.port, .zero, .zero, false, false, .always, .i32⟩ 0x8005),
      (0x0000000228A000F3, .hem ⟨.port, .zero, .zero, true, false, .always, .i32⟩) ] = true := by decide

/-- `trap a, #0x0005` and `syswr.u64 3, a` are refused (worked case 18.3), and `kwait` with `.rel` (worked case 16.1). -/
theorem test_spec_refused : decode 0x0000050028A000F0 = .error .parameter ∧ decode 0x0000030228A030F2 = .error .parameter ∧
    decode 0x0000000628123B91 = .error .subOperation := by decide


/-! Small states. -/

/-- A CLASS 0 token. -/
def tok (v : Word) : Token := ⟨0, .value, 0, 0, 0, 0, 0, ⟨0, 0, 0⟩, v⟩
/-- An operand. -/
def opnd (v : Word) : Held := ⟨tok v, 0, 0, false⟩
/-- A firing of slot 0 of station 0 of cluster 0 with three operands, one destination on each group: slots 1 and 2 of its station. -/
def fir (a b c : Word) : Firing :=
  { Firing.blank with a := some (opnd a), b := some (opnd b), c := some (opnd c), route := BitVec.ofNat 256 (2 ^ 96 + 4 + 2 ^ 224 + 8 * 2 ^ 128) }
/-- A live root instance of class 0 with two iterations. -/
def root : Instance := ⟨0, none, false, 0, none, [⟨.live, 0⟩, ⟨.free, 0⟩], none⟩
/-- Ranges 0 to 3: 4 KiB of L, N, G and W, each open to everything; L tracked. -/
def rng (sp : Space) (t : Bool) : Range := ⟨true, true, true, sp, 0x1000, 0, false, t, 0x1000⟩
/-- A pattern of one stage. -/
def pat : Pattern :=
  { part := 0, gen := 0, digest := 0, image := 0, imageLen := 0, isa := 1, fw := 1, fh := 1, fdies := 1, done := 0
    classes := [⟨2, none, 0⟩, ⟨2, some 0, 4⟩], entries := [⟨0, 0, 0, 0, 1, 0, 2⟩]
    swatches := [⟨.region, .l, 0x1000, 0, 0, 0, 0, 0, 256, 0⟩, ⟨.region, .l, 0x1400, 0, 0, 0, 0, 0, 256, 0⟩,
      ⟨.dense, .l, 0x1000, 0, 0, 5, 4, 4, 16, 0⟩, ⟨.dense, .l, 0x1800, 0, 0, 5, 4, 4, 16, 0⟩]
    ranges := [rng .l true, rng .n false, rng .g false, rng .w false], binds := [], knots := 2
    stages := [⟨none, [], [], [], [], []⟩], seams := [], matchcap := 256, seamGroup := 32, errata := [], warn := 0, released := false }
/-- A running launch on clusters 0 and 1 of die 0. -/
def lnch : Launch := { Launch.blank with st := .running, panel := ⟨[0], [[0, 1]], [], 0, 0⟩, insts := [(0, root)] }
/-- A machine with that launch, about to perform a firing. -/
def base (f : Firing) : State :=
  { cur := f, launches := [(0, lnch)], patterns := [(0, pat)], bringUp := 6, presented := true
    clusters := [(0, { Cluster.clear with owner := some 0 }), (1, { Cluster.clear with owner := some 0 })] }

/-- What a step sent on each group of station 0, and its cluster's flags. -/
def sent (o : Host.Outcome State Fault Refusal) : Option (List (BitVec 8 × TokClass × Word) × Exc) :=
  match o with
  | .next t => some (((t.station 0 0).outq.map fun x => (x.tok.slot, x.tok.cls, x.tok.payload)), (t.cluster 0).exc)
  | _ => none
/-- Whether a step sent exactly one token, with this slot, CLASS and PAYLOAD, and left these flags. -/
def sends (o : Host.Outcome State Fault Refusal) (slot : BitVec 8) (c : TokClass) (v : Word) (e : Exc := 0) : Bool :=
  decide (sent o = some ([(slot, c, v)], e))
/-- Whether a step sent one value on o0. -/
def gives (o : Host.Outcome State Fault Refusal) (v : Word) (e : Exc := 0) : Bool := sends o 1 .value v e
/-- A property of the next state. -/
def holds (o : Host.Outcome State Fault Refusal) (p : State → Bool) : Bool :=
  match o with
  | .next t => p t
  | _ => false
/-- The fault that a step recorded. -/
def faultOf (o : Host.Outcome State Fault Refusal) : Option (FaultKind × Word) :=
  match o with
  | .next t => (t.launch 0).faults.head?.map fun r => (r.kind, r.detail)
  | _ => none

/-- Format A's fields at a TY. -/
def fmA (t : Ty) (rm : RM := .rne) : FormA := ⟨.port, .port, .port, true, false, .always, t, rm, 0⟩
/-- Format X's fields at a TY. -/
def fmX (t : Ty) : FormX := ⟨.port, .port, .port, true, false, .always, t⟩
/-- Format M's fields. -/
def fmM (r : BitVec 6) (t : Ty) (w : Width) : FormM := ⟨.port, .port, r, true, true, .always, t, w, false, false⟩
/-- Format K's fields. -/
def fmK (o : Order) : FormK := ⟨.port, .port, .zero, true, true, .always, .device, o, 0⟩
/-- Format E's fields: swatches 0 and 1, no knot. -/
def fmE (w1 w2 : BitVec 8) : FormE := ⟨.port, .port, .zero, true, true, .always, .i32, true, 0, w1, w2⟩
/-- Format T's fields. -/
def fmT (t : Elem) : FormT := ⟨.port, .port, 1, 0, 2, 0, 0, 0, true, false, .always, t⟩


/-! Worked case 9.1. -/

theorem test_add : gives (exec (.add (fmA .i32)) (base (fir 0x7FFFFFFF 1 0))) 0xFFFFFFFF80000000 = true ∧
    gives (exec (.add (fmA .u32)) (base (fir 0x7FFFFFFF 1 0))) 0x0000000080000000 = true := by decide
theorem test_div : gives (exec (.div (fmA .i32)) (base (fir 0xFFFFFFF9 2 0))) 0xFFFFFFFFFFFFFFFD = true ∧
    gives (exec (.div (fmA .u32)) (base (fir 5 0 0))) 0x00000000FFFFFFFF excDIVZ = true ∧
    gives (exec (.div (fmA .i64)) (base (fir 0x8000000000000000 0xFFFFFFFFFFFFFFFF 0))) 0x8000000000000000 = true := by decide
theorem test_rem : gives (exec (.rem (fmA .i32)) (base (fir 0xFFFFFFF9 2 0))) 0xFFFFFFFFFFFFFFFF = true ∧
    gives (exec (.rem (fmA .u32)) (base (fir 5 0 0))) 5 excDIVZ = true := by decide
theorem test_mulh : gives (exec (.mulh (fmA .i32)) (base (fir 0x80000000 2 0))) 0xFFFFFFFFFFFFFFFF = true ∧
    gives (exec (.mulh (fmA .u32)) (base (fir 0x80000000 2 0))) 1 = true := by decide
theorem test_shifts : gives (exec (.shl (fmA .u32)) (base (fir 1 33 0))) 2 = true ∧
    gives (exec (.sra (fmA .i32)) (base (fir 0x80000000 4 0))) 0xFFFFFFFFF8000000 = true ∧
    gives (exec (.shr (fmA .i32)) (base (fir 0x80000000 4 0))) 0x08000000 = true ∧
    gives (exec (.rot (fmA .u32)) (base (fir 0x80000001 1 0))) 3 = true := by decide
theorem test_counts : gives (exec (.clz (fmA .u32)) (base (fir 0 0 0))) 32 = true ∧
    gives (exec (.ctz (fmA .u64)) (base (fir 0 0 0))) 64 = true := by decide
theorem test_abs : gives (exec (.abs (fmA .i32)) (base (fir 0x80000000 0 0))) 0xFFFFFFFF80000000 = true := by decide
theorem test_ext : gives (exec (.ext (fmA .i64)) (base (fir 0xFFFFFFFFFFFFABCD 0x0C04 0))) 0xFFFFFFFFFFFFFABC = true := by decide
theorem test_const : gives (exec (.constLo (fmX .u64) 0xBCDEF0) (base (fir 0 0 0))) 0xBCDEF0 = true ∧
    gives (exec (.constMid (fmX .u64) 0x56789A) (base (fir 0xBCDEF0 0 0))) 0x56789ABCDEF0 = true ∧
    gives (exec (.constHi (fmX .u64) 0x1234) (base (fir 0x56789ABCDEF0 0 0))) 0x123456789ABCDEF0 = true := by decide

/-! Worked case 9.2. -/

theorem test_fadd : gives (exec (.fadd (fmA .f32 .rd)) (base (fir 0 0x80000000 0))) 0x80000000 = true ∧
    gives (exec (.fadd (fmA .f32)) (base (fir 0 0x80000000 0))) 0 = true := by decide
theorem test_fsqrt : gives (exec (.fsqrt (fmA .f32)) (base (fir 0x80000000 0 0))) 0x80000000 = true := by decide
theorem test_fdiv : gives (exec (.fdiv (fmA .f32)) (base (fir 0x3F800000 0 0))) 0x7F800000 excDZ = true := by decide
theorem test_fmin : gives (exec (.fmin (fmA .f32)) (base (fir 0x7FC00000 0x3F800000 0))) 0x3F800000 = true ∧
    gives (exec (.fmin (fmA .f32)) (base (fir 0x7FA00000 0x3F800000 0))) 0x3F800000 excNV = true := by decide
theorem test_fcmp : gives (exec (.fcmp (fmA .f32) .lt) (base (fir 0x7FC00000 0x3F800000 0))) 0 excNV = true ∧
    gives (exec (.fcmp (fmA .f32) .eq) (base (fir 0x7FC00000 0x3F800000 0))) 0 = true := by decide
theorem test_fcvt : gives (exec (.fcvt (fmA .bf16) .f32) (base (fir 0x3F808000 0 0))) 0x3F80 excNX = true := by decide
theorem test_itof : gives (exec (.itof (fmA .f32) .u64) (base (fir 16777217 0 0))) 0x4B800000 excNX = true := by decide
theorem test_ftoi : gives (exec (.ftoi (fmA .f32) .i32) (base (fir 0x4F32D05E 0 0))) 0x7FFFFFFF excNV = true ∧
    gives (exec (.ftoi (fmA .f32) .i32) (base (fir 0x40200000 0 0))) 2 excNX = true := by decide
theorem test_fma : gives (exec (.fma (fmA .f32)) (base (fir 0 0x7F800000 0x7FC00000))) 0x7FC00000 excNV = true := by decide

/-! Worked case 10.3, and other single steps, by hand from the rules. -/

theorem test_wcal :
    gives (exec (.wcal ⟨.port, .zero, 3, true, false, .always, .u64, .b8, false, false⟩ 0)
      { base (fir 0x0C800000 0 0) with calendar := 10000, patterns := [(0, { pat with ranges := [rng .l true, rng .n false, rng .g false,
        { rng .w false with base := 0, len := 0x10000000 }] })] }) 0x0000062700010C8E = true ∧
    gives (exec (.wcal ⟨.port, .zero, 3, true, false, .always, .u64, .b8, false, false⟩ 0)
      { base (fir 0x01800000 0 0) with calendar := 10000, patterns := [(0, { pat with ranges := [rng .l true, rng .n false, rng .g false,
        { rng .w false with base := 0, len := 0x10000000 }] })] }) 0x080306270001879A = true := by decide

/-- R172: STEER sends SA's value on o0 when SB is not 0, and else on o1. -/
theorem test_steer : sends (exec (.steer (fmA .i32)) (base (fir 7 1 0))) 1 .value 7 = true ∧
    sends (exec (.steer (fmA .i32)) (base (fir 7 0 0))) 2 .value 7 = true := by decide
/-- R172: JOIN emits a completion; SINK nothing. -/
theorem test_join : sends (exec (.join (fmA .i32)) (base (fir 7 1 0))) 1 .completion 0 = true ∧
    sent (exec (.sink (fmA .i32)) (base (fir 7 1 0))) = some ([], 0) := by decide
/-- R173: the instance word has CLASS in bits 21:16 and the id in bits 9:0; id 0 is taken. -/
theorem test_balloc : sends (exec (.balloc (fmX .i32) 1) (base (fir 0 0 0))) 1 .value 0x10001 = true := by decide
/-- R176: with the next iteration not Live, NEXT parks. -/
theorem test_next : holds (exec (.next (fmA .i32)) (base (fir 5 0 0)))
    (fun t => decide ((t.launch 0).parked.map (·.why) = [.next])) = true := by decide
/-- R182: COMMIT emits a CLASS 4 token with its colour. -/
theorem test_commit : sends (exec (.commit (fmX .i32) 2) (base (fir 5 0 0))) 1 .commit 2 = true := by decide
/-- R171, R174: BFREE of an instance word of another class is TRAP 0x0101. -/
theorem test_bfree : faultOf (exec (.bfree (fmA .i32)) (base (fir 0x10000 0 0))) = some (.trap, 0x0101) := by decide
/-- R209: a store puts its bytes at the bank, lowest first; a load reads them back, extended under TY. -/
theorem test_stl :
    let q : Req := ⟨9, fir 0x1003 0 0, .store, .l, 0x1003, 2, 0, .i32, false, false, 0x98FE, 0, .issued, []⟩
    holds (exec (.memoryAccessPerformed 9) { base (fir 0 0 0) with reqs := [q] })
      (fun t => decide ((t.cluster 0).mem = [(0x1003, 0xFE), (0x1004, 0x98)] ∧ t.reqs = [])) = true := by decide
theorem test_ldl :
    let q : Req := ⟨9, fir 0x1003 0 0, .load, .l, 0x1003, 2, 0, .i32, false, false, 0, 0, .issued, []⟩
    holds (exec (.memoryAccessPerformed 9) { base (fir 0 0 0) with
        reqs := [q], clusters := [(0, { Cluster.clear with owner := some 0, mem := [(0x1003, 0xFE), (0x1004, 0x98)] })] })
      (fun t => decide ((t.cluster 0).arrivals.map (fun a => a.out.tok.payload) = [0xFFFFFFFFFFFF98FE, 0])) = true := by decide
/-- R222: outside the range PROTECT, off alignment ALIGN. -/
theorem test_ldl_faults : faultOf (exec (.ldl (fmM 0 .u64 .b64) 0) (base (fir 0x0FF8 0 0))) = some (.protect, 0) ∧
    faultOf (exec (.ldl (fmM 0 .u64 .b64) 0) (base (fir 0x1004 0 0))) = some (.align, 0) := by decide
/-- R230: an atomic add answers the old value and leaves the sum. -/
theorem test_amol :
    let q : Req := ⟨9, fir 0x1000 0 0, .amo .add, .l, 0x1000, 4, 0, .u32, false, false, 1, 0, .issued, []⟩
    holds (exec (.memoryAccessPerformed 9) { base (fir 0 0 0) with
        reqs := [q], clusters := [(0, { Cluster.clear with owner := some 0, mem := [(0x1000, 0xFF), (0x1001, 0xFF), (0x1002, 0xFF), (0x1003, 0xFF)] })] })
      (fun t => decide ((t.cluster 0).mem = [] ∧ (t.cluster 0).arrivals.map (fun a => a.out.tok.payload) = [0xFFFFFFFF, 0])) = true := by decide
/-- R338: an add at its limit is made, and past it faults. -/
theorem test_kadd :
    let q := fun (n : Word) => (⟨9, fir 0 0 0, handleOf 0 5, .add n none, false, none, 0⟩ : KReq)
    let s := { base (fir 0 0 0) with knots := [(5, { Knot.blank with owner := .standing, value := 3, limit := 5 })] }
    holds (exec (.knotBankApply 9) { s with kreqs := [q 2] }) (fun t => decide ((t.knot 5).value = 5)) = true ∧
    faultOf (exec (.knotBankApply 9) { s with kreqs := [q 3] }) = some (.knotLimit, handleOf 0 5) := by decide
/-- R385: FLAG ORs the launch's user flags and passes SA's value. -/
theorem test_flag : holds (exec (.flag (fmX .i32) 0x8001) (base (fir 5 0 0)))
    (fun t => decide ((t.launch 0).user = 0x8001 ∧ (t.station 0 0).outq.map (fun x => x.tok.payload) = [5])) = true := by decide
/-- R385: SYSWR writes a constant register of its station and sets its modified bit. -/
theorem test_syswr : holds (exec (.syswr (fmX .u64) 0x11F) (base (fir 0xABCD 0 0)))
    (fun t => decide ((t.station 0 0).consts = [(31, 0xABCD)] ∧ (t.station 0 0).modified = 0x80000000)) = true := by decide
/-- R385: TRAP's detail is its code, its address SA's value. -/
theorem test_trap : faultOf (exec (.trap (fmX .i32) 0x8123) (base (fir 7 0 0))) = some (.trap, 0x8123) := by decide
/-- R411: six steps of bring-up from reset present the functions. -/
theorem test_bringUp : holds (exec .bringUp { State.reset with bringUp := 5 }) (fun t => t.presented && decide (t.bringUp = 6)) = true := by decide
/-- R12: the stamp counter wraps. -/
theorem test_stamp : holds (exec .stampCounterTick { State.reset with stamp := 0xFFFF }) (fun t => decide (t.stamp = 0)) = true := by decide

/-- R230: an atomic add of 8 bytes under u32 reads the memory value under u32, too. -/
theorem test_amol_wide :
    let q : Req := ⟨9, fir 0x1000 0 0, .amo .add, .l, 0x1000, 8, 0, .u32, false, false, 1, 0, .issued, []⟩
    holds (exec (.memoryAccessPerformed 9) { base (fir 0 0 0) with
        reqs := [q], clusters := [(0, { Cluster.clear with owner := some 0, mem := [(0x1004, 0xFF)] })] })
      (fun t => decide ((t.cluster 0).mem = [(0x1000, 1)])) = true := by decide
/-- R183: a PHWAIT that has found its phase closed emits what it holds. -/
theorem test_phwait : holds ((Pick.again 0 ⟨3, { fir 7 0 0 with word := 0x0000050228A00012 }, .phdone, 0⟩).run (base Firing.blank))
    (fun t => decide ((t.station 0 0).outq.map (fun x => x.tok.payload) = [7])) = true := by decide

/-! The host's probe: a word placed where the next step fetches runs as the first instruction after reset. -/

theorem test_withFetchWord : holds (step (State.reset.withFetchWord 64 0x0000050228E00020))
    (fun t => decide ((t.station 0 0).outq.map (fun x => x.tok.payload) = [5])) = true := by decide
theorem test_decodeTableWord : decodeTableWord 64 0x0000000228A000F3 = some (.hem fx) ∧ decodeTableWord 64 0 = none := by decide


/-! For each statement with hypotheses, states and operands that meet them, clause by clause. -/

theorem base_plain (a b c : Word) : (base (fir a b c)).RunsPlain .always := ⟨⟨rfl, rfl, rfl⟩, rfl⟩
theorem base_runs (a b c : Word) : (base (fir a b c)).Runs .always := (base_plain a b c).1

/-- A firing of an add, with its word. -/
def addFir : Firing := { fir 1 2 0 with word := 0x0000050228E00020 }

theorem witness_StepRunsAgenda :
    ({ base addFir with agenda := [.perform addFir, .event .bringUp] } : State).agenda = .perform addFir :: [.event .bringUp] ∧
    decode addFir.word = .ok (.add ⟨.port, .imm, .zero, true, false, .always, .i32, .rne, 5⟩) ∧
    ({ base addFir with agenda := [.event .bringUp] } : State).agenda = .event .bringUp :: [] := by decide

/-- A station with one operand delivered for an add that reads port a. -/
def readySt : Station := { Station.clear with
  occ := 1, words := [(0, 0x0000050228E00020)], routes := [(0, BitVec.ofNat 256 (2 ^ 96 + 4))], table := [opnd 7], arrseq := 1 }
/-- A machine that can choose that firing. -/
def readyState : State := { base Firing.blank with
  nCycle := 2, clusters := [(0, { Cluster.clear with owner := some 0, stations := [(0, readySt)] }), (1, { Cluster.clear with owner := some 0 })] }

theorem witness_StepRunsDecodedChoice :
    (State.reset.agenda = [] ∧ State.reset.picks ≠ []) ∧ readyState.agenda = [] ∧
    (readyState.picks.any fun p => match p with | .fire f => (decode f.word).isOk | _ => false) = true := by decide

theorem witness_DecodeEncode : (Instr.add fa).WellFormed ∧ (Instr.flag fx 0xFFFF).WellFormed := by decide
theorem witness_EncodeDecode : (decode 0x0000050228E00020).isOk = true ∧ (decode 0x0000000228A000F3).isOk = true := by decide
theorem witness_OpcodesOfTheTable : (decode 0x0000000228A00001).isOk = true ∧ (decode 0x0080010228A000F8).isOk = true := by decide

/-- A firing whose operands carry colours. -/
def colFir (ca cb : BitVec 2) : Firing :=
  let c := fun (k : BitVec 2) => (⟨{ tok 0 with colour := k }, 0, 0, false⟩ : Held)
  let f := { fir 1 2 0 with a := some (c ca), b := some (c cb) }
  { f with colour := f.colourOf }

theorem witness_FiringGuards :
    (Instr.add fa).view.isSome = true ∧ (look (base (colFir 1 2)).launches 0).isSome = true ∧ (base (colFir 1 2)).cur.mixes = true ∧
    (base (colFir 3 3)).cur.mixes = false ∧ (base { fir 1 2 0 with p := some (opnd 0) }).cur.passes .ifTrue = false ∧
    (base { fir 1 2 0 with p := some (opnd 5) }).cur.passes .ifFalse = false := by decide

theorem witness_FiringOutcomes : heldWhole (.stg (fmM 2 .u64 .b64) 0) = true ∧ (base (colFir 3 0)).Runs .always ∧
    (base (colFir 3 0)).cur.colour ≠ 0 := ⟨rfl, ⟨rfl, rfl, rfl⟩, by decide⟩

theorem witness_EmissionEntersOutputQueue : ((fir 1 2 3).carry .value 5).colour = 0 ∧
    3 < (routeGroup (BitVec.ofNat 256 (4 * 2 ^ 96)) false).length ∧ 0 < (routeGroup (fir 1 2 3).route true).length := by decide

theorem witness_ScalarFrame : (base (fir 1 2 3)).cur.colour = 0 ∧ (base (colFir 1 0)).cur.colour ≠ 0 := by decide

theorem witness_IntegerResults : (fmA .i32).ty.isInt = true ∧ (base (fir 1 2 3)).Runs (fmA .i32).pm ∧ isSigned (fmA .i64).ty = true :=
  ⟨rfl, base_runs 1 2 3, rfl⟩
theorem witness_ShiftResults : (fmA .u32).ty.isInt = true ∧ (base (fir 1 63 3)).Runs (fmA .u32).pm := ⟨rfl, base_runs _ _ _⟩
theorem witness_BitCountResults : (fmA .u64).ty.isInt = true ∧ (base (fir 0 0 0)).Runs (fmA .u64).pm := ⟨rfl, base_runs _ _ _⟩
theorem witness_DivideAndCompareResults :
    ((fmA .i32).ty.isInt = true ∧ (base (fir 5 0 0)).Runs (fmA .i32).pm ∧
      (fmA .i32).ty.bits ((base (fir 5 0x100000000 0)).opB (fir 5 0x100000000 0) (fmA .i32)) = 0) ∧
    ((fmA .i32).ty.bits ((base (fir 0x80000000 0xFFFFFFFF 0)).opA (fir 0x80000000 0xFFFFFFFF 0) (fmA .i32)) = BitVec.intMin _ ∧
      (fmA .i32).ty.bits ((base (fir 0x80000000 0xFFFFFFFF 0)).opB (fir 0x80000000 0xFFFFFFFF 0) (fmA .i32)) = BitVec.allOnes _) :=
  ⟨⟨rfl, base_runs _ _ _, by decide⟩, by decide⟩
theorem witness_FieldResults : (fmA .i32).ty.isInt = true ∧ (base (fir 1 0x3F 0x7F3F)).Runs (fmA .i32).pm := ⟨rfl, base_runs _ _ _⟩
theorem witness_AddressConstantResults : (fmA .u32).ty.isInt = true ∧ (base (fir 1 2 0)).Runs (fmA .u32).pm ∧
    (base (fir 1 2 0)).Runs (fmX .f64).pm ∧ (fmX .f64).ty.width = 64 := ⟨rfl, base_runs _ _ _, base_runs _ _ _, rfl⟩
theorem witness_FloatResults : (fmA .f16).ty.isFloat = true ∧ (base (fir 1 2 0)).Runs (fmA .f16).pm := ⟨rfl, base_runs _ _ _⟩
theorem witness_ConversionResults : (fmA .f64).ty.isFloat = true ∧ (base (fir 1 2 0)).Runs (fmA .f64).pm := ⟨rfl, base_runs _ _ _⟩
theorem witness_RoundingAndSpecialCases : (0 : Int) < 1 ∧ fp16 ∈ [fp16, bf16, fp32, fp64] ∧ fp64 ∈ [fp16, bf16, fp32, fp64] ∧
    (1 : Nat) ≠ 0 := by decide
theorem witness_FloatComparisons :
    (fp16 ∈ [fp16, bf16, fp32, fp64] ∧ 0x7E00 < 2 ^ fp16.width ∧ (fp16.decode 0x7E00).isNan = true) ∧
    ((fp16.decode 0x3C00).isNan = false ∧ (fp16.decode 0xFC00) = .inf true) ∧
    (ltVals (fp16.decode 0x3C00) (fp16.decode 0x4000) = true) ∧
    ((fp16.decode 0x8000).isZero = true ∧ (fp16.decode 0x8000).neg = true ∧ (fp16.decode 0).isZero = true ∧ (fp16.decode 0).neg = false) := by
  decide

theorem witness_MovingAndSteering : (base (fir 1 2 3)).Runs (fmA .i32).pm ∧ (fmA .i32).sa = .port ∧ (base (fir 1 2 3)).cur.a = some (opnd 1) ∧
    ({ fmA .i32 with sa := .iter } : FormA).sa ≠ .port := ⟨base_runs _ _ _, rfl, rfl, by decide⟩

/-- A state whose launch is changed. -/
def withL (s : State) (g : Launch → Launch) : State := s.onLaunch 0 g

theorem witness_BallocAllocates :
    (base (fir 1 2 3)).RunsPlain (fmX .i32).pm ∧
    ((base (fir 1 2 3)).classOf 0 1 = some ⟨2, some 0, 4⟩ ∧ look ((base (fir 1 2 3)).launch 0).insts 0 = some root ∧ root.cls = 0 ∧
      ((base (fir 1 2 3)).launch 0).freeId = some 1 ∧ ((base (fir 1 2 3)).launch 0).fanHeld 1 0 0 < 4) ∧
    ((base (fir 1 2 3)).classOf 0 0 = some ⟨2, none, 0⟩) ∧
    (let s := { base (fir 1 2 3) with patterns := [(0, { pat with classes := [⟨2, none, 0⟩, ⟨2, some 0, 0⟩] })] }
     s.classOf 0 1 = some ⟨2, some 0, 0⟩ ∧ 0 ≤ (s.launch 0).fanHeld 1 0 0) := ⟨base_plain _ _ _, by decide, by decide, by decide⟩

theorem witness_BobbinInstructions :
    (base (fir 0 0 0)).RunsPlain (fmA .i32).pm ∧ (base (fir 0 0 0)).RunsPlain (fmX .i32).pm ∧
    (look ((base (fir 0 0 0)).launch 0).insts 0 = some root ∧ root.cls = 0) ∧
    ((base (fir 0 0 0)).launch 0).named 0 = some root ∧ ((base (fir 0 0 0)).launch 0).named 0x10000 = none ∧
    (root.iter 0).st ≠ .free ∧ ((base (fir 0 0 0)).launch 0).holdsIter 0 0 = true ∧
    ((base (fir 0 0 0)).launch 0).holdsIter 0 1 = false :=
  ⟨base_plain _ _ _, base_plain _ _ _, by decide, by decide, by decide, by decide, by decide, by decide⟩

theorem witness_NextAndCall :
    (base (fir 0 0 0)).RunsPlain (fmA .i32).pm ∧ look ((base (fir 0 0 0)).launch 0).insts 0 = some root ∧
    ({ root with endMark := some 0 } : Instance).endMark = some (root.iter 0).num ∧
    (root.endMark ≠ some (root.iter 0).num ∧ (root.iter 1).st ≠ .live) ∧
    (let i := { root with iters := [⟨.live, 0⟩, ⟨.live, 1⟩] }
     i.endMark ≠ some (i.iter 0).num ∧ (i.iter 1).st = .live ∧ (i.iter 1).num = (i.iter 0).num + 1) ∧
    ((base (fir 0 0 0)).pattern 0 = some pat ∧ routeGroup (fir 0 0 0).route false = [.slot 0 0 1 0] ∧ entryOf pat 0 (.slot 0 0 1 0) = some 0 ∧
      ((base (fir 0 0 0)).launch 0).mayEnter pat 0 = true ∧ ((base (fir 0 0 0)).launch 0).freeId = some 1 ∧
      nth pat.entries 0 = some ⟨0, 0, 0, 0, 1, 0, 2⟩ ∧ nth pat.classes 0 = some ⟨2, none, 0⟩ ∧ (0 : Nat) < 2) ∧
    ((base (fir 0 0 0)).launch 0).mayEnter { pat with entries := [⟨0, 0, 0, 0, 1, 0, 0⟩] } 0 = false :=
  ⟨base_plain _ _ _, by decide, by decide, by decide, by decide, by decide, by decide⟩

theorem witness_SpeculationAndPhases :
    (base (fir 0 0 0)).Runs (fmX .i32).pm ∧ (base (colFir 1 0)).Runs (fmX .i32).pm ∧
    ((base (fir 0 0 0)).cur.colour = 0 ∧ ((base (fir 0 0 0)).launch 0).usesColour ⟨0, 0, 0⟩ 3 = false) ∧
    ((withL (base (fir 0 0 0)) fun y => { y with colours := [⟨0, 0, 3, []⟩] }).launch 0).usesColour ⟨0, 0, 0⟩ 3 = true ∧
    (base (colFir 1 0)).cur.colour ≠ 0 ∧ (base (fir 7 0 0)).cur.a = some (opnd 7) :=
  ⟨base_runs _ _ _, ⟨rfl, rfl, rfl⟩, by decide, by decide, by decide, by decide⟩

/-- A state whose cluster 0 is changed. -/
def withC (s : State) (g : Cluster → Cluster) : State := s.onCluster 0 g

theorem witness_LaunchLevelInstructions :
    (base (fir 0 0 0)).RunsPlain (fmX .i32).pm ∧ (((base (fir 0 0 0)).cluster 0).arbiter 7).fifo.length < 256 ∧
    256 ≤ (((withC (base (fir 0 0 0)) fun c => c.setArbiter 7 ⟨none, List.replicate 256 (5, fir 0 0 0), 0⟩).cluster 0).arbiter 7).fifo.length ∧
    (((withC (base (fir 0 0 0)) fun c => c.setArbiter 7 ⟨some (5, fir 0 0 0), [], 0⟩).cluster 0).arbiter 7).holder = some (5, fir 0 0 0) ∧
    (((base (fir 0 0 0)).cluster 0).arbiter 7).holder = none :=
  ⟨base_plain _ _ _, by decide, by decide +kernel, by decide, by decide⟩

theorem witness_FaultParksAndRecords : look (base (fir 0 0 0)).launches 0 = some lnch ∧ FaultKind.align ≠ .translate := by decide

theorem witness_MemoryIssue :
    (base (fir 0x1000 2 3)).RunsPlain (fmM 0 .u64 .b64).pm ∧ (base (fir 0x1000 2 3)).pattern 0 = some pat ∧
    (∀ n : Fin 4, (nth pat.ranges n.val).isSome = true) ∧
    ((rng .g false).base ≤ 0x1FF8 ∧ 0x1FF8 + 8 ≤ (rng .g false).base + (rng .g false).len ∧ (rng .g false).grants .load = true ∧
      (rng .g false).grants .store = true ∧ (rng .g false).grants (.amo .cas) = true ∧ (rng .g false).grants (.upd .faddNd) = true ∧
      (rng .g false).space = .g ∧ 0x1FF8 % 8 = 0) ∧
    ((rng .l true).grants .feclr = true ∧ (base (fir 0x1000 2 3)).tracked 0 0 (lineOf 0x1000) = true) ∧
    (¬ ((rng .g false).base ≤ 0xFF8)) ∧ (¬ (0x1FFC + 8 ≤ (rng .g false).base + (rng .g false).len)) ∧ 0x1004 % 8 ≠ 0 :=
  ⟨base_plain _ _ _, by decide, by decide, by decide, by decide, by decide, by decide, by decide⟩

theorem witness_WeightCalendar :
    (base (fir 0x1000 0 0)).Runs (fmM 3 .u64 .b8).pm ∧ (base (fir 0x1000 0 0)).pattern 0 = some pat ∧ nth pat.ranges 3 = some (rng .w false) ∧
    (rng .w false).space = .w ∧ (rng .w false).rd = true ∧ (rng .w false).base ≤ 0x1000 ∧ 0x1FFF + 1 ≤ (rng .w false).base + (rng .w false).len ∧
    ({ base (fir 0x1000 0 0) with calendar := 100799 } : State).calendar < 100800 ∧ (base (fir 0x1000 0 0)).refreshing 0 = true :=
  ⟨base_runs _ _ _, by decide, by decide, by decide, by decide, by decide, by decide, by decide, by decide⟩

theorem witness_AtomicsAndExtension : Ty.u32.isInt = true ∧ 32 ≤ Ty.u32.width ∧ 8 * 4 ≤ Ty.f32.width ∧ 8 * 8 ≤ Ty.i64.width := by decide

/-- A request at its bank. -/
def bankReq (k : AccKind) : Req := ⟨9, fir 0x1000 0 0, k, .l, 0x1000, 8, 0, .u64, false, false, 5, 0, .issued, []⟩

theorem witness_BankPerforms :
    (∀ k ∈ [AccKind.load, .store, .feclr, .feset, .amo .add, .upd .add],
      ({ base (fir 0 0 0) with reqs := [bankReq k] } : State).req 9 = some (bankReq k)) ∧
    (bankReq .load).at_ = .issued ∧ ((bankReq .load).space = .l ∧ ((0, 0x1000) : Nat × Nat) = ((bankReq .load).firing.cl, (bankReq .load).addr)) ∧
    (base (fir 0 0 0)).launch 0 = lnch ∧ (lnch.panel.place 0x40000).isSome = true ∧
    ((withC (base (fir 0 0 0)) fun c => { c with empty := [(32, true)] }).cluster 0).lineEmpty 32 = true := by
  refine ⟨by decide, rfl, ⟨rfl, rfl⟩, by decide, by decide, by decide⟩

theorem witness_WritesChangeTheirBytes : ((base (fir 0 0 0)).part 0).dirty.getLsbD 0 = false ∧
    (∀ a, Place1.hbm 0x1000 = .hbm a → a / 64 < 0x2000 / 64 ∨ (0x2000 + 8 + 63) / 64 ≤ a / 64) := by
  refine ⟨by decide, fun a h => ?_⟩
  cases h; decide


/-- The tables of an address space that maps its first 1 GiB to HBM address 0, readable, writable and executable. -/
def tables : List Host.Cell := [(0, 1), (2, 2), (0x20000, 0xDF)]
/-- A machine with those tables. -/
def gbase (f : Firing) : State := { base f with hbm := tables }
/-- A request for G. -/
def gReq (k : AccKind) (at_ : ReqAt) : Req := ⟨9, fir 0x1000 0 0, k, .g, 0x1000, 8, 2, .u64, false, false, 5, 0, at_, []⟩
/-- A machine with one request. -/
def withQ (s : State) (q : Req) : State := { s with reqs := [q] }

theorem witness_GlobalMemorySteps :
    (∀ k ∈ [AccKind.store, .amo .swap, .upd .add],
      let q := gReq k (.placed (.hbm 0x1000 0))
      (withQ (gbase (fir 0 0 0)) q).req 9 = some q ∧ (withQ (gbase (fir 0 0 0)) q).stackHeld 0x1000 = false ∧
      (withQ (gbase (fir 0 0 0)) q).reqs.filter ((withQ (gbase (fir 0 0 0)) q).mergeable q) = []) ∧
    (let q := gReq .load .issued
     q.at_ = .issued ∧ q.space = .g ∧ ((withQ (base (fir 0 0 0)) q).walk 0 q.addr).1 = .bad ∧
     (({ withQ (base (fir 0 0 0)) q with parts := [(0, { Partition.blank with tkey := 5 })] } : State).walk 0 q.addr).1 = .badKey 5 ∧
     ((withQ (gbase (fir 0 0 0)) q).walk 0 q.addr).1 = .leaf 0x20000 0xDF 0 (2 ^ 30) ∧
     (withQ (gbase (fir 0 0 0)) q).checkLeaf 0 0xDF ((withQ (gbase (fir 0 0 0)) q).needOf q) = none ∧
     (withQ (gbase (fir 0 0 0)) q).checkLeaf 0 0xD1 ((withQ (gbase (fir 0 0 0)) q).needOf q) = some (.protect, 0)) ∧
    (let q := gReq .load .issued
     (withC (withQ (gbase (fir 0 0 0)) q) fun c => { c with tcache := [⟨0, 0, 2 ^ 30, 0xDF⟩] }).cached q = some ⟨0, 0, 2 ^ 30, 0xDF⟩) ∧
    ((gReq .load (.placed (.hbm 0x1000 0))).kind = .load ∧ (gbase (fir 0 0 0)).poisoned 0x1000 8 = false) ∧
    (gReq .store (.placed (.host 0x1000 0))).at_ = .placed (.host 0x1000 0) := by
  refine ⟨by decide, by decide, by decide, by decide, rfl⟩

theorem witness_MemoryWakes :
    (((withL (base (fir 0 0 0)) fun y => { y with parked := [⟨3, fir 0 0 0, .line 0 32, 0⟩] }).cluster 0).lineEmpty 32 = false ∧
      ((base (fir 0 0 0)).cluster 0).owner = some 0 ∧ ((base (fir 0 0 0)).launch 0).st = .running) ∧
    ((withC (base (fir 0 0 0)) fun c => { c with empty := [(32, true)] }).cluster 0).lineEmpty 32 = true ∧
    (let q : Req := ⟨9, fir 0 0 0, .load, .w, 0x13FFFFF8, 8, 3, .u64, false, false, 0, 0, .issued, []⟩
     (withQ (base (fir 0 0 0)) q).reqs = [q] ∧ q.space = .w ∧ q.addr / 2 ^ 28 = 1 ∧ q.addr % 2 ^ 28 / 2 ^ 22 = 15 ∧
     (withQ (base (fir 0 0 0)) q).refreshing 15 = false ∧ (withQ (base (fir 0 0 0)) q).poisoned (weightMark q.addr) q.bytes = false) := by
  refine ⟨by decide, by decide, by decide⟩

theorem witness_KnotRequests :
    (base (fir 0 0 0)).Runs (fmK .release).pm ∧ (base (fir 0 0 0)).cur.colour = 0 ∧ (1 : Word).toNat % 128 ≠ 0 ∧
    (0x1000 : Word).toNat % 128 = 0 ∧ (0x1000 : Word).toNat < 2 ^ 57 ∧
    (match ((gbase (fir 0 0 0)).gRead ((gbase (fir 0 0 0)).clientOf (fir 0 0 0)) 0x1000 128 Need.read).1 with
      | .ok bs => decide (bs.length = 128) | .error _ => false) = true :=
  ⟨base_runs _ _ _, by decide, by decide, by decide, by decide, by decide +kernel⟩

/-- A standing knot of partition 0. -/
def standing (v l : Word) : Knot := { Knot.blank with owner := .standing, value := v, limit := l }
/-- A knot request. -/
def kq (op : KnotOp) (rel : Bool) : KReq := ⟨9, fir 0 0 0, handleOf 0 5, op, rel, if rel then some [] else none, 0⟩
/-- A machine with knot 5 and one request. -/
def kst (k : Knot) (q : KReq) : State := { base (fir 0 0 0) with knots := [(5, k)], kreqs := [q] }
/-- A block for KARM: a fill of 4 bytes for partition 0. -/
def block : List Word := [2, 0, 0x1000, 0x0002000004000000, 0, 0, 0x8000000000000000, 0, 0, 0, 0, 0, 0, 0, 0, 0]

theorem witness_KnotBankApplies :
    ((standing 3 5).limit ≠ 0 ∧ (base (fir 0 0 0)).knot 5 = Knot.blank ∧ (kst (standing 3 5) (kq .read false)).knot 5 = standing 3 5 ∧
      5 < 3 + 3 ∧ 3 + 2 ≤ 5) ∧
    (let q := kq (.add 2 none) true
     (kst (standing 3 5) q).kreqs.find? (fun p => decide (p.id = 9)) = some q ∧ (kst (standing 3 5) q).behind q = false ∧
     (kst (standing 3 5) q).allPerformed 0 (q.captured.getD []) = true ∧ (kst (standing 3 5) q).reaches 0 q.handle = true ∧
     (kst Knot.blank q).reaches 0 q.handle = false) ∧
    ((kst (standing 3 5) (kq (.add 3 none) false)).knotAdd 5 3 none = none ∧
      ((kst (standing 3 5) (kq (.add 3 none) false)).knotAdd 5 2 none).isSome = true) ∧
    ((standing 3 5).value.toNat ≤ 3 ∧ (standing 3 5).value.toNat < 4 ∧ (standing 0 0).value = 0 ∧ (standing 3 5).value ≠ 0) ∧
    (let s := { base (fir 0 0 0) with launches := [(0, { lnch with poolOut := [1] })] }
     s.poolIndex 0 (handleOf 0 (1 * 2 ^ 12)) = some 1 ∧ 1 ∈ (s.launch 0).poolOut ∧ s.poolIndex 0 (handleOf 0 0) = some 0 ∧
       0 ∉ (s.launch 0).poolOut) ∧
    (triggerBlockOk block 0 = true ∧ triggerBlockOk (block.set 15 1) 0 = false ∧ (standing 0 0).armed = false) ∧
    ((countFrom 0 2).find? (fun j => decide (j ∉ lnch.poolTaken ∧ j ∉ lnch.poolOut)) = some 0 ∧
      (countFrom 0 2).find? (fun j => decide (j ∉ [0, 1] ∧ j ∉ lnch.poolOut)) = none) := by
  refine ⟨by decide, by decide, by decide, by decide, by decide, by decide, by decide⟩

theorem witness_freeRecord : freeRecord ([] : List Trigger) = some 0 := by decide +kernel

/-- A parked KWAIT of knot 5. -/
def waiter (t : Nat) (dir : Bool) : Parked := ⟨3, fir 0 0 0, .kwait 5 t dir, 0⟩
/-- A packet of a fill of 4 bytes for partition 0, without a knot. -/
def fillPk : List Word := [2, 0, 0x1000, 0x0002000004000000, 0, 0, 0x8000000000000000, 0]

theorem witness_WaitersTriggersAndWindow :
    (let s := { withC (withL (kst (standing 4 5) (kq .read false)) fun y => { y with parked := [waiter 4 true] }) (fun c =>
        { c with dir := [⟨5, 0, 4, some (4, 0)⟩] }) with kreqs := [] }
     (s.cluster (5 / 2 ^ 12)).dir = [⟨5, 0, 4, some (4, 0)⟩] ∧ s.waitersAt 0 5 = [(0, waiter 4 true, 4)] ∧
     (s.releaseWaiter 0 (waiter 4 true) 5 4 0).waitersAt 0 5 = [] ∧ 4 ≤ (4 : Word).toNat) ∧
    (({ withC (base (fir 0 0 0)) fun c => { c with dir := [⟨5, 0, 4, none⟩] } with kreqs := [] } : State).cluster 0).dir.find?
        (fun d => decide (d.knot = 5 ∧ d.cl = 0)) = some ⟨5, 0, 4, none⟩ ∧
    (let s := withL (base (fir 0 0 0)) fun y => { y with parked := [waiter 4 false] }
     (s.launch 0).parked.find? (fun w => decide (w.id = 3)) = some (waiter 4 false) ∧ 5 < 2 ^ 64) ∧
    (let t : Trigger := ⟨0, 5, 0, fillPk, 0, none, some 0⟩
     let s := withC (base (fir 0 0 0)) fun c => { c with fired := [t] }
     (s.cluster 0).fired = [t] ∧ t.queue = 0 ∧ (s.popFired 0).packetError 0 t.owner fillPk = none) ∧
    (let t : Trigger := ⟨0, 5, 0, fillPk, 0x1000, none, none⟩
     t.queue ≠ 0 ∧ enabledIn ((base (fir 0 0 0)).part 0).lq 0x1000 = false ∧ enabledIn ((base (fir 0 0 0)).part 0).cq 0x1000 = false) ∧
    ((kst (standing 3 5) (kq .read false)).isStanding 0 (handleOf 0 (160 / 2 ^ 24 % 4 * 2 ^ 19 + 160 / 2 ^ 17 % 128 * 2 ^ 12 + 160 / 32 % 4096))
        = true ∧ 160 % 32 = 0 ∧ 176 % 32 = 16 ∧ 184 % 8 = 0 ∧
      ((kst (standing 3 5) (kq .read false)).meterPart 0 0 15 1).knotAdd 5 3 none = none ∧
      (((kst (standing 3 5) (kq .read false)).meterPart 0 0 15 1).knotAdd 5 2 none).isSome = true) ∧
    (base (fir 0 0 0)).isStanding 0 (handleOf 0 5) = false := by
  refine ⟨by decide, by decide, by decide, by decide, by decide, by decide, by decide⟩

theorem witness_CopyCommandsEnter :
    (base (fir 0 0 0)).RunsPlain (fmE 0 1).pm ∧
    (let s := { base (fir 0 0 0) with cur := { fir 0 0 0 with c := some (opnd Machine.noKnot) } }
     badHandle (s.cur.knotOf (fmE 0 1)) = false ∧ (s.swatch 0 1).space ≠ .w ∧
     ((s.swatch 0 0).kind = .region ∧ 255 < (s.swatch 0 0).length ∧ 255 + (s.swatch 0 0).length - 255 ≤ (s.swatch 0 1).length) ∧
     ((s.swatch 0 2).kind ≠ .region ∧ 0 + 4 ≤ (s.swatch 0 2).rows ∧ 0 + 4 ≤ (s.swatch 0 3).rows ∧ 0x1000 + 4 * 4 ≤ 2 ^ 20 ∧
       (s.swatch 0 2).yb = false ∧ 0 + (s.swatch 0 2).cols ≤ (s.swatch 0 3).cols)) ∧
    (let s := { base (fir 0 0 0) with cur := { fir 0 0 0 with consts := [(0, 0x8000000)] } }
     badHandle (s.cur.knotOf { fmE 0 1 with kv := false }) = true) ∧
    ((base (fir 0 0 0)).swatch 0 3).rows < 5 ∧ 2 ^ 20 < 0xFFFFC + 4 * 2 ∧
    (let s := { base (fir 0 0 0) with patterns := [(0, { pat with swatches := [⟨.dense, .w, 0, 3, 0, 5, 4, 4, 16, 0⟩] })] }
     (s.swatch 0 0).space = .w) :=
  ⟨base_plain _ _ _, by decide, by decide, by decide, by decide, by decide⟩

theorem witness_SpawnCommandsEnter :
    (base (fir 0 0x10000 0)).RunsPlain (fmE 0 0).pm ∧
    badHandle ((base (fir 0 0 Machine.noKnot)).cur.knotOf { fmE 0 0 with sc := .port }) = false ∧
    (let s := { base (fir 0x20000 0x10000 Machine.noKnot) with parts := [(0, { Partition.blank with lq := [(15, 0x10001)], cq := [(0, 0x20001)] })] }
     (∃ e ∈ (s.part 0).lq, e.2.getLsbD 0 = true ∧ e.2.toNat / 64 * 64 = (s.opEB s.cur (fmE 0 0)).toNat) ∧
     (∃ e ∈ (s.part 0).cq, e.2.getLsbD 0 = true ∧ e.2.toNat / 64 * 64 = (s.opEA s.cur (fmE 0 0)).toNat)) ∧
    (∀ e ∈ ((base (fir 0 0 0)).part 0).lq, e.2.getLsbD 0 = true → e.2.toNat / 64 * 64 ≠ 0) :=
  ⟨base_plain _ _ _, by decide, by decide, by decide⟩

/-- A packet of the copy engine that it has performed. -/
def donePk : CopyPk := { packetOf 4 ⟨some 0, 0, 0, true⟩ none fillPk with firing := some (fir 0 0 0), token := true, run := 1 }
/-- A machine with a copy queue at VA 0x10000 whose first packet is published. -/
def cqState : State := { base (fir 0 0 0) with
  knots := [(5, standing 1 0)]
  hbm := tables ++ [(0x20000 + 0x20000, 2), (0x20000 + 0x20007, 0x80), (0x20000 + 0x20011, 0x10), (0x20000 + 0x2001B, 4), (0x20000 + 0x2001E, 2),
    (0x20000 + 0x20037, 0x80)]
  parts := [(0, { Partition.blank with enable := true, cq := [(3, 0x3FFC1)], cqHdr := [(3, ⟨handleOf 0 5, 0, 0, false, 0, 0, 2, 0, 1⟩)] })] }

theorem witness_CopyEngineSteps :
    (let s := withC (base (fir 0 0 0)) fun c => { c with copy := { c.copy with fifo := [donePk] } }
     s.copyActs 0 = [.start 0] ∧ s.enginesRun 0 = true) ∧ (base (fir 0 0 0)).copyActs 0 = [] ∧
    (let a : Arrival := ⟨0, ⟨tok 0, some (1, 0, 1)⟩, none, 0, 4⟩
     (withC (base (fir 0 0 0)) fun c => { c with arrivals := [a] }).arrivalAt 0 0 = some a) ∧
    (let s := withC (base (fir 0 0 0)) fun c => { c with copy := { c.copy with active := [donePk] } }
     (s.cluster 0).copy.active.find? (fun q => decide (q.id = 4)) = some donePk ∧ donePk.finished = true ∧ donePk.parked = none ∧
     (s.cluster 0).copy.holds donePk = false ∧ donePk.ord = false ∧ (s.engineAdd 0 (some 0) 0 donePk.knot donePk.add).1 = .done) ∧
    (look (cqState.part 0).cq 3 = some 0x3FFC1 ∧ (look (cqState.part 0).cqHdr 3).isSome = true ∧ (cqState.part 0).enable = true ∧
      (0x3FFC1 : Word).getLsbD 0 = true ∧ 0 < (cqState.knot 5).value.toNat ∧
      (cqState.queuePeek ⟨none, 0, 0, false⟩ 0x3FFC0 0 2).1 = some fillPk ∧ cqState.packetError 0 none fillPk = none ∧
      cqState.packetError 0 none [1, 0, 0, 0, 0, 0, 0, 0] = some 1) ∧
    (let cmd : SpawnCmd := ⟨fir 0 0 0, 0, [], 0, [], none⟩
     let s := withC (base (fir 0 0 0)) fun c => { c with copy := { c.copy with spawn := [cmd] } }
     (s.cluster 0).copy.spawn = cmd :: [] ∧ cmd.parked = none ∧ s.enginesHalt 0 = false) ∧
    ((base (fir 0 0 0)).weightInUse 0x1FFF 1 = true ∧ (base (fir 0 0 0)).weightInUse (3 * 2 ^ 28) (2 ^ 28) = false) := by
  refine ⟨by decide, by decide, by decide, by decide, by decide, by decide, by decide⟩


/-- A firing of an instruction. -/
def firOf (i : Instr) : Firing := { fir 1 2 3 with word := encode i }
/-- A machine whose tensor unit of cluster 0 performs a firing. -/
def unitSt (f : Firing) (g : TensorUnit → TensorUnit := id) : State :=
  withC (base Firing.blank) fun c => { c with tensor := g { TensorUnit.blank with cur := some ⟨f, true, 0, [], none⟩ } }
/-- Format T's fields, tiles 1, 2 and 3. -/
def ftE (t : Elem) : FormT := ⟨.port, .zero, 1, 2, 0, 0, 0, 0, true, false, .always, t⟩

theorem witness_TensorCommandsEnter : (base (fir 1 2 3)).RunsPlain (fmT .f32).pm := base_plain _ _ _

theorem witness_TensorUnitPerforms :
    (let x : FormT := ⟨.port, .zero, 15, 0, 0, 0, 0, 0, true, false, .always, .e4m3⟩
     let s := unitSt (firOf (.tshape x))
     s.ownerOf 0 = some 0 ∧ (s.launch 0).engines = true ∧ s.unitActs 0 = [.command] ∧ decode (firOf (.tshape x)).word = .ok (.tshape x) ∧
     shapeWordOk 0x500404 = true ∧ shapeWordOk 0 = false) ∧
    (decode (firOf (.trdsh { ftE .e4m3 with td := 0 })).word = .ok (.trdsh { ftE .e4m3 with td := 0 }) ∧
     decode (firOf (.tzeroTile { ftE .e4m3 with ta := 0 })).word = .ok (.tzeroTile { ftE .e4m3 with ta := 0 }) ∧
     decode (firOf (.tzeroAcc { ftE .e4m3 with td := 0, ta := 0, qa := 3 })).word = .ok (.tzeroAcc { ftE .e4m3 with td := 0, ta := 0, qa := 3 }) ∧
     decode (firOf (.tscale { ftE .f32 with sb := .port })).word = .ok (.tscale { ftE .f32 with sb := .port }) ∧
     decode (firOf (.tact (ftE .f32) .relu)).word = .ok (.tact (ftE .f32) .relu) ∧
     decode (firOf (.tadd { ftE .f32 with tb := 3 })).word = .ok (.tadd { ftE .f32 with tb := 3 })) ∧
    (let u := { TensorUnit.blank with shapes := [(2, 0x500404), (3, 0x500401)] }
     (u.shape 2).set = true ∧ (TensorUnit.blank.shape 2).set = false ∧ u.allFull 2 = true ∧ u.allFull 3 = true ∧
     Machine.Shape.legal ⟨(u.shape 2).rows, (u.shape 2).cols, codeOf .f32, false⟩ = true ∧
     u.shape 3 = ⟨1, (u.shape 2).cols, (u.shape 3).elem, (u.shape 3).fe⟩) ∧
    (let a : Arrival := ⟨0, ⟨{ tok 0x300000 with cls := .tile }, some (2, 0, 15)⟩, none, 0, 4⟩
     let s := withC (base Firing.blank) fun c => { c with
       arrivals := [a], tensor := { TensorUnit.blank with shapes := [(15, 0x1500404)], rowEmpty := [(15 * 192 + 3, true)] } }
     s.arrivalAt 0 0 = some a ∧ (s.unit 0).rowTrap 15 a.out.tok = none ∧ (s.unit 0).full 15 3 = false ∧ (s.unit 0).rows = [] ∧
     (s.cluster 0).remnant = []) ∧
    (let f := firOf (.tscan ⟨.port, .zero, 7, 4, 6, 0, 0, 8, true, false, .always, .f32⟩)
     let s := withC (base Firing.blank) fun c => { c with tensor := { TensorUnit.blank with aside := [f], ready := 1 } }
     (s.unit 0).ready.getLsbD 0 = true ∧ (s.unit 0).cur = none ∧ s.enginesRun 0 = true ∧ s.enginesHalt 0 = false ∧
     (s.unit 0).aside.find? (asideOn 0) = some f) ∧
    (let s := withL (withC (base Firing.blank) fun c => { c with tensor := { TensorUnit.blank with outRow := [⟨1, 2, 0⟩] } })
       fun y => { y with fab := { StreamFab.blank with circuits := [(endpoint 0 15 0 0, endpoint 1 14 0 0)] } }
     (s.unit 0).outRow = ⟨1, 2, 0⟩ :: [] ∧ (s.fab 0).canSend (endpoint (lnch.panel.footprint 0) 15 0 0) = true) := by
  refine ⟨by decide, by decide, by decide, by decide, by decide, by decide⟩

theorem witness_TransposeAndDither :
    (let s := unitSt (firOf (.ttrn (ftE .e4m3))) fun u => { u with shapes := [(2, 0x500304)] }
     s.ownerOf 0 = some 0 ∧ (s.launch 0).engines = true ∧ s.unitActs 0 = [.command] ∧
     decode (firOf (.ttrn (ftE .e4m3))).word = .ok (.ttrn (ftE .e4m3)) ∧ ((s.unit 0).shape 2).set = true ∧ ((s.unit 0).shape 2).yb = false ∧
     (s.unit 0).allFull 2 = true ∧ Machine.Shape.legal ⟨3, 4, 5, false⟩ = true) ∧
    (({ TensorUnit.blank with shapes := [(2, 0x602004)] } : TensorUnit).shape 2).yb = true ∧
    Machine.Shape.legal ⟨256, 4, 5, false⟩ = false := by
  refine ⟨by decide, by decide, by decide⟩

/-- A circuit from station 0's injector 1 to its receive queue 2. -/
def fabric : StreamFab := { StreamFab.blank with circuits := [(endpoint 0 13 0 1, endpoint 0 14 0 2)] }
/-- A launch with that fabric. -/
def streamSt (f : Firing) (g : StreamFab → StreamFab := id) : State := withL (base f) fun y => { y with fab := g fabric }
/-- An idle operator of kind 1. -/
def opInst : OpInst := ⟨0, 1, 0, 1, 0, 0, 0, 0, [], none, none, 0, 0, 0, none, 0, none, 0, 0, false, 0, [], [], none, 0⟩

theorem witness_StreamFabric :
    (base (fir 1 2 3)).RunsPlain (fmX .i32).pm ∧
    ((streamSt (fir 1 2 3)).fab 0).canSend (endpoint (lnch.panel.footprint 0) 13 0 1) = true ∧
    (streamSt (fir 1 2 3)).parkedAtEnd 0 (endpoint (lnch.panel.footprint 0) 13 0 1) = [] ∧
    ((streamSt (fir 1 2 3) fun b => { b with queues := [(endpoint 0 14 0 2, [⟨7, 8, 0⟩])] }).fab 0).queue (endpoint (lnch.panel.footprint 0) 14 0 2)
      = [⟨7, 8, 0⟩] ∧ ((streamSt (fir 1 2 3)).fab 0).queue (endpoint (lnch.panel.footprint 0) 14 0 2) = [] ∧
    (let s := streamSt (fir 1 2 3) fun b => { b with ops := [opInst] }
     s.opIndex s.cur 1 0 = some 0 ∧ nth (s.fab 0).ops 0 = some opInst ∧ opInst.idle = true ∧ s.parkedAtOp 0 opInst = [] ∧
     ({ opInst with word := some ⟨1, 2, 0⟩ } : OpInst).idle = false ∧ opInst.parked = none) ∧
    (p0Ok 2 0x200 pat.swatches = true ∧ p0Ok 2 0x201 pat.swatches = false) ∧
    (let o := { opInst with out := [(0, ⟨1, 2, 0⟩)] }
     let s := streamSt (fir 1 2 3) fun b => { b with ops := [o], circuits := [(endpoint 0 1 0 32, endpoint 0 14 0 2)] }
     nth (s.fab 0).ops 0 = some o ∧ o.parked = none ∧ (s.launch 0).engines = true ∧
     o.acts (s.fab 0) (!(s.launch 0).halting) = [.send 0 ⟨1, 2, 0⟩]) ∧
    (let s := streamSt (fir 1 2 3) fun b => { b with freed := [(endpoint 0 14 0 2, 16)] }
     (s.fab 0).producer (endpoint 0 14 0 2) = some (endpoint 0 13 0 1) ∧ (s.launch 0).moves = true ∧
     min 7 (getAt (s.fab 0).freed (endpoint 0 14 0 2) 0) ≠ 0) := by
  refine ⟨base_plain _ _ _, by decide, by decide, by decide, by decide, by decide, by decide, by decide, by decide⟩

/-- A panel with seam unit 1 of die 0, and swatches for a merge. -/
def seamSt (f : Firing) (c : SeamCtx) : State :=
  { base f with
    launches := [(0, { lnch with panel := ⟨[0], [[0, 1]], [[(0, 0), (1, 1)]], 0, 0⟩ })]
    seams := [(1, { SeamUnit.blank with ctxs := [(0, c)] })] }
/-- A context that binds 2 inputs. -/
def binding : SeamCtx := { SeamCtx.free 1 with st := .binding, n := 2, sw1 := 2, sw2 := 1, phase := .opening }

theorem witness_SeamInstructions :
    (base (fir 1 2 3)).RunsPlain (fmE 0 1).pm ∧
    ((fir 0 0 3).a.map (fun h => h.tok.payload.toNat % 2 ^ 13) = some 0 ∧ 4096 < 4097 ∧ ((base (fir 1 2 3)).sw2 (fir 1 2 3) (fmE 0 1)).length < 32 + 8 * 29) ∧
    (2 ≠ 0 ∧ 4096 ≤ 4096 ∧ 32 + 8 * 28 ≤ ((base (fir 1 2 3)).sw2 (fir 1 2 3) (fmE 0 1)).length ∧
      (seamSt (fir 1 2 3) binding).seamKey 0 0 1 = some 1 ∧ ((seamSt (fir 1 2 3) binding).seamCtx 1 0).st ≠ .free ∧
      ((seamSt (fir 1 2 3) binding).seamCtx 1 3).st = .free ∧ badHandle ((fir 1 2 3).knotOf (fmE 0 1)) = false) ∧
    (seamSt (fir 1 2 3) binding).seamNamed 0 0x1FF = none ∧
    ((seamSt (fir 1 2 3) binding).seamNamed 0 0x104 = some (1, 0) ∧ binding.st = .binding ∧ binding.n ≤ 2 ∧ 1 < binding.n ∧
      (binding.inputs.any fun i => decide (i.idx = 1)) = false ∧
      ((seamSt (fir 1 2 3) binding).seam 1).portHeld 0 ((seamSt (fir 1 2 3) binding).seamGroup binding) 1 31 = false ∧
      ({ binding with st := .merging } : SeamCtx).st ≠ .binding ∧ ({ binding with st := .ending } : SeamCtx).st = .ending ∧
      binding.parked = none) := by
  refine ⟨base_plain _ _ _, by decide, by decide, by decide, by decide⟩


/-- A word for port 31 of seam instance 1. -/
def portTok (v : Word) : OutTok := ⟨tok v, some (3, 1, 31)⟩
/-- A context that fills rows of its only input, which is on port 31. -/
def merging : SeamCtx := { SeamCtx.free 1 with
  st := .merging, n := 1, sw1 := 2, sw2 := 1, used := 1, begun := true, inputs := [SeamIn.bind 0 31] }

/-- A list of one access that is still open does it. -/
theorem accsStep_one (s : State) (c : Client) (a : Acc) (h : a.done = false) : s.accsStep c [a] =
    match (s.choose 1).2.accPerform c a with
    | .ok got s2 => .moved [{ a with got := got, done := true, tx := none }] s2
    | .wait => .moved [a] (s.choose 1).2
    | .sent id s2 => .moved [{ a with tx := some id }] s2
    | .bad k d s2 => .bad k d a.addr s2 := by
  have e : (s.choose 1).1 = 0 := Nat.mod_one _
  have o : ((countFrom 0 [a].length).filter fun i => ((nth [a] i).map fun a => !a.done).getD false) = [0] := by simp [countFrom, nth, h]
  unfold State.accsStep
  rw [o]
  simp only [List.length_cons, List.length_nil, Nat.zero_add, e, nth]
  rw [if_neg (by simp)]
  cases (s.choose 1).2.accPerform c a <;> rfl

/-- A read of the weight store, which waits while its group refreshes; and one that no range grants. -/
def accW : Acc := .rd .w 0 8 none
/-- A read past the end of L. -/
def accL : Acc := .rd .l (2 ^ 20) 8 none

theorem moved_accW (s : State) (c : Client) (h : s.refreshing 0 = true) : ∃ t, s.accsStep c [accW] = .moved [accW] t := by
  refine ⟨(s.choose 1).2, ?_⟩
  have w : (s.choose 1).2.accPerform c accW = .wait := by
    have h2 : (s.choose 1).2.refreshing 0 = true := h
    simp [State.accPerform, accW, Acc.rd, State.accGranted, Space.addrOk, groupOf, h2]
  rw [accsStep_one s c accW rfl, w]

theorem bad_accL (s : State) (c : Client) : ∃ t, s.accsStep c [accL] = .bad .protect 0 (2 ^ 20) t := by
  refine ⟨(s.choose 1).2, ?_⟩
  have w : (s.choose 1).2.accPerform c accL = .bad .protect 0 (s.choose 1).2 := by
    simp [State.accPerform, accL, Acc.rd, State.accGranted, Space.addrOk]
  rw [accsStep_one s c accL rfl, w]; rfl

theorem witness_SeamSteps :
    (let a : Arrival := ⟨0, portTok 5, none, 0, 4⟩
     let s := { seamSt (fir 1 2 3) binding with dieArr := [(0, [a])] }
     behindSame (getAt s.dieArr 0 []) 0 = false ∧ nth (getAt s.dieArr 0 []) 0 = some a ∧ a.out.eng = some (3, 1, 31) ∧
     s.seamKey 0 0 1 = some 1 ∧ (s.launch 0).moves = true) ∧
    (let s := { seamSt (fir 1 2 3) merging with seams := [(1, ⟨[(31, ⟨[portTok 0x0000000300000005], 0⟩)], [(0, merging)]⟩)] }
     s.seamKey 0 (1 / 4) (1 % 4) = some 1 ∧ (s.launch 0).engines = true ∧ (s.launch 0).halting = false ∧
     s.portHead 0 1 0 1 31 = some ⟨⟨5, 3, 0⟩, false⟩ ∧ ((s.seam 1).port 31).discard = 0 ∧ (s.seamCtx 1 0) = merging ∧
     (merging.groupInputs (s.seamGroup merging)).find? (fun i => decide (i.port = 31) && !i.ended) = some (SeamIn.bind 0 31) ∧
     3 < (s.seamOut merging).cols) ∧
    (let s := { seamSt (fir 1 2 3) merging with seams := [(1, ⟨[(31, ⟨[portTok 0x0000000300000005], 2⟩)], [(0, merging)]⟩)] }
     ((s.seam 1).port 31).discard ≠ 0) ∧
    (let x := { merging with accs := [accW] }
     (seamSt (fir 1 2 3) x).seamActive 0 1 0 = some (1, x) ∧ x.st ≠ .ending ∧ allDone x.accs = false ∧ (seamSt (fir 1 2 3) x).refreshing 0 = true) ∧
    (let x := { merging with st := .ending, phase := .add }
     (seamSt (fir 1 2 3) x).seamActive 0 1 0 = some (1, x)) := by
  refine ⟨by decide, by decide, by decide, by decide, by decide⟩

/-- A machine whose unmask engine of die 0 has one context. -/
def umSt (f : Firing) (c : Nat) (x : UmCtx) : State := { base f with ums := [(0, { UmEngine.blank with ctxs := [(c, x)] })] }
/-- A granted context with 8 positions. -/
def umOpen : UmCtx := { UmCtx.blank with holder := some 0, opened := true, len := 8, layers := 1 }
/-- An open's firing. -/
def openFir : Firing := firOf (.umctxOpen ⟨.port, .zero, .zero, true, false, .always, .i32, false, 0, 0, 1⟩ 0)
/-- A query's and a release's firing. -/
def umE : FormE := ⟨.port, .port, .zero, true, false, .always, .i32, false, 0, 0, 0⟩
/-- A started command. -/
def umCmd (i : Instr) (as_ : List Acc) : UmCmd := { UmCmd.ofFiring (firOf i) with started := true, accs := as_ }

theorem witness_UnmaskEngine :
    (base (fir 1 2 3)).RunsPlain (fmE 0 1).pm ∧
    (nth lnch.panel.dies 0 = some 0 ∧ nth lnch.panel.dies 3 = none ∧ badHandle (({ fir 1 2 3 with consts := [(0, 0x8000000)] } : Firing).knotOf
      { fmE 0 1 with kv := false }) = true ∧ badHandle ((fir 1 2 3).knotOf (fmE 0 1)) = false) ∧
    ((umSt (fir 255 2 3) 255 umOpen).umNamed 0 255 = some (0, 255) ∧ (umSt (fir 255 2 3) 255 umOpen).umNamed 0 254 = none) ∧
    (let s := { umSt (fir 1 2 3) 0 umOpen with ums := [(0, ⟨[(0, umOpen)], [openFir], [], []⟩)] }
     (s.um 0).opens = openFir :: [] ∧
     decode openFir.word = .ok (.umctxOpen ⟨.port, .zero, .zero, true, false, .always, .i32, false, 0, 0, 1⟩ 0) ∧
     (s.launch openFir.launch).engines = true ∧ (s.launch openFir.launch).halting = false ∧ ((s.um 0).ctx 1).holder = none ∧
     (∀ j : Fin 1, ((s.um 0).ctx j.val).holder ≠ none)) ∧
    (let a : Arrival := ⟨0, ⟨tok 0x0000000700000000, some (4, 0, 0)⟩, none, 0, 4⟩
     let s := { umSt (fir 1 2 3) 0 umOpen with dieArr := [(0, [a])] }
     behindSame (getAt s.dieArr 0 []) 0 = false ∧ nth (getAt s.dieArr 0 []) 0 = some a ∧ (s.launch 0).moves = true ∧
     a.out.tok.payload.toNat / 2 ^ 47 % 256 = 0 ∧ umOpen.holder = some 0 ∧ a.out.tok.payload.toNat / 2 ^ 32 % 2 ^ 15 < umOpen.len ∧
     a.out.tok.payload.toNat / 2 ^ 55 = 0 ∧ umOpen.len ≤ 0x0000000800000000 / 2 ^ 32 % 2 ^ 15 ∧ UmCtx.blank.holder ≠ some 0) ∧
    (let q := umCmd (.umqryInfo umE) [accW]
     let s := umSt (fir 1 2 3) 0 { umOpen with queue := [q] }
     (s.umCtx 0 0).queue = q :: [] ∧ (s.launch q.firing.launch).engines = true ∧ q.parked = none ∧ q.started = true ∧ allDone q.accs = false ∧
     s.refreshing 0 = true) ∧
    (let q := umCmd (.umqryInfo umE) []
     allDone q.accs = true ∧ q.tok = none ∧ decode q.firing.word = .ok (.umqryInfo umE)) ∧
    (let q := umCmd (.umctxRelease { umE with sb := .zero }) []
     decode q.firing.word = .ok (.umctxRelease { umE with sb := .zero })) := by
  refine ⟨base_plain _ _ _, by decide, by decide, by decide, by decide, by decide, by decide, by decide⟩

theorem witness_SystemInstructions :
    (base (fir 1 2 3)).Runs (fmX .u64).pm ∧ (base (fir 1 2 3)).RunsPlain (fmX .u64).pm ∧ (base (fir 1 2 3)).cur.retry = false ∧
    ({ fir 1 2 3 with retry := true } : Firing).retry = true ∧ ((base (fir 1 2 3)).part 0).debug = false ∧
    (({ base (fir 1 2 3) with parts := [(0, { Partition.blank with debug := true })] } : State).part 0).debug = true ∧
    (let x : FormX := ⟨.port, .zero, .zero, true, false, .always, .i32⟩
     let w : Parked := ⟨3, firOf (.yield x 5), .yield 7, 0⟩
     let s := { withL (base (fir 1 2 3)) (fun y => { y with parked := [w] }) with nCycle := 14 }
     (s.launch 0).parkedAt 3 = some w ∧ decode w.firing.word = .ok (.yield x 5) ∧ 7 ≤ s.nCycle / 2 ∧ (s.launch 0).runs = true ∧
     s.roomFor w.firing = true) ∧ (5 : BitVec 12).toNat < 6 :=
  ⟨base_runs _ _ _, base_plain _ _ _, by decide, by decide, by decide, by decide, by decide, by decide⟩

theorem witness_HemPasses :
    (base (fir 1 2 3)).RunsPlain (fmX .i32).pm ∧
    (let hc : HemCl := ⟨1, false, [], [], [], 0, false⟩
     let h : Hem := ⟨0, .retire, [⟨0, false, [], [], [], 0, false⟩, hc], false⟩
     let a : Arrival := ⟨0, ⟨{ tok 0 with cls := .hem, station := 16 }, none⟩, none, 0, 4⟩
     let s := { withL (base (fir 1 2 3)) (fun y => { y with hems := [h] }) with
       clusters := [(0, { Cluster.clear with owner := some 0 }), (1, { Cluster.clear with owner := some 0, arrivals := [a] })] }
     s.arrivalAt 1 0 = some a ∧ (s.launch 0).hems = [h] ∧ h.seq = BitVec.ofNat 8 (a.out.tok.payload.toNat / 2 ^ 8) ∧ h.at 1 = some hc ∧
     hc.seen = false) ∧
    (let hc : HemCl := ⟨1, true, [], [], [], 0, false⟩
     let h : Hem := ⟨0, .retire, [⟨0, true, [], [], [], 0, false⟩, hc], false⟩
     let s := withL (base (fir 1 2 3)) fun y => { y with hems := [h] }
     (s.launch 0).hems = [h] ∧ h.at 1 = some hc ∧ hc.seen = true ∧ hc.sent = false ∧ s.openWrites 0 1 = [] ∧ s.inboundAt 1 h.seq.toNat = none ∧ (s.launch 0).panel.hemTree.find? (fun e => decide (e.1 = 1)) = some (1, 0) ∧
     (s.launch 0).panel.hemChildren 1 = []) ∧
    (let h : Hem := ⟨0, .retire, [⟨0, true, [], [], [], 0, false⟩], false⟩
     let s := withL (base (fir 1 2 3)) fun y => { y with hems := [h], panel := ⟨[0], [[0]], [], 0, 0⟩ }
     0 = (s.launch 0).panel.home ∧ (s.launch 0).panel.hemChildren 0 = []) := by
  refine ⟨base_plain _ _ _, by decide, by decide, by decide⟩

/-- A fault waiting for its record, or one already written. -/
def frec (recid : Nat) (st : RecState) : FaultRec := ⟨4, recid, .align, 0, 0x1004, (base (fir 1 2 3)).srcOf (fir 1 2 3), false, 1, st, 0, 0, none, 0, []⟩
/-- A machine whose launch has an overflow area at VA 0x100000. -/
def ovSt (r : FaultRec) : State := withL (gbase (fir 1 2 3)) fun y => { y with ovArea := some 0x100000, ovLen := 0x100000, faults := [r] }

theorem witness_FaultRecordsAndResumes :
    (((ovSt (frec 0 .parked)).launch 0).cfg = none ∧ ((ovSt (frec 0 .parked)).launch 0).ovArea = some 0x100000 ∧
      ((ovSt (frec 0 .parked)).launch 0).faults = [frec 0 .parked] ∧ ((ovSt (frec 0 .parked)).rdidx 0).1 = 0) ∧
    (match (ovSt (frec 0 .parked)).gWrite (queueClient 0 0) (0x100000 + 64) (bytesOf (List.replicate 8 0)) .write with
      | .ok s1 => (match s1.gWrite (queueClient 0 0) 0x100000 (leBytes 4 1) .write with | .ok _ => true | .error _ => false)
      | .error _ => false) = true ∧
    (7 ≠ 0 ∧ ((ovSt (frec 7 .parked)).launch 0).faults.find? (fun q => decide (q.recid = 7 ∧ 7 ≠ 0)) = some (frec 7 .parked) ∧
      (frec 7 .retried).state ≠ .parked ∧ ((ovSt (frec 7 .parked)).launch 0).st = .running ∧ ((ovSt (frec 7 .parked)).launch 0).freeze = none) := by
  refine ⟨by decide, by decide +kernel, by decide⟩

theorem witness_ResetAndCounters :
    ({ State.reset with nCycle := quotaSpan } : State).quotaWindow < quotaSpan / quotaSpan ∧ State.reset.bringUp = 0 ∧
    ({ State.reset with bringUp := 5 } : State).bringUp = 5 ∧ State.reset.agenda = [] ∧ State.reset.presented = false := by
  refine ⟨?_, rfl, rfl, rfl, rfl⟩
  simp [State.reset, quotaSpan, perMilli, perMicro]


/-- A machine with a launch queue at VA 0x3FFC0 whose first packet is published. -/
def lqState : State := { cqState with
  launches := [], parts := [(0, { Partition.blank with enable := true, quota := 1, lq := [(3, 0x3FFC1)], lqHdr := [(3, ⟨handleOf 0 5, 0, 0, false, 0, 0, 4, 0, 1⟩)] })] }
/-- A packet with no dependence and an inline seed. -/
def launchPk : List Word := [2, 0, 0, Machine.noKnot, Machine.noKnot, 0, 0, 0]
/-- A machine with one launch that has no panel. -/
def entering (st : LState) : State := { State.reset with
  patterns := [(0, pat)], parts := [(0, { Partition.blank with enable := true, quota := 1, allot := BitVec.allOnes 512 })]
  launches := [(0, { Launch.blank with st := st, packet := launchPk, ovArea := some 0x100000, ovLen := 0x100000 })] }

theorem witness_SchedulerSteps :
    (look (lqState.part 0).lq 3 = some 0x3FFC1 ∧ (look (lqState.part 0).lqHdr 3).isSome = true ∧ (lqState.part 0).enable = true ∧
      (0x3FFC1 : Word).getLsbD 0 = true ∧ 0 < (lqState.knot (knotKey (handleOf 0 5))).value.toNat ∧ lqState.launches = [] ∧
      (match lqState.queuePeek (lqState.schedClient 0 3) (entryAddr 0x3FFC1) 0 4 with
        | (some w, s1) => (s1.queueTake (s1.schedClient 0 3) (entryAddr 0x3FFC1) 0 4 w).isOk
        | _ => false) = true) ∧
    (lqState.readHeader (lqState.schedClient 0 3) (entryAddr 0x3FFC1)).1.isSome = true ∧
    (look (entering .depending).launches 0).isSome = true ∧ dependences launchPk = [] ∧
    ((entering .depending).seedsOf ((entering .depending).launch 0)).1.isSome = true ∧
    (let x := { Launch.blank with packet := [0x100, 0, 0, Machine.noKnot, Machine.noKnot, 0, 0, 0] }
     (State.reset.seedsOf x).1 = none) ∧
    (let s := entering .placing
     let s1 := (s.inOrder 0).foldl (fun s e => s.onLaunch e.1 fun x => { x with aged := s.agedNow x }) s
     (s.part 0).enable = true ∧ ((s1.carveAll 0).candidates 0).map Prod.fst = [0] ∧ ((s1.carveAll 0).legal 0 []).isSome = true ∧
       ((s1.carveAll 0).launch 0).saved = none) ∧
    (let s := withL { entering .placing with nCycle := 4200000 } fun y => { y with blockedAt := some 0 }
     (s.candidates 0).map Prod.fst = [0] ∧ (s.launch 0).blockedAt = some 0 ∧ 0 + 4200000 ≤ s.nCycle ∧ (s.part 0).blocked ≠ some 0) := by
  refine ⟨by decide +kernel, by decide +kernel, by decide, by decide, by decide, by decide +kernel, by decide +kernel, by decide +kernel⟩

/-- A machine whose launch is being configured. -/
def cfgSt (g : Cfg) : State := withL (base Firing.blank) fun y => { y with st := .configuring, cfg := some g }
/-- A pattern of two stages, the second with an entry at the first slot. -/
def pat2 : Pattern := { pat with entries := [⟨0, 1, 0, 0, 0, 0, 2⟩], stages := [⟨none, [], [], [], [], []⟩, ⟨none, [], [], [], [], []⟩] }
/-- A machine whose launch has a token waiting for its second stage. -/
def stageSt : State := { base Firing.blank with
  patterns := [(0, pat2)]
  clusters := [(0, { Cluster.clear with owner := some 0, remnant := [⟨tok 1, 0, .stageWait, 0, 0⟩] }), (1, { Cluster.clear with owner := some 0 })] }

theorem witness_ConfigurationSteps :
    (let g : Cfg := ⟨.initial, [0], []⟩
     (look (cfgSt g).launches 0).isSome = true ∧ ((cfgSt g).launch 0).cfg = some g ∧ (cfgSt g).pattern 0 = some pat ∧
     (nth pat.stages ((cfgSt g).launch 0).target).isSome = true ∧ 0 ∈ g.filled ∧ 0 * 16 + 15 ∉ g.loaded ∧
     ((cfgSt g).launch 0).switchHem = false ∧ 1 ∉ g.filled ∧ 1 ∈ ((cfgSt g).launch 0).panel.all) ∧
    ((cfgSt ⟨.initial, [0, 1], countFrom 0 32⟩).launch 0).allLoaded = true ∧
    ((stageSt.launch 0).runs = true ∧ stageSt.stageWaits 0 = true ∧ stageSt.quiescent 0 = true ∧ stageSt.nextStage 0 = some 1) ∧
    (withC stageSt fun c => { c with touched := 1 }).quiescent 0 = false := by
  refine ⟨by decide, by decide, by decide, by decide⟩

/-- A seed for the first slot. -/
def seed (port : BitVec 2) : Seed := ⟨7, 0, 0, 0, port, 0, 0⟩
/-- A pattern whose first slot holds an add and is an entry. -/
def pat3 : Pattern := { pat with entries := [⟨0, 0, 0, 0, 0, 0, 2⟩], stages := [⟨none, [⟨0, 0, 1, [], [(0, 0x0000050228E00020)], []⟩], [], [], [], []⟩] }
/-- A machine with one seed left. -/
def seedSt (d : Seed) : State := { withL (base Firing.blank) fun y => { y with seeds := [d], seedOrder := [0] } with patterns := [(0, pat3)] }
/-- An activation that waits. -/
def queued : OvfRec := ⟨0, .entry 0, tok 7, 0, 0, none, none⟩

theorem witness_TokensAndEntries :
    (let a : Arrival := ⟨0, ⟨tok 7, none⟩, none, 0, 4⟩
     let s := withC (base Firing.blank) fun c => { c with arrivals := [a] }
     s.arrivalAt 0 0 = some a ∧ (s.launch 0).freeze = none ∧ a.out.tok.cls.operand = true ∧ s.otherStage 0 a.out.tok = none ∧
       s.tableUse 0 0 0 < s.cap 0) ∧
    (let s := withC (base Firing.blank) fun c => { c with remnant := [⟨tok 1, 0, .operand, 0, 0⟩] }
     (s.cluster 0).owner = some 0 ∧ s.tableUse 0 0 0 < s.cap 0 ∧ earliest (s.station 0 0).arrseq [⟨tok 1, 0, 0, false⟩] = some ⟨tok 1, 0, 0, false⟩) ∧
    ((seedSt (seed 0)).pattern 0 = some pat3 ∧ ((seedSt (seed 0)).launch 0).runs = true ∧
      nextSeed [seed 0] [0] = some (seed 0) ∧ (seedSt (seed 0)).seedBad 0 pat3 (seed 0) = false ∧
      (seedSt (seed 1)).seedBad 0 pat3 (seed 1) = true ∧ seedEntry pat3 0 (seed 0) = some 0) ∧
    (let s := withL (base Firing.blank) fun y => { y with ovf := [queued] }
     nth pat.entries 0 = some ⟨0, 0, 0, 0, 1, 0, 2⟩ ∧ (s.launch 0).freeId = some 1 ∧ oldestGroup [queued] = some queued ∧
       (s.launch 0).activations 0 < 2) := by
  refine ⟨by decide, by decide, by decide, by decide⟩

/-- A flit from cluster 1 at a place. -/
def flit (p : FlitAt) : Flit := ⟨2, ⟨tok 7, none⟩, 1, 0, .cluster 0, 0, p, true⟩
/-- A control token at port b of the first slot. -/
def wave (c : TokClass) : Arrival := ⟨0, ⟨{ tok 1 with cls := c, port := 1 }, none⟩, none, 0, 4⟩
/-- A machine with that arrival. -/
def waveSt (c : TokClass) : State := withC (base Firing.blank) fun y => { y with arrivals := [wave c] }

theorem witness_NetworkAndColourWaves :
    (((base Firing.blank).cluster 0).owner = some 0 ∧ ((base Firing.blank).launch 0).moves = true ∧ ((base Firing.blank).cluster 0).routed = false) ∧
    (let s := withC (base Firing.blank) fun c => { c with stations := [(0, { Station.clear with injectWait := 64 })] }
     (s.cluster 0).stations.any (fun e => decide (64 ≤ e.2.injectWait)) = true) ∧
    (let s := withC { base Firing.blank with flits := [flit (.downlink 0)] } fun c => { c with routed := true }
     (s.cluster 0).down = false ∧ s.admits 0 (flit (.downlink 0)) = true) ∧
    (let s := withC (base Firing.blank) fun c => { c with owed := [(1, 3)] }
     getAt (s.cluster 0).owed 1 0 ≠ 0) ∧
    (let s := { base Firing.blank with flits := [flit (.spine 0 5)] }
     s.spineHeads 0 = [flit (.spine 0 5)] ∧ (s.launch (s.flitLaunch (flit (.spine 0 5)))).moves = true) ∧
    ((waveSt .commit).arrivalAt 0 0 = some (wave .commit) ∧ ((waveSt .commit).station 0 0).mark 0 ⟨0, 0, 0⟩ 1 = ⟨0, ⟨0, 0, 0⟩, 1, [], [], false⟩ ∧
      (waveSt .commit).carrying 0 (wave .commit).out.tok 1 = [] ∧ ((waveSt .commit).uncolour 0 0 0 0 ⟨0, 0, 0⟩ 1).station 0 0 = Station.clear) ∧
    ((waveSt .kill).arrivalAt 0 0 = some (wave .kill) ∧ (waveSt .kill).replyDue 0 0 0 ⟨0, 0, 0⟩ 1 = false ∧ (waveSt .commit).reqs = [] ∧
      ({ waveSt .kill with reqs := [{ bankReq .load with firing := { fir 0 0 0 with colour := 1 } }] } : State).replyDue 0 0 0 ⟨0, 0, 0⟩ 1 = true) := by
  refine ⟨by decide, by decide, by decide, by decide, by decide, by decide, by decide⟩

/-- A generator with 2 of its iterations left. -/
def gen (j : Nat) (stale : Bool) : Generator := ⟨3, fir 0 4 0, 0, 0, 2, j, 0, 1, stale, 0, 0⟩

theorem witness_WaitersReleased :
    (base (fir 0 0 0)).launch 0 = lnch ∧ lnch.runs = true ∧
    ((withL (base Firing.blank) fun y => { y with parked := [⟨3, fir 0 0 0, .phwait 5, 0⟩] }).launch 0).phaseWaiters 5 ≠ [] ∧
    (let s := withL (base Firing.blank) fun y => { y with gens := [gen 1 false], insts := [(0, { root with iters := [⟨.free, 0⟩, ⟨.free, 0⟩] })] }
     (s.launch 0).gens = [gen 1 false] ∧ s.roomFor (gen 1 false).firing = true ∧ (gen 1 false).j ≠ (gen 1 false).n ∧
       (gen 2 false).j = (gen 2 false).n ∧ (gen 1 true).stale = true ∧
       (look (s.launch 0).insts 0).any (fun i => (i.iter (i.nextIter % i.iters.length)).st == .free && !i.freeing) = true) ∧
    (let x : FormA := ⟨.port, .zero, .zero, true, true, .always, .i32, .rne, 0⟩
     let w : Parked := ⟨3, firOf (.next x), .next, 0⟩
     let s := withL (base Firing.blank) fun y => { y with parked := [w], insts := [(0, { root with iters := [⟨.live, 0⟩, ⟨.live, 1⟩] })] }
     (s.launch 0).parkedAt 3 = some w ∧ decode w.firing.word = .ok (.next x) ∧ (s.launch 0).nextStep w.firing ≠ .wait ∧
       s.roomFor w.firing = true) ∧
    (let x : FormX := ⟨.port, .zero, .zero, true, false, .always, .i32⟩
     let w : Parked := ⟨3, firOf (.balloc x 1), .balloc, 0⟩
     let s := withL (base Firing.blank) fun y => { y with parked := [w] }
     (s.launch 0).parkedAt 3 = some w ∧ decode w.firing.word = .ok (.balloc x 1) ∧ s.ballocReady w.firing 1 = true ∧
       s.roomFor w.firing = true) ∧
    (let x : FormX := ⟨.port, .zero, .zero, true, false, .always, .i32⟩
     let f := firOf (.ticket x 7 5)
     let s := withC (base Firing.blank) fun c => c.setArbiter 7 ⟨none, [(5, f)], 0⟩
     (s.cluster 0).arbiter 7 = ⟨none, [(5, f)], 0⟩ ∧ (s.cluster 0).owner = some 0 ∧ decode f.word = .ok (.ticket x 7 5)) := by
  refine ⟨by decide, by decide, by decide, by decide, by decide, by decide, by decide⟩

/-- A machine with a save pool. -/
def saveSt (g : Launch → Launch) : State := { withL (base Firing.blank) g with
  parts := [(0, { Partition.blank with svpool := 0x100000, svlen := 0x10000000 })] }

theorem witness_PreemptionAndRetirement :
    ((saveSt id).mayFreeze 0 = true ∧ ((saveSt id).launch 0).cfg = none ∧ ((saveSt id).saveArea 0).isSome = true) ∧
    (let s := saveSt fun y => { y with st := .freezing, freeze := some ⟨0, false⟩ }
     (s.launch 0).ending = none ∧ s.frozen 0 = true ∧ (s.saveArea 0).isSome = true) ∧
    (let s := saveSt fun y => { y with st := .restoring, cfg := some ⟨.restore, [0, 1], countFrom 0 32⟩, saved := some ⟨0, [], [], [], 0x100000, 0, [], false, 2, 0, []⟩ }
     (s.launch 0).allLoaded = true ∧ (s.launch 0).saved = some ⟨0, [], [], [], 0x100000, 0, [], false, 2, 0, []⟩) ∧
    (let s := saveSt fun y => { y with wdog := some 1, wdogUsed := 2100 }
     (s.launch 0).st = .running ∧ 1 * 2100 ≤ (s.launch 0).wdogUsed) ∧
    (let s := { saveSt (fun y => { y with st := .freezing, freeze := some ⟨0, true⟩ }) with nCycle := 52500, reqs := [bankReq .load] }
     s.frozen 0 = false ∧ freezeBound (s.launch 0).panel.all.length ≤ s.nCycle - 0) ∧
    ((base Firing.blank).mayRetire 0 = true ∧ ((base Firing.blank).flush 0).mayRetire 0 = true) ∧
    (saveSt (fun y => { y with ending := some .forced })).stopped 0 = true ∧
    (saveSt (fun y => { y with st := .retiring, retire := 2 })).reqs = [] := by
  refine ⟨by decide, by decide, by decide, by decide, by decide, by decide, by decide, by decide⟩

/-- A request over an established session, and the machine that has it. -/
def ask (pf : Bool) (cmd : Nat) (ws : List Word) : DoeReq := ⟨pf, 0, BitVec.ofNat 64 (cmd + ws.length * 2 ^ 24), ws⟩
/-- A machine with both sessions established. -/
def doeSt : State := { State.reset with spdm := [(0, true), (64, true)] }

theorem witness_ServiceInterface :
    (State.reset.locked 0 = false ∧ (State.reset.part 0).enable = false ∧ ({ State.reset with tdisp := [(0, .run)] } : State).locked 0 = true) ∧
    (let s := { lqState with parts := [(0, { Partition.blank with cq := [] })] }
     look (s.part 0).lq 3 = none ∧ (s.readHeader (s.schedClient 0 3) (entryAddr 0x3FFC1)).1.isSome = true) ∧
    ((State.reset.part 0).invalBusy = false ∧ State.reset.launches = [] ∧
      (({ State.reset with parts := [(0, { Partition.blank with invalBusy := true, dsnap := 0x1001 })] } : State).part 0).invalBusy = true) ∧
    (let r := ask true 1 [5, 2]
     getAt doeSt.spdm r.session false = true ∧ r.wellFormed 1 2 = true ∧ r.knotsBad = false ∧ (∀ k ∈ r.knots, (doeSt.knot k).owner = .free) ∧
       doeSt.locked r.part = false ∧ doeSt.anyQueue r.part = false ∧ (ask true 1 [5]).wellFormed 1 2 = false ∧
       (ask false 8 [5]).wellFormed 8 9 = false) ∧
    (let r := ask true 2 [5, 1]
     let s := { doeSt with knots := [(5, standing 0 0)] }
     r.wellFormed 2 2 = true ∧ (∀ k ∈ r.knots, (s.knot k).owner = .standing ∧ (s.knot k).opart.toNat = r.part ∧ (s.knot k).waiters = 0 ∧
       (s.knot k).armed = false ∧ s.publishKnot k = false)) ∧
    ((ask true 3 (List.replicate 17 287)).wellFormed 3 17 = true ∧ (ask true 4 [0x30F]).wellFormed 4 1 = true ∧
      (ask true 5 [1023, 5]).wellFormed 5 2 = true ∧ (ask true 6 [0x3FFF]).wellFormed 6 1 = true ∧ (ask true 7 [0x3FF001F, 5]).wellFormed 7 2 = true) ∧
    (let r := ask false 8 (4095 :: List.replicate 8 5)
     getAt doeSt.spdm r.session false = true ∧ r.fn = r.part ∧ r.wellFormed 8 9 = true ∧ r.word 0 < 4096 ∧ (doeSt.key (r.word 0)).owner = none) ∧
    ((ask false 9 [7]).wellFormed 9 1 = true ∧
      (({ doeSt with keys := [(7, { KeySlot.blank with owner := some 0 })] } : State).key 7).owner = some 0) := by
  refine ⟨by decide, by decide +kernel, by decide, by decide, by decide, by decide, by decide, by decide⟩

/-! Witnesses for the clauses that a statement has beside its first ones. -/

theorem witness_heldBack :
    holds (exec (.consumePacket 0 3) { lqState with retraining := countFrom 0 12 }) (fun t => t.heldHit) = true ∧
    holds (exec (.consumePacket 0 3) lqState) (fun t => !t.heldHit) = true := by decide +kernel

theorem witness_delays : (firOf (.add fa)).delay = 0 ∧ (firOf (.div fa)).delay ≠ 0 ∧
    ({ firOf (.add fa) with a := some { opnd 1 with far := true } } : Firing).delay ≠ 0 := by decide

theorem witness_addressForms : Space.g.addrOk 0x1FF8 8 = true ∧ Space.g.addrOk (2 ^ 57 - 8) 8 = true ∧ Space.g.addrOk (2 ^ 57) 8 = false ∧
    Space.w.addrOk (2 ^ 30 - 1) 1 = true ∧ Space.w.addrOk (2 ^ 30) 1 = false := by decide

/-- A request for the host, or for a peer of a pod. -/
def outReq (g : GTarget) : Req := gReq .load (.placed g)

theorem witness_portal :
    (let s := withQ (gbase (fir 0 0 0)) (gReq .load (.placed (.hbm 0x1000 0)))
     s.firstAt (gReq .load (.placed (.hbm 0x1000 0))) 0x1000 = true) ∧
    (let s := withQ (base (fir 0 0 0)) (outReq (.host 0x1000 0))
     0 * 2 ^ 48 + 0x1000 / 2 ^ 12 ∉ s.ats ∧ ({ s with ats := [1] } : State).mayReach 0 (.host 0x1000 0) = true ∧
     (({ s with ats := [1] } : State).routeTo 0 (.host 0x1000 0) none).isSome = true) ∧
    (let s := withQ (base (fir 0 0 0)) (outReq (.peer 1 2 0x1000))
     s.mayReach 0 (.peer 1 2 0x1000) = true ∧ s.routeTo 0 (.peer 1 2 0x1000) none = none) := by
  refine ⟨by decide, by decide, by decide⟩

theorem witness_release :
    (let q := kq (.add 2 none) false
     let r : KReq := { q with release := true }
     let s := { kst (standing 3 5) r with nCycle := 2 }
     s.kreqs.find? (fun p => decide (p.id = 9)) = some r ∧ (s.launch 0).knotsLive = true ∧ r.captured = none ∧ r.cyc < s.aCycle ∧
     (kst (standing 3 5) r).aCycle ≤ r.cyc) := by decide

/-- A weight-load packet of 8 bytes to an address of the weight stores. -/
def weightPk (a : Nat) : List Word := [2, 0x0600000000001000, BitVec.ofNat 64 (2 * 2 ^ 57 + a), 0x0007000008000001, 0, 0, 0x8000000000000000, 0]

theorem witness_copyQueue :
    (cqState.published ⟨handleOf 0 5, 0, 0, false, 0, 0, 2, 0, 1⟩ = false ∧ cqState.published ⟨handleOf 0 5, 0, 0, false, 0, 0, 2, 0, 0⟩ = true) ∧
    (cqState.enginesRun 0 = true ∧ cqState.enginesHalt 0 = false ∧ (cqState.cluster 0).copy.room = true ∧
      cqState.nextSource 0 = some (2 + 0 * 16 + 3)) ∧
    (weightPacketOk 0 (weightPk 0x30000000) = true ∧ weightPacketOk 0 (weightPk 0x1000) = true ∧ (5, 0) ∉ ((base (fir 0 0 0)).part 0).wrefused) ∧
    (let pk := fun (a : Nat) => { packetOf 4 ⟨none, 0, 0, true⟩ none (weightPk a) with sched := some (.weight 5 0) }
     (base (fir 0 0 0)).weightClash (pk 0x30000000) = false ∧ (base (fir 0 0 0)).weightClash (pk 0x1000) = true) := by
  refine ⟨by decide, by decide +kernel, by decide, by decide⟩

theorem witness_seamAborts :
    (let x := { binding with phase := .boundary, parked := some 4 }
     x.parked = some 4 ∧ x.st ≠ .ending ∧ x.phase ≠ .opening ∧ binding.phase ≠ .boundary) ∧
    (2 / 2 ^ 13 % 8 = 0 ∧ 2 / 2 ^ 18 = 0) ∧ (SeamIn.bind 0 31).broken = false ∧ allDone merging.left = true ∧ merging.endWith = none ∧
    ({ opInst with parked := some 4 } : OpInst).parked.isSome = true := by decide

theorem witness_hems :
    (let hc : HemCl := ⟨1, true, [], [], [], 0, false⟩
     let h : Hem := ⟨0, .retire, [⟨0, true, [], [], [], 0, false⟩, hc], false⟩
     let a : Arrival := ⟨0, ⟨{ tok 1 with cls := .hem, station := 16 }, none⟩, none, 0, 4⟩
     let s := { withL (base (fir 1 2 3)) (fun y => { y with hems := [h] }) with
       clusters := [(0, { Cluster.clear with owner := some 0 }), (1, { Cluster.clear with owner := some 0, arrivals := [a] })] }
     (s.launch 0).hems = [h] ∧ h.at 1 = some hc ∧ hc.seen = true ∧ hc.sent = false ∧ s.inboundAt 1 0 = some 0) ∧
    (let hc : HemCl := ⟨0, true, [9], [], [], 0, false⟩
     let h : Hem := ⟨0, .retire, [hc], false⟩
     let s := { withL (base (fir 1 2 3)) (fun y => { y with hems := [h] }) with reqs := [{ bankReq .store with
       firing := firOf (.stl ⟨.zero, .port, 0, false, true, .always, .u64, .b64, false, false⟩ 0) }] }
     (s.launch 0).hems = [h] ∧ h.at 0 = some hc ∧ s.inboundAt 0 0 = none ∧ (∃ n ∈ hc.notes, n ∈ s.openWrites 0 0)) := by
  refine ⟨by decide, by decide⟩

theorem witness_faultsAway :
    (let s := withL (ovSt (frec 7 .parked)) fun y => { y with st := .saved }
     (s.launch 0).st = .saved ∧ (s.launch 0).ending = none ∧ (frec 7 .parked).state = .parked) ∧
    (withL (ovSt (frec 7 .parked)) fun y => { y with ending := some .abortFault }).launch 0 ≠ (ovSt (frec 7 .parked)).launch 0 := by decide

theorem witness_placing :
    (let s := entering .placing
     let s0 := s.rejectLost 0
     let s1 := (s0.inOrder 0).foldl (fun s e => s.onLaunch e.1 fun x => { x with aged := s.agedNow x }) s0
     let s2 := s1.carveAll 0
     (s.part 0).enable = true ∧ (s2.candidates 0).map Prod.fst = [0] ∧ (s2.legal 0 []).isSome = true ∧ (s2.launch 0).saved = none) ∧
    ((⟨handleOf 0 5, 0, 0, false, 0, 0, 4, 0, 1⟩ : QueueHdr).seen = (lqState.knot (knotKey (handleOf 0 5))).value.toNat ∧
     (⟨handleOf 0 5, 0, 0, false, 0, 0, 4, 0, 0⟩ : QueueHdr).seen ≠ (lqState.knot (knotKey (handleOf 0 5))).value.toNat) := by
  refine ⟨by decide +kernel, by decide⟩

theorem witness_fillsAndSwitches :
    (let g : Cfg := ⟨.initial, [], []⟩
     1 ∉ g.filled ∧ 1 ∈ ((cfgSt g).launch 0).panel.all ∧ ((cfgSt g).launch 0).target ∉ ((cfgSt g).cluster 1).store ∧
     ((cfgSt g).launch 0).target ∉ ((cfgSt g).cluster 1).copy.filling ∧ g.isSwitch = false ∧
     ((withC (cfgSt g) fun c => { c with store := [0] }).launch 0).target ∈ ((withC (cfgSt g) fun c => { c with store := [0] }).cluster 0).store) ∧
    (let g : Cfg := ⟨.switch 1, [], []⟩
     let s := { cfgSt g with patterns := [(0, pat2)] }
     g.isSwitch = true ∧ (s.launch 0).target = 1 ∧ pat2.storeBytes 0 ([] ++ (s.cluster 0).copy.filling ++ [1]) ≤ 262144 ∧
     (s.launch 0).switchHem = false) ∧
    ((cfgSt ⟨.restore, [0, 1], countFrom 0 32⟩).launch 0).saved = none ∧
    (stageSt.waitingAt 0 = [(1, 0)] ∧ (∀ w ∈ stageSt.waitingAt 0, w.1 < 16 ∧ stageSt.aCycle - w.2 ≤ 2100000) ∧
      (∃ w ∈ ({ stageSt with nCycle := 4200002 } : State).waitingAt 0, 2100000 < ({ stageSt with nCycle := 4200002 } : State).aCycle - w.2)) := by
  refine ⟨by decide, by decide, by decide, by decide⟩

theorem witness_deliveries :
    (let a : Arrival := ⟨0, ⟨tok 7, none⟩, none, 0, 4⟩
     let s := withL (withC (base Firing.blank) fun c => { c with arrivals := [a] }) fun y => { y with freeze := some ⟨0, false⟩ }
     s.fits 0 0 a.out = true ∧ ({ s with patterns := [(0, { pat with matchcap := 0 })] } : State).fits 0 0 a.out = false ∧
     ({ stageSt with patterns := [(0, pat2)] } : State).otherStage 0 (tok 7) = some 1) ∧
    (let s := { readyState with patterns := [(0, { pat with matchcap := 0 })], clusters := [(0, { Cluster.clear with
        owner := some 0, stations := [(0, { readySt with table := [] })] })] }
     keyFiring 0 0 0 (s.cluster 0) 0 ⟨0, 0, 0⟩ = none ∧ s.cap 0 ≤ s.tableUse 0 0 0 ∧ s.remnantLimit 0 0 ≤ s.remnantUse 0 0 ∧
     (keyFiring 0 0 0 ((s.onStation 0 0 fun x => { x with arrseq := x.arrseq + 1, table := x.table ++ [⟨tok 7, 1, 0, false⟩] }).cluster 0)
       0 ⟨0, 0, 0⟩).isSome = true) ∧
    ((withL (seedSt (seed 0)) fun y => { y with seedAt := 1 }).aCycle < 1 ∧ ((seedSt (seed 0)).launch 0).seedAt ≤ (seedSt (seed 0)).aCycle ∧
      ((seedSt (seed 0)).launch 0).badGroups = []) := by
  refine ⟨by decide, by decide, by decide⟩

theorem witness_waves :
    (waveSt .commit).issuing 0 0 0 0 ⟨0, 0, 0⟩ = false ∧ (waveSt .commit).mayForward 0 0 (wave .commit).out.tok 1 = true ∧
    (let h : HeldEffect := ⟨1, { fir 1 2 3 with colour := 1 }, none⟩
     let s := withC (waveSt .commit) fun c => c.onStation 0 fun x => { x with held := [h] }
     ((s.uncolour 0 0 0 0 ⟨0, 0, 0⟩ 1).station 0 0).held.find? (fun h => h.firing.under 0 0 0 ⟨0, 0, 0⟩ 1) = some h ∧
     (s.uncolour 0 0 0 0 ⟨0, 0, 0⟩ 1).seamCredits h.firing = true) ∧
    (let s := withL (waveSt .commit) fun y => { y with parked := [⟨9, { fir 1 2 3 with atCommit := true }, .again, 0⟩] }
     s.issuing 0 0 0 0 ⟨0, 0, 0⟩ = true) ∧
    ((base Firing.blank).cluster 0).starve = none ∧
    (withC (base Firing.blank) fun c => { c with starve := some 3 }).cluster 0 ≠ (base Firing.blank).cluster 0 := by
  refine ⟨by decide, by decide, by decide, by decide, by decide, by decide⟩

theorem witness_generators : (gen 1 false).last ≤ (base Firing.blank).aCycle ∧ (base Firing.blank).aCycle < ({ gen 1 false with last := 1 }).last ∧
    (base Firing.blank).seamCredits (gen 1 false).firing = true ∧
    decode (firOf (.phwait ⟨.port, .zero, .zero, true, false, .always, .i32⟩ 5 false)).word =
      .ok (.phwait ⟨.port, .zero, .zero, true, false, .always, .i32⟩ 5 false) := by
  refine ⟨by decide, by decide, by decide, by decide⟩

theorem witness_retirements :
    ((base Firing.blank).launch 0).expired = false ∧
    (withC (base Firing.blank) fun c => { c with touched := 1 }).mayRetire 0 = false ∧
    (withC (base Firing.blank) fun c => { c with touched := 1 }).tallied 0 = true ∧
    ([(0, Cluster.clear), (1, Cluster.clear)].map Prod.fst).Nodup ∧ 0 < freezeBound lnch.panel.all.length := by decide

theorem witness_service :
    doeSt.deaf (fnDie 0) = false ∧ ({ doeSt with restarting := 15 } : State).deaf (fnDie 0) = true ∧ State.reset.restarting ≠ 15 ∧
    (({ State.reset with parts := [(0, { Partition.blank with dsnap := 0x1000, dsnapAt := 147455 })] } : State).part 0).dsnapAt + 1 = 147456 ∧
    ({ doeSt with tdisp := [(0, .run)] } : State).locked 0 = true := by decide

/-! Witnesses for the clauses that read a state further: each names the statement that it serves. -/

theorem witness_agendaWaits :
    (let s := { lqState with retraining := countFrom 0 12, agenda := [.event (.consumePacket 0 3), .event .bringUp] }
     s.agenda = [.event (.consumePacket 0 3)] ++ Act.event .bringUp :: [] ∧
     holds ((Act.event (.consumePacket 0 3)).run { s with agenda := [.event .bringUp] }) (fun t => t.heldHit) = true ∧
     holds ((Act.event .bringUp).run { s with agenda := [.event (.consumePacket 0 3)] }) (fun t => !t.heldHit) = true) := by
  decide +kernel

/-- METER's firing, and a station with a token still to be emitted. -/
def meterFir : Firing := firOf (.meter ⟨.port, .zero, .zero, true, false, .always, .u64⟩ 7)
/-- A token to be emitted in A-cycle 0. -/
def lateTok : Late := ⟨0, addFir, [⟨tok 7, none⟩]⟩

theorem witness_choices : meterFir.later = true ∧ addFir.later = false ∧
    (let s := withC (base Firing.blank) fun c => c.onStation 0 fun x => { x with late := [lateTok] }
     s.lateReady (s.station 0 0) = some lateTok) ∧
    (base addFir).delayOut addFir 1 (base addFir) = base addFir ∧
    (let t := withC (base addFir) fun c => c.onStation 0 fun x => { x with outq := [⟨tok 7, none⟩] }
     (t.station addFir.cl addFir.st).outq.drop ((base addFir).station addFir.cl addFir.st).outq.length ≠ []) := by decide

theorem witness_memoryChecks :
    (base (fir 0x1000 0 0)).Runs (fmM 2 .u64 .b64).pm ∧
    (∀ n : Fin 4, nth pat.ranges n.val = some (nth [rng .l true, rng .n false, rng .g false, rng .w false] n.val |>.getD (rng .l true))) ∧
    (¬ (Space.l.addrOk 0xFF8 8 = true ∧ (rng .l true).base ≤ 0xFF8)) ∧ (0x1004 : Nat) % 8 ≠ 0 ∧
    ({ rng .n false with wr := false } : Range).grants .feclr = false ∧ ({ rng .g false with atom := false } : Range).grants (.upd .add) = false ∧
    (withC (base (colFir 3 0)) id).cur.colour ≠ 0 ∧ ((base (fir 0 0 0)).launch 0).ending = none ∧
    (base (fir 0x1000 0 0)).tracked 0 0 (lineOf 0x2000) = false ∧ (rng .g false).space ≠ .l ∧ (rng .g false).space ≠ .n := by
  refine ⟨base_runs _ _ _, by decide, by decide, by decide, by decide, by decide, by decide, by decide, by decide, by decide, by decide⟩

theorem witness_calendar : ({ base (fir 0x1000 0 0) with calendar := 5000 } : State).refreshing 0 = false ∧
    ({ base (fir 0x1000 0 0) with calendar := 5000 } : State).calendar < 100800 := by decide

theorem witness_copyStops :
    (base (fir 0 0 0)).RunsPlain (fmE 0 1).pm ∧
    (¬ (256 < ((base (fir 0 0 0)).swatch 0 0).length)) ∧ (¬ (5 ≤ ((base (fir 0 0 0)).swatch 0 2).rows)) ∧
    (¬ (5 ≤ ((base (fir 0 0 0)).swatch 0 3).rows ∧ 0 + 4 * 5 ≤ 2 ^ 20)) ∧ (¬ (1 + ((base (fir 0 0 0)).swatch 0 2).rows ≤
      ((base (fir 0 0 0)).swatch 0 3).rows)) ∧
    (let s := { base (fir 0 0 0) with patterns := [(0, { pat with swatches := [⟨.dense, .l, 0x1000, 0, 0, 5, 4, 4, 16, 0⟩, ⟨.dense, .w, 0, 3, 0, 5, 4, 4, 16, 0⟩] })] }
     (s.swatch 0 1).space = .w ∧ (s.swatch 0 0).kind ≠ .region ∧ (s.swatch 0 0).rows ≤ (s.swatch 0 1).rows ∧
     (s.swatch 0 0).cols ≤ (s.swatch 0 1).cols) := by
  refine ⟨base_plain _ _ _, by decide, by decide, by decide, by decide, by decide⟩

/-- SPAWN and CQPUSH, for the queue headers at 0x20000. -/
def spawnE (t : Ty) : FormE := ⟨.port, .port, .zero, true, false, .always, t, false, 0, 0, 0⟩
/-- A machine whose spawn slot is at a step of a command, its queue's header at 0x20000. -/
def spawnSt (i : Instr) (step : Nat) : State :=
  { withC (gbase Firing.blank) fun c => { c with copy := { c.copy with spawn :=
      [⟨{ fir 0x20000 0x20000 0 with word := encode i, consts := [(0, Machine.noKnot)] }, step, bytesOf fillPk, 0, [], none⟩] } } with
    knots := [(5, standing 1 0)]
    hbm := tables ++ [(0x20008, 5), (0x2001B, 4)]
    patterns := [(0, { pat with swatches := [⟨.region, .l, 0x1000, 0, 0, 0, 0, 0, 256, 0⟩] })] }

theorem witness_spawnSteps :
    (let s := spawnSt (.spawn (spawnE .i32) false) 0
     ((s.cluster 0).copy.spawn.map fun c => (c.parked, c.step, decide (decode c.firing.word = .ok (.spawn (spawnE .i32) false)),
       (s.opEB c.firing (spawnE .i32)).toNat)) = [(none, 0, true, 0x20000)] ∧ s.enginesRun 0 = true ∧ s.enginesHalt 0 = false ∧
     s.refreshing 0 = true) ∧
    (let s := spawnSt (.cqpush (spawnE .u64) .dst) 1
     let me := s.clientOf (fir 0 0 0)
     ((s.cluster 0).copy.spawn.map fun c => decide (decode c.firing.word = .ok (.cqpush (spawnE .u64) .dst))) = [true] ∧
     (match s.gRead me 0x20000 8 ⟨true, true, false, 3⟩ with
      | (.ok bs, s1) => (s1.gWrite me 0x20000 (leBytes 8 (leNat bs + 1)) ⟨true, true, false, 3⟩).isOk
      | _ => false) = true) ∧
    (let s := spawnSt (.cqpush (spawnE .u64) .dst) 2
     let me := s.clientOf (fir 0 0 0)
     (match s.gRead me 0x20010 8 Need.read with
      | (.ok rd, s1) => (match s1.gRead me 0x20018 8 Need.read with
        | (.ok w3, _) => decide ((BitVec.ofNat 64 0 - BitVec.ofNat 64 (leNat rd)).toNat < ringSize (leNat w3 % 16))
        | _ => false)
      | _ => false) = true) ∧
    ((wordAt [0x100] 0).getLsbD 8 = true ∧ (wordAt (wordsOf (bytesOf fillPk)) 0).getLsbD 8 = false ∧
     ((spawnSt (.spawn (spawnE .i32) true) 1).cluster 0).copy.spawn.map (fun c => decide (decode c.firing.word =
       .ok (.spawn (spawnE .i32) true))) = [true]) ∧
    (let s := spawnSt (.spawn (spawnE .i32) false) 3
     let me := s.clientOf (fir 0 0 0)
     (match s.gRead me 0x20018 8 Need.read with
      | (.ok _, s1) => (match s1.gWrite me 0x20040 (bytesOf fillPk) Need.write with
        | .ok s2 => (match s2.gWrite me 0x20040 (leBytes 8 (2 + 2 ^ 63)) Need.write with
          | .ok s3 => (match s3.gRead me 0x20008 8 Need.read with
            | (.ok kn, s4) => decide ((s4.engineAdd 0 (some 0) 0 (BitVec.ofNat 64 (leNat kn)) 1).1 = .done)
            | _ => false)
          | _ => false)
        | _ => false)
      | _ => false) = true) ∧
    (let s := spawnSt (.spawn (spawnE .i32) false) 4
     ((s.onCluster 0 fun k => { k with copy := { k.copy with spawn := k.copy.spawn.drop 1 } }).engineAdd 0 (some 0) 0 Machine.noKnot 1).1 = .done) := by
  refine ⟨by decide, by decide +kernel, by decide +kernel, by decide, by decide +kernel, by decide⟩

/-- A request that the portal of die 0 has sent under a tag. -/
def taggedReq (n : Nat) : Req := gReq (.amo .swap) (.sent (.host 0 0) ⟨0, 0, none, some n⟩)

theorem witness_tagsTaken : ∀ n, n < 4096 →
    n ∈ ({ base Firing.blank with reqs := (List.range 4096).map taggedReq } : State).tagsUsed 0 := by
  intro n h
  generalize (4096 : Nat) = m at *
  exact List.mem_append_left _ (List.mem_filterMap.2 ⟨taggedReq n, List.mem_map.2 ⟨n, List.mem_range.2 h, rfl⟩, by simp [taggedReq, gReq, fir, Firing.blank]⟩)

/-- A machine whose tables go down to the third level. -/
def deepTables (leaf : Byte) : State := { base Firing.blank with
  hbm := [(0, 1), (2, 2), (0x20000, 1), (0x20002, 4), (0x40000, leaf)] }

theorem witness_walk :
    (let q := gReq (.amo .cas) (.placed (.peer 0 2 0x1000))
     let s := withQ (base Firing.blank) q
     q.kind.atomic = true ∧ s.tagsUsed (q.firing.cl / 128) = [] ∧ s.mayReach 0 (.peer 0 2 0x1000) = true ∧
     (s.routeTo 0 (.peer 0 2 0x1000) (some 0)).isSome = true) ∧
    (let s := gbase Firing.blank
     s.keyOk 0 0 = true ∧ leNat (s.hbmRead 0 0 8) = 0x20001 ∧ leNat (s.hbmRead 0 0x20000 8) = 0xDF) ∧
    (let s := deepTables 0xDF
     s.keyOk 0 0 = true ∧ leNat (s.hbmRead 0 0x20000 8) = 0x40001 ∧ leNat (s.hbmRead 0 0x40000 8) = 0xDF) ∧
    leNat ((deepTables 0xFF).hbmRead 0 0x40000 8) / 2 ^ 5 % 2 = 1 ∧
    ({ base Firing.blank with parts := [(0, { Partition.blank with tkey := 5 })] } : State).keyOk 0 5 = false ∧
    (gbase Firing.blank).keyOk 0 7 = false := by
  refine ⟨by decide, by decide, by decide, by decide, by decide, by decide⟩

/-! The tensor unit's commands. -/

/-- A unit with its current command, tiles 1 and 2 of 4 × 4 bf16 elements, tile 3 of one such row, and tile 4 of YB8 elements. -/
def tileSt (i : Instr) (g : TRun → TRun := id) : State :=
  withC (base Firing.blank) fun c => { c with tensor := { TensorUnit.blank with
    cur := some (g ⟨firOf i, true, 0, [], none⟩)
    shapes := [(1, 0x400404), (2, 0x400404), (3, 0x400401), (4, 0x602004), (5, 0x1400404), (6, 0x408040), (7, 0x408040)] } }
/-- Whether the command is the only thing open to the unit, whose launch runs. -/
def onlyCommand (s : State) : Bool :=
  decide (s.ownerOf 0 = some 0 ∧ (s.launch 0).engines = true ∧ s.unitActs 0 = [.command] ∧ (s.unit 0).cur.isSome = true)

theorem witness_tensorShapes :
    (let u := ((tileSt .bringUp).unit 0)
     (u.shape 1).set = true ∧ u.allFull 1 = true ∧ (u.shape 1).elem = 4 ∧ (u.shape 4).yb = true ∧ (u.shape 4).set = true ∧ u.allFull 4 = true ∧
     (u.shape 9).set = false ∧ (u.shape 5).fe = true ∧
     (u.shape 3).rows = 1 ∧ (u.shape 3).cols = (u.shape 1).cols ∧ ¬ ((u.shape 6).rows = 1 ∨ (u.shape 6).rows = (u.shape 1).rows) ∧
     Machine.Shape.legal ⟨4, 4, 5, false⟩ = true ∧ Machine.Shape.legal ⟨200, 4, 5, false⟩ = false ∧
     ({ u with rowEmpty := [(5 * 192 + 1, true)] }).allFull 5 = false) ∧
    (∀ i ∈ [Instr.tmul { ftE .bf16 with tb := 3 }, .tredSum ⟨.port, .zero, 8, 1, 0, 0, 0, 0, true, false, .always, .f32⟩,
        .tredSum ⟨.port, .zero, 8, 1, 0, 0, 0, 1, true, false, .always, .f32⟩, .tredMax ⟨.port, .zero, 8, 1, 0, 0, 0, 0, true, false, .always, .f32⟩,
        .tqnt ⟨.port, .zero, 8, 1, 0, 0, 0, 5, true, false, .always, .yb8⟩, .tdq ⟨.port, .zero, 8, 4, 0, 0, 0, 0, true, false, .always, .f32⟩,
        .tcvt ⟨.port, .zero, 8, 1, 0, 0, 0, 8, true, false, .always, .e4m3⟩, .tmovq ⟨.port, .port, 8, 0, 0, 2, 0, 0, true, false, .always, .f32⟩,
        .tzeroCarry ⟨.port, .zero, 0, 0, 0, 0, 0, 5, true, false, .always, .e4m3⟩],
      decode (firOf i).word = .ok i ∧ onlyCommand (tileSt i) = true) ∧
    (Machine.bitsOf (0x0203 : Nat) 8 8 = 2 ∧ Machine.bitsOf (0x0203 : Nat) 0 7 + 2 ≤ 128) := by
  refine ⟨by decide, by decide, by decide⟩

theorem witness_rowTokens :
    (let a : Arrival := ⟨0, ⟨{ tok 0x300000 with cls := .tile }, some (2, 0, 15)⟩, none, 0, 4⟩
     let s := { (withC (base Firing.blank) fun c => { c with arrivals := [a] }) with
       patterns := [(0, { pat with stages := [⟨none, [], [], [], [2, 2], []⟩] })] }
     s.arrivalAt 0 0 = some a ∧ ((s.unit 0).shape 15).fe = false ∧
     s.remnantUse 0 0 < s.remnantLimit 0 0 ∧ s.remnantUse 0 0 + (s.cluster 0).stageUse < 8192) ∧
    (let a : Arrival := ⟨0, ⟨{ tok 0x300000 with cls := .tile }, some (2, 0, 5)⟩, none, 0, 4⟩
     let s := withC (tileSt .bringUp) fun c => { c with arrivals := [a] }
     s.arrivalAt 0 0 = some a ∧ ((s.unit 0).shape 5).fe = true ∧ ((s.unit 0).shape 5).rows = 4 ∧
     getAt (s.unit 0).rowEmpty (5 * 192 + 3) false = false ∧ (s.launch 0).freeze.isSome = false ∧
     ¬ ({ s with patterns := [(0, { pat with matchcap := 0 })] }.remnantUse 0 0 < 0)) ∧
    ((tok 7).cls ≠ .tile ∧ (4 : Nat) ≤ 0x400000 / 2 ^ 20 % 256) := by
  refine ⟨by decide, by decide, by decide⟩

theorem witness_rowCommands :
    (let x : FormT := ⟨.port, .port, 0, 1, 2, 0, 0, 0, true, false, .always, .bf16⟩
     let s := tileSt (.tmma x) fun r => { r with started := false }
     let u := s.unit 0
     decode (firOf (.tmma x)).word = .ok (.tmma x) ∧ onlyCommand s = true ∧ (u.shape 1).elem = codeOf .bf16 ∧ (u.shape 2).elem = codeOf .bf16 ∧
     (u.shape 2).cols ≤ 128 ∧ (u.shape 2).rows ≤ chunkK (codeOf .bf16) ∧ u.full 1 0 = true ∧ u.allFull 2 = true ∧ u.outRow = [] ∧
     Machine.bitsOf (0x0101 : Nat) 8 8 = 1 ∧ 1 + 1 ≤ (u.shape 1).rows) ∧
    (let x : FormT := ⟨.port, .port, 8, 0, 0, 0, 2, 0, true, false, .always, .e4m3⟩
     let s := tileSt (.tld x) fun r => { r with accs := [accW] }
     decode (firOf (.tld x)).word = .ok (.tld x) ∧ onlyCommand s = true ∧ s.refreshing 0 = true ∧
     Machine.Shape.legal ⟨2, (s.swatch 0 2).cols, (s.swatch 0 2).elem, false⟩ = true ∧ 2 + 2 ≤ (s.swatch 0 2).rows) ∧
    (let x : FormT := ⟨.port, .zero, 0, 1, 0, 0, 2, 0, true, false, .always, .e4m3⟩
     let s := tileSt (.tst x)
     decode (firOf (.tst x)).word = .ok (.tst x) ∧ onlyCommand s = true ∧ (s.unit 0).full 1 0 = true ∧
     ((s.unit 0).shape 1).cols = (s.swatch 0 2).cols ∧ 0 + ((s.unit 0).shape 1).rows ≤ (s.swatch 0 2).rows ∧
     ((s.unit 0).shape 1).elem ≠ (s.swatch 0 2).elem) ∧
    (let x : FormT := ⟨.port, .port, 0, 1, 0, 0, 2, 0, true, false, .always, .e4m3⟩
     decode (firOf (.trow x)).word = .ok (.trow x) ∧ onlyCommand (tileSt (.trow x)) = true) ∧
    (let x : FormT := ⟨.port, .zero, 0, 1, 0, 0, 0, 1, true, false, .always, .e4m3⟩
     decode (firOf (.trowStr x)).word = .ok (.trowStr x) ∧ onlyCommand (tileSt (.trowStr x)) = true) ∧
    (let x : FormT := ⟨.port, .port, 8, 6, 7, 0, 0, 2, true, false, .always, .f32⟩
     let u := (tileSt (.tscan x)).unit 0
     decode (firOf (.tscan x)).word = .ok (.tscan x) ∧ onlyCommand (tileSt (.tscan x)) = true ∧ (u.shape 6).cols = 128 ∧ (u.shape 7).cols = 128 ∧
     u.full 6 3 = true ∧ u.full 7 3 = true) ∧
    (let x : FormT := ⟨.port, .port, 0, 0, 0, 0, 0, 2, true, false, .always, .e4m3⟩
     decode (firOf (.tcarrySave x)).word = .ok (.tcarrySave x) ∧ onlyCommand (tileSt (.tcarrySave x)) = true ∧
     ((tileSt (.tcarrySave x)).unit 0).swapped.getLsbD 2 = false ∧ badHandle Machine.noKnot = false ∧ badHandle 0x1000000000000000 = true ∧
     (0 : Nat) % 8 = 0 ∧ (0 : Nat) + 512 ≤ 512) ∧
    (let x : FormT := ⟨.port, .zero, 0, 0, 0, 0, 0, 2, true, false, .always, .e4m3⟩
     decode (firOf (.tcarryLoad x)).word = .ok (.tcarryLoad x) ∧
     onlyCommand (tileSt (.tcarryLoad x) fun r => { r with accs := [accL] }) = true) := by
  refine ⟨by decide, by decide, by decide, by decide, by decide, by decide, by decide, by decide⟩

/-! The stream operators, the seam's rows and the unmask commands. -/

/-- An operator of a kind with a circuit on each output and words at its inputs. -/
def opSt (o : OpInst) (q0 q1 : List SWord) : State := streamSt (fir 1 2 3) fun b => { b with
  ops := [o], queues := [(o.input 0, q0), (o.input 1, q1)], circuits := [(o.output 0, endpoint 0 14 0 2), (o.output 1, endpoint 0 14 0 3)] }
/-- Whether the operator has only its words to take. -/
def onlyWords (o : OpInst) (q0 q1 : List SWord) : Bool :=
  let s := opSt o q0 q1
  decide (nth (s.fab 0).ops 0 = some o ∧ o.parked = none ∧ (s.launch 0).engines = true ∧
    o.acts (s.fab 0) (!(s.launch 0).halting) = [.words] ∧ o.drop = 0 ∧ o.pend = [] ∧ (s.fab 0).queue (o.input 0) = q0 ∧ (s.fab 0).queue (o.input 1) = q1)

theorem witness_streamWords :
    (∀ e ∈ [(7, 0), (7, 5), (8, 0), (8, 1), (8, 15), (11, 0), (12, 4)], onlyWords { opInst with kind := e.1 } [⟨3, 4, BitVec.ofNat 4 e.2⟩] [] = true) ∧
    (∀ e ∈ [(3, 4), (4, 5), (6, 4)], ∀ m ∈ [0, 1], onlyWords { opInst with kind := e.1 } [⟨3, 4, m⟩] [⟨2, BitVec.ofNat 32 e.2, m⟩] = true) ∧
    ({ opInst with kind := 8, p0 := 0x30 } : OpInst).mode = 3 ∧ ({ opInst with prev0 := some 3 } : OpInst).prev0 = some 3 ∧
    zeroIn opInst.vt 0 = true ∧ zeroIn opInst.vt 5 = false ∧
    (let b := (opSt opInst [] []).fab 0
     b.consumer (opInst.output 0) ≠ none ∧ b.canSend (opInst.output 1) = true ∧ (fabric.consumer (opInst.output 0)) = none ∧
     ({ b with credits := [(opInst.output 1, 16)] } : StreamFab).canSend (opInst.output 1) = false) := by
  refine ⟨by decide, by decide, by decide, by decide, by decide, by decide, by decide⟩

/-- A context of that machine in a phase of its first row, and that its step is open. -/
def rowAt (p : SeamPhase) : SeamCtx := { merging with phase := p, ents := [(1, 5), (3, 7)], ovcap := 4 }
/-- Whether a context goes on. -/
def goesOn (x : SeamCtx) : Bool := decide ((seamSt (fir 1 2 3) x).seamActive 0 1 0 = some (1, x) ∧ x.st = .merging ∧ allDone x.accs = true)

theorem witness_seamRow :
    (let x := { rowAt .reading with inputs := [{ SeamIn.bind 0 31 with rows := [⟨0, [(1, 5), (3, 7)], none, [], false⟩] }] }
     goesOn x = true ∧ x.level = 0 ∧ x.lastLevel 32 = true ∧ x.accs = [] ∧
     ((x.groupInputs 32).all fun i => (i.rows.head?.map fun f => f.long.isNone && decide (f.row = x.row)).getD false) = true) ∧
    (∀ p ∈ [SeamPhase.entries, .pointers, .trailing, .run], goesOn { rowAt p with accs := [{ accL with done := true }] } = true) ∧
    (goesOn (rowAt .entries) = true ∧ nth (rowAt .entries).ents 0 = some (1, 5) ∧ goesOn { rowAt .entries with entries := 100 } = true) ∧
    (let s := seamSt (fir 1 2 3) (rowAt .entries)
     (s.seamOut (rowAt .entries)).aux0 / 2 ^ 32 = 0 ∧
     ({ s with patterns := [(0, { pat with swatches := List.replicate 3 ⟨.dense, .l, 0x1000, 0, 0, 5, 4, 4, 0x1000000000, 0⟩ })] }.seamOut
       (rowAt .entries)).aux0 / 2 ^ 32 = 16) ∧
    (∀ p ∈ [0, 1, 2], goesOn { rowAt .pointers with ptr := p } = true) ∧
    (∀ k ∈ [0, 1, 2], goesOn { rowAt .run with runAt := 64, idx := k } = true) := by
  refine ⟨by decide, by decide, by decide, by decide, by decide, by decide⟩

/-- Whether a started command with its accesses done is at the head of its context. -/
def umGoes (i : Instr) (g : UmCmd → UmCmd := id) : Bool :=
  let q := g (umCmd i [])
  let s := umSt (fir 1 2 3) 0 { umOpen with queue := [q] }
  decide ((s.umCtx 0 0).queue = q :: [] ∧ (s.launch q.firing.launch).engines = true ∧ q.parked = none ∧ q.started = true ∧ allDone q.accs = true ∧
    q.tok = none ∧ decode q.firing.word = .ok i)
/-- An instruction of two swatches. -/
def umF : FormE := ⟨.port, .port, .zero, true, false, .always, .i32, false, 0, 1, 0⟩
/-- The same with a knot and an add. -/
def umK : FormE := ⟨.port, .port, .port, true, false, .always, .i32, false, 1, 1, 0⟩

theorem witness_unmaskCommands :
    (∀ i ∈ [Instr.umqryMask umE, .umqryDirty umE, .umqryRound umE, .umscore { umE with sw1 := 1 } false, .umscore { umE with sw1 := 1 } true,
        .umtap { umE with sw1 := 1 }, .umclr umE], ∀ p ∈ [0, 1, 2], umGoes i (fun q => { q with phase := p }) = true) ∧
    (∀ i ∈ [Instr.umrank { umE with sb := .zero, sw1 := 1 }, .umdirty { umE with sb := .zero }],
      ∀ p ∈ [0, 1, 2, 3, 4, 5], umGoes i (fun q => { q with phase := p, list := [(3, 5)], seeds := [1, 2] }) = true) := by
  refine ⟨by decide, by decide⟩

/-! Admission, the system registers in memory, the router's flits and the iterations. -/

/-- A machine that admits: one partition with every cluster, one pattern. -/
def admitSt : State := { State.reset with
  patterns := [(0, pat)], parts := [(0, { Partition.blank with enable := true, quota := 1, allot := BitVec.allOnes 512 })] }
/-- A launch packet for that pattern. -/
def admitPk : List Word := [1, 0, 0, Machine.noKnot, Machine.noKnot, 0, Machine.noKnot, 0]

/-- Whether a packet fails the check of a number, those before it passing. -/
def firstFails (s : State) (p : List Word) : Nat :=
  let w := fun i => (wordAt p i).toNat
  let valid := fun (h : Word) => h = Machine.noKnot ∨ s.isStanding 0 h = true
  if ¬ (w 0 % 256 = 1 ∧ launchPacketClean p = true) then 1
  else if ¬ (w 0 / 2 ^ 32 % 2 ^ 6 = 0 ∧ (s.part 0).enable = true) then 2
  else match s.handleOf? 0 (wordAt p 1) with
    | none => 3
    | some (_, t) =>
      let held := (countFrom 0 512).filter fun k => (s.part 0).allot.getLsbD k
      if ¬ (valid (wordAt p 6) ∧ valid (wordAt p 3) ∧ valid (wordAt p 4)) then 4
      else if t.stages.length ≤ w 2 % 2 ^ 4 then 5
      else if ¬ (w 2 / 2 ^ 32 % 2 ^ 8 = 0 ∨ w 2 / 2 ^ 32 % 2 ^ 8 = t.fw) then 6
      else if held.length < t.fw * t.fh * t.fdies then 7
      else if 4096 * held.length < t.knots then 8
      else 9

theorem witness_admission :
    firstFails admitSt admitPk = 9 ∧ firstFails admitSt [9] = 1 ∧ firstFails admitSt [0x100000001, 0, 0, Machine.noKnot] = 2 ∧
    firstFails admitSt [1, 7] = 3 ∧ firstFails admitSt [1, 0, 0, 5, Machine.noKnot, 0, Machine.noKnot] = 4 ∧
    firstFails admitSt [1, 0, 3, Machine.noKnot, Machine.noKnot, 0, Machine.noKnot] = 5 ∧
    firstFails admitSt [1, 0, 0x700000000, Machine.noKnot, Machine.noKnot, 0, Machine.noKnot] = 6 ∧
    firstFails { admitSt with parts := [(0, { Partition.blank with enable := true })] } admitPk = 7 ∧
    firstFails { admitSt with patterns := [(0, { pat with knots := 0x200001 })] } admitPk = 8 := by decide +kernel

/-- A launch with an overflow area. -/
def fqSt : State := withL (gbase (fir 1 2 3)) fun y => { y with ovArea := some 0x1000 }

theorem witness_systemRegisters :
    (fqSt.gRead (queueClient 0 0) 0x1004 4 .read).1.isOk = true ∧
    (match fqSt.gRead (queueClient 0 0) 0x1004 4 .read with
      | (_, t) => (t.gWrite (queueClient 0 0) 0x1004 (leBytes 4 0) .write).isOk) = true ∧
    (fqSt.launch 0).ovArea = some 0x1000 ∧ (fqSt.launch 0).wdog = none ∧ (fqSt.pattern 0).isSome = true ∧ fqSt.RunsPlain (fmX .u64).pm ∧
    ((withL fqSt fun y => { y with wdog := some 9 }).launch 0).wdog = some 9 :=
  ⟨by decide, by decide, by decide, by decide, by decide, ⟨⟨rfl, rfl, rfl⟩, rfl⟩, by decide⟩

theorem witness_fullTable :
    (let s := { (withC (base Firing.blank) fun c => { c with stations := [(0, { Station.clear with table := List.replicate 2 (opnd 1) })] }) with
       patterns := [(0, { pat with matchcap := 2, stages := [⟨none, [], [], [], [2, 2], []⟩] })] }
     s.cap 0 ≤ s.tableUse 0 0 0 ∧ s.remnantUse 0 0 < s.remnantLimit 0 0 ∧
     s.remnantUse 0 0 + (s.cluster 0).remnant.countP (fun r => decide (r.kind = .stageWait)) < 8192) ∧
    (stageSt.cluster 0).remnant.countP (fun r => decide (r.kind = .stageWait)) + 1 ≤ 8192 - stageSt.remnantLimit 0 0 := by
  refine ⟨by decide, by decide⟩

/-- A token for station 0 of the panel's cluster 1. -/
def away : OutTok := ⟨{ tok 7 with station := 16 }, none⟩
/-- A token for unmask.in. -/
def toUnmask : OutTok := ⟨tok 7, some (4, 0, 0)⟩
/-- A machine whose station 0 has a head. -/
def headSt (t : OutTok) : State := withC (base Firing.blank) fun c => { c with stations := [(0, { Station.clear with outq := [t] })] }

theorem witness_routers :
    (let f := { flit (.router 0 1) with moved := false }
     let s := { base Firing.blank with flits := [f] }
     s.flits.filter (fun f => !f.moved && match f.at_ with | .router k _ => decide (k = 0) | _ => false) = [f]) ∧
    (headSt away).heads 0 0 (fun w => match w with | .mesh k => ((headSt away).cluster 0).credit k | _ => false) = [(0, away)] ∧
    (headSt away).starved 0 0 = false ∧ outputOf ((headSt away).launch 0).panel [0, 0, 0, 0] 0 1 = some (0, 1) ∧
    outputOf ((headSt away).launch 0).panel [2, 0, 0, 0] 0 1 = none ∧
    ((headSt away).onCluster 1 fun c => { c with starve := some 0 }).nCycle = 0 ∧
    ({ ((headSt away).onCluster 1 fun c => { c with starve := some 0 }) with nCycle := 5 } : State).starved 0 0 = true ∧
    (headSt toUnmask).heads 0 0 (fun w => match w with | .spine (.cluster k) => ((headSt toUnmask).cluster 0).credit k | .spine _ => true | _ => false)
      = [(0, toUnmask)] ∧
    ((headSt toUnmask).spineFifo 0 0).length < 16 := by
  refine ⟨by decide, by decide, by decide, by decide, by decide, by decide, by decide, by decide, by decide⟩

theorem witness_iterations :
    (let s := withL (base Firing.blank) fun y => { y with gens := [gen 1 false], insts := [(0, root)] }
     let i := root
     (s.launch 0).gens = [gen 1 false] ∧ look (s.launch 0).insts 0 = some i ∧ i.freeing = false ∧
     (i.iter (i.nextIter % i.iters.length)).st ≠ .free ∧
     ({ i with nextIter := 1 }.iter (1 % i.iters.length)).st = .free ∧ (gen 1 false).inst = 0) ∧
    (let x : FormX := ⟨.port, .zero, .zero, true, false, .always, .i32⟩
     let w : Parked := ⟨4, firOf (.ticket x 7 5), .ticket 7 5, 0⟩
     let s := withL (base Firing.blank) fun y => { y with parked := [w] }
     ((s.launch 0).parked.find? fun p => decide (p.firing.cl = 0) && (match p.why with | .ticket a _ => decide (a = 7) | _ => false)) = some w) := by
  refine ⟨by decide, by decide⟩

/-- The header of an image of 152 bytes with an ISA version: one stage, five sections. -/
def tinyHeader (isa : Byte) : List Byte :=
  leBytes 4 0x594B5A01 ++ leBytes 2 1 ++ [isa, 0, 1, 1, 1, 1] ++ leBytes 2 1 ++ leBytes 2 5 ++ leBytes 8 152 ++ List.replicate 40 0
/-- An entry of the directory: a section's type, place and size. -/
def tinySection (ty off size : Nat) : List Byte := leBytes 4 ty ++ leBytes 4 off ++ leBytes 4 size ++ leBytes 4 0
/-- An image with no slot. -/
def tinyImage : List Byte := tinyHeader 3 ++ tinySection 1 144 8 ++ tinySection 2 152 0 ++ tinySection 3 152 0 ++ tinySection 9 152 0 ++
  tinySection 10 152 0 ++ leBytes 8 0

theorem witness_registration :
    (∀ img ∈ [tinyImage, tinyHeader 4 ++ List.replicate 88 0, tinyHeader 3 ++ List.replicate 88 0],
      let b := imgNat img
      64 ≤ img.length ∧ b 0 4 = 0x594B5A01 ∧ b 4 2 = 1 ∧ b 7 1 < 8 ∧ 1 ≤ b 8 1 ∧ b 8 1 ≤ 16 ∧ 1 ≤ b 9 1 ∧ b 9 1 ≤ 8 ∧
        1 ≤ b 10 1 ∧ b 10 1 ≤ 4 ∧ 1 ≤ b 11 1 ∧ b 11 1 ≤ 16 ∧ 1 ≤ b 12 2 ∧ b 16 8 = img.length ∧ ∀ x ∈ (img.drop 24).take 40, x = 0) ∧
    (imgNat tinyImage 6 1 = 3 ∧ imgNat (tinyHeader 4) 6 1 = 4 ∧ directoryOk tinyImage = true ∧
      directoryOk (tinyHeader 3 ++ List.replicate 88 0) = false) ∧
    (match parseImage tinyImage 0 0 0 with
      | some im => (im.analyse.failing 2).isEmpty
      | none => false) = true ∧
    State.reset.patternBy 0 0 = none ∧ ({ State.reset with patterns := [(0, pat)] } : State).patternBy 0 0 = some (0, pat) ∧
    State.reset.freeIndex = some 0 := by
  refine ⟨by decide +kernel, by decide +kernel, by decide +kernel, by decide, by decide, by decide +kernel⟩

theorem witness_EveryStepSettles : ∃ t : State, step { State.reset with agenda := [.event .bringUp] } = .next t := ⟨_, rfl⟩

end Sys2Proof.Tests
end

section
/-! SUPPORT. Results of the shifts, the bit counts and the field instructions (R194, R195, R197): reading and forming a scalar (R39) as
bit vectors, what each function of Machine/Arith.lean gives bit by bit, and the three statements. -/

namespace Sys2Proof

theorem Ty.width_pos (ty : Ty) : 0 < ty.width := by cases ty <;> decide

theorem Ty.word_zero (ty : Ty) : ty.word 0#ty.width = 0 := by cases ty <;> rfl

end Sys2Proof

namespace Sys2Proof.Machine

/-! Reading and forming a scalar (R39). -/

/-- What an operand is read as is its w-bit pattern. -/
theorem readBits_eq_toNat (ty : Ty) (w : Word) : readBits ty w = (ty.bits w).toNat := (BitVec.toNat_setWidth ..).symm

/-- Sign extension from bit n−1 is the signed value of the n-bit pattern. -/
theorem sext_eq_toInt (n v : Nat) : sext n v = (BitVec.ofNat n v).toInt := by
  simp only [sext, BitVec.toInt, BitVec.toNat_ofNat]

/-- A natural result is formed from its pattern modulo 2^w. -/
theorem formBits_eq_word (ty : Ty) (v : Nat) : formBits ty v = ty.word (BitVec.ofNat ty.width v) := by
  cases ty with
  | i32 => simp only [formBits, sext_eq_toInt]; rfl
  | _ => exact BitVec.eq_of_toNat_eq (by simp [formBits, Ty.word, isSigned, Ty.width])

/-- An integer result is formed from its pattern modulo 2^w. -/
theorem formInt_eq_word (ty : Ty) (i : Int) : formInt ty i = ty.word (BitVec.ofInt ty.width i) := by
  have hp : (BitVec.ofInt ty.width i).toNat = (i % (2 ^ ty.width : Nat)).toNat := BitVec.toNat_ofInt ..
  rw [formInt, formBits_eq_word, ← hp, BitVec.ofNat_toNat, BitVec.setWidth_eq]

/-- A number that w−1 bits hold is formed as itself under every type of w bits. -/
theorem formBits_of_lt (ty : Ty) (n : Nat) (h : 2 * n < 2 ^ ty.width) : formBits ty n = BitVec.ofNat 64 n := by
  cases ty with
  | i32 =>
    have hn : n < 2 ^ 32 := by simp only [Ty.width] at h; omega
    have hs : sext 32 n = n := by simp only [sext, Nat.mod_eq_of_lt hn]; exact if_pos h
    simp only [formBits, hs, wordOfInt, BitVec.ofInt_natCast]
  | _ => simp only [formBits]; rw [Nat.mod_eq_of_lt (by omega)]

/-- A count of bits is formed as itself. -/
theorem formBits_of_le_width (ty : Ty) (n : Nat) (h : n ≤ ty.width) : formBits ty n = BitVec.ofNat 64 n :=
  formBits_of_lt ty n (by cases ty <;> simp only [Ty.width] at h ⊢ <;> omega)

/-! The rows of Table 9.1 whose firing proceeds. -/

section
variable {s : State} {x : FormA} (h : s.Runs x.pm)
include h

theorem State.int1_runs (op : Ty → Word → Word) :
    s.int1 x op = .next (s.scalar s.cur x.pm (op x.ty (s.opA s.cur x)) 0) := State.fire_runs h _

theorem State.int2_runs (op : Ty → Word → Word → Word) :
    s.int2 x op = .next (s.scalar s.cur x.pm (op x.ty (s.opA s.cur x) (s.opB s.cur x)) 0) := State.fire_runs h _

theorem State.int3_runs (op : Ty → Word → Word → Word → Word) :
    s.int3 x op = .next (s.scalar s.cur x.pm (op x.ty (s.opA s.cur x) (s.opB s.cur x) (s.opC s.cur x)) 0) := State.fire_runs h _

end

/-! The shifts (R194). -/

theorem shiftCount_lt (ty : Ty) (b : Word) : shiftCount ty b < ty.width := Nat.mod_lt _ ty.width_pos

theorem shlInt_eq_word (ty : Ty) (a b : Word) : shlInt ty a b = ty.word (ty.bits a <<< shiftCount ty b) := by
  rw [shlInt, formBits_eq_word, readBits_eq_toNat, ← Nat.shiftLeft_eq]
  rfl

theorem shrInt_eq_word (ty : Ty) (a b : Word) : shrInt ty a b = ty.word (ty.bits a >>> shiftCount ty b) := by
  rw [shrInt, formBits_eq_word, readBits_eq_toNat, ← Nat.shiftRight_eq_div_pow, ← BitVec.toNat_ushiftRight, BitVec.ofNat_toNat,
    BitVec.setWidth_eq]

theorem sraInt_eq_word (ty : Ty) (a b : Word) : sraInt ty a b = ty.word ((ty.bits a).sshiftRight (shiftCount ty b)) := by
  have ha : sext ty.width a.toNat = (ty.bits a).toInt := by rw [sext_eq_toInt, BitVec.ofNat_toNat, Ty.bits]
  rw [sraInt, formInt_eq_word, ha, ← Int.shiftRight_eq_div_pow, ← BitVec.toInt_sshiftRight, BitVec.ofInt_toInt]

/-- A pattern shifted left by n, plus the n bits shifted out at its top, is its left rotation. -/
theorem ofNat_add_div_eq_rotateLeft {w : Nat} (a : BitVec w) (n : Nat) (h : n < w) :
    BitVec.ofNat w (a.toNat * 2 ^ n + a.toNat / 2 ^ (w - n)) = a.rotateLeft n := by
  have hlow : a.toNat / 2 ^ (w - n) < 2 ^ n := by
    rw [Nat.div_lt_iff_lt_mul (Nat.two_pow_pos _), ← Nat.pow_add, Nat.add_sub_cancel' h.le]
    exact a.isLt
  ext j hj
  rw [← BitVec.getLsbD_eq_getElem hj, ← BitVec.getLsbD_eq_getElem hj, BitVec.getLsbD_ofNat, BitVec.getLsbD_rotateLeft,
    Nat.mod_eq_of_lt h, Nat.mul_comm, Nat.testBit_two_pow_mul_add _ hlow, Nat.testBit_div_two_pow, BitVec.testBit_toNat,
    BitVec.testBit_toNat, Nat.add_comm j, decide_eq_true hj]
  simp

theorem rotInt_eq_word (ty : Ty) (a b : Word) : rotInt ty a b = ty.word ((ty.bits a).rotateLeft (shiftCount ty b)) := by
  rw [rotInt, formBits_eq_word, readBits_eq_toNat, ofNat_add_div_eq_rotateLeft _ _ (shiftCount_lt ty b)]

/-! The bit counts and BREV (R195). -/

theorem clzGo_le (v n : Nat) : clzGo v n ≤ n := by
  induction n with
  | zero => exact Nat.le_refl 0
  | succ n ih => rw [clzGo]; split <;> omega

/-- The bits that CLZ counts are 0. -/
theorem testBit_of_lt_clzGo (v n j : Nat) (h : j < clzGo v n) : v.testBit (n - 1 - j) = false := by
  induction n generalizing j with
  | zero => simp [clzGo] at h
  | succ n ih =>
    rw [clzGo] at h
    split at h
    next => omega
    next hn =>
      cases j with
      | zero => simp [hn]
      | succ j => rw [show n + 1 - 1 - (j + 1) = n - 1 - j by omega]; exact ih j (by omega)

/-- The bit at which CLZ ends is 1. -/
theorem testBit_clzGo (v n : Nat) (h : clzGo v n < n) : v.testBit (n - 1 - clzGo v n) = true := by
  induction n with
  | zero => omega
  | succ n ih =>
    rw [clzGo] at h ⊢
    split at h
    next hn => simp [hn]
    next hn =>
      rw [if_neg hn, show n + 1 - 1 - (clzGo v n + 1) = n - 1 - clzGo v n by omega]
      exact ih (by omega)

theorem ctzGo_le (v i n : Nat) : ctzGo v i n ≤ n := by
  induction n generalizing i with
  | zero => exact Nat.le_refl 0
  | succ n ih => rw [ctzGo]; have := ih (i + 1); split <;> omega

/-- The bits that CTZ counts are 0. -/
theorem testBit_of_lt_ctzGo (v i n j : Nat) (h : j < ctzGo v i n) : v.testBit (i + j) = false := by
  induction n generalizing i j with
  | zero => simp [ctzGo] at h
  | succ n ih =>
    rw [ctzGo] at h
    split at h
    next => omega
    next hi =>
      cases j with
      | zero => simpa using hi
      | succ j => rw [show i + (j + 1) = i + 1 + j by omega]; exact ih (i + 1) j (by omega)

/-- The bit at which CTZ ends is 1. -/
theorem testBit_ctzGo (v i n : Nat) (h : ctzGo v i n < n) : v.testBit (i + ctzGo v i n) = true := by
  induction n generalizing i with
  | zero => omega
  | succ n ih =>
    rw [ctzGo] at h ⊢
    split at h
    next hi => simp [hi]
    next hi =>
      rw [if_neg hi, show i + (ctzGo v (i + 1) n + 1) = i + 1 + ctzGo v (i + 1) n by omega]
      exact ih (i + 1) (by omega)

theorem popGo_eq_countP (v n : Nat) : popGo v n = (List.range n).countP v.testBit := by
  induction n with
  | zero => rfl
  | succ n ih => rw [popGo, ih, List.range_succ, List.countP_append, List.countP_singleton, Nat.add_comm]

/-- BREV's step: bit i of v, put at bit n−1−i. -/
def brevStep (v n acc i : Nat) : Nat := if v.testBit i then acc + 2 ^ (n - 1 - i) else acc

theorem brevBits_eq_foldNat (v n : Nat) : brevBits v n = foldNat (brevStep v n) 0 n 0 := rfl

/-- One step fills bit k of an accumulator whose lower k + 1 bits are clear, and clears none. -/
theorem brevStep_of_dvd (v i k acc : Nat) (h : 2 ^ (k + 1) ∣ acc) :
    2 ^ k ∣ brevStep v (i + (k + 1)) acc i ∧
    ∀ j, k ≤ j → (brevStep v (i + (k + 1)) acc i).testBit j = if j = k then v.testBit i else acc.testBit j := by
  obtain ⟨q, rfl⟩ := h
  have hk : i + (k + 1) - 1 - i = k := by omega
  have hclear : (2 ^ (k + 1) * q).testBit k = false := by simp [Nat.testBit_two_pow_mul]
  have hdvd : 2 ^ k ∣ 2 ^ (k + 1) * q := ⟨2 * q, by rw [Nat.pow_succ, Nat.mul_assoc]⟩
  rw [brevStep, hk]
  split
  next hv =>
    refine ⟨Nat.dvd_add hdvd (Nat.dvd_refl _), fun j _ => ?_⟩
    rw [Nat.two_pow_add_eq_or_of_lt (Nat.pow_lt_pow_right (by decide) (Nat.lt_succ_self k)), Nat.testBit_or, Nat.testBit_two_pow]
    split
    next hj => simp [hj, hv]
    next hj => simp [Ne.symm hj]
  next hv =>
    refine ⟨hdvd, fun j _ => ?_⟩
    split
    next hj => simpa [hj, hclear] using hv
    next => rfl

/-- The steps from bit i on fill the k lower bits with the k remaining bits of v, reversed. -/
theorem testBit_foldNat_brevStep (v i k acc j : Nat) (h : 2 ^ k ∣ acc) :
    (foldNat (brevStep v (i + k)) i k acc).testBit j = if j < k then v.testBit (i + (k - 1 - j)) else acc.testBit j := by
  induction k generalizing i acc with
  | zero => simp [foldNat]
  | succ k ih =>
    obtain ⟨hdvd, hbit⟩ := brevStep_of_dvd v i k acc h
    have hn : i + (k + 1) = i + 1 + k := by omega
    rw [hn] at hdvd hbit ⊢
    rw [foldNat, ih (i + 1) _ hdvd]
    rcases Nat.lt_trichotomy j k with hj | rfl | hj
    · rw [if_pos hj, if_pos (by omega), show i + 1 + (k - 1 - j) = i + (k + 1 - 1 - j) by omega]
    · simp [hbit]
    · rw [if_neg (by omega), if_neg (by omega), hbit j (by omega), if_neg (by omega)]

theorem testBit_brevBits (v n j : Nat) (h : j < n) : (brevBits v n).testBit j = v.testBit (n - 1 - j) := by
  have := testBit_foldNat_brevStep v 0 n 0 j (Nat.dvd_zero _)
  rwa [Nat.zero_add, ← brevBits_eq_foldNat, if_pos h, Nat.zero_add] at this

theorem clzInt_eq (ty : Ty) (a : Word) : clzInt ty a = BitVec.ofNat 64 (clzGo (ty.bits a).toNat ty.width) := by
  rw [clzInt, readBits_eq_toNat, formBits_of_le_width _ _ (clzGo_le ..)]

theorem ctzInt_eq (ty : Ty) (a : Word) : ctzInt ty a = BitVec.ofNat 64 (ctzGo (ty.bits a).toNat 0 ty.width) := by
  rw [ctzInt, readBits_eq_toNat, formBits_of_le_width _ _ (ctzGo_le ..)]

theorem popcInt_eq (ty : Ty) (a : Word) :
    popcInt ty a = BitVec.ofNat 64 ((List.range ty.width).countP fun j => (ty.bits a).getLsbD j) := by
  have hle : popGo (ty.bits a).toNat ty.width ≤ ty.width := by
    rw [popGo_eq_countP]; exact List.countP_le_length.trans_eq List.length_range
  rw [popcInt, readBits_eq_toNat, formBits_of_le_width _ _ hle, popGo_eq_countP]
  rfl

theorem brevInt_eq_word (ty : Ty) (a : Word) : brevInt ty a = ty.word (BitVec.ofNat _ (brevBits (ty.bits a).toNat ty.width)) := by
  rw [brevInt, formBits_eq_word, readBits_eq_toNat]

/-! The field instructions (R197). -/

/-- A field descriptor's POS. -/
theorem fieldOf_fst (ty : Ty) (d : Word) : (fieldOf ty d).1 = (d.extractLsb' 0 6).toNat := by
  simp [fieldOf]

/-- A field descriptor's cut length. -/
theorem fieldOf_snd (ty : Ty) (d : Word) :
    (fieldOf ty d).2 = Nat.min (d.extractLsb' 8 7).toNat (ty.width - (d.extractLsb' 0 6).toNat) := by
  have hpos : (d.extractLsb' 0 6).toNat = d.toNat % 64 := by simp
  have hlen : (d.extractLsb' 8 7).toNat = d.toNat / 256 % 128 := by simp [Nat.shiftRight_eq_div_pow]
  rw [hpos, hlen]
  simp only [fieldOf]
  split
  next => rfl
  next hw => rw [Nat.sub_eq_zero_of_le (Nat.not_lt.1 hw)]; exact (Nat.min_zero _).symm

/-- The pattern that EXT forms: the field's l bits at pos, widened as its type says. -/
def fieldBits {w : Nat} (signed : Bool) (pos l : Nat) (a : BitVec w) : BitVec w :=
  if signed then (a.extractLsb' pos l).signExtend w else (a.extractLsb' pos l).setWidth w

theorem getLsbD_fieldBits {w : Nat} (signed : Bool) (pos l : Nat) (a : BitVec w) (j : Nat) (h : j < w) :
    (fieldBits signed pos l a).getLsbD j =
      if j < l then a.getLsbD (pos + j) else signed && decide (0 < l) && a.getLsbD (pos + l - 1) := by
  cases signed with
  | false => simp [fieldBits, h]
  | true =>
    have hmsb : (a.extractLsb' pos l).msb = (decide (0 < l) && a.getLsbD (pos + l - 1)) := by
      rw [BitVec.msb_eq_getLsbD_last, BitVec.getLsbD_extractLsb']
      rcases Nat.eq_zero_or_pos l with rfl | hl
      · simp
      · rw [show pos + (l - 1) = pos + l - 1 by omega]; simp [hl]
    by_cases hj : j < l <;> simp [fieldBits, BitVec.getLsbD_signExtend, h, hj, hmsb, -BitVec.getLsbD_eq_getElem]

theorem fieldBits_zero {w : Nat} (signed : Bool) (pos : Nat) (a : BitVec w) : fieldBits signed pos 0 a = 0#w := by
  ext j hj
  rw [← BitVec.getLsbD_eq_getElem hj, getLsbD_fieldBits _ _ _ _ _ hj]
  simp

theorem extInt_eq_word (ty : Ty) (a d : Word) :
    extInt ty a d = ty.word (fieldBits (isSigned ty) (fieldOf ty d).1 (fieldOf ty d).2 (ty.bits a)) := by
  simp only [extInt, readBits_eq_toNat]
  generalize (fieldOf ty d).1 = pos
  generalize (fieldOf ty d).2 = l
  have hf : BitVec.ofNat l ((ty.bits a).toNat / 2 ^ pos % 2 ^ l) = (ty.bits a).extractLsb' pos l :=
    BitVec.eq_of_toNat_eq (by simp [Nat.shiftRight_eq_div_pow])
  split
  next hl => rw [hl, fieldBits_zero, Ty.word_zero]
  next =>
    split
    next hs => rw [formInt_eq_word, sext_eq_toInt, hf, fieldBits, if_pos hs]; rfl
    next hs =>
      rw [formBits_eq_word, fieldBits, if_neg hs, ← hf]
      exact congrArg _ (BitVec.eq_of_toNat_eq (by simp))

/-- The number x with the low l bits of y in the place of its bits from p on. -/
def putBits (x y p l : Nat) : Nat := x % 2 ^ p + y % 2 ^ l * 2 ^ p + x / 2 ^ (p + l) * 2 ^ (p + l)

theorem testBit_putBits (x y p l j : Nat) :
    (putBits x y p l).testBit j = if p ≤ j ∧ j < p + l then y.testBit (j - p) else x.testBit j := by
  have hx : x % 2 ^ p < 2 ^ p := Nat.mod_lt _ (Nat.two_pow_pos p)
  have hy : 2 ^ p * (y % 2 ^ l) + x % 2 ^ p < 2 ^ (p + l) := by
    rw [Nat.pow_add]
    calc 2 ^ p * (y % 2 ^ l) + x % 2 ^ p < 2 ^ p * (y % 2 ^ l + 1) := by rw [Nat.mul_succ]; omega
      _ ≤ 2 ^ p * 2 ^ l := Nat.mul_le_mul_left _ (Nat.mod_lt _ (Nat.two_pow_pos l))
  have hsum : putBits x y p l = 2 ^ (p + l) * (x / 2 ^ (p + l)) + (2 ^ p * (y % 2 ^ l) + x % 2 ^ p) := by
    rw [putBits]; ring
  rw [hsum, Nat.testBit_two_pow_mul_add _ hy, Nat.testBit_two_pow_mul_add _ hx, Nat.testBit_mod_two_pow, Nat.testBit_mod_two_pow,
    Nat.testBit_div_two_pow]
  rcases Nat.lt_or_ge j p with hp | hp
  · simp [hp, Nat.not_le.2 hp, Nat.lt_add_right l hp]
  · rcases Nat.lt_or_ge j (p + l) with hl | hl
    · simp [hp, hl, Nat.not_lt.2 hp]; omega
    · simp [Nat.not_lt.2 hl, hl]

theorem insInt_eq_word (ty : Ty) (a b d : Word) : insInt ty a b d =
    ty.word (BitVec.ofNat _ (putBits (ty.bits a).toNat (ty.bits b).toNat (fieldOf ty d).1 (fieldOf ty d).2)) := by
  rw [← readBits_eq_toNat, ← readBits_eq_toNat, ← formBits_eq_word]
  rfl

end Sys2Proof.Machine

namespace Sys2Proof.Proofs

open Sys2Proof.Machine

/-- Settles O12: each shift's function is the bit vector's shift by b mod w. -/
theorem shiftResults : Obligations.ShiftResults := by
  intro x s _ h
  refine ⟨(State.int2_runs h shlInt).trans ?_, (State.int2_runs h shrInt).trans ?_, (State.int2_runs h sraInt).trans ?_,
    (State.int2_runs h rotInt).trans ?_⟩
  · rw [shlInt_eq_word]; rfl
  · rw [shrInt_eq_word]; rfl
  · rw [sraInt_eq_word]; rfl
  · rw [rotInt_eq_word]; rfl

/-- Settles O13: the counts by the recursion over the bits, BREV by the bits that its fold has put in place. -/
theorem bitCountResults : Obligations.BitCountResults := by
  intro x s _ h w a
  refine ⟨⟨clzGo a.toNat w, ?_, clzGo_le .., testBit_of_lt_clzGo _ _, testBit_clzGo _ _⟩,
    ⟨ctzGo a.toNat 0 w, ?_, ctzGo_le .., fun j hj => ?_, fun hn => ?_⟩, ?_,
    ⟨BitVec.ofNat _ (brevBits a.toNat w), ?_, fun j hj => ?_⟩⟩
  · exact (State.int1_runs h clzInt).trans (by rw [clzInt_eq])
  · exact (State.int1_runs h ctzInt).trans (by rw [ctzInt_eq])
  · rw [← Nat.zero_add j]; exact testBit_of_lt_ctzGo _ 0 _ j hj
  · rw [← Nat.zero_add (ctzGo ..)]; exact testBit_ctzGo _ 0 _ hn
  · exact (State.int1_runs h popcInt).trans (by rw [popcInt_eq])
  · exact (State.int1_runs h brevInt).trans (by rw [brevInt_eq_word])
  · rw [BitVec.getLsbD_ofNat, testBit_brevBits _ _ _ hj, BitVec.testBit_toNat, decide_eq_true hj, Bool.true_and]

/-- Settles O15: EXT's pattern is the field widened, and INS's is cut at the field's two ends. -/
theorem fieldResults : Obligations.FieldResults := by
  intro x s _ h w a b cut
  refine ⟨⟨_, (State.int2_runs h extInt).trans (by rw [extInt_eq_word]), fun j hj => ?_⟩,
    ⟨_, (State.int3_runs h insInt).trans (by rw [insInt_eq_word]), fun j hj => ?_⟩⟩
  · rw [getLsbD_fieldBits _ _ _ _ _ hj, fieldOf_fst, fieldOf_snd]
  · rw [BitVec.getLsbD_ofNat, testBit_putBits, fieldOf_fst, fieldOf_snd, BitVec.testBit_toNat, BitVec.testBit_toNat,
      decide_eq_true hj, Bool.true_and]

end Sys2Proof.Proofs
end

section
/-! SUPPORT. The tensor unit's register commands (R254, R255), the transpose (R270) and the ordered dither (R53): what a unit does when its
current command is all that is open to it, how a command over one source tile and a built tile end, and the statement. -/

namespace Sys2Proof.Machine

/-! The current command (R254, R255). -/

/-- When the current command is all that is open to a unit, it goes on with it: the choice is among one. -/
theorem exec_tensorCommandPerform_command {s : State} {cl l : Nat} {r : TRun} (hown : s.ownerOf cl = some l)
    (heng : (s.launch l).engines = true) (hacts : s.unitActs cl = [.command]) (hcur : (s.unit cl).cur = some r) :
    exec (.tensorCommandPerform cl) s = .next (({ s with freeCtr := s.freeCtr + 1 } : State).commandStep cl r) := by
  have hchoice : s.choose [UnitAct.command].length = (0, { s with freeCtr := s.freeCtr + 1 }) :=
    Prod.ext (Nat.mod_one _) rfl
  have hcur' : (({ s with freeCtr := s.freeCtr + 1 } : State).unit cl).cur = some r := hcur
  simp only [exec, execTensorCommandPerform, hown, heng, hacts, hchoice, hcur', nth]
  rfl

/-- A register command that traps parks. -/
theorem State.commandStep_of_trap {s : State} {cl d : Nat} {r : TRun}
    (h : s.regCommand (s.unit cl) r.firing = some (.trap d)) :
    s.commandStep cl r = s.parkCommand cl r .trap (BitVec.ofNat 64 d) 0 := by
  rw [State.commandStep, h]

/-! A source tile and a built tile (R247, R248). -/

/-- A source tile that a command does not take is a trap SHAPE_MISMATCH (Table 12.4). -/
theorem TensorUnit.withTile_of_not_ok {u : TensorUnit} {a : Nat} {ok : Shape → Bool} (k : Shape → RegRes)
    (h : ok (u.shape a) = false) : u.withTile a ok k = .trap 0x0303 := by
  simp [TensorUnit.withTile, h]

/-- A source tile that is set, full and of a shape the command takes is worked on. -/
theorem TensorUnit.withTile_of_ok {u : TensorUnit} {a : Nat} {ok : Shape → Bool} (k : Shape → RegRes)
    (hset : (u.shape a).set = true) (hok : ok (u.shape a) = true) (hfull : u.allFull a = true) :
    u.withTile a ok k = k (u.shape a) := by
  simp [TensorUnit.withTile, hset, hok, hfull]

/-- No tile is built of an illegal shape. -/
theorem TensorUnit.build_of_illegal {u : TensorUnit} {t : Nat} {h : Shape} (f : Nat → Nat → FRes) (hl : h.legal = false) :
    u.build t h f = badShape t := by
  simp [TensorUnit.build, hl]

/-- Elements that raise no flag leave the flags of a tile's rows at none. -/
theorem foldl_rowFlags_of_noFlags (g : Nat → Nat → Nat) (is js : List Nat) :
    (is.map fun i => js.map fun j => ((g i j, 0) : FRes)).foldl
      (fun e row => row.foldl (fun e p => e ||| p.2) e) (0 : Exc) = 0 := by
  simp [List.foldl_map]

/-- A tile built of patterns that raise no flag holds those patterns. -/
theorem TensorUnit.build_of_noFlags {u : TensorUnit} {t : Nat} {h : Shape} (g : Nat → Nat → Nat) (hl : h.legal = true) :
    u.build t h (fun i j => (g i j, 0)) = .done (u.putTile t h
      ((countFrom 0 h.rows).map fun i => (countFrom 0 h.cols).map (g i)) ((countFrom 0 h.rows).map fun _ => [])) 0 := by
  simp only [TensorUnit.build, hl, Bool.not_true, Bool.false_eq_true, if_false, foldl_rowFlags_of_noFlags, List.map_map,
    Function.comp_def]

/-! The transpose (R270). -/

/-- TTRN's result is the transpose of TA. -/
theorem State.regCommand_of_ttrn {f : Firing} {x : FormT} (s : State) (u : TensorUnit) (h : f.Is (.ttrn x)) :
    s.regCommand u f = some (u.transpose x.td.val x.ta.val) := by
  rw [Firing.Is] at h
  rw [State.regCommand, h]

/-- A TTRN that gives a result leaves it in the unit with its flags, and emits done. -/
theorem State.commandStep_of_ttrn_done {s : State} {cl : Nat} {r : TRun} {x : FormT} {u : TensorUnit} {e : Exc}
    (hf : r.firing.Is (.ttrn x)) (h : (s.unit cl).transpose x.td.val x.ta.val = .done u e) :
    s.commandStep cl r = ((s.onUnit cl fun _ => u).unitFlags cl e).endCommand cl r.firing .completion 0 := by
  have hreg := s.regCommand_of_ttrn (s.unit cl) hf
  rw [Firing.Is] at hf
  rw [State.commandStep, hreg, h]
  simp only [hf]

end Sys2Proof.Machine

namespace Sys2Proof.Proofs

open Sys2Proof.Machine

/-- Settles O43: the one command open to the unit is the TTRN, whose source tile is refused, or whose result is built of moved patterns. -/
theorem transposeAndDither : Obligations.TransposeAndDither := by
  refine ⟨fun s cl l r x hown heng hacts hcur hf => ?_, by decide⟩
  intro u ha s1 h
  have hreg : s1.regCommand (s1.unit cl) r.firing = some (u.transpose x.td.val x.ta.val) := s1.regCommand_of_ttrn _ hf
  have hstep : exec (.tensorCommandPerform cl) s = .next (s1.commandStep cl r) :=
    exec_tensorCommandPerform_command hown heng hacts hcur
  rw [hstep]
  refine ⟨fun hyb => ?_, fun hset hyb hfull => ?_⟩
  · have hrefused : u.transpose x.td.val x.ta.val = .trap 0x0303 := TensorUnit.withTile_of_not_ok _ (by simp [ha, hyb])
    exact congrArg _ (State.commandStep_of_trap (hreg.trans (congrArg some hrefused)))
  · have hbuilt : u.transpose x.td.val x.ta.val = u.build x.td.val h fun j i => (u.raw x.ta.val i j, 0) :=
      TensorUnit.withTile_of_ok _ hset (by simp [ha, hyb]) hfull
    refine ⟨fun hl => ?_, fun hl => ?_⟩
    · have htrap := hbuilt.trans (TensorUnit.build_of_illegal _ hl)
      exact congrArg _ (State.commandStep_of_trap (hreg.trans (congrArg some htrap)))
    · have hdone := hbuilt.trans (TensorUnit.build_of_noFlags _ hl)
      exact congrArg _ (State.commandStep_of_ttrn_done (s := s1) hf hdone)

end Sys2Proof.Proofs
end

section
/-! SUPPORT. The model's own list functions in the library's terms. -/

namespace Sys2Proof.Machine

theorem nth_eq_getElem? {α : Type} (xs : List α) (n : Nat) : nth xs n = xs[n]? := by
  induction xs generalizing n with
  | nil => rfl
  | cons x xs ih =>
    cases n with
    | zero => rfl
    | succ n => exact ih n

theorem countFrom_eq_range' (a n : Nat) : countFrom a n = List.range' a n := by
  induction n generalizing a with
  | zero => rfl
  | succ n ih => rw [countFrom, ih, List.range'_succ]

/-- An entry of a list beside its own number. -/
theorem nth_zip_countFrom {α β : Type} (xs : List α) (f : α × Nat → β) (n : Nat) :
    nth ((xs.zip (countFrom 0 xs.length)).map f) n = (nth xs n).map fun x => f (x, n) := by
  simp only [nth_eq_getElem?, countFrom_eq_range', List.getElem?_map]
  by_cases h : n < xs.length
  · have hz : (xs.zip (List.range' 0 xs.length))[n]? = some (xs[n], n) := by
      simp [h]
    rw [hz, List.getElem?_eq_getElem h]; rfl
  · simp [Nat.le_of_not_lt h]

end Sys2Proof.Machine
end

section
/-! SUPPORT. What every step ends with (R19, R21): the settling of one launch reaches its end within as many rounds as it has instances,
and the settling of another launch and the touched bits leave what is counted as it is. -/

namespace Sys2Proof.Machine

/-! One launch. -/

/-- A launch whose counts are read from these items is settled: `State.Settled` for one launch. -/
def Launch.SettledBy (x : Launch) (items : List Item) : Prop :=
  ∀ b ∈ x.insts, (b.2.freeing && b.2.iters.all fun i => decide (i.st = .free)) = false ∧
    ∀ n i, nth b.2.iters n = some i → i.st = .ended → countOf items b.1 n ≠ 0 ∨ x.hasChild b.1 n = true

theorem State.settled_iff (s : State) :
    s.Settled ↔ ∀ l e, look s.launches l = some e → e.SettledBy (s.items l) := Iff.rfl

theorem Launch.settledBy_of_insts_nil {x : Launch} (h : x.insts = []) (items : List Item) : x.SettledBy items := by
  intro b hb; rw [h] at hb; cases hb

/-- Whether an id is returned (R21). -/
def Instance.goes (b : Instance) : Bool := b.freeing && b.iters.all fun i => decide (i.st = .free)

theorem Launch.insts_returnIds (x : Launch) : x.returnIds.insts = x.insts.filter fun e => !e.2.goes := rfl

theorem Launch.length_retireIters (x : Launch) (items : List Item) : (x.retireIters items).insts.length = x.insts.length := by
  simp [Launch.retireIters]

@[simp] theorem Launch.hasChild_retireIters (x : Launch) (items : List Item) (b n : Nat) :
    (x.retireIters items).hasChild b n = x.hasChild b n := by
  simp [Launch.retireIters, Launch.hasChild, List.any_map, Function.comp_def]

/-- After retirement an ended iteration holds something (R19). -/
theorem Launch.ended_retireIters {x : Launch} {items : List Item} {b : Nat × Instance} (hb : b ∈ (x.retireIters items).insts) {n : Nat}
    {i : IterSlot} (hi : nth b.2.iters n = some i) (he : i.st = .ended) : countOf items b.1 n ≠ 0 ∨ x.hasChild b.1 n = true := by
  obtain ⟨a, -, rfl⟩ := List.mem_map.1 hb
  rw [nth_zip_countFrom] at hi
  obtain ⟨j, -, hj⟩ := Option.map_eq_some_iff.1 hi
  dsimp only at hj ⊢
  split at hj
  · subst hj; cases he
  · rename_i hkeeps
    subst hj
    by_contra hnone
    simp only [not_or, not_not, Bool.not_eq_true] at hnone
    exact hkeeps ⟨he, hnone⟩

/-- A round that returns no id leaves the launch settled. -/
theorem Launch.settledBy_round {x : Launch} {items : List Item}
    (h : (x.retireIters items).returnIds.insts.length = x.insts.length) : (x.retireIters items).returnIds.SettledBy items := by
  rw [Launch.insts_returnIds, ← Launch.length_retireIters x items, List.length_filter_eq_length_iff] at h
  have hsame : (x.retireIters items).returnIds.insts = (x.retireIters items).insts := List.filter_eq_self.2 h
  intro b hb
  rw [hsame] at hb
  refine ⟨(Bool.not_eq_true' _).mp (h b hb), fun n i hi he => ?_⟩
  rw [show (x.retireIters items).returnIds.hasChild b.1 n = x.hasChild b.1 n by
    rw [Launch.hasChild, hsame, ← Launch.hasChild, Launch.hasChild_retireIters]]
  exact Launch.ended_retireIters hb hi he

/-- Retirement changes no iteration of a settled launch. -/
theorem Launch.SettledBy.iters_retired {x : Launch} {items : List Item} (h : x.SettledBy items) {b : Nat × Instance} (hb : b ∈ x.insts) :
    ((b.2.iters.zip (countFrom 0 b.2.iters.length)).map fun p =>
      if p.1.st = .ended ∧ countOf items b.1 p.2 = 0 ∧ x.hasChild b.1 p.2 = false then { p.1 with st := .free } else p.1) = b.2.iters := by
  refine List.ext_getElem? fun n => ?_
  rw [← nth_eq_getElem?, ← nth_eq_getElem?, nth_zip_countFrom]
  cases hi : nth b.2.iters n with
  | none => rfl
  | some i =>
    simp only [Option.map_some, Option.some.injEq]
    refine if_neg fun ⟨he, hc, hn⟩ => ?_
    rcases (h b hb).2 n i hi he with h0 | h1
    · exact h0 hc
    · rw [hn] at h1; cases h1

theorem Launch.SettledBy.insts_retireIters {x : Launch} {items : List Item} (h : x.SettledBy items) :
    (x.retireIters items).insts = x.insts := by
  conv_rhs => rw [← List.map_id x.insts]
  refine List.map_congr_left fun b hb => ?_
  rw [h.iters_retired hb]; rfl

theorem Launch.SettledBy.insts_round {x : Launch} {items : List Item} (h : x.SettledBy items) :
    (x.retireIters items).returnIds.insts = x.insts := by
  rw [Launch.insts_returnIds, h.insts_retireIters]
  exact List.filter_eq_self.2 fun b hb => by rw [Instance.goes, (h b hb).1]; rfl

theorem Launch.SettledBy.of_insts {x y : Launch} {items : List Item} (h : x.SettledBy items) (hi : y.insts = x.insts) :
    y.SettledBy items := by
  intro b hb
  rw [hi] at hb
  rw [show y.hasChild = x.hasChild by unfold Launch.hasChild; rw [hi]]
  exact h b hb

theorem Launch.SettledBy.settleGo {items : List Item} (n : Nat) {x : Launch} (h : x.SettledBy items) :
    (Launch.settleGo items n x).SettledBy items := by
  induction n generalizing x with
  | zero => exact h
  | succ n ih => exact ih (h.of_insts h.insts_round)

/-- Each round either returns an id or leaves the launch settled, so more rounds than instances settle it. -/
theorem Launch.settledBy_settleGo (items : List Item) (n : Nat) (x : Launch) (h : x.insts.length < n) :
    (Launch.settleGo items n x).SettledBy items := by
  induction n generalizing x with
  | zero => omega
  | succ n ih =>
    have hle : (x.retireIters items).returnIds.insts.length ≤ x.insts.length := by
      rw [Launch.insts_returnIds, ← Launch.length_retireIters x items]
      exact List.length_filter_le ..
    rcases Nat.lt_or_eq_of_le hle with hlt | heq
    · exact ih _ (by omega)
    · exact (Launch.settledBy_round heq).settleGo n

theorem Launch.settledBy_settle (x : Launch) (items : List Item) : (x.settle items).SettledBy items :=
  Launch.settledBy_settleGo items _ x (Nat.lt_succ_self _)

/-! What is counted. -/

/-- Two launches in which the same things are counted: one may be the other settled. -/
def Launch.CountsAs (x y : Launch) : Prop :=
  y.saved = x.saved ∧ y.panel = x.panel ∧ y.parked = x.parked ∧ y.ovf = x.ovf ∧ y.hems = x.hems ∧
    (y.gens.map fun g => g.firing) = x.gens.map fun g => g.firing

theorem Launch.CountsAs.refl (x : Launch) : x.CountsAs x := ⟨rfl, rfl, rfl, rfl, rfl, rfl⟩

theorem Launch.CountsAs.trans {x y z : Launch} (h : x.CountsAs y) (g : y.CountsAs z) : x.CountsAs z := by
  obtain ⟨h1, h2, h3, h4, h5, h6⟩ := h
  obtain ⟨g1, g2, g3, g4, g5, g6⟩ := g
  exact ⟨g1.trans h1, g2.trans h2, g3.trans h3, g4.trans h4, g5.trans h5, g6.trans h6⟩

theorem Launch.countsAs_round (x : Launch) (items : List Item) : x.CountsAs (x.retireIters items).returnIds := by
  refine ⟨rfl, rfl, rfl, rfl, rfl, ?_⟩
  simp only [Launch.returnIds, Launch.retireIters, List.map_map]
  refine List.map_congr_left fun g _ => ?_
  simp only [Function.comp_apply]
  split <;> rfl

theorem Launch.countsAs_settleGo (items : List Item) (n : Nat) (x : Launch) : x.CountsAs (Launch.settleGo items n x) := by
  induction n generalizing x with
  | zero => exact .refl x
  | succ n ih => exact (x.countsAs_round items).trans (ih _)

theorem Launch.countsAs_settle (x : Launch) (items : List Item) : x.CountsAs (x.settle items) := x.countsAs_settleGo items _

/-- Two states in which the same things are counted. -/
def State.CountsAs (s t : State) : Prop :=
  { t with clusters := [], launches := [] } = { s with clusters := [], launches := [] } ∧
    (∀ k, (t.cluster k).items = (s.cluster k).items) ∧ ∀ l, (s.launch l).CountsAs (t.launch l)

theorem State.CountsAs.refl (s : State) : s.CountsAs s := ⟨rfl, fun _ => rfl, fun _ => .refl _⟩

theorem State.CountsAs.trans {s t u : State} (h : s.CountsAs t) (g : t.CountsAs u) : s.CountsAs u :=
  ⟨g.1.trans h.1, fun k => (g.2.1 k).trans (h.2.1 k), fun l => (h.2.2 l).trans (g.2.2 l)⟩

theorem State.CountsAs.field {α : Type} {s t : State} (h : s.CountsAs t) (f : State → α)
    (hf : ∀ x : State, f { x with clusters := [], launches := [] } = f x) : f t = f s := by
  rw [← hf t, h.1, hf s]

theorem State.CountsAs.dieItems {s t : State} (h : s.CountsAs t) (l : Nat) : t.dieItems l = s.dieItems l := by
  obtain ⟨hsaved, hpanel, -⟩ := h.2.2 l
  have hseams : t.seams = s.seams := h.field State.seams fun _ => rfl
  have hums : t.ums = s.ums := h.field State.ums fun _ => rfl
  have harr : t.dieArr = s.dieArr := h.field State.dieArr fun _ => rfl
  simp only [State.dieItems, State.itsSeam, State.seam, State.um, hsaved, hpanel, hseams, hums, harr]

theorem State.CountsAs.clusterItems {s t : State} (h : s.CountsAs t) (l cl : Nat) : t.clusterItems l cl = s.clusterItems l cl := by
  have hdie := h.dieItems l
  obtain ⟨hsaved, hpanel, hparked, hovf, hhems, hgens⟩ := h.2.2 l
  have hits : (t.itsCluster l cl).items = (s.itsCluster l cl).items := by
    simp only [State.itsCluster, hsaved]
    split
    · rfl
    · exact h.2.1 cl
  have hflits : t.flits = s.flits := h.field State.flits fun _ => rfl
  have hreqs : t.reqs = s.reqs := h.field State.reqs fun _ => rfl
  have hkreqs : t.kreqs = s.kreqs := h.field State.kreqs fun _ => rfl
  have hagenda : t.agenda = s.agenda := h.field State.agenda fun _ => rfl
  have hgen : ∀ gs : List Generator, ((gs.filter fun g => decide (g.firing.cl = cl)).map fun g => Item.ofFiring g.firing) =
      ((gs.map fun g => g.firing).filter fun f => decide (f.cl = cl)).map Item.ofFiring := fun gs => by
    rw [List.filter_map, List.map_map]; rfl
  simp only [State.clusterItems, hits, hsaved, hpanel, hparked, hovf, hhems, hgen, hgens, hflits, hreqs, hkreqs, hagenda, hdie]

theorem State.CountsAs.items {s t : State} (h : s.CountsAs t) (l : Nat) : t.items l = s.items l := by
  have hpanel : (t.launch l).panel = (s.launch l).panel := (h.2.2 l).2.1
  rw [State.items, State.items, hpanel, show t.clusterItems l = s.clusterItems l from funext (h.clusterItems l)]

/-- A change of touched bits. -/
theorem State.countsAs_onCluster {s : State} (cl : Nat) (f : Cluster → Cluster) (hf : ∀ c, (f c).items = c.items) :
    s.CountsAs (s.onCluster cl f) := by
  refine ⟨rfl, fun k => ?_, fun _ => .refl _⟩
  by_cases h : k = cl
  · subst h; rw [State.cluster_onCluster, hf]
  · rw [State.cluster_onCluster_ne _ _ _ _ h]

theorem State.countsAs_onLaunch {s : State} (l : Nat) (f : Launch → Launch) (hf : ∀ x : Launch, x.CountsAs (f x)) :
    s.CountsAs (s.onLaunch l f) := by
  refine ⟨?_, fun k => ?_, fun k => ?_⟩
  · obtain ⟨m, hm⟩ := s.onLaunch_eq l f
    rw [hm]
  · rw [State.cluster, State.onLaunch_clusters]; rfl
  · unfold State.launch
    rw [State.look_onLaunch]
    cases look s.launches k with
    | none => exact .refl _
    | some x =>
      by_cases h : k = l
      · simpa [h] using hf x
      · simpa [h] using .refl x

/-! Every launch. -/

theorem State.foldl_touch (s0 s1 : State) (l : Nat) (cs : List Nat) (s : State) :
    s.CountsAs (cs.foldl (fun s cl =>
      let b := touchedBy (s0.clusterItems l cl) (s1.clusterItems l cl)
      if b = 0 then s else s.onCluster cl fun c => { c with touched := c.touched ||| b }) s) ∧
    (cs.foldl (fun s cl =>
      let b := touchedBy (s0.clusterItems l cl) (s1.clusterItems l cl)
      if b = 0 then s else s.onCluster cl fun c => { c with touched := c.touched ||| b }) s).launches = s.launches := by
  induction cs generalizing s with
  | nil => exact ⟨.refl s, rfl⟩
  | cons cl cs ih =>
    simp only [List.foldl_cons]
    split
    · exact ih s
    · obtain ⟨h1, h2⟩ := ih (s.onCluster cl fun c => { c with touched := c.touched ||| touchedBy (s0.clusterItems l cl) (s1.clusterItems l cl) })
      exact ⟨(State.countsAs_onCluster cl (fun c => { c with touched := c.touched ||| _ }) fun _ => rfl).trans h1, h2⟩

/-- Touched bits are no part of what is counted. -/
theorem State.countsAs_touch (s0 s1 : State) (l : Nat) : s1.CountsAs (State.touch s0 s1 l) := by
  unfold State.touch
  split
  · exact .refl _
  · exact (State.foldl_touch s0 s1 l _ s1).1

theorem State.launches_touch (s0 s1 : State) (l : Nat) : (State.touch s0 s1 l).launches = s1.launches := by
  unfold State.touch
  split
  · rfl
  · exact (State.foldl_touch s0 s1 l _ s1).2

/-- One launch of a state is settled. -/
def State.SettledAt (s : State) (l : Nat) : Prop := ∀ e, look s.launches l = some e → e.SettledBy (s.items l)

/-- What `State.settleFrom` does for each launch. -/
def State.settleOne (s0 s : State) (l : Nat) : State :=
  if ((State.touch s0 s l).launch l).insts = [] then State.touch s0 s l
  else (State.touch s0 s l).onLaunch l fun x => x.settle ((State.touch s0 s l).items l)

theorem State.settleFrom_eq (s0 s1 : State) : State.settleFrom s0 s1 = s1.launches.foldl (fun s e => State.settleOne s0 s e.1) s1 := rfl

theorem State.countsAs_settleOne (s0 s : State) (l : Nat) : s.CountsAs (State.settleOne s0 s l) := by
  unfold State.settleOne
  split
  · exact State.countsAs_touch s0 s l
  · exact (State.countsAs_touch s0 s l).trans (State.countsAs_onLaunch l _ fun x => x.countsAs_settle _)

theorem State.look_settleOne_ne {s0 s : State} {l k : Nat} (h : k ≠ l) :
    look (State.settleOne s0 s l).launches k = look s.launches k := by
  unfold State.settleOne
  split
  · rw [State.launches_touch]
  · rw [State.look_onLaunch, State.launches_touch]; simp [h]

theorem State.settledAt_settleOne (s0 s : State) (l : Nat) : (State.settleOne s0 s l).SettledAt l := by
  intro e he
  rw [(State.countsAs_settleOne s0 s l).items, ← (State.countsAs_touch s0 s l).items]
  unfold State.settleOne at he
  split at he
  · rename_i h
    rw [State.launch, he] at h
    exact Launch.settledBy_of_insts_nil h _
  · rw [State.look_onLaunch] at he
    obtain ⟨x, -, rfl⟩ := Option.map_eq_some_iff.1 he
    rw [if_pos rfl]
    exact x.settledBy_settle _

theorem State.SettledAt.settleOne {s0 s : State} {l k : Nat} (h : s.SettledAt k) : (State.settleOne s0 s l).SettledAt k := by
  by_cases hk : k = l
  · subst hk; exact State.settledAt_settleOne s0 s k
  · intro e he
    rw [State.look_settleOne_ne hk] at he
    rw [(State.countsAs_settleOne s0 s l).items]
    exact h e he

theorem State.settledAt_foldl (s0 : State) (es : List (Nat × Launch)) (s : State) (k : Nat)
    (h : s.SettledAt k ∨ k ∈ es.map Prod.fst) : (es.foldl (fun s e => State.settleOne s0 s e.1) s).SettledAt k := by
  induction es generalizing s with
  | nil => simpa using h
  | cons e es ih =>
    refine ih _ ?_
    rcases h with h | h
    · exact .inl h.settleOne
    · rcases List.mem_cons.1 h with rfl | h
      · exact .inl (State.settledAt_settleOne s0 s e.1)
      · exact .inr h

/-- The settling of a state leaves it settled. -/
theorem State.settled_settleFrom (s0 s1 : State) : (State.settleFrom s0 s1).Settled := by
  rw [State.settled_iff]
  intro l
  rw [State.settleFrom_eq]
  refine State.settledAt_foldl s0 _ s1 l ?_
  cases hl : look s1.launches l with
  | none => exact .inl fun e he => by rw [hl] at he; cases he
  | some e => exact .inr (List.mem_map.2 ⟨_, mem_of_look hl, rfl⟩)

/-! Requests that wait for their home slices (R408). -/

theorem State.CountsAs.heldHit {s t : State} (h : s.CountsAs t) : t.heldHit = s.heldHit := h.field State.heldHit fun _ => rfl

theorem State.countsAs_settleFrom (s0 s1 : State) : s1.CountsAs (State.settleFrom s0 s1) := by
  rw [State.settleFrom_eq]
  generalize s1.launches = es
  induction es generalizing s1 with
  | nil => exact .refl s1
  | cons e es ih => exact (State.countsAs_settleOne s0 s1 e.1).trans (ih _)

@[simp] theorem State.heldHit_settleFrom (s0 s1 : State) : (State.settleFrom s0 s1).heldHit = s1.heldHit :=
  (State.countsAs_settleFrom s0 s1).heldHit

/-- Where what is done waits for a stack, the other outcome stands in its place. -/
theorem waitsForStack_orWait {o held : Host.Outcome State Fault Refusal} (h : waitsForStack held = false) :
    waitsForStack (orWait o held) = false := by
  unfold orWait
  cases ho : waitsForStack o with
  | false => exact ho
  | true => exact h

/-- What is chosen reaches no stack that holds requests. -/
theorem State.waitsForStack_choosePick {s : State} (h : s.heldHit = false) : waitsForStack s.choosePick = false := by
  unfold State.choosePick
  simp only
  split
  · exact waitsForStack_orWait h
  · exact h

/-- What is done reaches no stack that holds requests. -/
theorem State.waitsForStack_actGo {s : State} (h : s.heldHit = false) (before rest : List Act) :
    waitsForStack (s.actGo before rest) = false := by
  induction rest generalizing before with
  | nil => exact s.waitsForStack_choosePick h
  | cons a rest ih => exact waitsForStack_orWait (ih _)

/-- A step that has a next state settles what was done. -/
theorem step_eq_next {s t : State} (h : step s = .next t) : ∃ u, s.act = .next u ∧ t = State.settleFrom s u := by
  unfold step State.settled at h
  split at h
  · rename_i u hu
    exact ⟨u, hu, by injection h with h; exact h.symm⟩
  · rename_i hne
    exact absurd h (hne t)

end Sys2Proof.Machine

namespace Sys2Proof.Proofs

open Sys2Proof.Machine

/-- Settles O60: every step ends with the settling, and none of its choices is one that waits for a stack. -/
theorem everyStepSettles : Obligations.EveryStepSettles := by
  refine ⟨fun s t h => ?_, fun s t hs h => ?_⟩
  · obtain ⟨u, -, rfl⟩ := step_eq_next h
    exact State.settled_settleFrom s u
  · obtain ⟨u, hu, rfl⟩ := step_eq_next h
    have hact : waitsForStack s.act = false := s.waitsForStack_actGo hs [] s.agenda
    rw [hu] at hact
    rw [State.heldHit_settleFrom]
    exact hact

end Sys2Proof.Proofs
end

section
/-! SUPPORT. The decoder against the encoder (R59 to R69): each format's fields read back as they were coded, then each row's word, and
the opcodes that each family answers to. -/

namespace Sys2Proof

/-! Each format's fields read back. -/

theorem FormA.formA_raw (f : FormA) (o n : Nat) : (f.raw o n).formA = .ok f := by
  simp only [RawC.formA, FormA.raw, Ty.ofCode_code, RM.ofCode_code, Pred.ofCode_code, Spec.ofCode_code, ogBit_zero, ogBit_one, orErr,
    BitVec.ofNat_toNat, BitVec.setWidth_eq]
  rfl

theorem FormX.formX_raw (f : FormX) (o n imm : Nat) : (f.raw o n imm).formX = .ok f := by
  simp only [RawC.formX, RawC.noRm, FormX.raw, Ty.ofCode_code, Pred.ofCode_code, Spec.ofCode_code, ogBit_zero, ogBit_one, orErr, if_true]
  rfl

theorem FormM.fn_fields (f : FormM) (o imm : Nat) :
    (f.raw o imm).fn % 4 = f.width.code ∧ (f.raw o imm).fn.testBit 2 = f.rel ∧ (f.raw o imm).fn.testBit 3 = f.spc := by
  have hall : ∀ (w : Fin 4) (a b : Bool), (w.val + 4 * a.toNat + 8 * b.toNat) % 4 = w ∧
      (w.val + 4 * a.toNat + 8 * b.toNat).testBit 2 = a ∧ (w.val + 4 * a.toNat + 8 * b.toNat).testBit 3 = b := by decide
  exact hall ⟨f.width.code, f.width.code_lt⟩ f.rel f.spc

theorem FormM.formM_raw (f : FormM) (o imm : Nat) : (f.raw o imm).formM = .ok f := by
  obtain ⟨hw, hrel, hspc⟩ := f.fn_fields o imm
  simp only [RawC.formM, hw, hrel, hspc]
  simp only [RawC.noRm, FormM.raw, Ty.ofCode_code, Width.ofCode_code, Pred.ofCode_code, Spec.ofCode_code, ogBit_zero, ogBit_one, orErr,
    if_true, BitVec.ofNat_toNat, BitVec.setWidth_eq]
  rfl

theorem FormK.formK_raw (f : FormK) (o : Nat) : (f.raw o).formK = .ok f := by
  have hs : (f.raw o).fn % 4 = f.scope.code := by have := f.scope.code_lt; simp only [FormK.raw]; omega
  have ho : (f.raw o).fn / 4 = f.order.code := by have := f.scope.code_lt; simp only [FormK.raw]; omega
  simp only [RawC.formK, hs, ho]
  simp only [RawC.noRm, FormK.raw, Scope.ofCode_code, Order.ofCode_code, Pred.ofCode_code, Spec.ofCode_code, ogBit_zero, ogBit_one, orErr,
    if_true, BitVec.ofNat_toNat, BitVec.setWidth_eq]
  rfl

/-- KV, KC, SW2 and SW1 stand in IMM24 where R68 has them. -/
theorem FormE.imm_fields (f : FormE) (o n : Nat) :
    bitsOf (f.raw o n).imm 22 2 = 0 ∧ (f.raw o n).imm.testBit 21 = f.kv ∧ bitsOf (f.raw o n).imm 16 5 = f.kc.val ∧
      bitsOf (f.raw o n).imm 0 8 = f.sw1.toNat ∧ bitsOf (f.raw o n).imm 8 8 = f.sw2.toNat := by
  have h1 := f.sw1.isLt
  have h2 := f.sw2.isLt
  have hk := f.kc.isLt
  have hv := toNat_lt_two f.kv
  have hkv : f.kv = decide (f.kv.toNat = 1) := by cases f.kv <;> rfl
  rw [hkv, Nat.testBit_eq_decide_div_mod_eq]
  simp only [FormE.raw, bitsOf]
  refine ⟨by omega, ?_, by omega, by omega, by omega⟩
  congr 2
  omega

theorem FormE.formE_raw (f : FormE) (o n : Nat) : (f.raw o n).formE = .ok f := by
  obtain ⟨htop, hkv, hkc, hsw1, hsw2⟩ := f.imm_fields o n
  have hfin : Fin.ofNat 32 f.kc.val = f.kc := Fin.ext (Nat.mod_eq_of_lt f.kc.isLt)
  simp only [RawC.formE, htop, hkv, hkc, hsw1, hsw2, hfin]
  simp only [RawC.noRm, FormE.raw, Ty.ofCode_code, Pred.ofCode_code, Spec.ofCode_code, ogBit_zero, ogBit_one, orErr, if_true,
    BitVec.ofNat_toNat, BitVec.setWidth_eq]
  rfl

theorem FormT.formT_raw (f : FormT) (o n : Nat) : (f.raw o n).formT = .ok f := by
  have h16 : ∀ k : Fin 16, Fin.ofNat 16 k.val = k := fun k => Fin.ext (Nat.mod_eq_of_lt k.isLt)
  have h4 : ∀ k : Fin 4, Fin.ofNat 4 k.val = k := fun k => Fin.ext (Nat.mod_eq_of_lt k.isLt)
  simp only [RawT.formT, FormT.raw, Elem.ofCode_code, Pred.ofCode_code, Spec.ofCode_code, ogBit_zero, ogBit_one, orErr, if_true, h16, h4,
    BitVec.ofNat_toNat, BitVec.setWidth_eq]
  rfl

/-! The families' rows. -/

/-- The rows of the families whose words have the common layout. -/
def parseCommon (r : RawC) : Except DecodeErr Instr :=
  if r.opc < 0x20 then parseControl r
  else if r.opc < 0x40 then parseInteger r
  else if r.opc < 0x60 then parseFloat r
  else if r.opc < 0x90 then parseMemory r
  else if r.opc < 0xA0 then parseKnot r
  else if r.opc < 0xB0 then parseCopy r
  else if r.opc < 0xD8 then parseStream r
  else if r.opc < 0xE0 then parseSeam r
  else if r.opc < 0xF0 then parseUnmask r
  else parseSystem r

theorem parse_pack_common (r : RawC) (h : r.Fits) (ht : r.opc < 0xB0 ∨ 0xD0 ≤ r.opc) : parse r.pack = parseCommon r := by
  unfold parse parseCommon
  rw [RawC.unpack_pack r h]
  dsimp only
  by_cases hb : r.opc < 0xB0
  · simp only [hb, if_true]
  · have hd : ¬ r.opc < 0xD0 := by omega
    simp only [hb, hd, if_false]

theorem RawT.opc_unpack_pack (r : RawT) (h : r.Fits) : (RawC.unpack r.pack).opc = r.opc := by
  unfold RawT.Fits at h
  simp only [RawC.unpack, RawT.pack, bitsOf]
  omega

theorem parse_pack_tensor (r : RawT) (h : r.Fits) (ht : 0xB0 ≤ r.opc ∧ r.opc < 0xD0) : parse r.pack = parseTensor r := by
  unfold parse
  dsimp only
  rw [RawT.opc_unpack_pack r h, RawT.unpack_pack r h]
  rw [if_neg (by omega), if_neg (by omega), if_neg (by omega), if_neg (by omega), if_neg (by omega), if_neg (by omega), if_pos ht.2]

/-! A row of each format: its word reads as the row's instruction once its fields do. -/

section
variable {i : Instr} {o n imm : Nat} (ho : o < 2 ^ 8 ∧ (o < 0xB0 ∨ 0xD0 ≤ o))
include ho

theorem parse_formA {f : FormA} {k : FormA → Except DecodeErr Instr} (hw : i.word = (f.raw o n).pack)
    (hp : parseCommon (f.raw o n) = (f.raw o n).formA >>= k) (hk : k f = .ok i) (hn : n < 2 ^ 4) : i.word < 2 ^ 64 ∧ parse i.word = .ok i := by
  have hfits := f.raw_fits o n ho.1 hn
  rw [hw, parse_pack_common _ hfits ho.2, hp, f.formA_raw]
  exact ⟨RawC.pack_lt _ hfits, hk⟩

theorem parse_formX {f : FormX} {k : FormX → Except DecodeErr Instr} {mask : Nat} (hw : i.word = (f.raw o n imm).pack)
    (hp : parseCommon (f.raw o n imm) = named imm mask ((f.raw o n imm).formX >>= k)) (hk : k f = .ok i) (hn : n < 2 ^ 4)
    (hi : imm < 2 ^ 24) (hm : Nat.land imm (0xFFFFFF ^^^ mask) = 0) : 
    i.word < 2 ^ 64 ∧ parse i.word = .ok i := by
  have hfits := f.raw_fits o n imm ho.1 hn hi
  rw [hw, parse_pack_common _ hfits ho.2, hp, named, if_pos hm, f.formX_raw]
  exact ⟨RawC.pack_lt _ hfits, hk⟩

theorem parse_formM {f : FormM} {k : FormM → Except DecodeErr Instr} (hw : i.word = (f.raw o imm).pack)
    (hp : parseCommon (f.raw o imm) = (f.raw o imm).formM >>= k) (hk : k f = .ok i) (hi : imm < 2 ^ 24) :
    i.word < 2 ^ 64 ∧ parse i.word = .ok i := by
  have hfits := f.raw_fits o imm ho.1 hi
  rw [hw, parse_pack_common _ hfits ho.2, hp, f.formM_raw]
  exact ⟨RawC.pack_lt _ hfits, hk⟩

theorem parse_formK {f : FormK} {k : FormK → Except DecodeErr Instr} (hw : i.word = (f.raw o).pack)
    (hp : parseCommon (f.raw o) = (f.raw o).formK >>= k) (hk : k f = .ok i) : i.word < 2 ^ 64 ∧ parse i.word = .ok i := by
  have hfits := f.raw_fits o ho.1
  rw [hw, parse_pack_common _ hfits ho.2, hp, f.formK_raw]
  exact ⟨RawC.pack_lt _ hfits, hk⟩

theorem parse_formE {f : FormE} {k : FormE → Except DecodeErr Instr} (hw : i.word = (f.raw o n).pack)
    (hp : parseCommon (f.raw o n) = (f.raw o n).formE >>= k) (hk : k f = .ok i) (hn : n < 2 ^ 4) : i.word < 2 ^ 64 ∧ parse i.word = .ok i := by
  have hfits := f.raw_fits o n ho.1 hn
  rw [hw, parse_pack_common _ hfits ho.2, hp, f.formE_raw]
  exact ⟨RawC.pack_lt _ hfits, hk⟩

end

theorem parse_formT {i : Instr} {o n : Nat} {f : FormT} {k : FormT → Except DecodeErr Instr} (ho : 0xB0 ≤ o ∧ o < 0xD0)
    (hw : i.word = (f.raw o n).pack) (hp : parseTensor (f.raw o n) = (f.raw o n).formT >>= k) (hk : k f = .ok i) (hn : n < 2 ^ 4) :
    i.word < 2 ^ 64 ∧ parse i.word = .ok i := by
  have hfits := f.raw_fits o n (by omega) hn
  rw [hw, parse_pack_tensor _ hfits ho, hp, f.formT_raw]
  exact ⟨RawT.pack_lt _ hfits, hk⟩

/-! Parameters. -/

theorem testBit_zero_toNat (b : Bool) : b.toNat.testBit 0 = b := by cases b <;> decide
theorem testBit_three_mul_toNat (b : Bool) : (8 * b.toNat).testBit 3 = b := by cases b <;> decide
theorem testBit_three_add_mul_toNat (b : Bool) : (1 + 8 * b.toNat).testBit 3 = b := by cases b <;> decide

theorem ofNat_toNat_self {k : Nat} (b : BitVec k) : BitVec.ofNat k b.toNat = b := by rw [BitVec.ofNat_toNat, BitVec.setWidth_eq]

/-- A parameter that stands at bit 0, below others. -/
theorem ofNat_add_mul {k : Nat} (b : BitVec k) (m : Nat) : BitVec.ofNat k (b.toNat + 2 ^ k * m) = b := by
  refine BitVec.eq_of_toNat_eq ?_
  rw [BitVec.toNat_ofNat, Nat.add_mul_mod_self_left, Nat.mod_eq_of_lt b.isLt]

/-- A parameter of `k` bits leaves the other bits of IMM24 at zero. -/
theorem land_compl_eq_zero {imm k : Nat} (h : imm < 2 ^ k) (hk : k ≤ 24) : Nat.land imm (0xFFFFFF ^^^ (2 ^ k - 1)) = 0 := by
  refine Nat.eq_of_testBit_eq fun i => ?_
  show (imm &&& ((2 ^ 24 - 1) ^^^ (2 ^ k - 1))).testBit i = _
  rw [Nat.testBit_and, Nat.testBit_xor, Nat.testBit_two_pow_sub_one, Nat.testBit_two_pow_sub_one, Nat.zero_testBit]
  by_cases hi : i < k
  · simp [hi, Nat.lt_of_lt_of_le hi hk]
  · rw [Nat.testBit_lt_two_pow (Nat.lt_of_lt_of_le h (Nat.pow_le_pow_right (by decide) (Nat.le_of_not_lt hi))), Bool.false_and]

/-! Two and three parameters in IMM24 (Tables 8.1 and 13.2), each read back, with the bits that are not named. -/

theorem phase_fields : ∀ (ph : BitVec 4) (b : Bool), let imm := ph.toNat + 16 * b.toNat
    imm < 2 ^ 24 ∧ BitVec.ofNat 4 imm = ph ∧ imm.testBit 4 = b ∧ Nat.land imm (0xFFFFFF ^^^ 0x1F) = 0 := by decide

theorem ticket_fields (arb : BitVec 3) (arc : BitVec 6) : let imm := arb.toNat + 8 * arc.toNat
    imm < 2 ^ 24 ∧ BitVec.ofNat 3 imm = arb ∧ BitVec.ofNat 6 (imm / 2 ^ 3) = arc ∧ Nat.land imm (0xFFFFFF ^^^ 0x1FF) = 0 := by
  intro imm
  have ha := arb.isLt
  have hc := arc.isLt
  have hdiv : imm / 2 ^ 3 = arc.toNat := by omega
  exact ⟨by omega, ofNat_add_mul arb _, by rw [hdiv, ofNat_toNat_self],
    land_compl_eq_zero (k := 9) (by omega) (by decide)⟩

theorem smark_fields : ∀ (ch : BitVec 2) (mark : BitVec 4), let imm := ch.toNat + 16 * mark.toNat
    imm < 2 ^ 24 ∧ BitVec.ofNat 2 imm = ch ∧ BitVec.ofNat 4 (imm / 2 ^ 4) = mark ∧ Nat.land imm (0xFFFFFF ^^^ 0xF3) = 0 := by decide

theorem sparm_fields : ∀ (kind : BitVec 4) (inst : BitVec 1) (preg : BitVec 2), let imm := kind.toNat + 16 * inst.toNat + 32 * preg.toNat
    imm < 2 ^ 24 ∧ BitVec.ofNat 4 imm = kind ∧ BitVec.ofNat 1 (imm / 2 ^ 4) = inst ∧ BitVec.ofNat 2 (imm / 2 ^ 5) = preg ∧
      Nat.land imm (0xFFFFFF ^^^ 0x7F) = 0 := by decide

theorem sstat_fields : ∀ (kind : BitVec 4) (inst : BitVec 1), let imm := kind.toNat + 16 * inst.toNat
    imm < 2 ^ 24 ∧ BitVec.ofNat 4 imm = kind ∧ BitVec.ofNat 1 (imm / 2 ^ 4) = inst ∧ Nat.land imm (0xFFFFFF ^^^ 0x1F) = 0 := by decide

/-- AOP, CMP and the offset of an atomic stand in IMM24 where R65 has them. -/
theorem atomic_fields {op k : Nat} (off : BitVec 14) (ho : op < 16) (hk : k < 64) :
    let imm := op * 2 ^ 20 + k * 2 ^ 14 + off.toNat
    imm < 2 ^ 24 ∧ bitsOf imm 20 4 = op ∧ bitsOf imm 14 6 = k ∧ BitVec.ofNat 14 imm = off := by
  intro imm
  have hoff := off.isLt
  refine ⟨by omega, by simp only [bitsOf, imm]; omega, by simp only [bitsOf, imm]; omega, BitVec.eq_of_toNat_eq ?_⟩
  rw [BitVec.toNat_ofNat]
  omega

/-! Each row. -/

/-- The word of every row of Table 3.5 is a word of 64 bits that reads as the row's instruction. -/
theorem parse_word {i : Instr} {v : View} (h : i.view = some v) : i.word < 2 ^ 64 ∧ parse i.word = .ok i := by
  cases i <;> first | (cases h; done) | skip
  case mov f | fanout f | sink f | steer f | gate f | join f | inv f | bfree f | next f | iend f | retag f | retagCall f | add f |
      sub f | mul f | mulh f | div f | rem f | and f | or f | xor f | andn f | shl f | shr f | sra f | rot f | min f | max f | abs
      f | neg f | clz f | ctz f | popc f | brev f | sel f | ext f | ins f | fadd f | fsub f | fmul f | fma f | fnma f | fdiv f |
      fsqrt f | fmin f | fmax f | fabs f | fneg f | fclass f | fexp2 f | flog2 f | frcp f | frsq f | frint f | frintX f =>
    exact parse_formA (by decide) rfl rfl rfl (by decide)
  case balloc f p | loopgen f p | spec f p | commit f p | kill f p | constLo f p | constMid f p | constHi f p | consth f p | semit f
      p | srecv f p | trap f p | sysrd f p | syswr f p | meter f p | bkpt f p | yield f p | flag f p =>
    exact parse_formX (by decide) rfl rfl (by simp only [FormX.raw, ofNat_toNat_self]) (by decide) (Nat.lt_of_lt_of_le p.isLt (by decide))
      (land_compl_eq_zero p.isLt (by decide))
  case done f | doneForce f | hem f | cycle f | cycleStamp f =>
    exact parse_formX (by decide) rfl (by rfl) rfl (by decide) (by decide) (by decide)
  case tshape f | trdsh f | tld f | tst f | tzeroTile f | tzeroAcc f | tzeroCarry f | tmma f | tadd f | tmul f | tscale f | tredSum
      f | tredMax f | tqnt f | tdq f | tcvt f | ttrn f | trow f | trowStr f | tscan f | tcarrySave f | tcarryLoad f | tmovq f =>
    exact parse_formT (by decide) rfl rfl rfl (by decide)
  case kadd f | kwait f | kread f | klimit f | karm f | kalloc f | kfree f =>
    exact parse_formK (by decide) rfl rfl rfl
  case smfeed f | smclose f | smstat f | smabort f | umctxRelease f | umrank f | umtap f | umdirty f | umqryInfo f | umqryMask f |
      umqryDirty f | umqryRound f | umclr f =>
    exact parse_formE (by decide) rfl rfl rfl (by decide)
  case ldl f off | stl f off | ldn f off | stn f off | ldg f off | stg f off | ldw f off | feclr f off | feset f off | wcal f off =>
    exact parse_formM (by decide) rfl rfl (by simp only [FormM.raw, ofNat_toNat_self]) off.isLt
  case phset f ph rel =>
    obtain ⟨hi, hph, hrel, hm⟩ := phase_fields ph rel
    exact parse_formX (by decide) rfl rfl (by simp only [FormX.raw, hph, hrel]) (by decide) hi hm
  case phwait f ph src =>
    obtain ⟨hi, hph, hsrc, hm⟩ := phase_fields ph src
    exact parse_formX (by decide) rfl rfl (by simp only [FormX.raw, hph, hsrc]) (by decide) hi hm
  case ticket f arb arc | ticketRelease f arb arc =>
    obtain ⟨hi, harb, harc, hm⟩ := ticket_fields arb arc
    exact parse_formX (by decide) rfl rfl (by simp only [FormX.raw, harb, harc]) (by decide) hi hm
  case smark f ch mark =>
    obtain ⟨hi, hch, hmark, hm⟩ := smark_fields ch mark
    exact parse_formX (by decide) rfl rfl (by simp only [FormX.raw, hch, hmark]) (by decide) hi hm
  case sparm f kind inst preg =>
    obtain ⟨hi, hkind, hinst, hpreg, hm⟩ := sparm_fields kind inst preg
    exact parse_formX (by decide) rfl rfl (by simp only [FormX.raw, hkind, hinst, hpreg]) (by decide) hi hm
  case sstat f kind inst =>
    obtain ⟨hi, hkind, hinst, hm⟩ := sstat_fields kind inst
    exact parse_formX (by decide) rfl rfl (by simp only [FormX.raw, hkind, hinst]) (by decide) hi hm
  case lea f sh =>
    exact parse_formA (by decide) rfl rfl (by simp only [FormA.raw, ofNat_toNat_self]) sh.isLt
  case cmp f x | fcmp f x | fcvt f x | ftoi f x | itof f x =>
    cases x <;> exact parse_formA (by decide) rfl rfl rfl (by decide)
  case tact f x => cases x <;> exact parse_formT (by decide) rfl rfl rfl (by decide)
  case spawn f b | umscore f b =>
    exact parse_formE (by decide) rfl (if_pos (toNat_lt_two b)) (by simp only [FormE.raw, testBit_zero_toNat])
      (Nat.lt_of_lt_of_le (toNat_lt_two b) (by decide))
  case copy f b | copyr f b | fill f b | gathr f b | scatr f b | overlay f b =>
    have hb := toNat_lt_two b
    exact parse_formE (by decide) rfl (if_pos (Nat.mul_mod_right 8 _)) (by simp only [FormE.raw, testBit_three_mul_toNat]) (by omega)
  case scatrAdd f b =>
    have hb := toNat_lt_two b
    have h0 : ¬ (f.raw 0xA4 (1 + 8 * b.toNat)).fn % 8 = 0 := by simp only [FormE.raw]; omega
    have h1 : (f.raw 0xA4 (1 + 8 * b.toNat)).fn % 8 = 1 := by simp only [FormE.raw]; omega
    exact parse_formE (by decide) rfl ((if_neg h0).trans (if_pos h1)) (by simp only [FormE.raw, testBit_three_add_mul_toNat]) (by omega)
  case cqpush f x => cases x <;> exact parse_formE (by decide) rfl rfl rfl (by decide)
  case umctxOpen f die =>
    have hdie := die.isLt
    have hfn : (f.raw 0xE0 (4 * die.toNat)).fn % 4 = 0 := Nat.mul_mod_right 4 _
    have hdiv : 4 * die.toNat / 4 = die.toNat := Nat.mul_div_cancel_left _ (by decide)
    refine parse_formE (by decide) rfl (if_pos hfn) ?_ (by omega)
    simp only [FormE.raw, hdiv, ofNat_toNat_self]
  case smopen f inst ctx =>
    have hinst := inst.isLt
    have hctx := ctx.isLt
    have hdiv : (inst.toNat + 4 * ctx.toNat) / 4 = ctx.toNat := by omega
    have hlow : BitVec.ofNat 2 (inst.toNat + 4 * ctx.toNat) = inst := ofNat_add_mul inst _
    refine parse_formE (by decide) rfl rfl ?_ (by omega)
    simp only [FormE.raw, hlow, hdiv, ofNat_toNat_self]
  case amol f op k off | amog f op k off =>
    obtain ⟨hi, hop, hk, hoff⟩ := atomic_fields off op.code_lt k.code_lt
    refine parse_formM (by decide) rfl rfl ?_ hi
    simp only [FormM.raw, hop, hk, hoff, AmoOp.ofCode_code, Spec.ofCode_code]; rfl
  case updg f op off =>
    obtain ⟨hi, hop, hk, hoff⟩ := atomic_fields off op.code_lt (by decide : 5 < 64)
    refine parse_formM (by decide) rfl rfl ?_ hi
    simp only [FormM.raw, hop, hk, hoff, UpdOp.ofCode_code]; rfl

/-! The decoder (Table 3.7). -/

theorem Instr.WellFormed.view {i : Instr} (h : i.WellFormed) : ∃ v, i.view = some v := by
  cases hv : i.view with
  | none => simp [Instr.WellFormed, Instr.check, hv] at h
  | some v => exact ⟨v, rfl⟩

/-- What decodes is what the word's row reads, and passes every check of its own fields. -/
theorem decode_eq_ok {w : Word} {i : Instr} (h : decode w = .ok i) : parse w.toNat = .ok i ∧ i.WellFormed := by
  unfold decode at h
  split at h
  · cases h
  · rename_i j hj
    split at h
    · cases h
    · rename_i hc
      cases h
      exact ⟨hj, hc⟩

/-! The opcodes that each family answers to (Table 3.5). -/

theorem parseControl_opc {r : RawC} {i : Instr} (h : parseControl r = .ok i) : 0x01 ≤ r.opc ∧ r.opc ≤ 0x15 := by
  unfold parseControl at h
  split at h
  case h_22 => cases h
  all_goals omega

theorem parseInteger_opc {r : RawC} {i : Instr} (h : parseInteger r = .ok i) : 0x20 ≤ r.opc ∧ r.opc ≤ 0x3C := by
  unfold parseInteger at h
  split at h
  case h_30 => cases h
  all_goals omega

theorem parseFloat_opc {r : RawC} {i : Instr} (h : parseFloat r = .ok i) : 0x40 ≤ r.opc ∧ r.opc ≤ 0x54 := by
  unfold parseFloat at h
  split at h
  case h_22 => cases h
  all_goals omega

theorem parseMemory_opc {r : RawC} {i : Instr} (h : parseMemory r = .ok i) : 0x70 ≤ r.opc ∧ r.opc ≤ 0x7C := by
  unfold parseMemory at h
  split at h
  case h_14 => cases h
  all_goals omega

theorem parseKnot_opc {r : RawC} {i : Instr} (h : parseKnot r = .ok i) : 0x90 ≤ r.opc ∧ r.opc ≤ 0x96 := by
  unfold parseKnot at h
  split at h
  case h_8 => cases h
  all_goals omega

theorem parseCopy_opc {r : RawC} {i : Instr} (h : parseCopy r = .ok i) : 0xA0 ≤ r.opc ∧ r.opc ≤ 0xA6 := by
  unfold parseCopy at h
  split at h
  case h_8 => cases h
  all_goals omega

theorem parseTensor_opc {r : RawT} {i : Instr} (h : parseTensor r = .ok i) : 0xB0 ≤ r.opc ∧ r.opc ≤ 0xC2 := by
  unfold parseTensor at h
  split at h
  case h_20 => cases h
  all_goals omega

theorem parseStream_opc {r : RawC} {i : Instr} (h : parseStream r = .ok i) : 0xD0 ≤ r.opc ∧ r.opc ≤ 0xD4 := by
  unfold parseStream at h
  split at h
  case h_6 => cases h
  all_goals omega

theorem parseSeam_opc {r : RawC} {i : Instr} (h : parseSeam r = .ok i) : 0xD8 ≤ r.opc ∧ r.opc ≤ 0xDC := by
  unfold parseSeam at h
  split at h
  case h_6 => cases h
  all_goals omega

theorem parseUnmask_opc {r : RawC} {i : Instr} (h : parseUnmask r = .ok i) : 0xE0 ≤ r.opc ∧ r.opc ≤ 0xE6 := by
  unfold parseUnmask at h
  split at h
  case h_8 => cases h
  all_goals omega

theorem parseSystem_opc {r : RawC} {i : Instr} (h : parseSystem r = .ok i) : 0xF0 ≤ r.opc ∧ r.opc ≤ 0xF8 := by
  unfold parseSystem at h
  split at h
  case h_10 => cases h
  all_goals omega

/-- Whether an opcode stands in Table 3.5. -/
def opcodeAssigned (o : Nat) : Bool :=
  decide ((0x01 ≤ o ∧ o ≤ 0x15) ∨ (0x20 ≤ o ∧ o ≤ 0x3C) ∨ (0x40 ≤ o ∧ o ≤ 0x54) ∨ (0x70 ≤ o ∧ o ≤ 0x7C) ∨ (0x90 ≤ o ∧ o ≤ 0x96) ∨
    (0xA0 ≤ o ∧ o ≤ 0xA6) ∨ (0xB0 ≤ o ∧ o ≤ 0xC2) ∨ (0xD0 ≤ o ∧ o ≤ 0xD4) ∨ (0xD8 ≤ o ∧ o ≤ 0xDC) ∨ (0xE0 ≤ o ∧ o ≤ 0xE6) ∨
    (0xF0 ≤ o ∧ o ≤ 0xF8))

/-- A word whose opcode is in no family's rows has no instruction. -/
theorem opcodeAssigned_of_parse {w : Nat} {i : Instr} (h : parse w = .ok i) : opcodeAssigned (w % 256) = true := by
  have hc : (RawC.unpack w).opc = w % 256 := by simp [RawC.unpack, bitsOf]
  have ht : (RawT.unpack w).opc = w % 256 := by simp [RawT.unpack, bitsOf]
  unfold opcodeAssigned
  rw [decide_eq_true_eq]
  unfold parse at h
  dsimp only at h
  split at h
  · have := parseControl_opc h; omega
  split at h
  · have := parseInteger_opc h; omega
  split at h
  · have := parseFloat_opc h; omega
  split at h
  · have := parseMemory_opc h; omega
  split at h
  · have := parseKnot_opc h; omega
  split at h
  · have := parseCopy_opc h; omega
  split at h
  · have := parseTensor_opc h; omega
  split at h
  · have := parseStream_opc h; omega
  split at h
  · have := parseSeam_opc h; omega
  split at h
  · have := parseUnmask_opc h; omega
  · have := parseSystem_opc h; omega

end Sys2Proof

namespace Sys2Proof.Proofs

/-- Settles O4: each row's word reads as its instruction, whose checks it passes. -/
theorem decodeEncode : Obligations.DecodeEncode := by
  intro i h
  obtain ⟨v, hv⟩ := h.view
  obtain ⟨hlt, hparse⟩ := parse_word hv
  simp only [decode, encode_toNat i hlt, hparse]
  rw [show i.check = none from h]

/-- Refutes O5: CQPUSH's patch code 3, which names no patch, is read as patch 0, and so decodes to an instruction of another word. -/
theorem not_encodeDecode : ¬ Obligations.EncodeDecode := by
  unfold Obligations.EncodeDecode
  intro h
  have hdecodes : decode 0x228A033A6 = .ok (.cqpush ⟨.port, .zero, .zero, true, false, .always, .u64, false, 0, 0, 0⟩ .none) := by
    decide
  exact absurd (h.1 _ _ hdecodes) (by decide)

/-- Words without their opcodes, of every format, of several types and with several parameters. -/
def sampleRests : List Nat := [0x28A00000, 0x228A04000, 0x228A03000, 0x10228A00000, 0x0, 0x200A00000, 0x228A06400, 0x228A06000,
  0x100228A00000, 0x228A00000, 0x80000228A00000, 0x140000028000200, 0x28A03100, 0x60028A03000]

/-- Settles O6: an opcode that decodes stands in its family's rows, and each opcode of the table has a sample word. -/
theorem opcodesOfTheTable : Obligations.OpcodesOfTheTable := by
  have hsamples : ∀ o ∈ List.range 256, opcodeAssigned o = true →
      ∃ r ∈ sampleRests, (BitVec.ofNat 64 (r + o)).toNat % 256 = o ∧ (decode (BitVec.ofNat 64 (r + o))).toBool = true := by
    decide +kernel
  refine ⟨by decide +kernel, fun w i h => opcodeAssigned_of_parse (decode_eq_ok h).1, fun o ho ha => ?_⟩
  obtain ⟨r, -, hopc, hok⟩ := hsamples o (List.mem_range.2 ho) ha
  cases hd : decode (BitVec.ofNat 64 (r + o)) with
  | error e => rw [hd] at hok; cases hok
  | ok i => exact ⟨_, i, hopc, hd⟩

end Sys2Proof.Proofs
end

section
/-! SUPPORT. One step (R32, R150, R408): the first of the agenda that waits for no stack, else the free choice, and what a chosen firing
does now or later. -/

namespace Sys2Proof.Machine

/-! The agenda. -/

theorem waitsForStack_iff (o : Host.Outcome State Fault Refusal) :
    waitsForStack o = true ↔ ∃ t, o = .next t ∧ t.heldHit = true := by
  cases o <;> simp [waitsForStack]

theorem orWait_of_waits {o held : Host.Outcome State Fault Refusal} (h : waitsForStack o = true) : orWait o held = held := if_pos h

theorem orWait_of_not_waits {o held : Host.Outcome State Fault Refusal} (h : waitsForStack o = false) : orWait o held = o :=
  if_neg (by simp [h])

/-- What waits at the head of the agenda is passed over, in its place. -/
theorem State.actGo_append (s : State) (acc before rest : List Act)
    (h : ∀ pre b post, before = pre ++ b :: post → waitsForStack (b.run { s with agenda := acc ++ (pre ++ (post ++ rest)) }) = true) :
    s.actGo acc (before ++ rest) = s.actGo (acc ++ before) rest := by
  induction before generalizing acc with
  | nil => rw [List.append_nil, List.nil_append]
  | cons b before ih =>
    have hb : waitsForStack (b.run { s with agenda := acc ++ (before ++ rest) }) = true := h [] b before rfl
    rw [List.cons_append, State.actGo, orWait_of_waits hb, ih (acc ++ [b]) fun pre c post hsplit => ?_, List.append_assoc]
    · rfl
    · have hc := h (b :: pre) c post (by rw [hsplit]; rfl)
      rwa [List.append_assoc]

/-- A step that does one thing of its agenda. -/
theorem State.act_of_first {s : State} {before rest : List Act} {a : Act} (hs : s.agenda = before ++ a :: rest)
    (hbefore : ∀ pre b post, before = pre ++ b :: post →
      waitsForStack (b.run { s with agenda := pre ++ (post ++ a :: rest) }) = true)
    (ha : waitsForStack (a.run { s with agenda := before ++ rest }) = false) : s.act = a.run { s with agenda := before ++ rest } := by
  rw [State.act, hs, s.actGo_append [] before (a :: rest) hbefore]
  exact orWait_of_not_waits ha

/-- A step whose agenda waits, or is empty, makes a free choice. -/
theorem State.act_of_all_wait {s : State}
    (h : ∀ pre b post, s.agenda = pre ++ b :: post → waitsForStack (b.run { s with agenda := pre ++ post }) = true) :
    s.act = s.choosePick := by
  have hgo := s.actGo_append [] s.agenda [] fun pre b post hsplit => by
    rw [List.append_nil]; exact h pre b post hsplit
  rw [List.append_nil] at hgo
  exact hgo

theorem runFiring_of_decode {f : Firing} {i : Instr} (h : decode f.word = .ok i) (s : State) :
    runFiring s f = exec i { s with cur := f } := by
  simp only [runFiring, h]

/-! The free choice. -/

theorem nth_of_lt {α : Type} {xs : List α} {n : Nat} (h : n < xs.length) : ∃ x ∈ xs, nth xs n = some x :=
  ⟨xs[n], List.getElem_mem h, by rw [nth_eq_getElem?, List.getElem?_eq_getElem h]⟩

/-- One of the things that can be done is chosen, and done unless it waits for a stack. -/
theorem State.choosePick_of_picks {s : State} (h : s.picks ≠ []) :
    ∃ p ∈ s.picks, s.choosePick = orWait (p.run { s with freeCtr := s.freeCtr + 1 }) (.next { s with freeCtr := s.freeCtr + 1 }) := by
  have hlt : Config.freeChoice s.freeCtr % s.picks.length < s.picks.length := Nat.mod_lt _ (List.length_pos_iff.2 h)
  obtain ⟨p, hp, hn⟩ := nth_of_lt hlt
  refine ⟨p, hp, ?_⟩
  simp only [State.choosePick, State.choose, hn]

/-! What a chosen firing puts in its station's output queue (R152, Table 7.2). -/

theorem State.runDelayed_of_exec {s t : State} {f : Firing} {i : Instr} (d : Nat) (h : decode f.word = .ok i)
    (ht : exec i { s with cur := f } = .next t) : s.runDelayed f d = .next (s.delayOut f d t) := by
  simp only [State.runDelayed, runFiring_of_decode h, ht]

theorem Pick.run_fire_now {s t : State} {f : Firing} {i : Instr} (h : decode f.word = .ok i) (hl : f.later = false)
    (ht : exec i { s.begin f with cur := f } = .next t) : (Pick.fire f).run s = .next ((s.begin f).delayOut f f.delay t) := by
  have hrun := State.runDelayed_of_exec f.delay h ht
  simp only [Pick.run, State.fireChosen, hl, Bool.false_eq_true, if_false, hrun]

theorem Pick.run_again {s : State} {l : Nat} {p : Parked} {i : Instr} (h : decode p.firing.word = .ok i) (hp : p.why = .again) :
    (Pick.again l p).run s = exec i { ((s.unpark l p.id).leaveTurn l p.id).noteFeed p.firing with cur := p.firing } := by
  have hne : ¬ p.why = .phdone := by rw [hp]; exact fun e => by cases e
  simp only [Pick.run, State.fireAgain, if_neg hne, runFiring_of_decode h]

end Sys2Proof.Machine

namespace Sys2Proof.Proofs

open Sys2Proof.Machine

/-- Settles O1: the agenda's first act that waits for no stack is passed no other by, and a firing runs what its word decodes to. -/
theorem stepRunsAgenda : Obligations.StepRunsAgenda := by
  refine ⟨fun s before rest a hs hbefore ha => ?_, fun s h => ?_, fun s f i l => ⟨fun h => runFiring_of_decode h s, rfl, rfl⟩⟩
  · refine congrArg s.settled (State.act_of_first hs (fun pre b post hsplit => ?_) ?_)
    · exact (waitsForStack_iff _).2 (hbefore pre b post hsplit)
    · exact Bool.eq_false_iff.2 fun hw => ha ((waitsForStack_iff _).1 hw)
  · exact congrArg s.settled (State.act_of_all_wait fun pre b post hsplit => (waitsForStack_iff _).2 (h pre b post hsplit))

/-- Settles O2: one of the picks is drawn; each kind of pick is the equation of its run. -/
theorem stepRunsDecodedChoice : Obligations.StepRunsDecodedChoice := by
  refine ⟨fun s hs hp => ?_, fun s f i h => ⟨fun hl t ht => Pick.run_fire_now h hl ht, fun hl => ?_, fun n t ht => ?_, ?_⟩,
    fun s t f d => ⟨fun h => if_pos h, fun hd hn => if_neg (not_or.2 ⟨hd, hn⟩), fun e he => ?_⟩⟩
  · obtain ⟨p, hmem, hpick⟩ := State.choosePick_of_picks hp
    have hact : s.act = s.choosePick := State.act_of_all_wait fun pre b post hsplit => by
      rw [hs] at hsplit; exact absurd hsplit.symm (List.append_ne_nil_of_right_ne_nil _ (List.cons_ne_nil _ _))
    refine ⟨p, hmem, fun hgo => ?_, fun t ht hw => ?_⟩
    · refine congrArg s.settled (hact.trans (hpick.trans (orWait_of_not_waits (Bool.eq_false_iff.2 fun hw => ?_))))
      obtain ⟨t, ht, hheld⟩ := (waitsForStack_iff _).1 hw
      rw [hgo t ht] at hheld
      cases hheld
    · exact congrArg s.settled (hact.trans (hpick.trans (orWait_of_waits ((waitsForStack_iff _).2 ⟨t, ht, hw⟩))))
  · simp only [Pick.run, State.fireChosen, hl, if_true]
  · exact State.runDelayed_of_exec f.fetch h ht
  · rintro l p rfl hp
    exact Pick.run_again h hp
  · simp only [Pick.run, State.sendLate, he]

/-- Settles O3: each word is decoded. -/
theorem specWordsDecode : Obligations.SpecWordsDecode := by
  unfold Obligations.SpecWordsDecode
  decide

end Sys2Proof.Proofs
end

section
/-! SUPPORT. What a firing does before its effect (R25, R26, R63), what it emits (R29, R70, R150), and the instructions that move a value
(R172). -/

namespace Sys2Proof.Machine

/-! The guards. -/

theorem State.fire_mixes {s : State} {pm : Pred} (hl : (look s.launches s.cur.launch).isSome = true) (hm : s.cur.mixes = true)
    (body : State → Firing → State) : s.fire pm body = .next (s.faultFiring s.cur .specMix 0 0) := by
  obtain ⟨l, hl⟩ := Option.isSome_iff_exists.1 hl
  simp only [State.fire, hl, hm, if_true]

theorem State.fire_passes_not {s : State} {pm : Pred} (hl : (look s.launches s.cur.launch).isSome = true) (hm : s.cur.mixes = false)
    (hp : s.cur.passes pm = false) (body : State → Firing → State) : s.fire pm body = .next s := by
  obtain ⟨l, hl⟩ := Option.isSome_iff_exists.1 hl
  simp only [State.fire, hl, hm, hp, Bool.false_eq_true, if_false]

/-- A firing of a launch always has a next state. -/
theorem State.fire_next (s : State) (pm : Pred) (body : State → Firing → State) :
    (∃ t, s.fire pm body = .next t) ∨ (s.fire pm body = .fault .noFiring ∧ look s.launches s.cur.launch = none) := by
  cases hl : look s.launches s.cur.launch with
  | none => exact .inr ⟨by simp only [State.fire, hl], rfl⟩
  | some x =>
    refine .inl ?_
    simp only [State.fire, hl]
    split
    · exact ⟨_, rfl⟩
    · split <;> exact ⟨_, rfl⟩

/-! Flags and output queues. -/

@[simp] theorem State.exc_onStation (s : State) (k n j : Nat) (f : Station → Station) :
    ((s.onStation k n f).cluster j).exc = (s.cluster j).exc := by
  have h := congrArg Cluster.exc (s.cluster_onStation_still k n j f)
  exact h

@[simp] theorem State.exc_enqueue (s : State) (k n j : Nat) (ts : List OutTok) : ((s.enqueue k n ts).cluster j).exc = (s.cluster j).exc :=
  s.exc_onStation k n j _

theorem State.exc_emitGroup (s : State) (f : Firing) (o1 : Bool) (c : Carry) (k : Nat) :
    ((s.emitGroup f o1 c).cluster k).exc = (s.cluster k).exc := by
  simp only [State.emitGroup, State.holdTokens]
  split
  · exact s.exc_enqueue ..
  · exact (State.exc_onStation ..).trans (s.exc_enqueue ..)

theorem State.exc_raise_coloured (s : State) (f : Firing) (e : Exc) (k : Nat) (h : f.colour ≠ 0) :
    ((s.raise f e).cluster k).exc = (s.cluster k).exc := by
  unfold State.raise
  rw [if_neg h]
  split
  · rfl
  · exact s.exc_onStation ..

/-- A flag is no token. -/
theorem State.outq_raise (s : State) (f : Firing) (e : Exc) (k n : Nat) :
    ((s.raise f e).station k n).outq = (s.station k n).outq := by
  unfold State.raise
  split
  · rfl
  split
  · by_cases h : k = f.cl
    · subst h; simp [State.station, Cluster.station]
    · simp [State.station, State.cluster_onCluster_ne _ _ _ _ h]
  · by_cases h : (k, n) = (f.cl, f.st)
    · cases h; simp
    · rw [State.station_onStation_ne _ _ _ _ _ _ h]

@[simp] theorem State.stamp_raise (s : State) (f : Firing) (e : Exc) : (s.raise f e).stamp = s.stamp := by
  unfold State.raise
  split
  · rfl
  · split <;> rfl

/-- IMM24 under a type (Table 3.2). -/
theorem immOf_eq (t : Ty) (i : BitVec 24) : immOf t i = if isSigned t then i.signExtend 64 else i.setWidth 64 := by
  unfold immOf
  split
  · rw [sext_eq_toInt, BitVec.ofNat_toNat, BitVec.setWidth_eq]; rfl
  · rw [BitVec.ofNat_toNat]

/-! The destinations of a route word (R70). -/

theorem toNat_extractLsb' {w : Nat} (r : BitVec w) (lo len : Nat) : (r.extractLsb' lo len).toNat = r.toNat / 2 ^ lo % 2 ^ len := by
  rw [BitVec.extractLsb'_toNat, Nat.shiftRight_eq_div_pow]

/-- Bits of a group that stands at bit `lo` of the route word. -/
theorem div_mod_div_mod (v lo at_ len top : Nat) (h : at_ + len ≤ top) :
    v / 2 ^ lo % 2 ^ top / 2 ^ at_ % 2 ^ len = v / 2 ^ (lo + at_) % 2 ^ len := by
  refine Nat.eq_of_testBit_eq fun i => ?_
  simp only [Nat.testBit_mod_two_pow, Nat.testBit_div_two_pow]
  by_cases hi : i < len
  · have hlt : i + at_ < top := by omega
    rw [decide_eq_true hi, decide_eq_true hlt, Bool.true_and, Bool.true_and, Bool.true_and]
    congr 1; omega
  · simp [hi]

theorem destOf_extract (d : BitVec 24) : destOf d.toNat = if d.getLsbD 21
    then .engine (d.extractLsb' 22 2) (d.extractLsb' 16 5) (d.extractLsb' 8 8) (d.extractLsb' 0 8)
    else .slot (d.extractLsb' 22 2) (d.extractLsb' 10 11) (d.extractLsb' 2 8) (d.extractLsb' 0 2) := by
  have hfield : ∀ lo len, BitVec.ofNat len (d.toNat / 2 ^ lo) = d.extractLsb' lo len := fun lo len =>
    BitVec.eq_of_toNat_eq (by rw [BitVec.toNat_ofNat, toNat_extractLsb'])
  have hzero : ∀ len, BitVec.ofNat len d.toNat = d.extractLsb' 0 len := fun len => by rw [← hfield, Nat.pow_zero, Nat.div_one]
  unfold destOf
  rw [BitVec.testBit_toNat, hfield 22, hfield 16, hfield 8, hfield 10, hzero, hzero, show d.toNat / 4 = d.toNat / 2 ^ 2 from rfl, hfield 2]

theorem length_routeGroup (r : BitVec 256) (o1 : Bool) :
    (routeGroup r o1).length = (r.extractLsb' (if o1 then 224 else 96) 3).toNat := by
  have h := div_mod_div_mod r.toNat (if o1 then 128 else 0) 96 3 128 (by decide)
  rw [routeGroup, List.length_map, countFrom_eq_range', List.length_range', toNat_extractLsb']
  exact h.trans (by cases o1 <;> rfl)

theorem nth_routeGroup (r : BitVec 256) (o1 : Bool) {n : Nat} (hn : n < 4) (hlen : n < (routeGroup r o1).length) :
    nth (routeGroup r o1) n = some (destOf (r.extractLsb' ((if o1 then 128 else 0) + 24 * n) 24).toNat) := by
  have hdest := div_mod_div_mod r.toNat (if o1 then 128 else 0) (24 * n) 24 128 (by omega)
  rw [routeGroup, List.length_map, countFrom_eq_range', List.length_range'] at hlen
  rw [nth_eq_getElem?, routeGroup, List.getElem?_map, countFrom_eq_range', List.getElem?_range' hlen, toNat_extractLsb', Option.map_some,
    Nat.zero_add, Nat.one_mul, hdest]

end Sys2Proof.Machine

namespace Sys2Proof.Proofs

open Sys2Proof.Machine

/-- Settles O7: every slot's instruction is one firing, whose colours are looked at before its predicate. -/
theorem firingGuards : Obligations.FiringGuards := by
  refine ⟨fun i v s hv hl hm => ?_, fun i v s hv hl hm hp => ?_⟩
  · obtain ⟨body, hbody⟩ := exec_fires i v hv
    exact (hbody s).trans (State.fire_mixes hl hm _)
  · obtain ⟨body, hbody⟩ := exec_fires i v hv
    exact (hbody s).trans (State.fire_passes_not hl hm hp _)

/-- Settles O8: an instruction held whole is one firing that holds, and every other outcome is a firing's or an event's. -/
theorem firingOutcomes : Obligations.FiringOutcomes := by
  refine ⟨fun i v s hv hw hr hc => ?_, fun i s => ?_⟩
  · obtain ⟨body, hbody⟩ := exec_held i v hv hw
    exact (hbody s).trans (State.fireHeld_coloured hr hc _)
  · cases hv : i.view with
    | none => exact .inl (exec_event i hv s)
    | some v =>
      obtain ⟨body, hbody⟩ := exec_fires i v hv
      rw [hbody s]
      exact (s.fire_next v.pm (body s)).imp_right fun ⟨hf, hl⟩ => ⟨hf, rfl, hl⟩

/-- Settles O9: an emission under colour 0 is one entry of the output queue, and a route word's fields are its bits. -/
theorem emissionEntersOutputQueue : Obligations.EmissionEntersOutputQueue := by
  refine ⟨fun s f o1 k hk => ?_, fun r o1 => ⟨length_routeGroup r o1, fun n hn hlen => ?_⟩⟩
  · intro t
    have ht : t = s.enqueue f.cl f.st ((routeGroup f.route o1).map (k.token s.stamp)) := s.emitGroup_plain f o1 k hk
    rw [ht]
    refine ⟨s.outq_enqueue _ _ _, fun cl st h => s.station_onStation_ne _ _ _ _ _ h, ?_, fun cl => s.cluster_onStation_still _ _ _ _, rfl⟩
    rw [State.enqueue, State.station_onStation]; rfl
  · rw [nth_routeGroup r o1 hn hlen, destOf_extract]

/-- Settles O10: a scalar's end raises its flags and emits. -/
theorem scalarFrame : Obligations.ScalarFrame := by
  refine fun s pm r e => ⟨s.onlyEmits_scalar pm r e, fun hc => ⟨?_, ?_⟩, fun hc k => ?_⟩
  · rw [State.scalar, State.emit0, State.exc_emitGroup]
    exact s.exc_raise_plain s.cur e hc
  · rw [State.scalar, State.emit0_plain _ _ _ _ _ hc, State.outq_enqueue, State.outq_raise, State.stamp_raise]
  · rw [State.scalar, State.emit0, State.exc_emitGroup]
    exact s.exc_raise_coloured s.cur e k hc

/-- Settles O21: each row of R172 is its body, and each specifier of Table 3.2 is its case. -/
theorem movingAndSteering : Obligations.MovingAndSteering := by
  refine ⟨fun x s h => ?_, fun s f h imm n => ?_⟩
  · intro f v c
    have hinv : execInv x s = _ := State.fire_runs h _
    refine ⟨(State.fire_runs h _ : execMov x s = _), (State.fire_runs h _ : execFanout x s = _), (State.fire_runs h _ : execSink x s = _),
      (State.fire_runs h _ : execSteer x s = _), (State.fire_runs h _ : execGate x s = _), (State.fire_runs h _ : execJoin x s = _),
      hinv.trans ?_, fun hsa => ?_, fun k hsa hk => ?_⟩
    · by_cases hv : v = 0 <;> simp [boolWord, f, v, hv]
    · simp only [c, passClass]
      split
      · exact absurd ‹_› hsa
      · rfl
    · simp only [c, hsa, hk, passClass]
      cases k.tok.cls <;> rfl
  · exact ⟨rfl, rfl, rfl, rfl, rfl, rfl, rfl, rfl, rfl, rfl, rfl, immOf_eq⟩

end Sys2Proof.Proofs
end

section
/-! SUPPORT. Results of the remaining rows of Table 9.1 (R192, R193, R196, R198, R199): each number that a row computes, as the bit vector
that its type holds. -/

namespace Sys2Proof.Machine

/-! What an operand is read as (R39). -/

theorem readInt_of_signed {ty : Ty} (h : isSigned ty = true) (w : Word) : readInt ty w = (ty.bits w).toInt := by
  cases ty with
  | i32 => exact (sext_eq_toInt 32 _).trans (congrArg BitVec.toInt (by rw [BitVec.ofNat_toNat]; rfl))
  | i64 => exact (sext_eq_toInt 64 _).trans (congrArg BitVec.toInt (by rw [BitVec.ofNat_toNat]; rfl))
  | _ => cases h

theorem readInt_of_unsigned {ty : Ty} (h : isSigned ty = false) (w : Word) : readInt ty w = ((ty.bits w).toNat : Int) := by
  rw [← readBits_eq_toNat]
  cases ty <;> first | rfl | cases h

/-- The pattern of what an operand is read as is the operand's. -/
theorem ofInt_readInt (ty : Ty) (w : Word) : BitVec.ofInt ty.width (readInt ty w) = ty.bits w := by
  cases h : isSigned ty with
  | true => rw [readInt_of_signed h, BitVec.ofInt_toInt]
  | false => rw [readInt_of_unsigned h, BitVec.ofInt_natCast, BitVec.ofNat_toNat, BitVec.setWidth_eq]

theorem readInt_le_iff (ty : Ty) (a b : Word) : readInt ty a ≤ readInt ty b ↔
    (if isSigned ty then (ty.bits a).sle (ty.bits b) else (ty.bits a).ule (ty.bits b)) = true := by
  cases h : isSigned ty with
  | true => simp [readInt_of_signed h, BitVec.sle_iff_toInt_le]
  | false => simp [readInt_of_unsigned h, BitVec.ule_iff_toNat_le]

theorem readInt_lt_iff (ty : Ty) (a b : Word) : readInt ty a < readInt ty b ↔
    (if isSigned ty then (ty.bits a).slt (ty.bits b) else (ty.bits a).ult (ty.bits b)) = true := by
  cases h : isSigned ty with
  | true => simp [readInt_of_signed h, BitVec.slt_iff_toInt_lt]
  | false => simp [readInt_of_unsigned h, BitVec.ult_iff_toNat_lt]

theorem readInt_eq_iff (ty : Ty) (a b : Word) : readInt ty a = readInt ty b ↔ ty.bits a = ty.bits b := by
  cases h : isSigned ty with
  | true => rw [readInt_of_signed h, readInt_of_signed h, BitVec.toInt_inj]
  | false => rw [readInt_of_unsigned h, readInt_of_unsigned h, Int.natCast_inj, BitVec.toNat_inj]

theorem readInt_eq_zero_iff (ty : Ty) (b : Word) : readInt ty b = 0 ↔ ty.bits b = 0 := by
  cases h : isSigned ty with
  | true => rw [readInt_of_signed h, ← BitVec.toInt_inj]; simp
  | false => rw [readInt_of_unsigned h, ← BitVec.toNat_inj]; simp

theorem formInt_readInt (ty : Ty) (w : Word) : formInt ty (readInt ty w) = ty.word (ty.bits w) := by
  rw [formInt_eq_word, ofInt_readInt]

/-! Sums, products and choices. -/

theorem intBin_add (ty : Ty) (a b : Word) : intBin (· + ·) ty a b = ty.word (ty.bits a + ty.bits b) := by
  rw [intBin, formInt_eq_word, BitVec.ofInt_add, ofInt_readInt, ofInt_readInt]

theorem intBin_sub (ty : Ty) (a b : Word) : intBin (· - ·) ty a b = ty.word (ty.bits a - ty.bits b) := by
  rw [intBin, formInt_eq_word, Int.sub_eq_add_neg, BitVec.ofInt_add, BitVec.ofInt_neg, ofInt_readInt, ofInt_readInt, ← BitVec.sub_eq_add_neg]

theorem intBin_mul (ty : Ty) (a b : Word) : intBin (· * ·) ty a b = ty.word (ty.bits a * ty.bits b) := by
  rw [intBin, formInt_eq_word, BitVec.ofInt_mul, ofInt_readInt, ofInt_readInt]

theorem intBin_min (ty : Ty) (a b : Word) : intBin minInt ty a b =
    ty.word (if (if isSigned ty then (ty.bits a).sle (ty.bits b) else (ty.bits a).ule (ty.bits b)) then ty.bits a else ty.bits b) := by
  rw [intBin, minInt, if_congr (readInt_le_iff ty a b) rfl rfl, apply_ite (formInt ty), formInt_readInt, formInt_readInt, apply_ite ty.word]

theorem intBin_max (ty : Ty) (a b : Word) : intBin maxInt ty a b =
    ty.word (if (if isSigned ty then (ty.bits a).sle (ty.bits b) else (ty.bits a).ule (ty.bits b)) then ty.bits b else ty.bits a) := by
  rw [intBin, maxInt, if_congr (readInt_le_iff ty a b) rfl rfl, apply_ite (formInt ty), formInt_readInt, formInt_readInt, apply_ite ty.word]

theorem formInt_neg (ty : Ty) (a : Word) : formInt ty (-readInt ty a) = ty.word (0 - ty.bits a) := by
  rw [formInt_eq_word, BitVec.ofInt_neg, ofInt_readInt]
  exact congrArg _ (BitVec.zero_sub _).symm

theorem formInt_abs {ty : Ty} (h : isSigned ty = true) (a : Word) :
    formInt ty (if readInt ty a < 0 then -readInt ty a else readInt ty a) =
      ty.word (if (ty.bits a).msb then 0 - ty.bits a else ty.bits a) := by
  have hneg : readInt ty a < 0 ↔ (ty.bits a).msb = true := by
    rw [readInt_of_signed h, BitVec.msb_eq_toInt, decide_eq_true_eq]
  rw [if_congr hneg rfl rfl, apply_ite (formInt ty), formInt_neg, formInt_readInt, apply_ite ty.word]

/-! The high half of a product. -/

/-- The part of a number modulo m * n above m is the number's own part above m, modulo n. -/
theorem emod_mul_ediv (z : Int) (m n : Nat) (hm : 0 < m) : z % ((m * n : Nat) : Int) / (m : Int) = z / m % n := by
  have hm0 : (m : Int) ≠ 0 := by omega
  rw [Int.emod_def, Int.emod_def, Int.natCast_mul, ← Int.ediv_ediv_of_nonneg (by omega : (0 : Int) ≤ m), Int.mul_assoc,
    Int.sub_mul_ediv_left _ _ hm0]

/-- The upper w bits of a number's 2w-bit pattern. -/
theorem extractLsb'_ofInt (w : Nat) (z : Int) : (BitVec.ofInt (2 * w) z).extractLsb' w w = BitVec.ofInt w (z / (2 ^ w : Nat)) := by
  have hpow : 2 ^ (2 * w) = 2 ^ w * 2 ^ w := by rw [two_mul, Nat.pow_add]
  have hpos : 0 < 2 ^ w := Nat.two_pow_pos w
  refine BitVec.eq_of_toNat_eq ?_
  rw [toNat_extractLsb', BitVec.toNat_ofInt, BitVec.toNat_ofInt, hpow]
  generalize 2 ^ w = u at hpos
  have hk : ((z % ((u * u : Nat) : Int)).toNat : Int) = z % ((u * u : Nat) : Int) :=
    Int.toNat_of_nonneg (Int.emod_nonneg _ (by have := Nat.mul_pos hpos hpos; omega))
  have hlt : (z % ((u * u : Nat) : Int)).toNat < u * u := by
    have hmod : z % ((u * u : Nat) : Int) < ((u * u : Nat) : Int) := Int.emod_lt_of_pos z (by have := Nat.mul_pos hpos hpos; omega)
    omega
  have hhigh : (((z % ((u * u : Nat) : Int)).toNat / u : Nat) : Int) = z / u % u := by
    rw [Int.natCast_ediv, hk, emod_mul_ediv z u u hpos]
  rw [Nat.mod_eq_of_lt (Nat.div_lt_of_lt_mul hlt), ← hhigh, Int.toNat_natCast]

theorem mulhInt_eq_word (ty : Ty) (a b : Word) : formInt ty (mulhInt ty (readInt ty a) (readInt ty b)) = ty.word
    (if isSigned ty then ((ty.bits a).signExtend (2 * ty.width) * (ty.bits b).signExtend (2 * ty.width)).extractLsb' ty.width ty.width
      else ((ty.bits a).setWidth (2 * ty.width) * (ty.bits b).setWidth (2 * ty.width)).extractLsb' ty.width ty.width) := by
  rw [formInt_eq_word, mulhInt, ← extractLsb'_ofInt, BitVec.ofInt_mul]
  cases h : isSigned ty with
  | true => rw [readInt_of_signed h, readInt_of_signed h]; rfl
  | false =>
    rw [readInt_of_unsigned h, readInt_of_unsigned h, BitVec.ofInt_natCast, BitVec.ofInt_natCast, BitVec.ofNat_toNat, BitVec.ofNat_toNat]
    rfl

/-! Bitwise operations. -/

theorem bitBin_and (ty : Ty) (a b : Word) : bitBin Nat.land ty a b = ty.word (ty.bits a &&& ty.bits b) := by
  rw [bitBin, formBits_eq_word, readBits_eq_toNat, readBits_eq_toNat, ← ofNat_toNat_self (ty.bits a &&& ty.bits b), BitVec.toNat_and]; rfl

theorem bitBin_or (ty : Ty) (a b : Word) : bitBin Nat.lor ty a b = ty.word (ty.bits a ||| ty.bits b) := by
  rw [bitBin, formBits_eq_word, readBits_eq_toNat, readBits_eq_toNat, ← ofNat_toNat_self (ty.bits a ||| ty.bits b), BitVec.toNat_or]; rfl

theorem bitBin_xor (ty : Ty) (a b : Word) : bitBin Nat.xor ty a b = ty.word (ty.bits a ^^^ ty.bits b) := by
  rw [bitBin, formBits_eq_word, readBits_eq_toNat, readBits_eq_toNat, ← ofNat_toNat_self (ty.bits a ^^^ ty.bits b), BitVec.toNat_xor]; rfl

theorem andn_eq_word (ty : Ty) (a b : Word) : formBits ty (Nat.land (readBits ty a) (2 ^ ty.width - 1 - readBits ty b)) =
    ty.word (ty.bits a &&& ~~~ty.bits b) := by
  rw [formBits_eq_word, readBits_eq_toNat, readBits_eq_toNat, ← BitVec.toNat_not,
    ← ofNat_toNat_self (ty.bits a &&& ~~~ty.bits b), BitVec.toNat_and]; rfl

/-! DIV and REM (R38, R193). -/

theorem excIf_true (e : Exc) : excIf true e = e := rfl
theorem excIf_false (e : Exc) : excIf false e = 0 := rfl

theorem divInt_zero {ty : Ty} {b : Word} (h : ty.bits b = 0) (a : Word) :
    divInt ty a b = (ty.word (BitVec.allOnes _), true) := by
  rw [divInt, if_pos ((readInt_eq_zero_iff ty b).2 h), formBits_eq_word, ← BitVec.toNat_allOnes, BitVec.ofNat_toNat, BitVec.setWidth_eq]

theorem remInt_zero {ty : Ty} {b : Word} (h : ty.bits b = 0) (a : Word) : remInt ty a b = (ty.word (ty.bits a), true) := by
  rw [remInt, if_pos ((readInt_eq_zero_iff ty b).2 h), formInt_readInt]

/-- The quotient's pattern. -/
def quotBits (ty : Ty) (a b : Word) : BitVec ty.width := BitVec.ofInt _ (Int.tdiv (readInt ty a) (readInt ty b))
/-- The remainder's pattern. -/
def remBits (ty : Ty) (a b : Word) : BitVec ty.width := BitVec.ofInt _ (Int.tmod (readInt ty a) (readInt ty b))

theorem divInt_of_ne {ty : Ty} {b : Word} (h : ty.bits b ≠ 0) (a : Word) : divInt ty a b = (ty.word (quotBits ty a b), false) := by
  rw [divInt, if_neg (mt (readInt_eq_zero_iff ty b).1 h), formInt_eq_word]; rfl

theorem remInt_of_ne {ty : Ty} {b : Word} (h : ty.bits b ≠ 0) (a : Word) : remInt ty a b = (ty.word (remBits ty a b), false) := by
  rw [remInt, if_neg (mt (readInt_eq_zero_iff ty b).1 h), formInt_eq_word, remBits, Int.tmod_def]

theorem bits_eq_mul_quot_add_rem (ty : Ty) (a b : Word) : ty.bits a = ty.bits b * quotBits ty a b + remBits ty a b := by
  conv_lhs => rw [← ofInt_readInt, ← Int.mul_tdiv_add_tmod (readInt ty a) (readInt ty b)]
  rw [BitVec.ofInt_add, BitVec.ofInt_mul, ofInt_readInt]; rfl

theorem quotBits_of_unsigned {ty : Ty} (h : isSigned ty = false) (a b : Word) : quotBits ty a b = ty.bits a / ty.bits b := by
  rw [quotBits, readInt_of_unsigned h, readInt_of_unsigned h, ← Int.ofNat_tdiv, BitVec.ofInt_natCast, ← BitVec.toNat_udiv, BitVec.ofNat_toNat,
    BitVec.setWidth_eq]

theorem remBits_of_unsigned {ty : Ty} (h : isSigned ty = false) (a b : Word) : remBits ty a b = ty.bits a % ty.bits b := by
  rw [remBits, readInt_of_unsigned h, readInt_of_unsigned h, ← Int.ofNat_tmod, BitVec.ofInt_natCast, ← BitVec.toNat_umod, BitVec.ofNat_toNat,
    BitVec.setWidth_eq]

theorem quotBits_of_signed {ty : Ty} (h : isSigned ty = true) (a b : Word) : quotBits ty a b = (ty.bits a).sdiv (ty.bits b) := by
  rw [← BitVec.toInt_inj, BitVec.toInt_sdiv, quotBits, BitVec.toInt_ofInt, readInt_of_signed h, readInt_of_signed h]

theorem remBits_of_signed {ty : Ty} (h : isSigned ty = true) (a b : Word) : remBits ty a b = (ty.bits a).srem (ty.bits b) := by
  rw [remBits, readInt_of_signed h, readInt_of_signed h, ← BitVec.toInt_srem, BitVec.ofInt_toInt]

/-! CMP and SEL (R196). -/

theorem decide_readInt_eq (ty : Ty) (a b : Word) : decide (readInt ty a = readInt ty b) = decide (ty.bits a = ty.bits b) :=
  decide_eq_decide.2 (readInt_eq_iff ty a b)

theorem decide_readInt_lt (ty : Ty) (a b : Word) : decide (readInt ty a < readInt ty b) =
    if isSigned ty then (ty.bits a).slt (ty.bits b) else (ty.bits a).ult (ty.bits b) := by
  rw [Bool.eq_iff_iff, decide_eq_true_eq, readInt_lt_iff]

theorem decide_readInt_le (ty : Ty) (a b : Word) : decide (readInt ty a ≤ readInt ty b) =
    (decide (readInt ty a < readInt ty b) || decide (readInt ty a = readInt ty b)) := by
  rw [← Bool.decide_or]; exact decide_eq_decide.2 Int.le_iff_lt_or_eq

theorem boolWord_not (b : Bool) : boolWord (!b) = if b then 0 else 1 := by cases b <;> rfl

/-! LEA, CONST and CONSTH (R198, R199). -/

theorem State.constant_runs {s : State} {x : FormX} (h : s.Runs x.pm) (r : Word → Word) :
    s.constant x r = .next (s.scalar s.cur x.pm (r (s.opXA s.cur x)) 0) := State.fire_runs h _

theorem ofInt_mul_two_pow (w : Nat) (z : Int) (n : Nat) : BitVec.ofInt w (z * (2 ^ n : Nat)) = BitVec.ofInt w z <<< n := by
  have hpow : BitVec.ofInt w ((2 ^ n : Nat) : Int) = BitVec.twoPow w n :=
    BitVec.eq_of_toNat_eq (by rw [BitVec.ofInt_natCast, BitVec.toNat_ofNat, BitVec.toNat_twoPow])
  rw [BitVec.ofInt_mul, BitVec.shiftLeft_eq_mul_twoPow, hpow]

theorem ofInt_imm (ty : Ty) (imm : BitVec 24) : BitVec.ofInt ty.width (if isSigned ty then sext 24 imm.toNat else (imm.toNat : Int)) =
    if isSigned ty then imm.signExtend _ else imm.setWidth _ := by
  split
  · rw [sext_eq_toInt, BitVec.ofNat_toNat, BitVec.setWidth_eq]; rfl
  · rw [BitVec.ofInt_natCast, BitVec.ofNat_toNat]

theorem leaInt_eq_word (ty : Ty) (a b : Word) (sh : Nat) (imm : BitVec 24) : leaInt ty a b sh imm =
    ty.word (ty.bits a + ty.bits b <<< sh + if isSigned ty then imm.signExtend _ else imm.setWidth _) := by
  rw [leaInt, formInt_eq_word, BitVec.ofInt_add, BitVec.ofInt_add, ofInt_readInt, ofInt_mul_two_pow, ofInt_readInt, ofInt_imm]

theorem constLoWord_eq_word (ty : Ty) (imm : BitVec 24) :
    constLoWord ty imm = ty.word (if isSigned ty then imm.signExtend _ else imm.setWidth _) := by
  rw [constLoWord, formBits_eq_word, BitVec.ofNat_toNat, immOf_eq]
  have hsign : (imm.signExtend 64).setWidth 32 = imm.signExtend 32 := by
    ext i hi
    rw [BitVec.getElem_setWidth, BitVec.getLsbD_signExtend, BitVec.getElem_signExtend]
    by_cases h24 : i < 24 <;> simp [show i < 64 by omega, h24]
  cases ty <;> simp [isSigned, Ty.width, hsign]

/-- The bits from p to p + l replaced. -/
theorem ofNat_putBits (a : Word) (y p l : Nat) (mask : Word)
    (hm : ∀ j : Fin 64, mask.getLsbD j = !decide (p ≤ j.val ∧ j.val < p + l)) :
    BitVec.ofNat 64 (putBits a.toNat y p l) = (a &&& mask) ||| ((BitVec.ofNat l y).setWidth 64 <<< p) := by
  ext j hj
  have hmj := hm ⟨j, hj⟩
  rw [← BitVec.getLsbD_eq_getElem hj, ← BitVec.getLsbD_eq_getElem hj, BitVec.getLsbD_ofNat, testBit_putBits, BitVec.getLsbD_or,
    BitVec.getLsbD_and, hmj, BitVec.getLsbD_shiftLeft, BitVec.getLsbD_setWidth, BitVec.getLsbD_ofNat, BitVec.testBit_toNat,
    decide_eq_true hj]
  by_cases hin : p ≤ j ∧ j < p + l
  · have h1 : ¬ j < p := by omega
    have h2 : j - p < l := by omega
    have h3 : j - p < 64 := by omega
    simp [hin, h1, h2, h3]
  · by_cases hp : j < p
    · simp [hin, hp]
    · have h2 : ¬ j - p < l := by omega
      simp [hin, hp, h2]

theorem formBits_of_width_64 {ty : Ty} (h : ty.width = 64) (v : Nat) : formBits ty v = BitVec.ofNat 64 v := by
  have hmod : BitVec.ofNat 64 (v % 2 ^ 64) = BitVec.ofNat 64 v := BitVec.eq_of_toNat_eq (by simp)
  cases ty <;> first | exact hmod | cases h

theorem constMidWord_eq {ty : Ty} (h : ty.width = 64) (a : Word) (imm : BitVec 24) :
    constMidWord ty a imm = (a &&& (0xFFFF000000FFFFFF : Word)) ||| (imm.setWidth 64 <<< 24) := by
  have himm : imm.toNat % 2 ^ 24 = imm.toNat := Nat.mod_eq_of_lt imm.isLt
  have hput := ofNat_putBits a imm.toNat 24 24 0xFFFF000000FFFFFF (by decide)
  rw [putBits, himm, ofNat_toNat_self] at hput
  rw [constMidWord, formBits_of_width_64 h, ← hput]

theorem constHiWord_eq {ty : Ty} (h : ty.width = 64) (a : Word) (imm : BitVec 16) :
    constHiWord ty a imm = (a &&& (0x0000FFFFFFFFFFFF : Word)) ||| (imm.setWidth 64 <<< 48) := by
  have himm : imm.toNat % 2 ^ 16 = imm.toNat := Nat.mod_eq_of_lt imm.isLt
  have htop : a.toNat / 2 ^ 64 = 0 := Nat.div_eq_of_lt a.isLt
  have hput := ofNat_putBits a imm.toNat 48 16 0x0000FFFFFFFFFFFF (by decide)
  rw [putBits, himm, ofNat_toNat_self, htop, Nat.zero_mul, Nat.add_zero] at hput
  rw [constHiWord, formBits_of_width_64 h, ← hput]

end Sys2Proof.Machine

namespace Sys2Proof.Proofs

open Sys2Proof.Machine

/-- Settles O11: each row's number, as the bit vector that its type holds. -/
theorem integerResults : Obligations.IntegerResults := by
  intro x s _ h w a b out
  refine ⟨(State.int2_runs h _ : execAdd x s = _).trans ?_, (State.int2_runs h _ : execSub x s = _).trans ?_, (State.int2_runs h _
    : execMul x s = _).trans ?_, (State.int2_runs h _ : execMulh x s = _).trans ?_, (State.int2_runs h _ : execAnd x s = _).trans ?_,
    (State.int2_runs h _ : execOr x s = _).trans ?_, (State.int2_runs h _ : execXor x s = _).trans ?_, (State.int2_runs h _ : execAndn
    x s = _).trans ?_, (State.int2_runs h _ : execMin x s = _).trans ?_, (State.int2_runs h _ : execMax x s = _).trans ?_,
    (State.int1_runs h _ : execNeg x s = _).trans ?_, fun hs => (State.int1_runs h _ : execAbs x s = _).trans ?_⟩
  · rw [intBin_add]
  · rw [intBin_sub]
  · rw [intBin_mul]
  · rw [mulhInt_eq_word]
  · rw [bitBin_and]
  · rw [bitBin_or]
  · rw [bitBin_xor]
  · rw [andn_eq_word]
  · rw [intBin_min]
  · rw [intBin_max]
  · rw [formInt_neg]
  · rw [formInt_abs hs]

/-- Settles O14: the quotient and the remainder as patterns, signed and unsigned; each relation as the bit vectors' own. -/
theorem divideAndCompareResults : Obligations.DivideAndCompareResults := by
  refine ⟨fun x s _ h => ?_, fun x s h => ?_⟩
  · intro a b
    have hdiv : exec (.div x) s = .next (s.scalar s.cur x.pm (divInt x.ty (s.opA s.cur x) (s.opB s.cur x)).1
        (excIf (divInt x.ty (s.opA s.cur x) (s.opB s.cur x)).2 excDIVZ)) := (State.fire_runs h _ : s.intDiv x divInt = _)
    have hrem : exec (.rem x) s = .next (s.scalar s.cur x.pm (remInt x.ty (s.opA s.cur x) (s.opB s.cur x)).1
        (excIf (remInt x.ty (s.opA s.cur x) (s.opB s.cur x)).2 excDIVZ)) := (State.fire_runs h _ : s.intDiv x remInt = _)
    refine ⟨fun hb => ⟨?_, ?_⟩, fun hb => ⟨quotBits x.ty (s.opA s.cur x) (s.opB s.cur x), remBits x.ty (s.opA s.cur x) (s.opB s.cur x),
      ?_, ?_, bits_eq_mul_quot_add_rem _ _ _, fun hu => ⟨quotBits_of_unsigned hu _ _, ?_⟩, fun hsg => ⟨quotBits_of_signed hsg _ _, ?_,
        fun ha hb1 => ⟨?_, ?_⟩⟩⟩⟩
    · rw [hdiv, divInt_zero hb]; rfl
    · rw [hrem, remInt_zero hb]; rfl
    · rw [hdiv, divInt_of_ne hb]; rfl
    · rw [hrem, remInt_of_ne hb]; rfl
    · rw [remBits_of_unsigned hu]
      exact BitVec.lt_def.1 (BitVec.umod_lt _ ((BitVec.pos_iff_ne_zero _).2 hb))
    · rw [remBits_of_signed hsg, BitVec.toInt_srem]
    · rw [quotBits_of_signed hsg, show x.ty.bits (s.opA s.cur x) = _ from ha, show x.ty.bits (s.opB s.cur x) = _ from hb1,
        ← BitVec.neg_one_eq_allOnes, BitVec.intMin_sdiv_neg_one]
      exact ha.symm
    · rw [remBits_of_signed hsg, ← BitVec.toInt_inj, BitVec.toInt_srem, show x.ty.bits (s.opB s.cur x) = _ from hb1,
        BitVec.toInt_allOnes, if_pos x.ty.width_pos]
      simp
  · intro a b out lt eq
    have hcmp : ∀ rel, exec (.cmp x rel) s = out (boolWord (cmpHolds rel (readInt x.ty a) (readInt x.ty b))) :=
      fun rel => (State.int2_runs h _ : execCmp x rel s = _)
    have heq : decide (readInt x.ty a = readInt x.ty b) = eq := decide_readInt_eq _ _ _
    have hlt : decide (readInt x.ty a < readInt x.ty b) = lt := decide_readInt_lt _ _ _
    have hle : decide (readInt x.ty a ≤ readInt x.ty b) = (lt || eq) := by rw [decide_readInt_le, hlt, heq]
    have hgt : decide (readInt x.ty b < readInt x.ty a) = !(lt || eq) := by
      rw [← hle, ← decide_not]; exact decide_eq_decide.2 Int.not_le.symm
    have hge : decide (readInt x.ty b ≤ readInt x.ty a) = !lt := by
      rw [← hlt, ← decide_not]; exact decide_eq_decide.2 Int.not_lt.symm
    refine ⟨fun _ => ⟨?_, ?_, ?_, ?_, ?_, ?_⟩, (State.int3_runs h _ : execSel x s = _).trans ?_⟩
    · rw [hcmp, cmpHolds, heq]; rfl
    · rw [hcmp, cmpHolds, decide_not, heq, boolWord_not]
    · rw [hcmp, cmpHolds, hlt]; rfl
    · rw [hcmp, cmpHolds, hle]; rfl
    · rw [hcmp, cmpHolds, hgt, boolWord_not]
    · rw [hcmp, cmpHolds, hge, boolWord_not]
    · rw [selWord, formBits_eq_word, readBits_eq_toNat, ofNat_toNat_self]

/-- Settles O16: LEA's sum and each constant's replaced bits. -/
theorem addressConstantResults : Obligations.AddressConstantResults := by
  refine ⟨fun x sh s _ h => (State.int2_runs h _ : execLea x sh s = _).trans (by rw [leaInt_eq_word]), fun x s imm hi h => ?_⟩
  intro a mid
  refine ⟨(State.constant_runs h _ : execConstLo x imm s = _).trans ?_, fun hw => ⟨(State.constant_runs h _ : execConstMid x imm s = _).trans ?_,
    (State.constant_runs h _ : execConsth x imm s = _).trans ?_, (State.constant_runs h _ : execConstHi x hi s = _).trans ?_⟩⟩
  · rw [constLoWord_eq_word]
  · rw [constMidWord_eq hw]; rfl
  · rw [constMidWord_eq hw]; rfl
  · rw [constHiWord_eq hw]; rfl

end Sys2Proof.Proofs
end

section
/-! SUPPORT. Results of the floating-point rows of Table 9.3 and of the conversions (R201 to R205). -/

namespace Sys2Proof.Machine

theorem width_fmtOf {ty : Ty} (h : ty.isFloat = true) : (fmtOf ty).width = ty.width := by
  cases ty <;> first | rfl | cases h

theorem State.floatRes_eq (s : State) (f : Firing) (x : FormA) (r : FRes) :
    s.floatRes f x r = s.scalar f x.pm (x.ty.word (BitVec.ofNat _ r.1)) r.2 := by rw [State.floatRes, formBits_eq_word]

theorem floatVal_eq (ty : Ty) (w : Word) : floatVal ty w = (fmtOf ty).decode (ty.bits w).toNat := by rw [floatVal, readBits_eq_toNat]

section
variable {s : State} {x : FormA} (h : s.Runs x.pm)
include h

/-- A floating row that runs ends with its operation's result. -/
theorem State.floatFire_runs (op : State → Firing → FRes) : s.fire x.pm (fun s f => s.floatRes f x (op s f)) =
    .next (s.scalar s.cur x.pm (x.ty.word (BitVec.ofNat _ (op s s.cur).1)) (op s s.cur).2) := by
  rw [State.fire_runs h, State.floatRes_eq]

theorem State.float1_runs (op : Fmt → RM → FVal → FRes) : s.float1 x op =
    .next (s.scalar s.cur x.pm (x.ty.word (BitVec.ofNat _ (op (fmtOf x.ty) x.rm ((fmtOf x.ty).decode (x.ty.bits (s.opA s.cur x)).toNat)).1))
      (op (fmtOf x.ty) x.rm ((fmtOf x.ty).decode (x.ty.bits (s.opA s.cur x)).toNat)).2) := by
  rw [State.float1, State.floatFire_runs h, floatVal_eq]

theorem State.float2_runs (op : Fmt → RM → FVal → FVal → FRes) : s.float2 x op =
    .next (s.scalar s.cur x.pm (x.ty.word (BitVec.ofNat _ (op (fmtOf x.ty) x.rm ((fmtOf x.ty).decode (x.ty.bits (s.opA s.cur x)).toNat)
        ((fmtOf x.ty).decode (x.ty.bits (s.opB s.cur x)).toNat)).1))
      (op (fmtOf x.ty) x.rm ((fmtOf x.ty).decode (x.ty.bits (s.opA s.cur x)).toNat)
        ((fmtOf x.ty).decode (x.ty.bits (s.opB s.cur x)).toNat)).2) := by
  rw [State.float2, State.floatFire_runs h, floatVal_eq, floatVal_eq]

theorem State.float3_runs (op : Fmt → RM → FVal → FVal → FVal → FRes) : s.float3 x op =
    .next (s.scalar s.cur x.pm (x.ty.word (BitVec.ofNat _ (op (fmtOf x.ty) x.rm ((fmtOf x.ty).decode (x.ty.bits (s.opA s.cur x)).toNat)
        ((fmtOf x.ty).decode (x.ty.bits (s.opB s.cur x)).toNat) ((fmtOf x.ty).decode (x.ty.bits (s.opC s.cur x)).toNat)).1))
      (op (fmtOf x.ty) x.rm ((fmtOf x.ty).decode (x.ty.bits (s.opA s.cur x)).toNat)
        ((fmtOf x.ty).decode (x.ty.bits (s.opB s.cur x)).toNat) ((fmtOf x.ty).decode (x.ty.bits (s.opC s.cur x)).toNat)).2) := by
  rw [State.float3, State.floatFire_runs h, floatVal_eq, floatVal_eq, floatVal_eq]

theorem State.floatBits_runs (op : State → Firing → Fmt → Nat → Nat → FRes) : s.floatBits x op =
    .next (s.scalar s.cur x.pm (x.ty.word (BitVec.ofNat _
        (op s s.cur (fmtOf x.ty) (x.ty.bits (s.opA s.cur x)).toNat (x.ty.bits (s.opB s.cur x)).toNat).1))
      (op s s.cur (fmtOf x.ty) (x.ty.bits (s.opA s.cur x)).toNat (x.ty.bits (s.opB s.cur x)).toNat).2) := by
  rw [State.floatBits, State.floatFire_runs h, readBits_eq_toNat, readBits_eq_toNat]

end

/-- Inverting the sign bit adds half the pattern space, modulo the pattern space. -/
theorem fnegBits_eq {t : Fmt} {a : Nat} (h : a < 2 ^ t.width) : fnegBits t a = (a + 2 ^ (t.width - 1)) % 2 ^ t.width := by
  have hw : t.width = t.e + t.f + 1 := by rw [Fmt.width]; omega
  rw [hw, Nat.pow_succ] at h
  rw [hw, fnegBits, Fmt.signed, Nat.add_sub_cancel, Nat.testBit_eq_decide_div_mod_eq, Nat.pow_succ]
  have hpos := Nat.two_pow_pos (t.e + t.f)
  generalize 2 ^ (t.e + t.f) = u at h hpos
  by_cases hlt : a < u
  · rw [Nat.div_eq_of_lt hlt, Nat.mod_eq_of_lt hlt]
    have hsum : (a + u) % (u * 2) = a + u := Nat.mod_eq_of_lt (by omega)
    simp [hsum, Nat.add_comm u]
  · have hdiv : a / u = 1 := Nat.div_eq_of_lt_le (by omega) (by omega)
    have hmod : a % u = a - u := by rw [Nat.mod_eq_sub_mod (by omega), Nat.mod_eq_of_lt (by omega)]
    have hsum : (a + u) % (u * 2) = a - u := by rw [Nat.mod_eq_sub_mod (by omega), Nat.mod_eq_of_lt (by omega)]; omega
    rw [hdiv, hmod, hsum]; rfl

end Sys2Proof.Machine

namespace Sys2Proof.Proofs

open Sys2Proof.Machine

/-- Settles O17: each row runs its operation on the patterns that its type reads. -/
theorem floatResults : Obligations.FloatResults := by
  intro x s hf h t ua ub a b c out
  have hw : t.width = x.ty.width := width_fmtOf hf
  have hua : ua < 2 ^ t.width := hw ▸ (x.ty.bits (s.opA s.cur x)).isLt
  refine ⟨(State.float2_runs h _ : execFadd x s = _), (State.float2_runs h _ : execFsub x s = _),
    (State.float2_runs h _ : execFmul x s = _), (State.float3_runs h _ : execFma x s = _),
    (State.float3_runs h _ : execFnma x s = _), (State.float2_runs h _ : execFdiv x s = _),
    (State.float1_runs h _ : execFsqrt x s = _), (State.floatBits_runs h _ : execFmin x s = _),
    (State.floatBits_runs h _ : execFmax x s = _), (State.floatBits_runs h _ : execFabs x s = _).trans ?_,
    (State.floatBits_runs h _ : execFneg x s = _).trans ?_, fun p => (State.floatBits_runs h _ : execFcmp x p s = _),
    (State.floatBits_runs h _ : execFclass x s = _), (State.float1_runs h _ : execFexp2 x s = _),
    (State.float1_runs h _ : execFlog2 x s = _), (State.float1_runs h _ : execFrcp x s = _),
    (State.float1_runs h _ : execFrsq x s = _), (State.floatBits_runs h _ : execFrint x s = _),
    (State.floatBits_runs h _ : execFrintX x s = _)⟩
  · rw [fabsBits, show t.width - 1 = t.e + t.f by rw [Fmt.width]; omega]
  · rw [fnegBits_eq hua]

/-- Settles O18. -/
theorem conversionResults : Obligations.ConversionResults := by
  intro x s hf h t
  refine ⟨fun src => (State.floatFire_runs h _ : execFcvt x src s = _), fun dst => ?_, fun src => ?_⟩
  · refine (State.fire_runs h _ : execFtoi x dst s = _).trans ?_
    dsimp only
    rw [formInt_eq_word, floatVal_eq]
  · refine (State.floatFire_runs h _ : execItof x src s = _).trans ?_
    have hv : readInt (tyOfInt src) (s.opA s.cur x) = if isSigned (tyOfInt src) then ((tyOfInt src).bits (s.opA s.cur x)).toInt
        else (((tyOfInt src).bits (s.opA s.cur x)).toNat : Int) := by
      cases hsg : isSigned (tyOfInt src) with
      | true => exact readInt_of_signed hsg _
      | false => exact readInt_of_unsigned hsg _
    rw [hv]

end Sys2Proof.Proofs
end

section
/-! SUPPORT. The five rounding modes (R46), the special cases of the arithmetic (Table 9.4, R206), conversion to an integer (R49),
comparison, minimum and maximum (R203, R204). -/

namespace Sys2Proof.Machine

/-! Rounding to a count of 2^q (R46). -/

/-- A number as a kept part and a remainder below the unit. -/
theorem kept_add_rem (m d : Nat) : m / 2 ^ d * 2 ^ d + m % 2 ^ d = m ∧ m % 2 ^ d < 2 ^ d :=
  ⟨Nat.div_add_mod' m _, Nat.mod_lt _ (Nat.two_pow_pos d)⟩

theorem roundTo_of_lt {e q : Int} (h : e < q) (rm : RM) (neg : Bool) (m : Nat) : roundTo rm neg m e q =
    (if roundsUp rm neg (m / 2 ^ (q - e).toNat) (m % 2 ^ (q - e).toNat) (q - e).toNat then m / 2 ^ (q - e).toNat + 1
      else m / 2 ^ (q - e).toNat, decide (m % 2 ^ (q - e).toNat ≠ 0)) := by
  rw [roundTo, if_neg (by omega)]

/-- A rounding that does not go up keeps the count next below, one that does the count next above. -/
theorem roundTo_down {e q : Int} (h : e < q) {rm : RM} {neg : Bool} {m : Nat}
    (hup : roundsUp rm neg (m / 2 ^ (q - e).toNat) (m % 2 ^ (q - e).toNat) (q - e).toNat = false) :
    (roundTo rm neg m e q).1 = m / 2 ^ (q - e).toNat ∧
    (roundTo rm neg m e q).1 * 2 ^ (q - e).toNat + m % 2 ^ (q - e).toNat = m ∧
    ((roundTo rm neg m e q).1 + 1) * 2 ^ (q - e).toNat = (roundTo rm neg m e q).1 * 2 ^ (q - e).toNat + 2 ^ (q - e).toNat ∧
    m % 2 ^ (q - e).toNat < 2 ^ (q - e).toNat := by
  have hk : (roundTo rm neg m e q).1 = m / 2 ^ (q - e).toNat := by simp only [roundTo_of_lt h, hup]; rfl
  obtain ⟨hsum, hlt⟩ := kept_add_rem m (q - e).toNat
  exact ⟨hk, hk ▸ hsum, Nat.succ_mul _ _, hlt⟩

theorem roundTo_up {e q : Int} (h : e < q) {rm : RM} {neg : Bool} {m : Nat}
    (hup : roundsUp rm neg (m / 2 ^ (q - e).toNat) (m % 2 ^ (q - e).toNat) (q - e).toNat = true) :
    (roundTo rm neg m e q).1 = m / 2 ^ (q - e).toNat + 1 ∧
    (roundTo rm neg m e q).1 * 2 ^ (q - e).toNat + m % 2 ^ (q - e).toNat = m + 2 ^ (q - e).toNat ∧
    m % 2 ^ (q - e).toNat < 2 ^ (q - e).toNat ∧ m % 2 ^ (q - e).toNat ≠ 0 := by
  have hk : (roundTo rm neg m e q).1 = m / 2 ^ (q - e).toNat + 1 := by simp only [roundTo_of_lt h, hup]; rfl
  obtain ⟨hsum, hlt⟩ := kept_add_rem m (q - e).toNat
  refine ⟨hk, ?_, hlt, fun h0 => ?_⟩
  · rw [hk, Nat.succ_mul]; omega
  · simp [roundsUp, h0] at hup

theorem roundTo_toward {e q : Int} (h : e < q) {rm : RM} {neg : Bool} (hd : ∀ kept r d, roundsUp rm neg kept r d = false) (m : Nat) :
    (roundTo rm neg m e q).1 * 2 ^ (q - e).toNat ≤ m ∧ m < ((roundTo rm neg m e q).1 + 1) * 2 ^ (q - e).toNat := by
  obtain ⟨-, hsum, hsucc, hlt⟩ := roundTo_down h (hd (m / 2 ^ (q - e).toNat) (m % 2 ^ (q - e).toNat) (q - e).toNat)
  omega

theorem roundTo_away {e q : Int} (h : e < q) {rm : RM} {neg : Bool} (hd : ∀ kept r d, roundsUp rm neg kept r d = decide (r ≠ 0)) (m : Nat) :
    m ≤ (roundTo rm neg m e q).1 * 2 ^ (q - e).toNat ∧
      (roundTo rm neg m e q).1 * 2 ^ (q - e).toNat < m + 2 ^ (q - e).toNat := by
  have hup := hd (m / 2 ^ (q - e).toNat) (m % 2 ^ (q - e).toNat) (q - e).toNat
  by_cases hr : m % 2 ^ (q - e).toNat = 0
  · rw [decide_eq_false (not_not_intro hr)] at hup
    obtain ⟨-, hsum, -, hlt⟩ := roundTo_down h hup
    omega
  · rw [decide_eq_true hr] at hup
    obtain ⟨-, hsum, hlt, -⟩ := roundTo_up h hup
    omega

theorem roundTo_nearest_even {e q : Int} (h : e < q) (neg : Bool) (m : Nat) :
    let u := 2 ^ (q - e).toNat
    let k := (roundTo .rne neg m e q).1
    2 * (k * u) ≤ 2 * m + u ∧ 2 * m ≤ 2 * (k * u) + u ∧ (2 * (k * u) = 2 * m + u ∨ 2 * m = 2 * (k * u) + u → k % 2 = 0) := by
  dsimp only
  cases hup : roundsUp .rne neg (m / 2 ^ (q - e).toNat) (m % 2 ^ (q - e).toNat) (q - e).toNat with
  | false =>
    obtain ⟨hk, hsum, -, hlt⟩ := roundTo_down h hup
    simp only [roundsUp] at hup
    split at hup
    · omega
    · simp at hup; omega
  | true =>
    obtain ⟨hk, hsum, hlt, hne⟩ := roundTo_up h hup
    simp only [roundsUp, if_neg hne] at hup
    simp at hup; omega

theorem roundTo_nearest_away {e q : Int} (h : e < q) (neg : Bool) (m : Nat) :
    let u := 2 ^ (q - e).toNat
    let k := (roundTo .rna neg m e q).1
    2 * (k * u) ≤ 2 * m + u ∧ 2 * m < 2 * (k * u) + u := by
  dsimp only
  cases hup : roundsUp .rna neg (m / 2 ^ (q - e).toNat) (m % 2 ^ (q - e).toNat) (q - e).toNat with
  | false =>
    obtain ⟨hk, hsum, -, hlt⟩ := roundTo_down h hup
    simp only [roundsUp] at hup
    split at hup
    · omega
    · simp at hup; omega
  | true =>
    obtain ⟨hk, hsum, hlt, hne⟩ := roundTo_up h hup
    simp only [roundsUp, if_neg hne] at hup
    simp at hup; omega

theorem roundTo_inexact_iff {e q : Int} (h : e < q) (rm : RM) (neg : Bool) (m : Nat) :
    (roundTo rm neg m e q).2 = true ↔ (roundTo rm neg m e q).1 * 2 ^ (q - e).toNat ≠ m := by
  have hflag : (roundTo rm neg m e q).2 = decide (m % 2 ^ (q - e).toNat ≠ 0) := by rw [roundTo_of_lt h]
  rw [hflag, decide_eq_true_eq]
  cases hup : roundsUp rm neg (m / 2 ^ (q - e).toNat) (m % 2 ^ (q - e).toNat) (q - e).toNat with
  | false =>
    obtain ⟨-, hsum, -, hlt⟩ := roundTo_down h hup
    omega
  | true =>
    obtain ⟨-, hsum, hlt, hne⟩ := roundTo_up h hup
    omega

/-! Operands and results that are not rounded (R201). -/

theorem arith_invalid (t : Fmt) (xs : List FVal) (op : FRes) : arith t xs true op = (t.nanBits, excNV) := by
  have hor : snanFlag xs ||| excNV = excNV := by rw [snanFlag]; cases xs.any FVal.isSnan <;> rfl
  rw [arith, if_pos rfl, hor]

theorem arith_of_not_nan {t : Fmt} {xs : List FVal} {op : FRes} (h : xs.any FVal.isNan = false) : arith t xs false op = op := by
  rw [arith, h]; rfl

theorem isZero_fin (n : Bool) (m : Nat) (e : Int) : (FVal.fin n m e).isZero = decide (m = 0) := by cases m <;> rfl

/-- The square root, the logarithm and the reciprocal root of a negative number are invalid. -/
theorem arith_of_negative {m : Nat} (h : m ≠ 0) (t : Fmt) (e : Int) (xs : List FVal) (op : FRes) :
    arith t xs ((FVal.fin true m e).neg && !(FVal.fin true m e).isZero) op = (t.nanBits, excNV) := by
  rw [isZero_fin, decide_eq_false h]; exact arith_invalid t xs op

section
variable {t : Fmt} {rm : RM} {n p : Bool} {m m' : Nat} {e e' : Int} {z : FVal}

theorem alignSum_opposite : (alignSum n m e (!n) m e).1 = 0 := by cases n <;> simp [alignSum]

theorem fadd_opposite (h : m ≠ 0) : fadd t rm (.fin n m e) (.fin (!n) m e) = zeroRes t (decide (rm = .rd)) := by
  refine (arith_of_not_nan rfl).trans ?_
  simp [addVals, alignSum_opposite, h]

theorem fadd_zeros : fadd t rm (.fin n 0 e) (.fin n 0 e') = zeroRes t n := by
  refine (arith_of_not_nan rfl).trans ?_
  simp [addVals, alignSum]

theorem fadd_nan {g : Bool} : fadd t rm (.nan g) z = (t.nanBits, if g || z.isSnan then excNV else 0) := by
  have hflag : snanFlag [.nan g, z] = if g || z.isSnan then excNV else 0 := by
    simp only [snanFlag, List.any_cons, List.any_nil, Bool.or_false]; rfl
  rw [fadd, arith, hflag]; rfl

theorem fmul_zero : fmul t rm (.fin n 0 e) (.fin p m' e') = zeroRes t (n != p) := by
  refine (arith_of_not_nan rfl).trans ?_
  simp [mulVals, roundVal, roundRes, zeroRes]

/-- One is exact in each of the four station formats. -/
theorem roundRes_one (ht : t ∈ [fp16, bf16, fp32, fp64]) (rm : RM) : roundRes t rm false 1 0 = (t.bias * 2 ^ t.f, 0) := by
  simp only [List.mem_cons, List.not_mem_nil, or_false] at ht
  obtain rfl | rfl | rfl | rfl := ht <;> cases rm <;> decide +kernel

end

/-! Conversion to an integer (R49). -/

theorem toInt_nan (lim : Int × Int) (rm : RM) {x : FVal} (h : x.isNan = true) : toInt lim rm x = (0, excNV) := by
  cases x with
  | nan _ => rfl
  | _ => cases h

/-- An integer type's limits enclose 0. -/
theorem intLimits_enclose (dst : IntTy) : (intLimits dst).1 ≤ 0 ∧ 0 ≤ (intLimits dst).2 := by cases dst <;> decide

theorem toInt_mem_limits (dst : IntTy) (rm : RM) (x : FVal) :
    (intLimits dst).1 ≤ (toInt (intLimits dst) rm x).1 ∧ (toInt (intLimits dst) rm x).1 ≤ (intLimits dst).2 := by
  obtain ⟨hlo, hhi⟩ := intLimits_enclose dst
  cases x with
  | nan _ => exact ⟨hlo, hhi⟩
  | inf n => cases n with
    | false => exact ⟨hlo.trans hhi, le_refl _⟩
    | true => exact ⟨le_refl _, hlo.trans hhi⟩
  | fin n m e =>
    simp only [toInt]
    split
    · exact ⟨le_refl _, hlo.trans hhi⟩
    · split
      · exact ⟨hlo.trans hhi, le_refl _⟩
      · omega

/-! Order (R203, R204). -/

/-- The order of two finite values is that of their signed counts of a common power of two. -/
theorem alignSum_swap (n1 n2 : Bool) (m1 m2 : Nat) (e1 e2 : Int) :
    (alignSum n2 m2 e2 (!n1) m1 e1).1 = -(alignSum n1 m1 e1 (!n2) m2 e2).1 := by
  have he : (if e2 ≤ e1 then e2 else e1) = if e1 ≤ e2 then e1 else e2 := by split <;> split <;> omega
  rw [alignSum, alignSum, he]
  cases n1 <;> cases n2 <;> simp

theorem ltVals_asymm {x y : FVal} (hx : x.isNan = false) (hy : y.isNan = false) (h : ltVals x y = true) : ltVals y x = false := by
  cases x with
  | nan _ => cases hx
  | inf a => cases y with
    | nan _ => cases hy
    | inf b => cases a <;> cases b <;> first | rfl | cases h
    | fin n m e => cases a <;> first | rfl | cases h
  | fin n m e => cases y with
    | nan _ => cases hy
    | inf b => cases b <;> first | rfl | cases h
    | fin n' m' e' =>
      simp only [ltVals, decide_eq_true_eq, decide_eq_false_iff_not] at h ⊢
      rw [alignSum_swap]; omega

theorem isZero_iff {x : FVal} : x.isZero = true ↔ ∃ n e, x = .fin n 0 e := by
  cases x with
  | fin n m e => rw [isZero_fin]; simp
  | _ => simp [FVal.isZero]

theorem ltVals_zeros {x y : FVal} (hx : x.isZero = true) (hy : y.isZero = true) : ltVals x y = false := by
  obtain ⟨n, e, rfl⟩ := isZero_iff.1 hx
  obtain ⟨n', e', rfl⟩ := isZero_iff.1 hy
  simp [ltVals, alignSum]

/-! Minimum, maximum and comparison, by which operands are NaN (R203, R204). -/

section
variable {t : Fmt} {a b : Nat}

theorem fminmax_flag (t : Fmt) (mx e017 : Bool) (a b : Nat) : (fminmax t mx e017 a b).2 = snanFlag [t.decode a, t.decode b] := by
  simp only [fminmax]
  split
  · rfl
  · rfl
  · rfl
  · split <;> rfl

theorem fminmax_nans (hx : (t.decode a).isNan = true) (hy : (t.decode b).isNan = true) (mx e017 : Bool) :
    (fminmax t mx e017 a b).1 = t.nanBits := by simp only [fminmax, hx, hy]

theorem fminmax_nan_left (hx : (t.decode a).isNan = true) (hy : (t.decode b).isNan = false) (mx e017 : Bool) :
    (fminmax t mx e017 a b).1 = b := by simp only [fminmax, hx, hy]

theorem fminmax_nan_right (hx : (t.decode a).isNan = false) (hy : (t.decode b).isNan = true) (mx e017 : Bool) :
    (fminmax t mx e017 a b).1 = a := by simp only [fminmax, hx, hy]

/-- Two zeros of different sign: the negative one is the lesser, but for the compatibility case of FMIN. -/
theorem fminmax_zeros (hx : (t.decode a).isZero = true) (hy : (t.decode b).isZero = true) (hne : (t.decode a).neg ≠ (t.decode b).neg)
    (mx e017 : Bool) : (fminmax t mx e017 a b).1 = if (t.decode a).neg = (!mx && !e017) then a else b := by
  obtain ⟨n, e, hxe⟩ := isZero_iff.1 hx
  obtain ⟨n', e', hye⟩ := isZero_iff.1 hy
  simp only [hxe, hye] at hne ⊢
  have hneg : (n != n') = true := by simpa [FVal.neg] using hne
  simp [fminmax, hxe, hye, FVal.isNan, FVal.isZero, FVal.neg, hneg]; rfl

/-- Of two ordered operands the lesser is the minimum and the greater the maximum. -/
theorem fminmax_of_lt (hx : (t.decode a).isNan = false) (hy : (t.decode b).isNan = false)
    (hlt : ltVals (t.decode a) (t.decode b) = true) (mx e017 : Bool) : (fminmax t mx e017 a b).1 = if mx then b else a := by
  have hgt := ltVals_asymm hx hy hlt
  have hz : ((t.decode a).isZero && (t.decode b).isZero) = false := by
    rw [Bool.and_eq_false_iff]
    by_contra hzz
    simp only [not_or, Bool.not_eq_false] at hzz
    rw [ltVals_zeros hzz.1 hzz.2] at hlt
    cases hlt
  cases mx <;> simp [fminmax, hx, hy, hz, hlt, hgt]

/-- What FCMP's predicates answer for a NaN: whether they hold of unordered operands, and whether they are quiet. -/
def unorderedAnswer (flag : Exc) : FcmpPred → Bool × Exc
  | .eq => (false, flag)
  | .ne => (true, flag)
  | .un => (true, flag)
  | .ord => (false, flag)
  | .lt => (false, excNV)
  | .le => (false, excNV)
  | .gt => (false, excNV)
  | .ge => (false, excNV)

theorem fcmpHolds_nan (h : ((t.decode a).isNan || (t.decode b).isNan) = true) (p : FcmpPred) :
    fcmpHolds t p a b = unorderedAnswer (snanFlag [t.decode a, t.decode b]) p := by
  cases p <;> simp only [fcmpHolds, h] <;> rfl

theorem fcmpHolds_zeros (hx : (t.decode a).isZero = true) (hy : (t.decode b).isZero = true) :
    fcmpHolds t .eq a b = (true, 0) ∧ fcmpHolds t .lt a b = (false, 0) := by
  have hxy := ltVals_zeros hx hy
  have hyx := ltVals_zeros hy hx
  obtain ⟨n, e, hxe⟩ := isZero_iff.1 hx
  obtain ⟨n', e', hye⟩ := isZero_iff.1 hy
  rw [hxe, hye] at hxy hyx
  simp only [fcmpHolds, eqVals, hxe, hye, hxy, hyx]
  exact ⟨rfl, rfl⟩

/-- FCLASS sets one bit, by the operand's kind. -/
theorem fclassMask_mem (t : Fmt) (a : Nat) : fclassMask t a ∈ [1, 2, 4, 8, 16, 32, 64, 128, 256, 512] := by
  simp only [fclassMask]
  cases t.decode a with
  | nan g => cases g <;> simp
  | inf n => cases n <;> simp
  | fin n m e =>
    by_cases hm : m = 0 <;> by_cases hsub : a % 2 ^ (t.e + t.f) < 2 ^ t.f <;> cases n <;> simp [hm, hsub]

end

end Sys2Proof.Machine

namespace Sys2Proof.Proofs

open Sys2Proof.Machine

/-- Settles O19: each mode by what it does with the remainder; each special case by the operation's own branch. -/
theorem roundingAndSpecialCases : Obligations.RoundingAndSpecialCases := by
  refine ⟨fun rm neg m e q h => ?_, fun t rm n p m m' e e' z ht hm => ?_⟩
  · refine ⟨?_, ?_, ?_, ?_, ?_, ?_, ?_, roundTo_inexact_iff h rm neg m⟩
    · rintro rfl
      exact roundTo_toward h (fun _ _ _ => by simp [roundsUp]) m
    · rintro rfl rfl
      exact roundTo_toward h (fun _ _ _ => by simp [roundsUp]) m
    · rintro rfl rfl
      exact roundTo_away h (fun _ r _ => by by_cases hr : r = 0 <;> simp [roundsUp, hr]) m
    · rintro rfl rfl
      exact roundTo_toward h (fun _ _ _ => by simp [roundsUp]) m
    · rintro rfl rfl
      exact roundTo_away h (fun _ r _ => by by_cases hr : r = 0 <;> simp [roundsUp, hr]) m
    · rintro rfl
      exact roundTo_nearest_even h neg m
    · rintro rfl
      exact roundTo_nearest_away h neg m
  · intro nan inf zero
    have hne : mulVals (.inf n) (.fin p m e) = some (.inf (n != p)) := if_neg hm
    refine ⟨by cases n <;> rfl, by cases n <;> rfl, fadd_opposite hm, fadd_zeros, fun g => fadd_nan, arith_invalid _ _ _, arith_invalid _ _ _,
      fmul_zero, fun g => ⟨arith_invalid t _ (invalid t), arith_invalid t _ (invalid t)⟩, fun g => ⟨?_, ?_⟩, ?_, ?_, arith_invalid _ _ _, arith_invalid _ _ _, ?_,
      ?_, rfl, arith_of_negative hm _ _ _ _, arith_invalid _ _ _, rfl, rfl, rfl, ?_, ?_, rfl, rfl, arith_of_negative hm _ _ _ _,
      arith_invalid _ _ _, rfl, rfl, ?_, rfl, arith_of_negative hm _ _ _ _, arith_invalid _ _ _⟩
    · cases g <;> rfl
    · cases g <;> rfl
    · rw [fma, hne]
      cases n <;> cases p <;> rfl
    · rw [fma, hne]
      cases n <;> cases p <;> rfl
    · rw [fdiv, isZero_fin, decide_eq_false hm]; rfl
    · rw [fdiv, show FVal.isZero (.inf p) = false from rfl, Bool.and_false]
      · rfl
      · exact fun _ h => nomatch h
    · exact (arith_of_not_nan rfl).trans (roundRes_one ht rm)
    · rw [flog2, isZero_fin]; cases n <;> rfl
    · rw [frsq, isZero_fin]; cases n <;> rfl

/-- Settles O20: by what each operand is (a NaN, an infinity, a finite value). -/
theorem floatComparisons : Obligations.FloatComparisons := by
  intro t rm a b ht _ _ x y flag
  have hflag : snanFlag [x, y] = flag := by simp only [snanFlag, List.any_cons, List.any_nil, Bool.or_false, flag]; rfl
  refine ⟨fun dst => ⟨toInt_nan _ _, fun n hn => by rw [hn]; rfl, toInt_mem_limits dst rm x⟩, fun mx e017 => ?_, fun hx hy hlt => ?_,
    fun hx hy hnx hny => ?_, fun hun => ?_, fun hx hy => ?_, ?_⟩
  · exact ⟨(fminmax_flag t mx e017 a b).trans hflag, fun hx hy => fminmax_nans hx hy _ _, fun hx hy => fminmax_nan_left hx hy _ _,
      fun hx hy => fminmax_nan_right hx hy _ _⟩
  · exact ⟨fminmax_of_lt hx hy hlt _ _, fminmax_of_lt hx hy hlt _ _⟩
  · have hne : x.neg ≠ y.neg := by rw [hnx, hny]; decide
    exact ⟨(fminmax_zeros hx hy hne _ _).trans (if_pos hnx), (fminmax_zeros hx hy hne _ _).trans (if_neg (by rw [hnx]; decide)),
      (fminmax_zeros hx hy hne _ _).trans (if_neg (by rw [hnx]; decide))⟩
  · rw [← hflag]
    exact ⟨fcmpHolds_nan hun .eq, fcmpHolds_nan hun .ne, fcmpHolds_nan hun .un, fcmpHolds_nan hun .ord, fcmpHolds_nan hun .lt,
      fcmpHolds_nan hun .le, fcmpHolds_nan hun .gt, fcmpHolds_nan hun .ge⟩
  · exact fcmpHolds_zeros hx hy
  · exact fclassMask_mem t a

end Sys2Proof.Proofs
end

section
/-! SUPPORT. The bobbin table, speculation, phases, launch level and arbiters (R171 to R186), and the fault of a firing (R371). -/

namespace Sys2Proof.Machine

/-! The bobbin table (R17, R18). -/

theorem lowestId_some {insts : List (Nat × Instance)} {i n id : Nat} (h : lowestId insts i n = some id) :
    i ≤ id ∧ id < i + n ∧ look insts id = none ∧ ∀ j, i ≤ j → j < id → look insts j ≠ none := by
  induction n generalizing i with
  | zero => cases h
  | succ n ih =>
    rw [lowestId] at h
    split at h
    · rename_i hfree
      cases h
      exact ⟨le_refl _, by omega, Option.isNone_iff_eq_none.1 hfree, fun j _ _ => by omega⟩
    · rename_i hheld
      obtain ⟨hle, hlt, hnone, hlow⟩ := ih h
      refine ⟨by omega, by omega, hnone, fun j hj hjid => ?_⟩
      by_cases hji : j = i
      · subst hji; exact fun hj0 => hheld (Option.isNone_iff_eq_none.2 hj0)
      · exact hlow j (by omega) hjid

theorem lowestId_none {insts : List (Nat × Instance)} {i n : Nat} (h : lowestId insts i n = none) {j : Nat} (hi : i ≤ j) (hj : j < i + n) :
    look insts j ≠ none := by
  induction n generalizing i with
  | zero => omega
  | succ n ih =>
    rw [lowestId] at h
    split at h
    · cases h
    · rename_i hheld
      by_cases hji : j = i
      · subst hji; exact fun hj0 => hheld (Option.isNone_iff_eq_none.2 hj0)
      · exact ih h (by omega) (by omega)

theorem Launch.onInst_of_look {x : Launch} {id : Nat} {i : Instance} (h : look x.insts id = some i) (f : Instance → Instance) :
    x.onInst id f = { x with insts := put x.insts id (f i) } := by rw [Launch.onInst, h]

/-- A change of an instance that the launch holds. -/
theorem State.onLaunch_onInst {s : State} {l id : Nat} {i : Instance} (h : look (s.launch l).insts id = some i) (f : Instance → Instance) :
    (s.onLaunch l fun y => y.onInst id f) = s.onLaunch l fun y => { y with insts := put y.insts id (f i) } :=
  s.onLaunch_congr l _ _ (Launch.onInst_of_look h f)

theorem State.balloc_of_room {s : State} {f : Firing} {pm : Pred} {cls id : Nat} {c : BobClass} (hc : s.classOf f.launch cls = some c)
    (hid : (s.launch f.launch).freeId = some id)
    (hfan : (s.launch f.launch).fanHeld cls f.tag.bobbin.toNat f.tag.iter.toNat < c.fan) :
    let i := newInstance cls c.size (some (f.tag.bobbin.toNat, f.tag.iter.toNat)) none
    s.balloc f pm cls = (s.onLaunch f.launch fun y => { y with insts := put y.insts id i }).emit0 f pm .value (instWord id cls) := by
  simp only [State.balloc, hc, hid, if_pos hfan]

theorem State.balloc_of_no_room {s : State} {f : Firing} {cls : Nat} {c : BobClass} (hc : s.classOf f.launch cls = some c)
    (h : (s.launch f.launch).freeId = none ∨ c.fan ≤ (s.launch f.launch).fanHeld cls f.tag.bobbin.toNat f.tag.iter.toNat) (pm : Pred) :
    s.balloc f pm cls = s.park f .balloc := by
  simp only [State.balloc, hc]
  cases hid : (s.launch f.launch).freeId with
  | none => rfl
  | some id =>
    rw [hid] at h
    simp only [if_neg (Nat.not_lt.2 (h.resolve_left (by simp)))]

theorem Launch.openRoot_of_entry {p : Pattern} {e : Nat} {r : EntryRec} {c : BobClass} (hr : nth p.entries e = some r)
    (hc : nth p.classes r.cls = some c) (hsize : 0 < c.size) (x : Launch) (id : Nat) :
    let i : Instance := ⟨r.cls, none, false, 0, none, ⟨.live, 0⟩ :: List.replicate (c.size - 1) ⟨.free, 0⟩, some e⟩
    x.openRoot p e id = { x with insts := put x.insts id i } := by
  obtain ⟨n, hn⟩ : ∃ n, c.size = n + 1 := ⟨c.size - 1, by omega⟩
  simp only [Launch.openRoot, hr, hc, Option.map_some, Option.getD_some, hn]
  rfl

/-- What ends launch 0 after an outcome. -/
def nextEnding : Host.Outcome State Fault Refusal → Option Ending
  | .next s => (s.launch 0).ending
  | _ => none

/-- How much the first of some fault records covers. -/
def firstOrderLength : List FaultRec → Nat
  | [] => 0
  | r :: _ => r.order.length

end Sys2Proof.Machine

namespace Sys2Proof.Proofs

open Sys2Proof.Machine

/-- Settles O22: by the parent class, then by the room; the free id by the search from 0. -/
theorem ballocAllocates : Obligations.BallocAllocates := by
  refine ⟨fun x cls s c i h => ?_, fun x => ⟨fun id hid => ?_, fun hnone j hj => ?_⟩⟩
  · intro f l bob it hc hi
    have hrun : exec (.balloc x cls) s = .next (if c.parent = some i.cls then s.balloc f x.pm cls.toNat else s.trap f 0x0102) := by
      refine (State.fireHeld_plain h _ : execBalloc x cls s = _).trans ?_
      simp only [f, l, bob] at hc hi ⊢
      simp only [hc, hi]
    refine ⟨fun hp => by rw [hrun, if_neg hp], fun hp => ⟨fun id hid hfan => ?_, fun hfull => ?_⟩⟩
    · rw [hrun, if_pos hp, State.balloc_of_room hc hid hfan]; rfl
    · rw [hrun, if_pos hp, State.balloc_of_no_room hc hfull]
  · obtain ⟨-, hlt, hnone, hlow⟩ := lowestId_some hid
    exact ⟨by omega, hnone, fun j hj => hlow j (Nat.zero_le j) hj⟩
  · exact lowestId_none hnone (Nat.zero_le j) (by omega)

/-- Settles O23. -/
theorem bobbinInstructions : Obligations.BobbinInstructions := by
  intro x g step s i f l
  refine ⟨fun h => ⟨fun hi hcls => ?_, fun hn => ?_, fun hi => ?_, ?_⟩, fun h => ⟨fun hn => ?_, fun hn => ?_⟩⟩
  · refine (State.fireHeld_plain h _ : execBfree x s = _).trans ?_
    have hn : l.named (s.opA f x) = some i := by
      rw [Launch.named, show look l.insts (instId (s.opA f x)) = some i from hi, Option.filter_some]
      exact if_pos (decide_eq_true hcls)
    simp only [show (s.launch s.cur.launch).named (s.opA s.cur x) = some i from hn]
    rw [State.onLaunch_onInst (show look l.insts (instId (s.opA s.cur x)) = some i from hi)]; rfl
  · refine (State.fireHeld_plain h _ : execBfree x s = _).trans ?_
    simp only [show (s.launch s.cur.launch).named (s.opA s.cur x) = none from hn]; rfl
  · refine (State.fireHeld_plain h _ : execIend x s = _).trans ?_
    rw [State.onLaunch_onInst (i := i) hi]
  · intro t it bob
    have hrun : exec (.retag x) s = .next (if l.holdsIter bob it then s.emitGroup f (f.group0 x.pm)
        { f.carry (passClass x.sa f.a) (s.opA f x) with bobbin := BitVec.ofNat 10 bob, iter := BitVec.ofNat 6 it }
        else s.trap f 0x0103) := (State.fireHeld_plain h _ : execRetag x s = _)
    refine ⟨fun hi hst => ?_, fun hno => ?_⟩
    · have hold : l.holdsIter bob it = true := by rw [Launch.holdsIter, hi]; exact decide_eq_true hst
      rw [hrun, if_pos hold]
      have hbob : t.extractLsb' 6 10 = BitVec.ofNat 10 bob := BitVec.eq_of_toNat_eq (by
        rw [toNat_extractLsb', BitVec.toNat_ofNat]; exact (Nat.mod_mod _ _).symm)
      have hit : t.extractLsb' 0 6 = BitVec.ofNat 6 it := BitVec.eq_of_toNat_eq (by
        rw [toNat_extractLsb', BitVec.toNat_ofNat, Nat.pow_zero, Nat.div_one]; exact (Nat.mod_mod _ _).symm)
      rw [hbob, hit]
    · rw [hrun, if_neg (by simp [hno])]
  · refine (State.fireHeld_plain h _ : execLoopgen g step s = _).trans ?_
    simp only [show (s.launch s.cur.launch).named (s.opXA s.cur g) = none from hn]; rfl
  · refine (State.fireHeld_plain h _ : execLoopgen g step s = _).trans ?_
    simp only [show (s.launch s.cur.launch).named (s.opXA s.cur g) = some i from hn]; rfl

/-- Settles O24. -/
theorem nextAndCall : Obligations.NextAndCall := by
  refine ⟨fun x s i h => ?_, fun x s p d ds e h => ?_⟩
  · intro f c v k n hi
    have hrun : exec (.next x) s = .next (s.nextFiring f c v) := (State.fireHeld_plain h _ : execNext x s = _)
    have hiter : (s.launch f.launch).nextIter f = BitVec.ofNat 6 n := by rw [Launch.nextIter, hi]
    refine ⟨fun hend => ?_, fun hend hst hnum => ?_, fun hend hwait => ?_⟩
    · have hstep : (s.launch f.launch).nextStep f = .exit := by rw [Launch.nextStep, hi]; exact if_pos hend
      rw [hrun, State.nextFiring, hstep]
    · have hstep : (s.launch f.launch).nextStep f = .go := by
        rw [Launch.nextStep, hi]; exact (if_neg hend).trans (if_pos ⟨hst, hnum⟩)
      rw [hrun, State.nextFiring, hstep, ← hiter]
    · have hstep : (s.launch f.launch).nextStep f = .wait := by
        rw [Launch.nextStep, hi]; exact (if_neg hend).trans (if_neg (by rintro ⟨hst, hnum⟩; exact hwait.elim (absurd hst) (absurd hnum)))
      rw [hrun, State.nextFiring, hstep]
  · intro f l hp hds he
    let k0 : Carry := f.carry .seed (s.opA f x)
    let k1 : Carry := f.carry .seed (s.opB f x)
    have hrun : exec (.retagCall x) s = .next (if l.mayEnter p e then
        match l.freeId with
        | some id => ((s.onLaunch f.launch fun y => y.openRoot p e id).emitGroup f false
            { k0 with bobbin := BitVec.ofNat 10 id, iter := 0 }).emitGroup f true { k1 with bobbin := BitVec.ofNat 10 id, iter := 0 }
        | none => s
      else s.queueAtEntry f.launch e ((routeGroup f.route false).map (k0.token s.stamp) ++
        (routeGroup f.route true).map (k1.token s.stamp)) none) := by
      refine (State.fireHeld_plain h _ : execRetagCall x s = _).trans ?_
      simp only [show s.pattern s.cur.launch = some p from hp, show routeGroup s.cur.route false = d :: ds from hds,
        show entryOf p (s.launch s.cur.launch).stage d = some e from he]
      rw [hds] <;> rfl
    refine ⟨fun id r c hmay hid hr hc hsize => ?_, fun hmay => ?_⟩
    · intro new
      have hopen : (s.onLaunch f.launch fun y => y.openRoot p e id) = s.onLaunch f.launch fun y => { y with insts := put y.insts id new } :=
        s.onLaunch_congr _ _ _ (Launch.openRoot_of_entry hr hc hsize _ _)
      refine (hrun.trans (congrArg _ (if_pos hmay))).trans ?_
      rw [hid, ← hopen]
    · exact hrun.trans (congrArg _ (if_neg (by rw [hmay]; decide)))

/-- Settles O25. -/
theorem speculationAndPhases : Obligations.SpeculationAndPhases := by
  intro x s col ph h f c v
  have hspec := (State.fire_runs h _ : execSpec x col s = _)
  have hcommit := (State.fire_runs h _ : execCommit x col s = _)
  have hkill := (State.fire_runs h _ : execKill x col s = _)
  have hwait : ∀ src, exec (.phwait x ph src) s = _ := fun src => (State.fire_runs h _ : execPhwait x ph src s = _)
  refine ⟨fun hc => ⟨fun hfree => ?_, fun huse => ?_, hcommit.trans ?_, hkill.trans ?_⟩, fun hc => ⟨hspec.trans ?_, hcommit.trans ?_,
    hkill.trans ?_⟩, (State.fire_runs h _ : execPhset x ph false s = _), (State.fire_runs h _ : execPhset x ph true s = _), hwait false,
    fun t ht => (hwait true).trans ?_⟩
  · refine hspec.trans ?_
    rw [if_neg (not_not_intro hc), if_neg (by rw [hfree]; decide)]; rfl
  · refine hspec.trans ?_
    rw [if_neg (not_not_intro hc), if_pos huse]
  · rw [State.control, if_neg (not_not_intro hc)]
  · rw [State.control, if_neg (not_not_intro hc)]
  · rw [if_pos hc]
  · rw [State.control, if_pos hc]
  · rw [State.control, if_pos hc]
  · rw [if_pos rfl, ht]; rfl

/-- A machine with one running launch, which no watchdog guards: the state of the two refutations below, changed in its launch. -/
def oneLaunch (x : Launch) : State := { State.reset with launches := [(0, { x with st := .running })] }

/-- Refutes O26: DONE.FORCE after the watchdog's expiry does not end the launch, since the first cause of retirement decides (R382); the
statement has it `.forced`, naming a cause that came before in `ending` alone. -/
theorem not_launchLevelInstructions : ¬ Obligations.LaunchLevelInstructions := by
  intro h
  let x : FormX := ⟨.zero, .zero, .zero, false, false, .always, .u64⟩
  let s : State := oneLaunch { Launch.blank with freeze := some ⟨0, true⟩ }
  obtain ⟨-, hforce, -⟩ := h x s 0 0 ⟨⟨rfl, rfl, rfl⟩, rfl⟩
  exact absurd (congrArg nextEnding hforce) (by decide)

/-- Refutes O27: nothing keeps a launch's records from having the number that the new record takes, and what parks is then counted in
each of them. -/
theorem not_faultParksAndRecords : ¬ Obligations.FaultParksAndRecords := by
  intro h
  let r : FaultRec := ⟨0, 0, .trap, 0, 0, ⟨0, 0, 0, 0, 0, 0, none, 0, 0, 0, 0⟩, false, 1, .parked, 0, 0, none, 0, []⟩
  let s : State := oneLaunch { Launch.blank with faults := [r] }
  obtain ⟨⟨id, -, hfaults, -⟩, -⟩ := h s .trap 0 0 { Launch.blank with faults := [r], st := .running } rfl (by decide)
  exact Nat.one_ne_zero (congrArg firstOrderLength hfaults)

end Sys2Proof.Proofs
end

section
/-! SUPPORT. The issue of a memory access and its checks (R207, R222, R223), the refresh calendar (R229), and what atomics and loads
compute (R228, R230). -/

namespace Sys2Proof.Machine

/-! The checks made at issue (R222). -/

/-- The checks 1 of an access against a range: its space can name its bytes, and the range holds and grants them (R207, R222). -/
def Range.admits (r : Range) (a n : Nat) (k : AccKind) (sp : Space) : Prop :=
  sp.addrOk a n = true ∧ r.base ≤ a ∧ a + n ≤ r.base + r.len ∧ r.grants k = true ∧ r.space = sp

theorem Range.admits_iff {r : Range} {a n : Nat} {k : AccKind} {sp : Space} : r.admits a n k sp ↔
    (sp.addrOk a n && r.has a n && r.grants k && decide (r.space = sp)) = true := by
  simp only [Range.admits, Range.has, Bool.and_eq_true, decide_eq_true_eq]
  tauto

theorem Range.grants_load (r : Range) : r.grants .load = r.rd := by cases h : r.rd <;> simp [Range.grants, AccKind.needs, h]

/-- The line that FECLR and FESET work on (R210). -/
def State.linePlace (s : State) (f : Firing) (sp : Space) (a : Nat) : Option (Nat × Nat) :=
  match sp with
  | .l => some (f.cl, a)
  | .n => (s.launch f.launch).panel.place a
  | _ => none

theorem State.linePlace_eq_some {s : State} {f : Firing} {sp : Space} {a : Nat} {q : Nat × Nat} (h : s.linePlace f sp a = some q) :
    sp = .l ∧ q = (f.cl, a) ∨ sp = .n ∧ (s.launch f.launch).panel.place a = some q := by
  cases sp with
  | l => exact .inl ⟨rfl, (Option.some.inj h).symm⟩
  | n => exact .inr ⟨rfl, h⟩
  | _ => cases h

/-- Whether an access is FECLR or FESET of a plain line. -/
def State.plainLine (s : State) (f : Firing) (k : AccKind) (sp : Space) (a : Nat) : Bool :=
  (decide (k = .feclr) || decide (k = .feset)) &&
    !(match s.linePlace f sp a with | some (cl, off) => s.tracked f.launch cl (lineOf off) | none => false)

section
variable {s : State} {f : Firing} {x : FormM} {p : Pattern} {r : Range} (hp : s.pattern f.launch = some p)
  (hr : nth p.ranges x.range.toNat = some r)
include hp hr

theorem State.rangeSpace_eq : s.rangeSpace f x = r.space := by simp [State.rangeSpace, hp, hr]

variable {k : AccKind} {sp : Space} {a : Word} (d c : Word)

theorem State.memIssue_of_not_admitted (h : ¬ r.admits a.toNat x.width.bytes k sp) :
    s.memIssue f x k sp a d c = s.memFault f k x.spc .protect 0 a := by
  have hb := Bool.eq_false_iff.2 (mt Range.admits_iff.2 h)
  simp only [State.memIssue, hp, hr, Option.bind_some, hb, Bool.not_false, if_true]

theorem State.memIssue_of_misaligned (h : r.admits a.toNat x.width.bytes k sp) (hal : a.toNat % x.width.bytes ≠ 0) :
    s.memIssue f x k sp a d c = s.memFault f k x.spc .align 0 a := by
  simp only [State.memIssue, hp, hr, Option.bind_some, Range.admits_iff.1 h, Bool.not_true, Bool.false_eq_true, if_false, if_pos hal]

theorem State.memIssue_of_plain (h : r.admits a.toNat x.width.bytes k sp) (hal : a.toNat % x.width.bytes = 0)
    (hpl : s.plainLine f k sp a.toNat = true) : s.memIssue f x k sp a d c = s.memFault f k x.spc .protect 0 a := by
  simp only [State.memIssue, hp, hr, Option.bind_some, Range.admits_iff.1 h, Bool.not_true, Bool.false_eq_true, if_false,
    if_neg (not_not_intro hal)]
  exact if_pos hpl

theorem State.memIssue_issues (h : r.admits a.toNat x.width.bytes k sp) (hal : a.toNat % x.width.bytes = 0)
    (hpl : s.plainLine f k sp a.toNat = false) : s.memIssue f x k sp a d c =
      { s with
        serial := s.serial + 1
        reqs := s.reqs ++ [⟨f.opId.getD s.serial, { f with opId := some (f.opId.getD s.serial) }, k, sp, a.toNat, x.width.bytes,
          x.range.toNat, x.ty, x.rel, x.spc, d, c, .issued, []⟩] } := by
  simp only [State.memIssue, hp, hr, Option.bind_some, Range.admits_iff.1 h, Bool.not_true, Bool.false_eq_true, if_false,
    if_neg (not_not_intro hal)]
  exact if_neg (ne_true_of_eq_false hpl)

end

theorem State.plainLine_of_ne (s : State) (f : Firing) {k : AccKind} (h1 : k ≠ .feclr) (h2 : k ≠ .feset) (sp : Space) (a : Nat) :
    s.plainLine f k sp a = false := by simp [State.plainLine, h1, h2]

/-- A fault of an access that is no load parks. -/
theorem State.memFault_of_ne (s : State) (f : Firing) {k : AccKind} (h : k ≠ .load) (spc : Bool) (e : FaultKind) (d a : Word) :
    s.memFault f k spc e d a = s.faultFiring f e d a := if_neg fun hk => h hk.1

theorem State.load_runs {s : State} {x : FormM} (h : s.Runs x.pm) (off : BitVec 24) (sp : Space) :
    s.load x off sp = .next (s.memIssue s.cur x .load sp (s.memAddr s.cur x off) 0 0) := State.fire_runs h _

theorem State.store_runs {s : State} {x : FormM} (h : s.RunsPlain x.pm) (off : BitVec 24) (sp : Space) :
    s.store x off sp = .next (s.memIssue s.cur x .store sp (s.memAddr s.cur x off) (s.opMB s.cur x) 0) := State.fireHeld_plain h _

theorem State.delivers_eq {s : State} {l : Nat} (h : (look s.launches l).isSome = true) :
    s.delivers l = decide ((s.launch l).ending = none) := by
  obtain ⟨x, hx⟩ := Option.isSome_iff_exists.1 h
  simp [State.delivers, State.launch, hx]

/-! The refresh calendar (R229). -/

/-- The four fields of a calendar word: the cycles until the next window, the window's length, whether it is open, what is left of it. -/
theorem calendarFields {u b l : Nat} (hu : u ≤ 100800) (hb : b ≤ 1) (hl : l ≤ 1575) :
    let v := BitVec.ofNat 64 (u + 1575 * 2 ^ 32 + (b * 2 ^ 48 + l * 2 ^ 49))
    (v.extractLsb' 0 32).toNat = u ∧ (v.extractLsb' 32 16).toNat = 1575 ∧ v.getLsbD 48 = decide (b = 1) ∧
      (v.extractLsb' 49 15).toNat = l := by
  simp only [toNat_extractLsb', ← BitVec.testBit_toNat, Nat.testBit_eq_decide_div_mod_eq, BitVec.toNat_ofNat, Nat.reducePow,
    decide_eq_decide]
  omega

theorem calendarWord_fields {n g : Nat} (hg : g * 1575 ≤ 99225) (hn : n < 100800) :
    let v := calendarWord n g
    let until_ := (v.extractLsb' 0 32).toNat
    let left := (v.extractLsb' 49 15).toNat
    let active := decide (g * 1575 ≤ n ∧ n < g * 1575 + 1575)
    (n + until_) % 100800 = g * 1575 ∧ 0 < until_ ∧ until_ ≤ 100800 ∧ (v.extractLsb' 32 16).toNat = 1575 ∧ v.getLsbD 48 = active ∧
      (active = false → left = 0) ∧ (active = true → n + left = g * 1575 + 1575) := by
  intro v until_ left active
  have hu : (if n < g * 1575 then g * 1575 - n else g * 1575 + 100800 - n) ≤ 100800 := by split <;> omega
  by_cases hact : g * 1575 ≤ n ∧ n < g * 1575 + 1575
  · obtain ⟨h1, h2, h3, h4⟩ := calendarFields (b := 1) (l := g * 1575 + 1575 - n) hu (le_refl 1) (by omega)
    have hv : v = _ := congrArg (fun k => BitVec.ofNat 64 (_ + 1575 * 2 ^ 32 + k)) (if_pos (decide_eq_true hact))
    rw [Nat.one_mul, ← hv] at h1 h2 h3 h4
    have hu1 : until_ = g * 1575 + 100800 - n := h1.trans (if_neg (Nat.not_lt.2 hact.1))
    have hl1 : left = g * 1575 + 1575 - n := h4
    have ha : active = true := decide_eq_true hact
    rw [hu1, hl1, ha, h2, h3]
    refine ⟨?_, ?_, ?_, rfl, rfl, nofun, fun _ => ?_⟩ <;> omega
  · obtain ⟨h1, h2, h3, h4⟩ := calendarFields (b := 0) (l := 0) hu (Nat.zero_le 1) (Nat.zero_le _)
    have hv : v = _ := congrArg (fun k => BitVec.ofNat 64 (_ + 1575 * 2 ^ 32 + k)) (if_neg (by rw [decide_eq_false hact]; decide))
    rw [Nat.zero_mul, Nat.zero_mul, ← hv] at h1 h2 h3 h4
    have hu1 : until_ = if n < g * 1575 then g * 1575 - n else g * 1575 + 100800 - n := h1
    have ha : active = false := decide_eq_false hact
    rw [hu1, ha, h2, h3]
    refine ⟨?_, ?_, hu, rfl, rfl, fun _ => h4, nofun⟩ <;> split <;> omega

/-! Atomics (R230). -/

/-- An operand under TY, on w bits: its pattern extended, or cut. -/
theorem atomicWord_eq (ty : Ty) (w : Nat) (v : Word) :
    atomicWord ty w v = (if isSigned ty then (ty.bits v).signExtend w else (ty.bits v).setWidth w : BitVec w).toNat := by
  have hnat : atomicWord ty w v = (BitVec.ofInt w (readInt ty v)).toNat := (BitVec.toNat_ofInt _).symm
  rw [hnat]
  cases h : isSigned ty with
  | true => rw [readInt_of_signed h]; rfl
  | false => rw [readInt_of_unsigned h, BitVec.ofInt_natCast, BitVec.ofNat_toNat]; rfl

theorem atomicLt_eq (ty : Ty) {w : Nat} (a b : BitVec w) : atomicLt ty w a.toNat b.toNat = if isSigned ty then a.slt b else a.ult b := by
  rw [atomicLt, sext_eq_toInt, sext_eq_toInt, ofNat_toNat_self, ofNat_toNat_self]; rfl

/-- A value of no more bits than TY's is read as it stands. -/
theorem atomicWord_narrow {ty : Ty} {w : Nat} (h : w ≤ ty.width) (m : BitVec w) :
    (if isSigned ty then (ty.bits (m.setWidth 64)).signExtend w else (ty.bits (m.setWidth 64)).setWidth w : BitVec w) = m := by
  have h64 : ty.width ≤ 64 := by cases ty <;> decide
  have hm : (ty.bits (m.setWidth 64)).setWidth w = m := by
    rw [Ty.bits, BitVec.setWidth_setWidth_of_le, BitVec.setWidth_setWidth_of_le, BitVec.setWidth_eq]
    all_goals omega
  split
  · rw [BitVec.signExtend_eq_setWidth_of_le _ h, hm]
  · exact hm

end Sys2Proof.Machine

namespace Sys2Proof.Proofs

open Sys2Proof.Machine

/-- Settles O28. -/
theorem memoryIssue : Obligations.MemoryIssue := by
  refine ⟨?_, ?_⟩
  · intro x off aoff cmp s p r h f addr aaddr id ok issued line hp hr
    have hissue : ∀ (a : Word) (k : AccKind) (sp : Space) (d c : Word), ok a k sp → s.plainLine f k sp a.toNat = false →
        Host.Outcome.next (s.memIssue f x k sp a d c) = issued a k sp d c := by
      rintro a k sp d c ⟨hok, hlo, hhi, hg, hsp, hal⟩ hpl
      rw [State.memIssue_issues hp hr d c ⟨hok, hlo, hhi, hg, hsp⟩ hal hpl]
    have hspace : s.rangeSpace s.cur x = r.space := State.rangeSpace_eq hp hr
    have hplain : ∀ (k : AccKind), k ≠ .feclr → k ≠ .feset → ∀ (sp : Space) (a : Nat), s.plainLine f k sp a = false :=
      fun k h1 h2 sp a => s.plainLine_of_ne f h1 h2 sp a
    refine ⟨fun ha => ?_, fun ha => ?_, fun ha => ?_, fun ha => ?_, fun ha => ?_, fun ha => ?_, fun ha => ?_, fun cl o hl ht ha => ?_,
      fun op ha => ?_, fun op ha => ?_, fun op ha => ?_⟩
    · exact (State.load_runs h.1 off .l : execLdl x off s = _).trans (hissue _ _ _ _ _ ha (hplain (.load) nofun nofun _ _))
    · exact (State.load_runs h.1 off .n : execLdn x off s = _).trans (hissue _ _ _ _ _ ha (hplain (.load) nofun nofun _ _))
    · exact (State.load_runs h.1 off .g : execLdg x off s = _).trans (hissue _ _ _ _ _ ha (hplain (.load) nofun nofun _ _))
    · exact (State.load_runs h.1 off .w : execLdw x off s = _).trans (hissue _ _ _ _ _ ha (hplain (.load) nofun nofun _ _))
    · exact (State.store_runs h off .l : execStl x off s = _).trans (hissue _ _ _ _ _ ha (hplain (.store) nofun nofun _ _))
    · exact (State.store_runs h off .n : execStn x off s = _).trans (hissue _ _ _ _ _ ha (hplain (.store) nofun nofun _ _))
    · exact (State.store_runs h off .g : execStg x off s = _).trans (hissue _ _ _ _ _ ha (hplain (.store) nofun nofun _ _))
    · have hline : s.linePlace f r.space addr.toNat = some (cl, o) := hl
      have hpl : ∀ k, s.plainLine f k r.space addr.toNat = false := fun k => by simp [State.plainLine, hline, ht]
      refine ⟨(State.fireHeld_plain h _ : execFeclr x off s = _).trans ?_, (State.fireHeld_plain h _ : execFeset x off s = _).trans ?_⟩
      · rw [hspace]; exact hissue _ _ _ _ _ ha (hpl _)
      · rw [hspace]; exact hissue _ _ _ _ _ ha (hpl _)
    · refine (State.fireHeld_plain h _ : execAmol x op cmp aoff s = _).trans ?_
      rw [hspace]; exact hissue _ _ _ _ _ ha (hplain (.amo op) nofun nofun _ _)
    · exact (State.fireHeld_plain h _ : execAmog x op cmp aoff s = _).trans (hissue _ _ _ _ _ ha (hplain (.amo op) nofun nofun _ _))
    · exact (State.fireHeld_plain h _ : execUpdg x op aoff s = _).trans (hissue _ _ _ _ _ ha (hplain (.upd op) nofun nofun _ _))
  · intro x off aoff cmp s p r h f addr aaddr stop granted checks plain hp hr
    have hspace : s.rangeSpace s.cur x = r.space := State.rangeSpace_eq hp hr
    have hstop : ∀ (k : AccKind) (e : FaultKind) (a : Word), s.memFault f k x.spc e 0 a = stop (decide (k = .load)) e a := by
      intro k e a
      have hdel : (!s.delivers f.launch) = true ↔ (s.launch f.launch).ending ≠ none := by
        rw [State.delivers_eq h.1]; simp [f]
      simp only [State.memFault, stop, decide_eq_true_eq, hdel]
    have hchecks : ∀ (i : Instr) (a : Word) (k : AccKind) (sp : Space) (d c : Word), exec i s = .next (s.memIssue f x k sp a d c) →
        checks i a k sp := by
      refine fun i a k sp d c hi => ⟨fun hg => ?_, fun hg hal => ?_⟩
      · rw [hi, State.memIssue_of_not_admitted hp hr d c hg, hstop]
      · rw [hi, State.memIssue_of_misaligned hp hr d c hg hal, hstop]
    refine ⟨hchecks _ _ _ _ _ _ (State.load_runs h off .l : execLdl x off s = _), hchecks _ _ _ _ _ _ (State.load_runs h off .n : execLdn x off s = _),
      hchecks _ _ _ _ _ _ (State.load_runs h off .g : execLdg x off s = _), hchecks _ _ _ _ _ _ (State.load_runs h off .w : execLdw x off s = _),
      fun hg => ?_, fun hc => ?_⟩
    · refine (State.fire_runs h _ : execWcal x off s = _).trans ?_
      rw [show stop true .protect addr = s.memFault f .load x.spc .protect 0 addr from (hstop .load .protect addr).symm]
      simp only [show s.pattern s.cur.launch = some p from hp, hr, Option.bind_some]
      have hb := Bool.eq_false_iff.2 (mt Range.admits_iff.2 hg)
      rw [Range.grants_load] at hb
      exact congrArg _ (if_pos (by rw [show s.memAddr s.cur x off = addr from rfl, hb]; rfl))
    · have h0 : s.RunsPlain x.pm := ⟨h, hc⟩
      have hfeclr := (State.fireHeld_plain h0 _ : execFeclr x off s = _)
      have hfeset := (State.fireHeld_plain h0 _ : execFeset x off s = _)
      rw [hspace] at hfeclr hfeset
      refine ⟨hchecks _ _ _ _ _ _ (State.store_runs h0 off .l : execStl x off s = _),
        hchecks _ _ _ _ _ _ (State.store_runs h0 off .n : execStn x off s = _),
        hchecks _ _ _ _ _ _ (State.store_runs h0 off .g : execStg x off s = _),
        hchecks _ _ _ _ _ _ hfeclr, hchecks (.feset x off) _ _ _ _ _ hfeset, fun hg hal hpl => ?_, fun op => ⟨?_, ?_⟩, fun op => ?_⟩
      · have hline : ∀ k, k = .feclr ∨ k = .feset → s.plainLine f k r.space addr.toNat = true := by
          intro k hk
          have hplain : (match s.linePlace f r.space addr.toNat with
              | some (cl, o) => s.tracked f.launch cl (lineOf o) | none => false) = false := by
            cases hl : s.linePlace f r.space addr.toNat with
            | none => rfl
            | some q => exact hpl q.1 q.2 (State.linePlace_eq_some hl)
          rw [State.plainLine, hplain]
          rcases hk with rfl | rfl <;> rfl
        refine ⟨hfeclr.trans ?_, hfeset.trans ?_⟩
        · exact congrArg _ ((State.memIssue_of_plain hp hr 0 0 hg hal (hline _ (.inl rfl))).trans (s.memFault_of_ne f (k := .feclr) nofun _ _ _ _))
        · exact congrArg _ ((State.memIssue_of_plain hp hr 0 0 (k := .feset) hg hal (hline _ (.inr rfl))).trans
            (s.memFault_of_ne f (k := .feset) nofun _ _ _ _))
      · refine hchecks _ _ _ _ (s.opMB f x) (s.opMC f cmp) ((State.fireHeld_plain h0 _ : execAmol x op cmp aoff s = _).trans ?_)
        rw [hspace]; rfl
      · exact hchecks _ _ _ _ _ _ (State.fireHeld_plain h0 _ : execAmog x op cmp aoff s = _)
      · exact hchecks _ _ _ _ _ _ (State.fireHeld_plain h0 _ : execUpdg x op aoff s = _)

/-- Settles O29: the word's three fields are the group's times in the calendar. -/
theorem weightCalendar : Obligations.WeightCalendar := by
  intro x off s p r h f a g hp hr hsp hrd hform hlo hhi hcal
  have hg : g * 1575 ≤ 99225 := by
    have hlt : g < 64 := by simp only [g]; omega
    omega
  have hadmit : (Space.w.addrOk a.toNat 1 && r.has a.toNat 1 && r.rd && decide (r.space = .w)) = true := by
    simp only [Space.addrOk, Range.has, hrd, hsp, Bool.and_eq_true, decide_eq_true_eq, and_true]
    omega
  refine ⟨calendarWord s.calendar g, ?_, calendarWord_fields hg hcal⟩
  refine (State.fire_runs h _ : execWcal x off s = _).trans ?_
  simp only [show s.pattern s.cur.launch = some p from hp, hr, Option.bind_some]
  exact congrArg _ (if_neg (by rw [show s.memAddr s.cur x off = a from rfl, hadmit]; decide))

/-- Settles O30: each operator on the patterns, as bit vectors. -/
theorem atomicsAndExtension : Obligations.AtomicsAndExtension := by
  refine ⟨?_, ?_⟩
  · intro ty w m d k hty h0 h64 read x y lt
    have hread : ∀ v, atomicWord ty w v = (read v).toNat := atomicWord_eq ty w
    have hx : atomicWord ty w (BitVec.ofNat 64 m.toNat) = x.toNat := by rw [hread, BitVec.ofNat_toNat]
    have hlt : ∀ a b : BitVec w, atomicLt ty w a.toNat b.toNat = lt a b := atomicLt_eq ty
    have hd : atomicWord ty w d = y.toNat := hread d
    have hadd : updNew .add ty w x.toNat y.toNat = (x + y).toNat := (BitVec.toNat_add x y).symm
    have hmin : updNew .min ty w x.toNat y.toNat = (if lt y x then y else x).toNat := by
      rw [updNew, hlt]; exact (apply_ite BitVec.toNat _ _ _).symm
    have hmax : updNew .max ty w x.toNat y.toNat = (if lt x y then y else x).toNat := by
      rw [updNew, hlt]; exact (apply_ite BitVec.toNat _ _ _).symm
    refine ⟨fun hw => atomicWord_narrow hw m, hd, ?_, ?_, ?_, ?_, ?_, ?_, ?_, ?_, ?_, ?_, ?_⟩
    · simp only [amoNew, hx, hd, hread k, BitVec.toNat_inj, apply_ite BitVec.toNat]
    · simp only [amoNew, hx, hd]; exact hadd
    · simp only [amoNew, hx, hd]; exact hmin
    · simp only [amoNew, hx, hd]; exact hmax
    · simp only [updMem, updWord, hx, hd]; exact hadd
    · simp only [updMem, updWord, hx, hd]; exact hmin
    · simp only [updMem, updWord, hx, hd]; exact hmax
    · simp only [updMem, updWord, hx, hd]; exact (BitVec.toNat_and x y).symm
    · simp only [updMem, updWord, hx, hd]; exact (BitVec.toNat_or x y).symm
    · simp only [updMem, updWord, hx, hd]; exact (BitVec.toNat_xor x y).symm
    · rw [amoOld, hx]
      simp only [formInt_eq_word, formBits_eq_word, BitVec.ofInt_natCast, BitVec.ofNat_toNat, ite_self]
  · intro ty n v h0 hn
    rw [loadValue, sext_eq_toInt, formInt_eq_word, formBits_eq_word, ofNat_toNat_self, BitVec.ofNat_toNat, apply_ite ty.word]; rfl

end Sys2Proof.Proofs
end

section
/-! SUPPORT. A request at its bank (R209, R211, R224, R230), what a write and a reply change (R209, R220, R224), and the wakes of lines and
refresh windows (R211, R214). -/

namespace Sys2Proof.Machine

/-! What changes no byte. -/

/-- Every memory holds the same bytes. -/
structure State.SameBytes (s t : State) : Prop where
  byte : ∀ pl, t.byte pl = s.byte pl

theorem State.SameBytes.trans {s t u : State} (h : s.SameBytes t) (g : t.SameBytes u) : s.SameBytes u :=
  ⟨fun pl => (g.byte pl).trans (h.byte pl)⟩

/-- The bytes rest on the memories alone. -/
theorem State.sameBytes_of_eq {s t : State} (hh : t.hbm = s.hbm) (hw : t.wstore = s.wstore)
    (hc : ∀ k, (t.cluster k).mem = (s.cluster k).mem) : s.SameBytes t := by
  refine ⟨fun pl => ?_⟩
  cases pl with
  | hbm a => rw [State.byte, State.byte, hh]
  | weight a => rw [State.byte, State.byte, hw]
  | cluster k off => rw [State.byte, State.byte, hc]

theorem State.SameBytes.refl (s : State) : s.SameBytes s := ⟨fun _ => rfl⟩

theorem State.sameBytes_onLaunch (s : State) (l : Nat) (g : Launch → Launch) : s.SameBytes (s.onLaunch l g) :=
  State.sameBytes_of_eq (by simp) (by simp) fun k => by simp [State.cluster]

theorem State.sameBytes_onCluster (s : State) (k : Nat) {g : Cluster → Cluster} (h : ∀ c, (g c).mem = c.mem) :
    s.SameBytes (s.onCluster k g) := by
  refine State.sameBytes_of_eq rfl rfl fun j => ?_
  by_cases hj : j = k
  · subst hj; rw [State.cluster_onCluster, h]
  · rw [State.cluster_onCluster_ne _ _ _ _ hj]

theorem State.sameBytes_onStation (s : State) (k n : Nat) (g : Station → Station) : s.SameBytes (s.onStation k n g) :=
  s.sameBytes_onCluster k fun _ => rfl

theorem State.sameBytes_meterPart (s : State) (p d i n : Nat) : s.SameBytes (s.meterPart p d i n) := ⟨fun pl => by cases pl <;> rfl⟩

theorem State.sameBytes_meterOf (s : State) (c : Client) (die i n : Nat) : s.SameBytes (s.meterOf c die i n) := by
  rw [State.meterOf]
  split
  · exact .refl s
  · cases c.launch with
    | none => exact s.sameBytes_meterPart ..
    | some l => exact (s.sameBytes_meterPart ..).trans (State.sameBytes_onLaunch ..)

theorem State.sameBytes_crossing (s : State) (c : Client) (a b n : Nat) : s.SameBytes (s.crossing c a b n) := by
  rw [State.crossing]
  split
  · exact .refl s
  · exact s.sameBytes_meterOf _ _ _ _

theorem State.sameBytes_deliverReply (s : State) (l cl : Nat) (t : OutTok) : s.SameBytes (s.deliverReply l cl t) := by
  have harr : ∀ k a, s.SameBytes (s.arrive k a) := fun k a => s.sameBytes_onCluster k fun _ => rfl
  simp only [State.deliverReply, State.deliverFrom]
  split
  · split
    · exact harr _ _
    · exact .refl s
  · split
    · exact harr _ _
    · split
      · exact ⟨fun pl => by cases pl <;> rfl⟩
      · exact .refl s

theorem State.sameBytes_foldl {α : Type} (g : State → α → State) (h : ∀ (s : State) a, s.SameBytes (g s a)) (xs : List α) (s : State) :
    s.SameBytes (xs.foldl g s) := by
  induction xs generalizing s with
  | nil => exact .refl s
  | cons a xs ih => exact (h s a).trans (ih _)

theorem State.sameBytes_holdTokens (s : State) (f : Firing) (k : Carry) (ds : List Dest) : s.SameBytes (s.holdTokens f k ds) := by
  simp only [State.holdTokens]
  split
  · exact .refl s
  · exact (s.sameBytes_onStation f.cl f.st _).trans ⟨fun pl => by cases pl <;> rfl⟩

theorem State.sameBytes_replyGroup (s : State) (f : Firing) (o1 : Bool) (k : Carry) : s.SameBytes (s.replyGroup f o1 k) :=
  (State.sameBytes_foldl _ (fun (s : State) _ => s.sameBytes_deliverReply _ _ _) _ s).trans (State.sameBytes_holdTokens _ _ _ _)

theorem State.sameBytes_reqDone (s : State) (q : Req) (d : Option Word) : s.SameBytes (s.reqDone q d) := by
  have hdrop : s.SameBytes (s.dropReq q.id) := ⟨fun pl => by cases pl <;> rfl⟩
  have hown : ∀ t : State, t.SameBytes ((match d with | some v => t.reply0 q.firing .value v | none => t).reply1 q.firing .completion 0) := by
    intro t
    cases d with
    | none => exact t.sameBytes_replyGroup _ _ _
    | some v => exact (t.sameBytes_replyGroup _ _ _).trans (State.sameBytes_replyGroup _ _ _ _)
  have hmerged : ∀ (t : State) (m : Nat × Firing), t.SameBytes (if t.delivers m.2.launch then t.reply1 m.2 .completion 0 else t) := by
    intro t m
    split
    · exact t.sameBytes_replyGroup _ _ _
    · exact .refl t
  refine .trans ?_ (State.sameBytes_foldl _ hmerged _ _)
  split
  · exact hdrop.trans (hown _)
  · exact hdrop

/-! What a write changes. -/

/-- A byte after bytes are written. -/
theorem getAt_writeBytes_eq (m : List (Nat × Byte)) (a i : Nat) (bs : List Byte) :
    getAt (writeBytes m a bs) i 0 = if a ≤ i ∧ i < a + bs.length then (nth bs (i - a)).getD 0 else getAt m i 0 := by
  split
  · rename_i h
    have hlt : i - a < bs.length := by omega
    have hget := getAt_writeBytes bs m a (i - a) hlt
    rw [show a + (i - a) = i by omega] at hget
    rw [hget, nth_eq_getElem?, List.getElem?_eq_getElem hlt]; rfl
  · rename_i h
    exact getAt_writeBytes_ne bs m a i (by omega)

/-- A write of a cluster's memory changes clusters and soft-error marks alone. -/
theorem State.memWrite_frame (s : State) (cl off : Nat) (bs : List Byte) :
    ∃ cs ps, s.memWrite cl off bs = { s with clusters := cs, poison := ps } := ⟨_, _, rfl⟩

theorem State.cluster_memWrite (s : State) (cl off : Nat) (bs : List Byte) :
    (s.memWrite cl off bs).cluster cl = { s.cluster cl with mem := writeBytes (s.cluster cl).mem off bs } :=
  s.cluster_onCluster cl fun c => { c with mem := writeBytes c.mem off bs }

theorem State.cluster_memWrite_ne (s : State) (off : Nat) (bs : List Byte) {cl c : Nat} (h : c ≠ cl) :
    (s.memWrite cl off bs).cluster c = s.cluster c :=
  s.cluster_onCluster_ne cl c (fun c => { c with mem := writeBytes c.mem off bs }) h

theorem length_xorList_le (xs ys : List Nat) : (xorList xs ys).length ≤ ys.length := by
  induction xs generalizing ys with
  | nil => exact Nat.zero_le _
  | cons x xs ih =>
    cases ys with
    | nil => exact le_refl _
    | cons y ys => simpa [xorList] using ih ys

theorem length_leBytes (n v : Nat) : (leBytes n v).length = n := by
  induction n generalizing v with
  | zero => rfl
  | succ n ih => rw [leBytes, List.length_cons, ih]

theorem length_xtsGo_le (block : List Nat → List Nat) (t n : Nat) (bs : List Nat) : (xtsGo block t n bs).length ≤ 16 * n := by
  induction n generalizing t bs with
  | zero => exact le_refl _
  | succ n ih =>
    have hblock := length_xorList_le (block (xorList (bs.take 16) (natBytes 16 t))) (natBytes 16 t)
    have hrest := ih (xtsNext t) (bs.drop 16)
    rw [natBytes, List.length_map, length_leBytes] at hblock
    rw [xtsGo, List.length_append, natBytes]
    omega

/-- A written data unit changes HBM alone, and keeps every byte outside it. -/
theorem State.unitWrite_frame (s : State) (key unit : Nat) (plain : List Nat) :
    ∃ m, s.unitWrite key unit plain = { s with hbm := m } ∧ ∀ a, a / 64 ≠ unit → getAt m a 0 = getAt s.hbm a 0 := by
  obtain ⟨bs, hbs, hlen⟩ : ∃ bs, s.unitWrite key unit plain = { s with hbm := writeBytes s.hbm (unit * 64) bs } ∧ bs.length ≤ 64 :=
    ⟨_, rfl, (List.length_map _).trans_le (length_xtsGo_le _ _ 4 _)⟩
  exact ⟨_, hbs, fun a ha => getAt_writeBytes_ne _ _ _ _ (by omega)⟩

/-- Writing data units one after another: what another unit holds stays, and so does all else of the state. -/
theorem State.foldl_unitWrite (key : Nat) (us : List Nat) (s : State) (plain : List Nat) :
    ∃ m, (us.foldl (fun (acc : State × List Nat) u => (acc.1.unitWrite key u (acc.2.take 64), acc.2.drop 64)) (s, plain)).1 =
      { s with hbm := m } ∧ ∀ a, a / 64 ∉ us → getAt m a 0 = getAt s.hbm a 0 := by
  induction us generalizing s plain with
  | nil => exact ⟨s.hbm, rfl, fun _ _ => rfl⟩
  | cons u us ih =>
    obtain ⟨m1, h1, hbyte1⟩ := s.unitWrite_frame key u (plain.take 64)
    obtain ⟨m, h, hbyte⟩ := ih { s with hbm := m1 } (plain.drop 64)
    refine ⟨m, ?_, fun a ha => ?_⟩
    · rw [List.foldl_cons, h1]; exact h
    · rw [List.mem_cons, not_or] at ha
      exact (hbyte a ha.2).trans (hbyte1 a ha.1)

/-- A write of HBM changes HBM alone, and no byte outside its data units; under key 0 exactly its own bytes. -/
theorem State.hbmPut_frame (s : State) (key pa : Nat) (bs : List Byte) :
    ∃ m, s.hbmPut key pa bs = { s with hbm := m } ∧
      (∀ a, a / 64 < pa / 64 ∨ (pa + bs.length + 63) / 64 ≤ a / 64 → getAt m a 0 = getAt s.hbm a 0) ∧
      (key = 0 → m = writeBytes s.hbm pa bs) := by
  rw [State.hbmPut]
  split
  · exact ⟨_, rfl, fun a ha => getAt_writeBytes_ne _ _ _ _ (by omega), fun _ => rfl⟩
  · rename_i hkey
    obtain ⟨m, h, hbyte⟩ := State.foldl_unitWrite key (countFrom (pa / 64) ((pa + bs.length + 63) / 64 - pa / 64)) s
      (splice ((countFrom (pa / 64) ((pa + bs.length + 63) / 64 - pa / 64)).flatMap (s.unitPlain key)) (pa % 64) (bs.map BitVec.toNat))
    refine ⟨m, h, fun a ha => hbyte a ?_, fun h0 => absurd h0 hkey⟩
    rw [countFrom_eq_range', List.mem_range'_1]
    omega

theorem State.setDirty_off {s : State} {part : Nat} (h : (s.part part).dirty.getLsbD 0 = false) (pa : Nat) : s.setDirty part pa = s := by
  rw [State.setDirty, h]; rfl

/-! Requests at their places. -/

theorem exec_memoryAccessPerformed_bank {s : State} {r cl off : Nat} {q : Req} (hq : s.req r = some q) (hat : q.at_ = .issued)
    (hpl : q.space = .l ∧ (cl, off) = (q.firing.cl, q.addr) ∨ q.space = .n ∧ (s.launch q.firing.launch).panel.place q.addr = some (cl, off)) :
    exec (.memoryAccessPerformed r) s = .next (s.bankPerform q cl off) := by
  change execMemoryAccessPerformed r s = _
  rw [execMemoryAccessPerformed, hq]
  rcases hpl with ⟨hsp, hpl⟩ | ⟨hsp, hpl⟩
  · cases hpl
    simp only [hat, hsp]
  · simp only [hat, hsp, hpl]

theorem State.bankCrossing_eq (s : State) (q : Req) (cl : Nat) : s.bankCrossing q cl =
    if q.kind = .load then s.crossing (s.clientOf q.firing) (cl / 128) (q.firing.cl / 128) q.bytes
    else s.crossing (s.clientOf q.firing) (q.firing.cl / 128) (cl / 128) q.bytes := by
  cases hk : q.kind <;> simp [State.bankCrossing, AccKind.reads, hk]

/-- What is to be performed again (R211, R376). -/
def Parked.again (p : Parked) : Parked := { p with firing := { p.firing with retry := true }, why := .again }

/-- What an operation is after some have been woken. -/
def Parked.wake (ps : List Parked) (p : Parked) : Parked := if p.id ∈ ps.map (fun p => p.id) then p.again else p

theorem Parked.wake_id (ps : List Parked) (p : Parked) : (p.wake ps).id = p.id := by
  rw [Parked.wake]
  split <;> rfl

end Sys2Proof.Machine

namespace Sys2Proof.Proofs

open Sys2Proof.Machine

/-- Settles O32. -/
theorem writesChangeTheirBytes : Obligations.WritesChangeTheirBytes := by
  refine ⟨fun s bs => ⟨fun cl off => ⟨fun pl => ?_, ?_, fun c => ?_⟩, fun part key pa hoff => ?_⟩, fun s q d => (s.sameBytes_reqDone q d).byte⟩
  · cases pl with
    | cluster c a =>
      by_cases hc : c = cl
      · subst hc
        rw [State.byte, State.cluster_memWrite]
        exact (getAt_writeBytes_eq _ _ _ _).trans (by simp only [true_and]; rfl)
      · rw [State.byte, State.cluster_memWrite_ne _ _ _ hc]
        exact (if_neg fun h => hc h.1).symm
    | _ => rfl
  · obtain ⟨cs, ps, h⟩ := s.memWrite_frame cl off bs
    rw [h]
  · by_cases hc : c = cl
    · subst hc
      rw [State.cluster_memWrite]
    · rw [State.cluster_memWrite_ne _ _ _ hc]
  · obtain ⟨m, hm, hout, hplain⟩ := s.hbmPut_frame key pa bs
    have hwrite : s.hbmWrite part key pa bs = ({ s with hbm := m } : State).heal pa bs.length := by
      rw [State.hbmWrite, hm]; exact State.setDirty_off (s := ({ s with hbm := m } : State).heal pa bs.length) hoff pa
    intro t
    have ht : t = ({ s with hbm := m } : State).heal pa bs.length := hwrite
    rw [ht]
    refine ⟨fun pl hpl => ?_, fun hkey a => ?_, rfl⟩
    · cases pl with
      | hbm a => exact hout a (hpl a rfl)
      | _ => rfl
    · exact (congrArg (fun m => getAt m a 0) (hplain hkey)).trans (getAt_writeBytes_eq _ _ _ _)

/-- Settles O31: a request of either cluster space is performed at its bank, by its kind. -/
theorem bankPerforms : Obligations.BankPerforms := by
  intro r q cl off s hq hat hpl empty bad old bits c counted wrote waits
  have hrun := exec_memoryAccessPerformed_bank hq hat hpl
  have hcount : s.bankCrossing q cl = counted := s.bankCrossing_eq q cl
  refine ⟨fun hk => ?_, fun hk => ?_, fun op hk => ?_, fun op hk => ?_, fun hk => ?_, fun hk => ?_⟩
  all_goals rw [hrun]; simp only [State.bankPerform, hk, hcount]; rfl

/-- Settles O34. -/
theorem memoryWakes : Obligations.MemoryWakes := by
  intro s cl line l die g x
  refine ⟨fun hfull hown hx hst => ?_, fun hempty => congrArg _ (if_pos hempty), fun q hreqs hsp hdie hg href hres hbad => ?_⟩
  · let ps := x.parked.filter fun p => decide (p.why = .line cl line)
    have hlaunch : s.launch l = x := by rw [State.launch, hx]; rfl
    have hparked : ((s.resumeParked l ps).launch l).parked = x.parked.map (Parked.wake ps) :=
      congrArg Launch.parked (State.launch_onLaunch s l _ x hx)
    have hmem : ∀ p ∈ x.parked, p.why = .line cl line → p.wake ps = p.again := fun p hp hwhy =>
      if_pos (List.mem_map_of_mem (List.mem_filter.2 ⟨hp, decide_eq_true hwhy⟩))
    obtain ⟨m, hm⟩ := s.onLaunch_eq l fun x => { x with parked := x.parked.map (Parked.wake ps) }
    refine ⟨s.resumeParked l ps, ?_, ?_, fun p hp hwhy => ?_, fun p hp => ?_, ?_⟩
    · change Host.Outcome.next (if (s.cluster cl).lineEmpty line then s else _) = _
      simp only [hfull, Bool.false_eq_true, if_false, hown, hlaunch, hst, true_or, if_true]
      rfl
    · rw [hparked, List.map_map]
      exact List.map_congr_left fun p _ => Parked.wake_id ps p
    · have hin : p.again ∈ x.parked.map (Parked.wake ps) := hmem p hp hwhy ▸ List.mem_map_of_mem hp
      rw [hparked]; exact hin
    · rw [hparked] at hp
      obtain ⟨p0, hp0, rfl⟩ := List.mem_map.1 hp
      by_cases hwhy : p0.why = .line cl line
      · rw [hmem p0 hp0 hwhy]; exact nofun
      · rw [Parked.wake]
        split
        · exact nofun
        · exact hwhy
    · rw [show s.resumeParked l ps = _ from hm]
  · have hrun : exec (.refreshWindowEnd die g) s = .next (s.weightPerform q) := by
      change Host.Outcome.next ((s.reqs.filter _).foldl _ s) = _
      have hin : ∀ p ∈ s.reqs, decide (p.space = .w ∧ p.addr / 2 ^ 28 = die ∧ groupOf p.addr = g) = true := by
        rw [hreqs]
        exact List.forall_mem_singleton.2 (decide_eq_true ⟨hsp, hdie, hg⟩)
      rw [List.filter_eq_self.2 hin, hreqs]; rfl
    have hopen : (s.refreshing (groupOf q.addr) || s.dieReset.getLsbD (q.addr / 2 ^ 28)) = false := by
      rw [show groupOf q.addr = g from hg, href, hdie, hres]; rfl
    refine ⟨_, hrun.trans (congrArg _ ?_), ((s.sameBytes_meterOf (s.clientOf q.firing) (q.addr / 2 ^ 28) 9 q.bytes).trans
      (State.sameBytes_crossing _ (s.clientOf q.firing) (q.addr / 2 ^ 28) (q.firing.cl / 128) q.bytes)).byte⟩
    simp only [State.weightPerform, hopen, hbad, Bool.false_eq_true, if_false]

end Sys2Proof.Proofs
end

section
/-! SUPPORT. Global memory: the home slice and the portal (R221, R349, R399), the walk of the page tables and the leaf's checks (R216 to
R218, R222). -/

namespace Sys2Proof.Machine

/-! The home slice. -/

theorem exec_homeSliceApply {s : State} {r pa key : Nat} {q : Req} (hq : s.req r = some q) (hat : q.at_ = .placed (.hbm pa key))
    (hstack : s.stackHeld pa = false) (hfirst : s.firstAt q pa = true) (hmerge : s.reqs.filter (s.mergeable q) = []) (hk : q.kind ≠ .load) :
    exec (.homeSliceApply r) s = .next (s.sliceApply q pa key) := by
  change execHomeSliceApply r s = _
  rw [execHomeSliceApply, hq]
  simp only [hat, hstack, hfirst, hmerge, decide_eq_false hk, Bool.not_true, Bool.or_false, Bool.false_eq_true, if_false]
  split
  · rename_i h; cases h
  · rfl

theorem State.slicePerformLoad_answers {s : State} {q : Req} {pa : Nat} (hstack : s.stackHeld pa = false) (hfirst : s.firstAt q pa = true)
    (hbad : s.poisoned pa q.bytes = false) (key : Nat) : s.slicePerformLoad q pa key =
      (((s.meterOf (s.clientOf q.firing) (dieOf pa) 7 q.bytes).crossing (s.clientOf q.firing) (dieOf pa) (q.firing.cl / 128)
        q.bytes).reqDone q (some (loadValue q.ty q.bytes (leNat (s.hbmRead key pa q.bytes))))) := by
  simp only [State.slicePerformLoad, hstack, hfirst, hbad, Bool.not_true, Bool.or_false, Bool.false_eq_true, if_false]

/-! The portal (R221, R349). -/

theorem exec_memoryAccessPerformed_portal {s : State} {r : Nat} {q : Req} {g : GTarget} (hq : s.req r = some q) (hat : q.at_ = .placed g)
    (hg : ∀ pa key, g ≠ .hbm pa key) : exec (.memoryAccessPerformed r) s = .next (s.sendReq q g) := by
  change execMemoryAccessPerformed r s = _
  rw [execMemoryAccessPerformed, hq]
  cases g with
  | hbm pa key => exact absurd rfl (hg pa key)
  | _ => simp only [hat]

theorem State.portalSend_of_no_reach {s : State} {cl : Nat} {t : GTarget} (h : s.mayReach (cl / 128) t = false) (atomic : Bool)
    (code n : Nat) (bs : List Byte) : s.portalSend cl t atomic code n bs = .wait := by
  simp only [State.portalSend, h, Bool.not_false, Bool.true_or, if_true]

/-- How a request that needs no tag, or has one, is sent. -/
def sendBy (way : Option (Route × State)) (t : GTarget) (code n : Nat) (bs : List Byte) : SendRes :=
  match way with
  | none => .noWay
  | some (r, s1) => .go r (s1.sendOut (portalMsg r code t n bs))

section
variable {s : State} {cl : Nat} {t : GTarget} (code n : Nat) (bs : List Byte)

theorem State.portalSend_plain (h : s.mayReach (cl / 128) t = true) :
    s.portalSend cl t false code n bs = sendBy (s.routeTo cl t none) t code n bs := by
  simp only [State.portalSend, h, Bool.not_true, Bool.false_and, Bool.or_false, Bool.false_eq_true, if_false]; rfl

theorem State.portalSend_no_tag (h : s.freeTag (cl / 128) = none) : s.portalSend cl t true code n bs = .wait := by
  simp only [State.portalSend, h, if_true, Option.isNone_none, Bool.and_true, Bool.or_true]

theorem State.portalSend_tag (h : s.mayReach (cl / 128) t = true) {k : Nat} (hk : s.freeTag (cl / 128) = some k) :
    s.portalSend cl t true code n bs = sendBy (s.routeTo cl t (some k)) t code n bs := by
  simp only [State.portalSend, h, hk, if_true, Option.isNone_some, Bool.and_false, Bool.not_true, Bool.or_false, Bool.false_eq_true, if_false]
  rfl

end

theorem State.place_eq (s : State) (q : Req) (g : GTarget) : s.place q g =
    { s with reqs := s.reqs.filter (fun p => decide (p.id ≠ q.id)) ++ [{ q with at_ := .placed g }] } := rfl

theorem countFrom_find_none {p : Nat → Bool} {m : Nat} (h : ∀ n, n < m → p n = false) : (countFrom 0 m).find? p = none := by
  rw [countFrom_eq_range', List.find?_eq_none]
  intro n hn
  rw [h n (by have := List.mem_range'_1.1 hn; omega)]
  exact Bool.false_ne_true

theorem countFrom_find_lowest {p : Nat → Bool} {n m : Nat} (hn : n < m) (hp : p n = true) (hlow : ∀ j, j < n → p j = false) :
    (countFrom 0 m).find? p = some n := by
  rw [countFrom_eq_range', List.find?_range'_eq_some]
  exact ⟨hp, List.mem_range'_1.2 ⟨Nat.zero_le n, by omega⟩, fun j _ hj => by rw [hlow j hj]; rfl⟩

/-! The page tables (R216, R217). -/

theorem testBit_iff_bitsOf (w i : Nat) : w.testBit i = true ↔ bitsOf w i 1 = 1 := by
  rw [bitsOf, Nat.testBit_eq_decide_div_mod_eq, decide_eq_true_eq, Nat.pow_one]

theorem testBit_not_iff_bitsOf (w i : Nat) : w.testBit i = false ↔ bitsOf w i 1 = 0 := by
  have h : bitsOf w i 1 < 2 := Nat.mod_lt _ (by decide)
  rw [← Bool.not_eq_true, testBit_iff_bitsOf]
  omega

theorem hbmSize_eq : hbmSize = 0x9000000000 := rfl

/-- Two neighbouring fields are 0 when the field over both is. -/
theorem bitsOf_add_eq_zero (w lo m n : Nat) : bitsOf w lo (m + n) = 0 ↔ bitsOf w lo m = 0 ∧ bitsOf w (lo + m) n = 0 := by
  rw [bitsOf, bitsOf, bitsOf, Nat.pow_add 2 lo m, ← Nat.div_div_eq_div_mul]
  generalize w / 2 ^ lo = v
  rw [Nat.pow_add, Nat.mod_mul, Nat.add_eq_zero_iff, Nat.mul_eq_zero]
  simp [Nat.pow_eq_zero]

theorem nonLeafOk_iff (w n : Nat) : nonLeafOk w n = true ↔ bitsOf w 0 1 = 1 ∧ bitsOf w 4 2 = 0 ∧ bitsOf w 8 8 = 0 ∧ bitsOf w 52 12 = 0 ∧
    bitsOf w 16 36 * 2 ^ 16 % n = 0 ∧ bitsOf w 16 36 * 2 ^ 16 + n ≤ 0x9000000000 := by
  have h4 : bitsOf w 4 2 = 0 ↔ bitsOf w 4 1 = 0 ∧ bitsOf w 5 1 = 0 := bitsOf_add_eq_zero w 4 1 1
  have h8 : bitsOf w 8 8 = 0 ↔ bitsOf w 8 2 = 0 ∧ bitsOf w 10 6 = 0 := bitsOf_add_eq_zero w 8 2 6
  simp only [nonLeafOk, entryOk, Bool.and_eq_true, decide_eq_true_eq, testBit_iff_bitsOf, Bool.not_eq_true', testBit_not_iff_bitsOf,
    h4, h8]
  rw [hbmSize_eq]
  tauto

theorem leafOk_iff (w n : Nat) : leafOk w n = true ↔ bitsOf w 0 1 = 1 ∧ bitsOf w 4 1 = 1 ∧ bitsOf w 10 6 = 0 ∧ bitsOf w 8 2 ≠ 3 ∧
    bitsOf w 16 36 * 2 ^ 16 % n = 0 ∧ (bitsOf w 8 2 = 0 → bitsOf w 16 36 * 2 ^ 16 + n ≤ 0x9000000000) := by
  simp only [leafOk, entryOk, Bool.and_eq_true, Bool.or_eq_true, decide_eq_true_eq, testBit_iff_bitsOf]
  rw [hbmSize_eq]
  tauto

/-- A note that a stack is held changes no table. -/
theorem State.tableEntry_touchPa (s : State) (pa key a : Nat) : (s.touchPa pa).tableEntry key a = s.tableEntry key a := by
  rw [State.touchPa]
  split <;> rfl

/-- The entry used of a 2 MiB group is the address's own or one of the group's 32, and its choice changes no table. -/
theorem State.groupEntry_spec (s : State) (key table va : Nat) :
    (∀ a, (s.groupEntry key table va).2.tableEntry key a = s.tableEntry key a) ∧
    (bitsOf (s.tableEntry key (table + bitsOf va 16 14 * 8)) 5 1 = 0 → (s.groupEntry key table va).1 = table + bitsOf va 16 14 * 8) ∧
    ((s.groupEntry key table va).1 = table + bitsOf va 16 14 * 8 ∨
      ∃ i, i < 32 ∧ (s.groupEntry key table va).1 = table + bitsOf va 16 14 / 32 * 32 * 8 + 8 * i) := by
  rw [← testBit_not_iff_bitsOf]
  simp only [State.groupEntry]
  split
  · rename_i hgroup
    split
    · exact ⟨fun _ => rfl, fun _ => rfl, .inl rfl⟩
    · exact ⟨fun _ => rfl, fun h => absurd hgroup (by rw [h]; decide), .inr ⟨_, Nat.mod_lt _ (by decide), rfl⟩⟩
  · exact ⟨fun _ => rfl, fun _ => rfl, .inl rfl⟩

/-- How a walk ends at an entry that stands for a leaf. -/
def leafEnd (a w va size : Nat) : Walk := if leafOk w size then .leaf a w (va / size * size) size else .bad

section
variable (s : State) (part va : Nat)

/-- The key of a partition's tables. -/
def State.walkKey : Nat := (s.part part).tkey.toNat
/-- The address of a partition's first table. -/
def State.walkRoot : Nat := bitsOf (s.part part).troot.toNat 17 35 * 2 ^ 17
/-- The first entry of a walk. -/
def State.walkEntry1 : Nat := s.tableEntry (s.walkKey part) (s.walkRoot part + bitsOf va 43 14 * 8)
/-- The address of a walk's second entry. -/
def State.walkAt2 : Nat := bitsOf (s.walkEntry1 part va) 16 36 * 2 ^ 16 + bitsOf va 30 13 * 8
/-- The second entry of a walk. -/
def State.walkEntry2 : Nat := s.tableEntry (s.walkKey part) (s.walkAt2 part va)
/-- The address of a walk's third table. -/
def State.walkTable3 : Nat := bitsOf (s.walkEntry2 part va) 16 36 * 2 ^ 16

variable {s part va}

theorem State.walk_of_bad_key (h : s.keyOk part (s.walkKey part) = false) : (s.walk part va).1 = .badKey (s.walkKey part) := by
  unfold State.walkKey at *
  simp only [State.walk, h, Bool.not_false, if_true]

variable (hkey : s.keyOk part (s.walkKey part) = true) (hroot : s.walkRoot part < hbmSize)
include hkey hroot

theorem State.walk_of_bad_entry1 (h1 : nonLeafOk (s.walkEntry1 part va) (2 ^ 16) = false) : (s.walk part va).1 = .bad := by
  unfold State.walkEntry1 State.walkRoot State.walkKey at *
  simp only [State.walk, hkey, if_neg (Nat.not_le.2 hroot), State.tableEntry_touchPa, h1, Bool.not_true, Bool.not_false, Bool.false_eq_true,
    if_false, if_true]

variable (h1 : nonLeafOk (s.walkEntry1 part va) (2 ^ 16) = true)
include h1

theorem State.walk_of_leaf2 (h4 : (s.walkEntry2 part va).testBit 4 = true) : (s.walk part va).1 =
    if (s.walkEntry2 part va).testBit 5 then .bad else leafEnd (s.walkAt2 part va) (s.walkEntry2 part va) va (2 ^ 30) := by
  unfold State.walkEntry2 State.walkAt2 State.walkEntry1 State.walkRoot State.walkKey at *
  simp only [State.walk, hkey, if_neg (Nat.not_le.2 hroot), State.tableEntry_touchPa, h1, h4, Bool.not_true, Bool.false_eq_true, if_false,
    if_true, leafEnd]
  cases (s.tableEntry _ (bitsOf (s.tableEntry _ _) 16 36 * 2 ^ 16 + bitsOf va 30 13 * 8)).testBit 5 <;>
    cases leafOk (s.tableEntry _ (bitsOf (s.tableEntry _ _) 16 36 * 2 ^ 16 + bitsOf va 30 13 * 8)) (2 ^ 30) <;> rfl

variable (h4 : (s.walkEntry2 part va).testBit 4 = false)
include h4

theorem State.walk_of_bad_entry2 (h2 : nonLeafOk (s.walkEntry2 part va) (2 ^ 17) = false) : (s.walk part va).1 = .bad := by
  unfold State.walkEntry2 State.walkAt2 State.walkEntry1 State.walkRoot State.walkKey at *
  simp only [State.walk, hkey, if_neg (Nat.not_le.2 hroot), State.tableEntry_touchPa, h1, h2, h4, Bool.not_true, Bool.not_false,
    Bool.false_eq_true, if_false, if_true]

theorem State.walk_of_entry2 (h2 : nonLeafOk (s.walkEntry2 part va) (2 ^ 17) = true) :
    let e := s.tableEntry (s.walkKey part)
    let own := s.walkTable3 part va + bitsOf va 16 14 * 8
    ∃ a, (bitsOf (e own) 5 1 = 0 → a = own) ∧
      (a = own ∨ ∃ i, i < 32 ∧ a = s.walkTable3 part va + bitsOf va 16 14 / 32 * 32 * 8 + 8 * i) ∧
      (s.walk part va).1 = leafEnd a (e a) va (if (e a).testBit 5 then 2 ^ 21 else 2 ^ 16) := by
  intro e own
  let t := ((s.touchPa (s.walkRoot part)).touchPa (s.walkAt2 part va)).touchPa (s.walkTable3 part va)
  have ht : ∀ a, t.tableEntry (s.walkKey part) a = e a := fun a => by simp only [t, State.tableEntry_touchPa, e]
  obtain ⟨hsame, hown, hgroup⟩ := t.groupEntry_spec (s.walkKey part) (s.walkTable3 part va) va
  refine ⟨_, fun h5 => hown (by rw [ht]; exact h5), hgroup, ?_⟩
  rw [← ht, ← hsame]
  unfold t State.walkTable3 State.walkEntry2 State.walkAt2 State.walkEntry1 State.walkRoot State.walkKey at *
  simp only [State.walk, hkey, if_neg (Nat.not_le.2 hroot), State.tableEntry_touchPa, h1, h2, h4, Bool.not_true,
    Bool.false_eq_true, if_false, leafEnd]
  exact apply_ite Prod.fst _ _ _

end

/-- What a leaf names, by its TGT field (R217). -/
theorem leafTarget_eq (w b va : Nat) : leafTarget w b va =
    if bitsOf w 8 2 = 1 then .peer (bitsOf w 60 4) (bitsOf w 50 10) (bitsOf w 16 34 * 2 ^ 16 + (va - b))
    else if bitsOf w 8 2 = 2 then .host (bitsOf w 16 36 * 2 ^ 16 + (va - b)) (bitsOf w 52 12)
    else .hbm (bitsOf w 16 36 * 2 ^ 16 + (va - b)) (bitsOf w 52 12) := by
  rw [leafTarget]
  split
  · rename_i h; rw [if_pos h]
  · rename_i h; rw [h]; rfl
  · rename_i h1 h2; rw [if_neg h1, if_neg h2]

/-- What a leaf denies an access (R222, check 4). -/
def leafShort (w : Nat) (n : Need) : Prop := (n.r = true ∧ bitsOf w 1 1 = 0) ∨ (n.w = true ∧ bitsOf w 2 1 = 0) ∨
  (n.x = true ∧ bitsOf w 3 1 = 0) ∨ (n.tgt ≠ 3 ∧ bitsOf w 8 2 ≠ n.tgt)

theorem leafShort_iff (w : Nat) (n : Need) : leafShort w n ↔ ((n.r && !w.testBit 1) || (n.w && !w.testBit 2) || (n.x && !w.testBit 3) ||
    (decide (n.tgt ≠ 3) && decide (bitsOf w 8 2 ≠ n.tgt))) = true := by
  simp only [leafShort, Bool.or_eq_true, Bool.and_eq_true, Bool.not_eq_true', testBit_not_iff_bitsOf, decide_eq_true_eq, or_assoc]

theorem State.checkLeaf_of_short {w : Nat} {n : Need} (h : leafShort w n) (s : State) (part : Nat) :
    s.checkLeaf part w n = some (.protect, 0) := if_pos ((leafShort_iff w n).1 h)

theorem State.checkLeaf_of_not_short {w : Nat} {n : Need} (h : ¬ leafShort w n) (htgt : bitsOf w 8 2 ≠ 1) (s : State) (part : Nat) :
    s.checkLeaf part w n = if (bitsOf w 8 2 = 2 ∧ bitsOf w 52 12 ≠ 0) ∨ s.keyOk part (bitsOf w 52 12) = false
      then some (.key, BitVec.ofNat 64 (bitsOf w 52 12)) else none := by
  refine ((if_neg (mt (leafShort_iff w n).2 h)).trans (if_neg htgt)).trans ?_
  simp only [Bool.not_eq_true']

end Sys2Proof.Machine

namespace Sys2Proof.Proofs

open Sys2Proof.Machine

/-- Settles O33: each step of a G request by where it stands; the walk level by level. -/
theorem globalMemorySteps : Obligations.GlobalMemorySteps := by
  refine ⟨?_, ?_, ?_, ?_⟩
  · intro r q pa key s hq hat hstack hfirst hmerge c bad old bits wrote
    have hrun := exec_homeSliceApply hq hat hstack hfirst hmerge
    refine ⟨fun hk => ?_, fun op hk => ?_, fun op hk => ?_⟩
    all_goals rw [hrun (by rw [hk]; exact nofun), State.sliceApply, hk]
  · intro r q s hq part placed
    refine ⟨fun hat hsp => ?_, fun pa key hat hk hstack hfirst hbad => ?_, fun g w ok data hat => ?_, fun bus key hat => ?_,
      fun g hat hg hreach hk => ?_, fun g hat hg hreach hk => ?_⟩
    · have hrun : exec (.translationWalk r) s = execTranslationWalk r s := rfl
      rw [execTranslationWalk, hq] at hrun
      simp only [hat, hsp] at hrun
      refine ⟨fun h => ?_, fun k h => ?_, fun e w b n h => ?_, fun e he hleaf => ?_⟩
      · rw [hrun, show s.walk (s.launch q.firing.launch).part q.addr = (.bad, (s.walk part q.addr).2) from Prod.ext h rfl]
      · rw [hrun, show s.walk (s.launch q.firing.launch).part q.addr = (.badKey k, (s.walk part q.addr).2) from Prod.ext h rfl]
      · intro s1 wr
        rw [show s.walk (s.launch q.firing.launch).part q.addr = (.leaf e w b n, s1) from Prod.ext h rfl] at hrun
        refine ⟨fun k d hk => ?_, fun hok => ?_⟩
        · rw [hrun]; simp only [show s1.checkLeaf (s.launch q.firing.launch).part w (s1.needOf q) = some (k, d) from hk]
        · rw [hrun]; simp only [show s1.checkLeaf (s.launch q.firing.launch).part w (s1.needOf q) = none from hok, State.place_eq]; rfl
      · change execMemoryAccessPerformed r s = _
        rw [execMemoryAccessPerformed, hq]
        simp only [hat, hsp, he, hleaf]
        rfl
    · have hrun : exec (.memoryAccessPerformed r) s = .next (s.slicePerformLoad q pa key) := by
        change execMemoryAccessPerformed r s = _
        rw [execMemoryAccessPerformed, hq]
        simp only [hat, hk, if_true]
      exact ⟨_, hrun.trans (congrArg _ (State.slicePerformLoad_answers hstack hfirst hbad key)),
        ((s.sameBytes_meterOf _ _ _ _).trans (State.sameBytes_crossing _ _ _ _ _)).byte⟩
    · have hrun : exec (.portalCompletion r ok data) s = .next (s.answerReq q g ok data) := by
        change execPortalCompletion r ok data s = _
        rw [execPortalCompletion, hq]
        simp only [hat]
      refine ⟨fun ho => ?_, fun ho hk => ?_, fun ho hk => ?_, fun op ho hk => ?_, fun op ho hk => ?_⟩
      · rw [hrun, ho]; rfl
      all_goals
        rw [hrun, ho, State.answerReq]
        simp only [hk, Bool.not_true, Bool.false_eq_true, if_false]
    · intro page
      have hrun : ∀ granted, exec (.priPageRequest r granted) s = execPriPageRequest r granted s := fun _ => rfl
      refine ⟨?_, ?_, fun hpage => ?_⟩
      · rw [hrun, execPriPageRequest, hq]; simp only [hat, Bool.false_eq_true, if_false]
      · rw [hrun, execPriPageRequest, hq]; simp only [hat, if_true]; rfl
      · have hno : s.mayReach (q.firing.cl / 128) (.host bus key) = false := decide_eq_false hpage
        rw [exec_memoryAccessPerformed_portal hq hat (fun _ _ => nofun), State.sendReq, State.portalSend_of_no_reach hno]
    · have hplain : q.kind.atomic = false := by rcases hk with hk | hk <;> rw [hk] <;> rfl
      have hrun := exec_memoryAccessPerformed_portal hq hat hg
      rw [State.sendReq, hplain] at hrun
      refine ⟨fun hno => ?_, fun w s1 hway => ?_⟩
      · rw [hrun, State.portalSend_plain _ _ _ hreach, hno]; rfl
      · rw [hrun, State.portalSend_plain _ _ _ hreach, hway]; rfl
    · intro used
      have hrun := exec_memoryAccessPerformed_portal hq hat hg
      rw [State.sendReq, hk] at hrun
      refine ⟨fun hall => ?_, fun n w s1 hn hfree hlow hway => ?_⟩
      · rw [hrun, State.portalSend_no_tag _ _ _ (countFrom_find_none fun n hn => decide_eq_false (not_not_intro (hall n hn)))]
      · have htag : s.freeTag (q.firing.cl / 128) = some n :=
          countFrom_find_lowest hn (decide_eq_true hfree) fun j hj => decide_eq_false (not_not_intro (hlow j hj))
        rw [hrun, State.portalSend_tag _ _ _ hreach htag, hway]; rfl
  · intro q ty host op u sign word
    have hamo : q.kind = .amo op → op ≠ .cas → q.operands = word q.data := by
      intro hk hop
      rw [Req.operands, hk]
      cases op with
      | cas => exact absurd rfl hop
      | _ => rfl
    refine ⟨rfl, rfl, rfl, rfl, rfl, rfl, rfl, rfl, rfl, rfl, rfl, rfl, fun hk => ?_, hamo, fun hk => ?_⟩
    · rw [Req.operands, hk]
    · rw [Req.operands, hk]
  · intro s part va key e fld pa next leaf ends root e1 a2 e2 a3 group size
    have hnext : ∀ w n, next w n ↔ nonLeafOk w n = true := fun w n => (nonLeafOk_iff w n).symm
    have hnot : ∀ w n, ¬ next w n → nonLeafOk w n = false := fun w n h => Bool.eq_false_iff.2 (mt (hnext w n).2 h)
    have hends : ∀ a w n, (s.walk part va).1 = leafEnd a w va n → ends a w n := fun a w n h =>
      ⟨fun hl => h.trans (if_pos ((leafOk_iff w n).2 hl)), fun hl => h.trans (if_neg (mt (leafOk_iff w n).1 hl))⟩
    refine ⟨State.walk_of_bad_key, fun hkey hroot => ⟨fun h1 => State.walk_of_bad_entry1 hkey hroot (hnot _ _ h1), fun h1 => ?_⟩,
      fun w b => leafTarget_eq w b va, fun w n => ⟨fun h => State.checkLeaf_of_short h s part, fun h htgt => State.checkLeaf_of_not_short h htgt s part⟩⟩
    replace h1 := (hnext _ _).1 h1
    refine ⟨fun h4 h5 => hends _ _ _ ?_, fun h4 h5 => ?_, fun h4 h2 => ?_, fun h2 => ?_⟩
    · rw [State.walk_of_leaf2 hkey hroot h1 ((testBit_iff_bitsOf _ 4).2 h4), (testBit_not_iff_bitsOf (s.walkEntry2 part va) 5).2 h5]; rfl
    · rw [State.walk_of_leaf2 hkey hroot h1 ((testBit_iff_bitsOf _ 4).2 h4), if_pos ((testBit_iff_bitsOf (s.walkEntry2 part va) 5).2 h5)]
    · exact State.walk_of_bad_entry2 hkey hroot h1 ((testBit_not_iff_bitsOf _ 4).2 h4) (hnot _ _ h2)
    · have h4 : (s.walkEntry2 part va).testBit 4 = false :=
        (testBit_not_iff_bitsOf _ 4).2 ((bitsOf_add_eq_zero e2 4 1 1).1 h2.2.1).1
      obtain ⟨a, hown, hgroup, hwalk⟩ := State.walk_of_entry2 hkey hroot h1 h4 ((hnext _ _).1 h2)
      refine ⟨fun h5 => ?_, fun h5 => ⟨a, hgroup, hends _ _ _ ?_⟩⟩
      · have ha : a = a3 := hown h5
        have h5' : (s.tableEntry (s.walkKey part) a).testBit 5 = false := (testBit_not_iff_bitsOf _ 5).2 (by rw [ha]; exact h5)
        rw [h5', ha] at hwalk
        exact hends _ _ _ hwalk
      · rw [hwalk, if_congr (testBit_iff_bitsOf _ 5) rfl rfl]; rfl

end Sys2Proof.Proofs
end

section
/-! SUPPORT. Knot requests (R335, R338 to R344), the bank (R332 to R344, R359), waiters, triggers and the knot window (R339, R343, R346). -/

namespace Sys2Proof.Machine

/-! A knot's add (R338). -/

theorem State.knot_setKnot (s : State) (k : Nat) (x : Knot) : (s.setKnot k x).knot k = x := getAt_setAt_same ..

theorem State.knot_setKnot_ne (s : State) {k j : Nat} (x : Knot) (h : j ≠ k) : (s.setKnot k x).knot j = s.knot j := getAt_setAt_ne _ _ _ _ _ h

theorem Knot.limitOf_eq (k : Knot) : k.limitOf = if k.limit = 0 then 2 ^ 64 - 1 else k.limit.toNat := rfl

/-- A cluster but for what a knot's add may change at a bank. -/
def Cluster.offBank (c : Cluster) : Cluster := { c with dir := [], triggers := [], fired := [] }

theorem State.offBank_onCluster (s : State) (k : Nat) {g : Cluster → Cluster} (h : ∀ c, (g c).offBank = c.offBank) (c : Nat) :
    ((s.onCluster k g).cluster c).offBank = (s.cluster c).offBank := by
  by_cases hc : c = k
  · subst hc; rw [State.cluster_onCluster, h]
  · rw [State.cluster_onCluster_ne _ _ _ _ hc]

/-- What a knot is once its trigger has been fired, or has not been reached (R343). -/
def Knot.disarmed (k : Knot) : Knot := { k with armed := k.armed && decide (k.value.toNat < k.tv.toNat) }

theorem Knot.disarmed_of_not_reached {k : Knot} (h : ¬ (k.armed ∧ k.tv.toNat ≤ k.value.toNat)) : k.disarmed = k := by
  have harmed : (k.armed && decide (k.value.toNat < k.tv.toNat)) = k.armed := by
    cases ha : k.armed with
    | false => rfl
    | true => exact decide_eq_true (by simp only [ha, true_and] at h; omega)
  rw [Knot.disarmed, harmed]

theorem Knot.disarmed_of_reached {k : Knot} (h : k.tv.toNat ≤ k.value.toNat) : k.disarmed = { k with armed := false } := by
  rw [Knot.disarmed, decide_eq_false (Nat.not_lt.2 h), Bool.and_false]

theorem State.fireTrigger_spec (s : State) (key : Nat) :
    (s.fireTrigger key).knot key = (s.knot key).disarmed ∧ (∀ j, j ≠ key → (s.fireTrigger key).knot j = s.knot j) ∧
    ∀ c, ((s.fireTrigger key).cluster c).offBank = (s.cluster c).offBank := by
  by_cases h : (s.knot key).armed ∧ (s.knot key).tv.toNat ≤ (s.knot key).value.toNat
  · have hfire : s.fireTrigger key = _ := if_pos h
    refine ⟨?_, fun j hj => ?_, fun c => ?_⟩
    · rw [hfire, Knot.disarmed_of_reached h.2]; exact s.knot_setKnot _ _
    · rw [hfire]; exact s.knot_setKnot_ne _ hj
    · rw [hfire]; exact State.offBank_onCluster _ _ (by intro; rfl) c
  · have hstay : s.fireTrigger key = s := if_neg h
    rw [hstay, Knot.disarmed_of_not_reached h]
    exact ⟨rfl, fun _ _ => rfl, fun _ => rfl⟩

theorem State.offBank_notify (s : State) (key c : Nat) : ((s.notify key).cluster c).offBank = (s.cluster c).offBank := by
  exact State.offBank_onCluster _ _ (by intro; rfl) c

/-- A knot after an add that its limit takes. -/
def Knot.added (k : Knot) (n : Nat) (d : Option Word) : Knot := { k with value := k.value + BitVec.ofNat 64 n, data := d.getD k.data }

theorem State.knotAdd_of_fit {s : State} {key n : Nat} (h : (s.knot key).value.toNat + n ≤ (s.knot key).limitOf) (d : Option Word) :
    s.knotAdd key n d = some (((s.setKnot key ((s.knot key).added n d)).notify key).fireTrigger key) := if_neg (Nat.not_lt.2 h)

theorem Knot.toNat_added_value {k : Knot} {n : Nat} (h : k.value.toNat + n ≤ k.limitOf) (d : Option Word) :
    (k.added n d).value.toNat = k.value.toNat + n := by
  have hlim : k.limitOf < 2 ^ 64 := by
    rw [Knot.limitOf]
    split
    · decide
    · exact k.limit.isLt
  change (k.value + BitVec.ofNat 64 n).toNat = _
  rw [BitVec.toNat_add, BitVec.toNat_ofNat]
  omega

/-! Requests at their bank. -/

theorem exec_knotBankApply {s : State} {r : Nat} {q : KReq} (hq : s.kreqs.find? (fun p => decide (p.id = r)) = some q)
    (hlive : (s.launch q.firing.launch).knotsLive = true) (hsweep : q.release = true → q.captured ≠ none) (hbehind : s.behind q = false)
    (hall : s.allPerformed q.firing.launch (q.captured.getD []) = true) : exec (.knotBankApply r) s = .next (s.bankApply q) := by
  have hswept : (q.release && q.captured.isNone) = false := by
    cases hr : q.release with
    | false => rfl
    | true => rw [Bool.true_and, Option.isNone_eq_false_iff]; exact Option.isSome_iff_ne_none.2 (hsweep hr)
  change execKnotBankApply r s = _
  simp only [execKnotBankApply, hq, hlive, hswept, hbehind, hall, Bool.not_true, Bool.false_eq_true, if_false, if_true]

/-- The state in which a request is applied: it is counted at its bank, and no longer waits (R396). -/
def State.atBank (s : State) (q : KReq) : State :=
  ((s.dropKreq q.id).meter q.firing.launch (bankOf (knotKey q.handle) / 128) 15 1).crossing (s.clientOf q.firing) (q.firing.cl / 128)
    (bankOf (knotKey q.handle) / 128) knotBytes

theorem State.bankApply_of_no_reach {s : State} {q : KReq} (hop : q.op ≠ .alloc) (h : (s.atBank q).reaches q.firing.launch q.handle = false) :
    s.bankApply q = (s.atBank q).faultFiring q.firing .knotHandle q.handle 0 := by
  unfold State.atBank at *
  unfold State.bankApply
  cases hq : q.op with
  | alloc => exact absurd hq hop
  | _ => simp only [h, Bool.not_false, if_true]

/-- What a bank does with a request for a knot within reach. -/
def State.bankDo (s : State) (f : Firing) (h : Word) : KnotOp → State
  | .add n d =>
    match s.knotAdd (knotKey h) n.toNat d with
    | none => s.faultFiring f .knotLimit h 0
    | some t => t.knotReply f false .completion (t.knot (knotKey h)).value
  | .wait v => s.bankWait f h v
  | .read => (s.knotReply f false .value (s.knot (knotKey h)).value).knotReply f true .value (s.knot (knotKey h)).data
  | .limit v =>
    if (s.knot (knotKey h)).value ≠ 0 then s.trap f 0x0701
    else (s.setKnot (knotKey h) { s.knot (knotKey h) with limit := v }).knotReply f false .completion 0
  | .arm v block => s.bankArm f h v block
  | .free => s.bankFree f h
  | .alloc => s.bankAlloc f

theorem State.bankApply_of_reach {s : State} {q : KReq} (h : (s.atBank q).reaches q.firing.launch q.handle = true) :
    s.bankApply q = (s.atBank q).bankDo q.firing q.handle q.op := by
  unfold State.atBank at *
  unfold State.bankApply
  cases hq : q.op with
  | alloc => rfl
  | _ => simp only [h, Bool.not_true, Bool.false_eq_true, if_false]; rfl

theorem State.bankApply_of_alloc {s : State} {q : KReq} (h : q.op = .alloc) : s.bankApply q = (s.atBank q).bankAlloc q.firing := by
  unfold State.atBank State.bankApply
  simp only [h]

/-- A directory keeps every knot. -/
theorem State.knot_dirEnter (s : State) (key cl t j : Nat) : (s.dirEnter key cl t).2.knot j = s.knot j := by
  simp only [State.dirEnter]
  split
  · rfl
  · split <;> rfl

section
variable {s : State} {f : Firing} {h v : Word}

theorem State.bankWait_parks (s : State) (hlt : (s.knot (knotKey h)).value.toNat < v.toNat) :
    ∃ (t : State) (dir : Bool), s.bankWait f h v = t.park f (.kwait h.toNat v.toNat dir) ∧
      (t.knot (knotKey h)).waiters = (s.knot (knotKey h)).waiters + 1 := by
  refine ⟨((s.addWaiters (knotKey h) true 1).dirEnter (knotKey h) f.cl v.toNat).2,
    ((s.addWaiters (knotKey h) true 1).dirEnter (knotKey h) f.cl v.toNat).1, if_neg (Nat.not_le.2 hlt), ?_⟩
  rw [State.knot_dirEnter]
  exact congrArg Knot.waiters (s.knot_setKnot _ _)

/-- The lowest pool knot of a launch's panel that is not in use (R344). -/
def State.freePoolKnot (s : State) (l : Nat) : Option Nat :=
  (countFrom 0 (((s.pattern l).map Pattern.knots).getD 0)).find? fun j => decide (j ∉ (s.launch l).poolTaken ∧ j ∉ (s.launch l).poolOut)

theorem State.bankAlloc_of_none (hn : s.freePoolKnot f.launch = none) : s.bankAlloc f = s.trap f 0x0703 := by
  rw [State.freePoolKnot] at hn
  simp only [State.bankAlloc, hn]

theorem State.bankAlloc_of_some {j : Nat} (hj : s.freePoolKnot f.launch = some j) :
    let x := s.launch f.launch
    s.bankAlloc f = ((s.setKnot (x.panel.poolKey j) (poolKnot x.part x.panel.home)).onLaunch f.launch fun y =>
      { y with poolOut := y.poolOut ++ [j] }).knotReply f false .value (handleOf x.part (x.panel.poolKey j)) := by
  rw [State.freePoolKnot] at hj
  simp only [State.bankAlloc, hj]

theorem State.bankFree_frees {j : Nat} (hj : s.poolIndex f.launch h = some j) (hout : j ∈ (s.launch f.launch).poolOut)
    (hw : (s.knot (knotKey h)).waiters = 0) (ha : (s.knot (knotKey h)).armed = false) : s.bankFree f h =
      (s.onLaunch f.launch fun y => { y with poolOut := y.poolOut.filter fun i => decide (i ≠ j) }).knotReply f false .completion 0 := by
  simp only [State.bankFree, hj, decide_eq_true hout, decide_eq_true hw, ha, Bool.not_false, Bool.and_true, if_true]

theorem State.bankFree_not_out {j : Nat} (hj : s.poolIndex f.launch h = some j) (hout : j ∉ (s.launch f.launch).poolOut) :
    s.bankFree f h = s.trap f 0x0705 := by
  simp only [State.bankFree, hj, decide_eq_false hout, Bool.false_and, Bool.false_eq_true, if_false]

theorem State.bankArm_arms {b : List Word} {n : Nat} (ha : (s.knot (knotKey h)).armed = false)
    (hb : triggerBlockOk b (s.knot (knotKey h)).opart.toNat = true)
    (hn : freeRecord (s.cluster (bankOf (knotKey h))).triggers = some n) :
    let k := s.knot (knotKey h)
    let t : Trigger := ⟨n, knotKey h, k.opart.toNat, b.take 8, wordAt b 8, none, if k.owner = .pool then some f.launch else none⟩
    s.bankArm f h v b = (((s.setKnot (knotKey h) { k with tv := v, armed := true, tslot := BitVec.ofNat 8 n }).onCluster
      (bankOf (knotKey h)) fun c => { c with triggers := c.triggers ++ [t] }).fireTrigger (knotKey h)).knotReply f false .completion 0 := by
  rw [State.bankArm]
  simp only [ha, hb, hn, Bool.not_true, Bool.false_eq_true, if_false]

end

end Sys2Proof.Machine

namespace Sys2Proof.Proofs

open Sys2Proof.Machine

/-- Settles O35. -/
theorem knotRequests : Obligations.KnotRequests := by
  intro x s h f hd v sent rel
  have hsent : ∀ (t : State) (h : Word) (op : KnotOp) (rel : Bool), t.knotRequest f h op rel = sent t h op rel := fun _ _ _ _ => rfl
  refine ⟨(State.fire_runs h _ : execKwait x s = _), (State.fire_runs h _ : execKread x s = _), fun hc => ?_⟩
  have h0 : s.RunsPlain x.pm := ⟨h, hc⟩
  refine ⟨(State.fireHeld_plain h0 _ : execKadd x s = _), (State.fireHeld_plain h0 _ : execKlimit x s = _),
    (State.fireHeld_plain h0 _ : execKalloc x s = _), (State.fireHeld_plain h0 _ : execKfree x s = _), ?_⟩
  intro a
  have hrun := (State.fireHeld_plain h0 _ : execKarm x s = _)
  refine ⟨fun hal => hrun.trans (congrArg _ (if_pos hal)), fun bs t hal hlow hread => hrun.trans (congrArg _ ?_)⟩
  rw [if_neg (not_not_intro hal), if_pos hlow, show s.gRead (s.clientOf s.cur) (s.opKC s.cur x).toNat 128 Need.read = (.ok bs, t) from hread]
  rfl

/-- Settles O36. -/
theorem knotBankApplies : Obligations.KnotBankApplies := by
  refine ⟨fun s key n d => ?_, fun r q s hq hlive hsweep hbehind hall => ?_, fun r q s hq hlive hrel hcap => ?_⟩
  · intro k limit
    refine ⟨fun hpass => if_pos hpass, fun hfit => ⟨_, State.knotAdd_of_fit hfit d, ?_⟩⟩
    let t := (s.setKnot key (k.added n d)).notify key
    have hkey : t.knot key = k.added n d := s.knot_setKnot _ _
    obtain ⟨hknot, hothers, hclusters⟩ := t.fireTrigger_spec key
    rw [hkey] at hknot
    have hvalue := Knot.toNat_added_value hfit d
    refine ⟨?_, ?_, ?_, ?_, ?_, fun j hj => (hothers j hj).trans (s.knot_setKnot_ne _ hj), fun c => (hclusters c).trans (State.offBank_notify _ _ _)⟩
    · exact (congrArg (fun k => k.value.toNat) hknot).trans hvalue
    · exact congrArg Knot.data hknot
    · exact (congrArg Knot.limit hknot).trans (rfl : (k.added n d).disarmed.limit = k.limit)
    · exact (congrArg Knot.waiters hknot).trans (rfl : (k.added n d).disarmed.waiters = k.waiters)
    · rw [← hvalue]; exact congrArg Knot.armed hknot
  · have hrun := exec_knotBankApply hq hlive hsweep hbehind hall
    intro f key die s1 k done trap both
    have hdo : s1.reaches f.launch q.handle = true → ∀ {op}, q.op = op → exec (.knotBankApply r) s = .next (s1.bankDo f q.handle op) :=
      fun hreach op hop => hrun.trans (congrArg _ ((State.bankApply_of_reach hreach).trans (by rw [hop]; rfl)))
    refine ⟨fun hop hno => ?_, fun hreach => ⟨fun n d hop => ⟨fun hadd => ?_, fun t hadd => ?_⟩, fun v hop hle => ?_, fun v hop hlt => ?_,
      fun hop => ?_, fun v hop => ⟨fun h0 => ?_, fun h0 => ?_⟩, fun hop j hj => ⟨fun hout hw ha => ?_, fun hout => ?_⟩,
      fun v b hop => ⟨fun ha => ?_, fun ha hb => ?_, fun n ha hb hn => ?_⟩⟩, fun hop => ?_⟩
    · rw [hrun, State.bankApply_of_no_reach hop hno]; rfl
    · rw [hdo hreach hop, State.bankDo, show s1.knotAdd (knotKey q.handle) n.toNat d = none from hadd]
    · exact (hdo hreach hop).trans (by rw [State.bankDo, show s1.knotAdd (knotKey q.handle) n.toNat d = some t from hadd]; rfl)
    · exact (hdo hreach hop).trans (congrArg _ (if_pos hle))
    · obtain ⟨t, dir, ht, hw⟩ := s1.bankWait_parks (f := f) (h := q.handle) hlt
      exact ⟨t, dir, (hdo hreach hop).trans (congrArg _ ht), hw⟩
    · exact hdo hreach hop
    · exact (hdo hreach hop).trans (congrArg _ (if_neg (not_not_intro h0)))
    · exact (hdo hreach hop).trans (congrArg _ (if_pos h0))
    · exact (hdo hreach hop).trans (congrArg _ (State.bankFree_frees hj hout hw ha))
    · exact (hdo hreach hop).trans (congrArg _ (State.bankFree_not_out hj hout))
    · exact (hdo hreach hop).trans (congrArg _ (if_pos ha))
    · exact (hdo hreach hop).trans (congrArg _ ((if_neg (ne_true_of_eq_false ha)).trans (if_pos (congrArg not hb))))
    · exact (hdo hreach hop).trans (congrArg _ (State.bankArm_arms ha hb hn))
    · have hrun := hrun.trans (congrArg _ (State.bankApply_of_alloc hop))
      intro l n free
      exact ⟨fun hfree => hrun.trans (congrArg _ (State.bankAlloc_of_none hfree)), fun j hfree => hrun.trans (congrArg _ (State.bankAlloc_of_some hfree))⟩
  · have hsweep : (q.release && q.captured.isNone) = true := by rw [hrel, hcap]; rfl
    have hrun : exec (.knotBankApply r) s = execKnotBankApply r s := rfl
    simp only [execKnotBankApply, hq, hlive, hsweep, Bool.not_true, Bool.false_eq_true, if_false, if_true] at hrun
    exact ⟨fun hlt => hrun.trans (congrArg _ (if_pos hlt)), fun hge => hrun.trans (congrArg _ (if_neg (Nat.not_lt.2 hge)))⟩

end Sys2Proof.Proofs
end

section
/-! SUPPORT. Replies and clusters (R163), waiters, triggers and the knot window (R339, R343, R346). -/

namespace Sys2Proof.Machine

/-! What a reply leaves of a cluster. -/

/-- A cluster but for the tokens that reach it and those that its stations hold. -/
def Cluster.offTokens (c : Cluster) : Cluster := { c with arrivals := [], stations := [] }

/-- Every cluster is as it was, but for tokens. -/
structure State.SameClusters (s t : State) : Prop where
  cluster : ∀ k, (t.cluster k).offTokens = (s.cluster k).offTokens

theorem State.SameClusters.refl (s : State) : s.SameClusters s := ⟨fun _ => rfl⟩

theorem State.SameClusters.trans {s t u : State} (h : s.SameClusters t) (g : t.SameClusters u) : s.SameClusters u :=
  ⟨fun k => (g.cluster k).trans (h.cluster k)⟩

theorem State.SameClusters.dir {s t : State} (h : s.SameClusters t) (k : Nat) : (t.cluster k).dir = (s.cluster k).dir :=
  show (t.cluster k).offTokens.dir = (s.cluster k).offTokens.dir by rw [h.cluster k]

theorem State.sameClusters_onCluster (s : State) (k : Nat) {g : Cluster → Cluster} (h : ∀ c, (g c).offTokens = c.offTokens) :
    s.SameClusters (s.onCluster k g) := by
  refine ⟨fun j => ?_⟩
  by_cases hj : j = k
  · subst hj; rw [State.cluster_onCluster, h]
  · rw [State.cluster_onCluster_ne _ _ _ _ hj]

theorem State.sameClusters_onStation (s : State) (k n : Nat) (g : Station → Station) : s.SameClusters (s.onStation k n g) :=
  s.sameClusters_onCluster k (by intro; rfl)

theorem State.sameClusters_onLaunch (s : State) (l : Nat) (g : Launch → Launch) : s.SameClusters (s.onLaunch l g) :=
  ⟨fun k => by simp [State.cluster]⟩

theorem State.sameClusters_deliverReply (s : State) (l cl : Nat) (t : OutTok) : s.SameClusters (s.deliverReply l cl t) := by
  have harr : ∀ k a, s.SameClusters (s.arrive k a) := fun k a => s.sameClusters_onCluster k (by intro; rfl)
  simp only [State.deliverReply, State.deliverFrom]
  split
  · split
    · exact harr _ _
    · exact .refl s
  · split
    · exact harr _ _
    · split
      · exact ⟨fun _ => rfl⟩
      · exact .refl s

theorem State.sameClusters_foldl {α : Type} (g : State → α → State) (h : ∀ (s : State) a, s.SameClusters (g s a)) (xs : List α) (s : State) :
    s.SameClusters (xs.foldl g s) := by
  induction xs generalizing s with
  | nil => exact .refl s
  | cons a xs ih => exact (h s a).trans (ih _)

theorem State.sameClusters_holdTokens (s : State) (f : Firing) (k : Carry) (ds : List Dest) : s.SameClusters (s.holdTokens f k ds) := by
  simp only [State.holdTokens]
  split
  · exact .refl s
  · exact ⟨(s.sameClusters_onStation f.cl f.st _).cluster⟩

theorem State.sameClusters_replyGroup (s : State) (f : Firing) (o1 : Bool) (k : Carry) : s.SameClusters (s.replyGroup f o1 k) :=
  (State.sameClusters_foldl _ (fun (s : State) _ => s.sameClusters_deliverReply _ _ _) _ s).trans (State.sameClusters_holdTokens _ _ _ _)

theorem State.sameClusters_knotReply (s : State) (f : Firing) (o1 : Bool) (cls : TokClass) (v : Word) :
    s.SameClusters (s.knotReply f o1 cls v) := by
  rw [State.knotReply]
  split
  · exact s.sameClusters_replyGroup _ _ _
  · exact .refl s

theorem State.sameClusters_releaseWaiter (s : State) (l : Nat) (p : Parked) (key : Nat) (v d : Word) :
    s.SameClusters (s.releaseWaiter l p key v d) := by
  have hadd : s.SameClusters ((s.unpark l p.id).addWaiters key false 1) := ⟨(s.sameClusters_onLaunch l _).cluster⟩
  exact (hadd.trans (State.sameClusters_knotReply _ _ _ _ _)).trans (State.sameClusters_knotReply _ _ _ _ _)

/-! Waiters (R339). -/

theorem exec_waiterDirectoryNotify_unsent {s : State} {cl kn : Nat} {d : DirEntry}
    (hd : (s.cluster (kn / 2 ^ 12)).dir.find? (fun d => decide (d.knot = kn ∧ d.cl = cl)) = some d) (hs : d.sent = none) :
    exec (.waiterDirectoryNotify cl kn) s = .next s := by
  change execWaiterDirectoryNotify cl kn s = _
  rw [execWaiterDirectoryNotify, bankOf, hd]
  simp only [hs]

/-- The knot that a waiter's cluster leaves the directory of, once none of its waiters is left. -/
def State.leaveDirectory (s : State) (cl kn : Nat) : State :=
  s.onCluster (kn / 2 ^ 12) fun c => { c with dir := c.dir.filter fun e => !decide (e.knot = kn ∧ e.cl = cl) }

theorem State.dir_leaveDirectory {s : State} {cl kn : Nat} {d : DirEntry} (h : (s.cluster (kn / 2 ^ 12)).dir = [d]) (hk : d.knot = kn)
    (hc : d.cl = cl) : ((s.leaveDirectory cl kn).cluster (kn / 2 ^ 12)).dir = [] := by
  rw [State.leaveDirectory, State.cluster_onCluster, h]
  exact List.filter_eq_nil_iff.2 (by simp [hk, hc])

theorem exec_waiterDirectoryNotify_last {s : State} {cl kn : Nat} {d : DirEntry} {v dat : Word} {l : Nat} {w : Parked} {t : Nat}
    (hdir : (s.cluster (kn / 2 ^ 12)).dir = [d]) (hk : d.knot = kn) (hc : d.cl = cl) (hs : d.sent = some (v, dat))
    (hw : s.waitersAt cl kn = [(l, w, t)]) (hrest : (s.releaseWaiter l w kn v dat).waitersAt cl kn = []) (hv : t ≤ v.toNat) :
    exec (.waiterDirectoryNotify cl kn) s = .next (((s.releaseWaiter l w kn v dat).leaveDirectory cl kn).notify kn) := by
  have hfind : (s.cluster (bankOf kn)).dir.find? (fun d => decide (d.knot = kn ∧ d.cl = cl)) = some d := by
    rw [bankOf, hdir, List.find?_cons_of_pos]
    exact decide_eq_true ⟨hk, hc⟩
  have hfold : (s.waitersAt cl kn).foldl (fun s w => if w.2.2 ≤ v.toNat then s.releaseWaiter w.1 w.2.1 kn v dat else s) s =
      s.releaseWaiter l w kn v dat := by
    rw [hw]; exact if_pos hv
  change execWaiterDirectoryNotify cl kn s = _
  rw [execWaiterDirectoryNotify, hfind]
  simp only [hs, hfold, hrest, List.filterMap_nil, smallest]
  rfl

theorem knotKey_ofNat {h : Nat} (hh : h < 2 ^ 64) : knotKey (BitVec.ofNat 64 h) = h % 2 ^ 21 := by
  rw [knotKey, BitVec.toNat_ofNat, Nat.mod_eq_of_lt hh]

theorem exec_pollingWaiterReread {s : State} {l p : Nat} {w : Parked} {h v : Nat} (hsaved : (s.launch l).saved = none)
    (hw : (s.launch l).parked.find? (fun w => decide (w.id = p)) = some w) (hwhy : w.why = .kwait h v false) (hh : h < 2 ^ 64) :
    exec (.pollingWaiterReread l p) s = .next (if v ≤ (s.knot (h % 2 ^ 21)).value.toNat
      then s.releaseWaiter l w (h % 2 ^ 21) (s.knot (h % 2 ^ 21)).value (s.knot (h % 2 ^ 21)).data else s) := by
  change execPollingWaiterReread l p s = _
  rw [execPollingWaiterReread, hsaved, Option.isSome_none, if_neg (by decide), hw]
  simp only [hwhy, knotKey_ofNat hh]

/-! Triggers (R343). -/

theorem exec_triggerEngineIssue_copy {s : State} {cl : Nat} {t : Trigger} {rest : List Trigger} (hf : (s.cluster cl).fired = t :: rest)
    (hq : t.queue = 0) : exec (.triggerEngineIssue cl) s = .next ((s.popFired cl).triggerCopy cl t) := by
  change execTriggerEngineIssue cl s = _
  rw [execTriggerEngineIssue, hf]
  exact congrArg _ (if_pos hq)

theorem exec_triggerEngineIssue_lost {s : State} {cl : Nat} {t : Trigger} {rest : List Trigger} (hf : (s.cluster cl).fired = t :: rest)
    (hq : t.queue ≠ 0) (hlq : enabledIn (s.part t.part).lq t.queue.toNat = false)
    (hcq : enabledIn (s.part t.part).cq t.queue.toNat = false) :
    exec (.triggerEngineIssue cl) s = .next ((s.popFired cl).setTrigErr t.part) := by
  change execTriggerEngineIssue cl s = _
  rw [execTriggerEngineIssue, hf]
  simp only [hq, hlq, hcq, if_false, Bool.or_self, Bool.not_false, if_true]

/-- A packet joins those that wait at a cluster's copy engine. -/
def State.queueCopy (s : State) (cl : Nat) (pk : CopyPk) : State :=
  { s.onCluster cl (fun c => { c with copy := { c.copy with queued := c.copy.queued ++ [pk] } }) with serial := s.serial + 1 }

theorem State.cluster_queueCopy (s : State) (cl : Nat) (pk : CopyPk) : (s.queueCopy cl pk).cluster cl =
    { s.cluster cl with copy := { (s.cluster cl).copy with queued := (s.cluster cl).copy.queued ++ [pk] } } :=
  s.cluster_onCluster cl fun c => { c with copy := { c.copy with queued := c.copy.queued ++ [pk] } }

theorem State.cluster_popFired (s : State) (cl : Nat) :
    (s.popFired cl).cluster cl = { s.cluster cl with fired := (s.cluster cl).fired.drop 1 } := s.cluster_onCluster cl _

theorem State.cluster_setTrigErr (s : State) (part k : Nat) : (s.setTrigErr part).cluster k = s.cluster k := rfl

theorem State.triggerCopy_of_clean {s : State} {cl : Nat} {t : Trigger} (h : s.packetError t.part (s.triggerOwner t) t.packet = none) :
    s.triggerCopy cl t = s.queueCopy cl { packetOf s.serial ⟨none, t.part, cl, true⟩ none t.packet with reach := t.owner } := by
  rw [State.triggerCopy, h]
  rfl

/-! The knot window (R346). -/

theorem State.windowKnot_eq (s : State) (part off : Nat) :
    s.windowKnot part off = (s.isStanding part (handleOf part (windowKey off)) && !s.dieReset.getLsbD (windowKey off / 2 ^ 19)) := rfl

theorem windowKey_die (off : Nat) : bankOf (windowKey off) / 128 = windowKey off / 2 ^ 12 / 128 := rfl

theorem exec_knotWindowAdd_adds {s u : State} {part off : Nat} {v : Word} (hown : s.windowKnot part off = true) (hoff : off % 32 = 0)
    (hadd : (s.meterPart part (windowKey off / 2 ^ 12 / 128) 15 1).knotAdd (windowKey off) v.toNat none = some u) :
    exec (.knotWindowAdd part off v) s = .next u := by
  change execKnotWindowAdd part off v s = _
  exact congrArg _ ((if_pos ⟨hoff, hown⟩).trans (by simp only [windowKey_die, hadd]))

theorem exec_knotWindowAdd_errs {s : State} {part off : Nat} {v : Word} (hown : s.windowKnot part off = true) (hoff : off % 32 = 0)
    (hadd : (s.meterPart part (windowKey off / 2 ^ 12 / 128) 15 1).knotAdd (windowKey off) v.toNat none = none) :
    exec (.knotWindowAdd part off v) s =
      .next ((s.meterPart part (windowKey off / 2 ^ 12 / 128) 15 1).onPart part fun p => { p with knoterr := true }) := by
  change execKnotWindowAdd part off v s = _
  exact congrArg _ ((if_pos ⟨hoff, hown⟩).trans (by simp only [windowKey_die, hadd]))

theorem exec_knotWindowSetLimit_own {s : State} {part off : Nat} (hown : s.windowKnot part off = true) (hoff : off % 32 = 16) (v : Word) :
    exec (.knotWindowSetLimit part off v) s = .next (if (s.knot (windowKey off)).value = 0
      then (s.meterPart part (windowKey off / 2 ^ 12 / 128) 15 1).setKnot (windowKey off) { s.knot (windowKey off) with limit := v }
      else (s.meterPart part (windowKey off / 2 ^ 12 / 128) 15 1).onPart part fun p => { p with knoterr := true }) := by
  change execKnotWindowSetLimit part off v s = _
  exact congrArg _ (if_pos ⟨hoff, hown⟩)

theorem exec_knotWindow_other {s : State} {part off : Nat} (hown : s.windowKnot part off = false) (v : Word) :
    exec (.knotWindowAdd part off v) s = .next s ∧ exec (.knotWindowSetLimit part off v) s = .next s ∧
    exec (.knotWindowAcquire part off) s = .next { s.meterPart part (windowKey off / 2 ^ 12 / 128) 15 1 with
      outbox := s.outbox ++ [leBytes 8 0] } := by
  have hno : ¬ s.windowKnot part off = true := by rw [hown]; decide
  have hread : s.windowRead part off = 0 := if_neg fun h => hno h.1
  refine ⟨?_, ?_, ?_⟩
  · change execKnotWindowAdd part off v s = _
    exact congrArg _ (if_neg fun h => hno h.2)
  · change execKnotWindowSetLimit part off v s = _
    exact congrArg _ (if_neg fun h => hno h.2)
  · change execKnotWindowAcquire part off s = _
    rw [execKnotWindowAcquire, hread, windowKey_die]
    rfl

/-- The window's word of ARMED and WAITERS. -/
theorem windowFlags_eq (b : Bool) (w : BitVec 16) :
    BitVec.ofNat 64 ((if b then 1 else 0) + w.toNat * 2 ^ 16) = ((if b then 1 else 0 : Nat) : Word) ||| (w.setWidth 64 <<< 16) := by
  have hdis : ((if b then 1 else 0 : Nat) : Word) &&& (w.setWidth 64 <<< 16) = 0 := by
    ext i hi
    cases b
    · simp
    · simp; omega
  rw [← BitVec.add_eq_or_of_and_eq_zero _ _ hdis]
  apply BitVec.eq_of_toNat_eq
  have hw := w.isLt
  cases b <;> simp [Nat.shiftLeft_eq]

theorem State.windowRead_own {s : State} {part off : Nat} (hown : s.windowKnot part off = true) (hoff : off % 8 = 0) :
    s.windowRead part off = if off % 32 = 0 then (s.knot (windowKey off)).value else if off % 32 = 8 then (s.knot (windowKey off)).data
      else if off % 32 = 16 then (s.knot (windowKey off)).limit
      else (if (s.knot (windowKey off)).armed then 1 else 0) ||| ((s.knot (windowKey off)).waiters.setWidth 64 <<< 16) := by
  have hread : s.windowRead part off = _ := if_pos ⟨hown, hoff⟩
  rw [hread]
  obtain h | h | h | h : off % 32 = 0 ∨ off % 32 = 8 ∨ off % 32 = 16 ∨ off % 32 = 24 := by omega
  · simp only [h]; rfl
  · simp only [h]; rfl
  · simp only [h]; rfl
  · simp only [h]; exact windowFlags_eq _ _

end Sys2Proof.Machine

namespace Sys2Proof.Proofs
open Sys2Proof.Machine

/-- Settles O37: the directory is untouched by a release of a waiter, so the entry of the last waiter is dropped from it; a fired packet and
a window access are read off their functions. -/
theorem waitersTriggersAndWindow : Obligations.WaitersTriggersAndWindow := by
  refine ⟨fun s cl kn l p => ⟨?_, ?_, ?_, ?_, ?_⟩, fun part off v s => ?_⟩
  · intro d v dat w t hdir hk hc hs hw hrest hv
    refine ⟨(s.releaseWaiter l w kn v dat).leaveDirectory cl kn, exec_waiterDirectoryNotify_last hdir hk hc hs hw hrest hv, ?_, rfl⟩
    exact State.dir_leaveDirectory (((s.sameClusters_releaseWaiter l w kn v dat).dir _).trans hdir) hk hc
  · exact fun d hd hs => exec_waiterDirectoryNotify_unsent hd hs
  · exact fun w h v hsaved hw hwhy hh => exec_pollingWaiterReread hsaved hw hwhy hh
  · intro t rest hf hq herr
    refine ⟨_, (exec_triggerEngineIssue_copy hf hq).trans (congrArg _ (State.triggerCopy_of_clean herr)), ?_, ?_, rfl⟩
    · rw [State.cluster_queueCopy, State.cluster_popFired, hf]; rfl
    · rw [State.cluster_queueCopy, State.cluster_popFired]; rfl
  · intro t rest hf hq hlq hcq
    refine ⟨_, exec_triggerEngineIssue_lost hf hq hlq hcq, ?_, ?_⟩
    · rw [State.cluster_setTrigErr, State.cluster_popFired, hf]; rfl
    · simp [State.setTrigErr]
  · intro key s1 k own
    refine ⟨fun hown => ⟨fun hoff => ⟨fun t ht => exec_knotWindowAdd_adds hown hoff ht, exec_knotWindowAdd_errs hown hoff⟩,
      fun hoff => exec_knotWindowSetLimit_own hown hoff v, fun hoff => ?_⟩, fun hown => exec_knotWindow_other hown v⟩
    · change execKnotWindowAcquire part off s = _
      rw [execKnotWindowAcquire, State.windowRead_own hown hoff, windowKey_die]
      rfl

end Sys2Proof.Proofs
end

section
/-! SUPPORT. Copy, spawn and tensor commands: what enters a cluster's queues, and what stops at issue (R184, R244, R245, R249, R251). -/

namespace Sys2Proof.Machine

/-! The copy family (R244). -/

/-- A packet joins its cluster's copy FIFO, the tracked lines that it covers being empty. -/
def State.copyEnters (s : State) (x : FormE) (ord : Bool) (p : CopyPlan) : State :=
  let f := s.cur
  let c := s.clientOf f
  let cover := s.coverLines c p.dspace p.covers
  let pk := p.packet (f.opId.getD s.serial) f c (f.knotOf x) (s.addOf f x) x.og0 ord cover
  { (s.setLines cover true).onCluster f.cl (fun k => { k with copy := { k.copy with fifo := k.copy.fifo ++ [pk] } }) with
    serial := s.serial + 1 }

section
variable {s : State} {x : FormE} (ord : Bool) (h : s.RunsPlain x.pm) {plan : State → Firing → Except Nat CopyPlan}
include h

theorem State.copyCmd_of_badHandle (hk : badHandle (s.cur.knotOf x) = true) (plan : State → Firing → Except Nat CopyPlan) :
    s.copyCmd x ord plan = .next (s.faultFiring s.cur .knotHandle (s.cur.knotOf x) 0) :=
  (State.fireHeld_plain h _).trans (congrArg _ (if_pos hk))

theorem State.copyCmd_of_limit {code : Nat} (hk : badHandle (s.cur.knotOf x) = false) (hp : plan s s.cur = .error code) :
    s.copyCmd x ord plan = .next (s.trap s.cur code) := by
  refine (State.fireHeld_plain h _).trans (congrArg _ ?_)
  simp only [hk, hp, Bool.false_eq_true, if_false]

theorem State.copyCmd_of_weight {p : CopyPlan} (hk : badHandle (s.cur.knotOf x) = false) (hp : plan s s.cur = .ok p)
    (hw : p.dspace = .w) : s.copyCmd x ord plan =
      .next (s.faultFiring s.cur .weightWindow 0 (BitVec.ofNat 64 ((p.runs.head?.map CopyRun.dst).getD 0))) := by
  refine (State.fireHeld_plain h _).trans (congrArg _ ?_)
  simp only [hk, hp, hw, Bool.false_eq_true, if_false, if_true]

theorem State.copyCmd_enters {p : CopyPlan} (hk : badHandle (s.cur.knotOf x) = false) (hp : plan s s.cur = .ok p)
    (hw : p.dspace ≠ .w) : s.copyCmd x ord plan = .next (s.copyEnters x ord p) := by
  refine (State.fireHeld_plain h _).trans (congrArg _ ?_)
  simp only [hk, hp, hw, Bool.false_eq_true, if_false]
  rfl

end

/-! The limits of Table 11.4: when a member has a packet. -/

/-- COPY's limits. -/
def Swatch.copies (w1 w2 : Swatch) (a b : Nat) : Prop :=
  if w1.kind = .region then a < w1.length ∧ b + w1.length - a ≤ w2.length else a = 0 ∧ b = 0

theorem planCopy_of_region {w1 w2 : Swatch} {a b : Nat} (hr : w1.kind = .region) (h : a < w1.length ∧ b + w1.length - a ≤ w2.length) :
    planCopy w1 w2 a b = .ok (planOf 0 0 w1 w2 [⟨w1.base + a, w2.base + b, 1, w1.length - a, 0, 0⟩] 0 none
      [⟨w1.base + a, w2.base + b, 1, w1.length - a, 0, 0⟩]) :=
  (if_pos hr).trans (if_pos h)

theorem planCopy_of_rows {w1 w2 : Swatch} {a b : Nat} (hr : w1.kind ≠ .region) (h : a = 0 ∧ b = 0) :
    planCopy w1 w2 a b = .ok (planOf 0 0 w1 w2
      (⟨w1.base, w2.base, w1.rows, w1.rowBytes, w1.stride, w2.stride⟩ :: scaleRun w1 w2 0 0 0 w1.rows) 0 none
      (⟨w1.base, w2.base, w1.rows, w1.rowBytes, w1.stride, w2.stride⟩ :: scaleRun w1 w2 0 0 0 w1.rows)) :=
  (if_neg hr).trans (if_pos h)

theorem planCopy_of_limit {w1 w2 : Swatch} {a b : Nat} (h : ¬ w1.copies w2 a b) : planCopy w1 w2 a b = .error 0x0201 := by
  by_cases hr : w1.kind = .region
  · have hl : ¬ (a < w1.length ∧ b + w1.length - a ≤ w2.length) := fun g => h (by rw [Swatch.copies, if_pos hr]; exact g)
    exact (if_pos hr).trans (if_neg hl)
  · have hl : ¬ (a = 0 ∧ b = 0) := fun g => h (by rw [Swatch.copies, if_neg hr]; exact g)
    exact (if_neg hr).trans (if_neg hl)

/-- The destination that COPY's packet names. -/
theorem planCopy_dst {w1 w2 : Swatch} {a b : Nat} (h : w1.copies w2 a b) :
    ∃ p, planCopy w1 w2 a b = .ok p ∧ p.dspace = w2.space ∧
      (p.runs.head?.map CopyRun.dst).getD 0 = if w1.kind = .region then w2.base + b else w2.base := by
  by_cases hr : w1.kind = .region
  · rw [Swatch.copies, if_pos hr] at h
    exact ⟨_, planCopy_of_region hr h, rfl, (if_pos hr).symm⟩
  · rw [Swatch.copies, if_neg hr] at h
    exact ⟨_, planCopy_of_rows hr h, rfl, (if_neg hr).symm⟩

theorem planCopyr_of_fit {w1 w2 : Swatch} {a b : Nat} (h : a % 2 ^ 24 + a / 2 ^ 24 % 2 ^ 24 ≤ w1.rows ∧ b + a / 2 ^ 24 % 2 ^ 24 ≤ w2.rows) :
    planCopyr w1 w2 a b =
      let rs := ⟨w1.base + a % 2 ^ 24 * w1.stride, w2.base + b * w2.stride, a / 2 ^ 24 % 2 ^ 24, w1.rowBytes, w1.stride, w2.stride⟩ ::
        scaleRun w1 w2 (a % 2 ^ 24) b 0 (a / 2 ^ 24 % 2 ^ 24)
      .ok (planOf 1 0 w1 w2 rs 0 none rs) := if_pos h

theorem planCopyr_of_limit {w1 w2 : Swatch} {a b : Nat}
    (h : ¬ (a % 2 ^ 24 + a / 2 ^ 24 % 2 ^ 24 ≤ w1.rows ∧ b + a / 2 ^ 24 % 2 ^ 24 ≤ w2.rows)) :
    planCopyr w1 w2 a b = .error 0x0201 := if_neg h

/-- FILL's one run. -/
def Swatch.fillRun (w : Swatch) : CopyRun :=
  if w.kind = .region then ⟨0, w.base, 1, w.length, 0, 0⟩ else ⟨0, w.base, w.rows, w.rowBytes, 0, w.stride⟩

theorem planFill_eq (w : Swatch) (a : Nat) :
    planFill w a = .ok (planOf 2 0 w w [w.fillRun] (a % 2 ^ 32) none [w.fillRun]) := by
  rw [planFill, Swatch.fillRun, apply_ite (fun r : CopyRun => [r])]

theorem planFill_dst (w : Swatch) (a : Nat) (rs : List CopyRun) :
    ((planOf 2 0 w w [w.fillRun] a none rs).runs.head?.map CopyRun.dst).getD 0 = w.base := by
  change w.fillRun.dst = w.base
  rw [Swatch.fillRun, apply_ite CopyRun.dst, ite_self]

theorem planGathr_of_fit {w1 w2 : Swatch} {a b : Nat} (h : b ≤ w2.rows ∧ a + 4 * b ≤ 2 ^ 20) :
    planGathr w1 w2 a b = .ok (planOf 3 0 w1 w2 [⟨w1.base, w2.base, b, w2.rowBytes, w1.stride, w2.stride⟩] a (some w1.rows)
      [⟨w1.base, w2.base, b, w2.rowBytes, w1.stride, w2.stride⟩]) := if_pos h

theorem planGathr_of_limit {w1 w2 : Swatch} {a b : Nat} (h : ¬ (b ≤ w2.rows ∧ a + 4 * b ≤ 2 ^ 20)) :
    planGathr w1 w2 a b = .error 0x0202 := if_neg h

theorem planScatr_of_fit {w1 w2 : Swatch} {a b : Nat} (op sop : Nat) (h : b ≤ w1.rows ∧ a + 4 * b ≤ 2 ^ 20) :
    planScatr op sop w1 w2 a b = .ok (planOf op sop w1 w2 [⟨w1.base, w2.base, b, w1.rowBytes, w1.stride, w2.stride⟩] a (some w2.rows)
      [⟨0, w2.base, w2.rows, w2.rowBytes, 0, w2.stride⟩]) := if_pos h

theorem planScatr_of_limit {w1 w2 : Swatch} {a b : Nat} (op sop : Nat) (h : ¬ (b ≤ w1.rows ∧ a + 4 * b ≤ 2 ^ 20)) :
    planScatr op sop w1 w2 a b = .error 0x0202 := if_neg h

/-- The SOP of a scatter-add by its TY. -/
theorem scatrSop_eq (t : Ty) :
    (match t with | .i64 => 1 | .f32 => 2 | _ => 0 : Nat) = if t = .i64 then 1 else if t = .f32 then 2 else 0 := by
  cases t <;> rfl

theorem yb_imp_iff (w : Swatch) (n : Nat) : (w.yb = true → n % 32 = 0) ↔ (w.yb = false ∨ n % 32 = 0) := by
  cases w.yb <;> simp

theorem planOverlay_of_fit {w1 w2 : Swatch} {a : Nat} (h : a % 2 ^ 24 + w1.rows ≤ w2.rows ∧ a / 2 ^ 24 % 2 ^ 24 + w1.cols ≤ w2.cols ∧
      (w1.yb = true → a / 2 ^ 24 % 2 ^ 24 % 32 = 0)) :
    planOverlay w1 w2 a =
      let rs := ⟨w1.base, w2.base + a % 2 ^ 24 * w2.stride + a / 2 ^ 24 % 2 ^ 24 * elemBits w1.elem / 8, w1.rows, w1.rowBytes, w1.stride,
        w2.stride⟩ :: scaleRun w1 w2 0 (a % 2 ^ 24) (a / 2 ^ 24 % 2 ^ 24 / 32) w1.rows
      .ok (planOf 6 0 w1 w2 rs 0 none rs) := by
  rw [yb_imp_iff] at h
  exact if_pos h

theorem planOverlay_of_limit {w1 w2 : Swatch} {a : Nat} (h : ¬ (a % 2 ^ 24 + w1.rows ≤ w2.rows ∧
      a / 2 ^ 24 % 2 ^ 24 + w1.cols ≤ w2.cols ∧ (w1.yb = true → a / 2 ^ 24 % 2 ^ 24 % 32 = 0))) :
    planOverlay w1 w2 a = .error 0x0201 := by
  rw [yb_imp_iff] at h
  exact if_neg h

theorem scaleRun_eq (w1 w2 : Swatch) (srow drow dblock rows : Nat) : scaleRun w1 w2 srow drow dblock rows =
    if w1.elem = 6 ∨ w1.elem = 7 then [⟨w1.scale + srow * w1.scaleBytes, w2.scale + drow * w2.scaleBytes + 2 * dblock, rows, w1.scaleBytes,
      w1.scaleBytes, w2.scaleBytes⟩] else [] := by
  simp only [scaleRun, Swatch.yb, decide_eq_true_eq]

/-! SPAWN and CQPUSH (R184, R245). -/

theorem enabledIn_iff (tbl : List (Nat × Word)) (a : Nat) :
    enabledIn tbl a = true ↔ ∃ e ∈ tbl, e.2.getLsbD 0 = true ∧ e.2.toNat / 64 * 64 = a := by
  simp only [enabledIn, List.any_eq_true, Bool.and_eq_true, decide_eq_true_eq]
  rfl

theorem not_enabledIn_iff (tbl : List (Nat × Word)) (a : Nat) :
    enabledIn tbl a = false ↔ ∀ e ∈ tbl, e.2.getLsbD 0 = true → e.2.toNat / 64 * 64 ≠ a := by
  rw [← Bool.not_eq_true, enabledIn_iff]
  exact ⟨fun h e he hv ha => h ⟨e, he, hv, ha⟩, fun h ⟨e, he, hv, ha⟩ => h e he hv ha⟩

section
variable {s : State} {x : FormE} (h : s.RunsPlain x.pm) (hk : badHandle (s.cur.knotOf x) = false)
  (queue : State → Firing → Nat) (lq : Bool) (code : Nat)
include h hk

theorem State.spawnCmd_enters (ht : enabledIn (if lq then (s.part (s.launch s.cur.launch).part).lq
      else (s.part (s.launch s.cur.launch).part).cq) (queue s s.cur) = true) :
    s.spawnCmd x queue lq code = .next { s.onCluster s.cur.cl (fun k => { k with copy := { k.copy with spawn := k.copy.spawn ++
      [⟨{ s.cur with opId := some (s.cur.opId.getD s.serial) }, 0, [], 0, [], none⟩] } }) with serial := s.serial + 1 } := by
  refine (State.fireHeld_plain h _).trans (congrArg _ ?_)
  simp only [hk, ht, Bool.false_eq_true, Bool.not_true, if_false]

theorem State.spawnCmd_of_unknown (ht : enabledIn (if lq then (s.part (s.launch s.cur.launch).part).lq
      else (s.part (s.launch s.cur.launch).part).cq) (queue s s.cur) = false) :
    s.spawnCmd x queue lq code = .next (s.trap s.cur code) := by
  refine (State.fireHeld_plain h _).trans (congrArg _ ?_)
  simp only [hk, ht, Bool.false_eq_true, Bool.not_false, if_false, if_true]

end

end Sys2Proof.Machine

namespace Sys2Proof.Proofs
open Sys2Proof.Machine

/-- Settles O38: every member is one command whose plan is within its limits or not, and which stops at the handle, at the limits and at
the weight store, in that order. -/
theorem copyCommandsEnter : Obligations.CopyCommandsEnter := by
  refine ⟨fun x ord s h => ?_, fun x ord s h => ?_⟩
  · intro f w1 w2 a b c entered scale row0 n hk hw
    have hscale : scaleRun w1 w2 = scale := by
      funext p q r t; exact scaleRun_eq w1 w2 p q r t
    refine ⟨fun hr ha hb => ?_, fun hr ha hb => ?_, fun ha hb => ?_, ?_, fun hb ha => ?_, fun hb ha => ?_, fun hrow hcol hyb => ?_⟩
    · exact (State.copyCmd_enters ord h hk (planCopy_of_region hr ⟨ha, hb⟩) hw : execCopy x ord s = _)
    · rw [← hscale]
      exact (State.copyCmd_enters ord h hk (planCopy_of_rows hr ⟨ha, hb⟩) hw : execCopy x ord s = _)
    · rw [← hscale]
      exact (State.copyCmd_enters ord h hk (planCopyr_of_fit ⟨ha, hb⟩) hw : execCopyr x ord s = _)
    · exact (State.copyCmd_enters ord h hk (planFill_eq w2 a) hw : execFill x ord s = _)
    · exact (State.copyCmd_enters ord h hk (planGathr_of_fit ⟨hb, ha⟩) hw : execGathr x ord s = _)
    · refine ⟨(State.copyCmd_enters ord h hk (planScatr_of_fit 4 0 ⟨hb, ha⟩) hw : execScatr x ord s = _), ?_⟩
      rw [← scatrSop_eq]
      exact (State.copyCmd_enters ord h hk (planScatr_of_fit 5 _ ⟨hb, ha⟩) hw : execScatrAdd x ord s = _)
    · rw [← hscale]
      exact (State.copyCmd_enters ord h hk (planOverlay_of_fit ⟨hrow, hcol, hyb⟩) hw : execOverlay x ord s = _)
  · intro f w1 w2 a b row0 n bad trap window whole rows list laid
    refine ⟨fun hk => ?_, fun hk => ⟨fun hl => ?_, fun hl => ?_, fun hl => ?_, fun hl => ⟨?_, ?_⟩, fun hl => ?_, fun hw => ?_⟩⟩
    · have hbad : ∀ plan, s.copyCmd x ord plan = bad := State.copyCmd_of_badHandle ord h hk
      exact ⟨(hbad _ : execCopy x ord s = bad), (hbad _ : execCopyr x ord s = bad), (hbad _ : execFill x ord s = bad),
        (hbad _ : execGathr x ord s = bad), (hbad _ : execScatr x ord s = bad), (hbad _ : execScatrAdd x ord s = bad),
        (hbad _ : execOverlay x ord s = bad)⟩
    · exact (State.copyCmd_of_limit ord h hk (planCopy_of_limit hl) : execCopy x ord s = _)
    · exact (State.copyCmd_of_limit ord h hk (planCopyr_of_limit hl) : execCopyr x ord s = _)
    · exact (State.copyCmd_of_limit ord h hk (planGathr_of_limit hl) : execGathr x ord s = _)
    · exact (State.copyCmd_of_limit ord h hk (planScatr_of_limit 4 0 hl) : execScatr x ord s = _)
    · exact (State.copyCmd_of_limit ord h hk (planScatr_of_limit 5 _ hl) : execScatrAdd x ord s = _)
    · exact (State.copyCmd_of_limit ord h hk (planOverlay_of_limit hl) : execOverlay x ord s = _)
    · refine ⟨fun hl => ?_, fun hl => ?_, ?_, fun hl => ?_, fun hl => ⟨?_, ?_⟩, fun hl => ?_⟩
      · obtain ⟨p, hp, hspace, hdst⟩ := planCopy_dst (show w1.copies w2 a b from hl)
        have hstop := State.copyCmd_of_weight (plan := fun s f =>
          planCopy (s.sw1 f x) (s.sw2 f x) (s.opEA f x).toNat (s.opEB f x).toNat) ord h hk hp (hspace.trans hw)
        rw [hdst] at hstop
        exact hstop
      · exact (State.copyCmd_of_weight ord h hk (planCopyr_of_fit hl) hw : execCopyr x ord s = _)
      · have hstop := State.copyCmd_of_weight (plan := fun s f => planFill (s.sw2 f x) (s.opEA f x).toNat) ord h hk (planFill_eq w2 a) hw
        rw [planFill_dst] at hstop
        exact hstop
      · exact (State.copyCmd_of_weight ord h hk (planGathr_of_fit hl) hw : execGathr x ord s = _)
      · exact (State.copyCmd_of_weight ord h hk (planScatr_of_fit 4 0 hl) hw : execScatr x ord s = _)
      · exact (State.copyCmd_of_weight ord h hk (planScatr_of_fit 5 _ hl) hw : execScatrAdd x ord s = _)
      · exact (State.copyCmd_of_weight ord h hk (planOverlay_of_fit hl) hw : execOverlay x ord s = _)

/-- Settles O39, by whether the address is that of an enabled entry of its table. -/
theorem spawnCommandsEnter : Obligations.SpawnCommandsEnter := by
  intro x seed patch s h f p id cmd entered hk
  exact ⟨fun ht => (State.spawnCmd_enters h hk _ true _ ((enabledIn_iff _ _).2 ht) : execSpawn x seed s = _),
    fun ht => (State.spawnCmd_of_unknown h hk _ true _ ((not_enabledIn_iff _ _).2 ht) : execSpawn x seed s = _),
    fun ht => (State.spawnCmd_enters h hk _ false _ ((enabledIn_iff _ _).2 ht) : execCqpush x patch s = _),
    fun ht => (State.spawnCmd_of_unknown h hk _ false _ ((not_enabledIn_iff _ _).2 ht) : execCqpush x patch s = _)⟩

/-- Settles O41: the tensor instructions share one body. -/
theorem tensorCommandsEnter : Obligations.TensorCommandsEnter := by
  intro x fn s h f t
  have enters : s.tensorCmd x = .next t := State.fireHeld_plain h _
  exact ⟨enters, enters, enters, enters, enters, enters, enters, enters, enters, enters, enters, enters, enters, enters, enters, enters,
    enters, enters, enters, enters, enters, enters, enters, enters⟩

end Sys2Proof.Proofs
end

section
/-! SUPPORT. The copy engine's steps, copy queues, the spawn slot and weight loads (R114, R184, R215, R234 to R242). -/

namespace Sys2Proof.Machine

/-! The engine's own steps. -/

theorem exec_copyPacketStart_one {s : State} {cl : Nat} {a : CopyAct} (h : s.copyActs cl = [a]) :
    exec (.copyPacketStart cl) s = .next ({ s with freeCtr := s.freeCtr + 1 }.copyAct cl a) := by
  change execCopyPacketStart cl s = _
  rw [execCopyPacketStart, h]
  simp only [State.choose, List.length_singleton, Nat.mod_one, nth, reduceCtorEq, if_false]

theorem exec_copyPacketStart_none {s : State} {cl : Nat} (h : s.copyActs cl = []) : exec (.copyPacketStart cl) s = .next s := by
  change execCopyPacketStart cl s = _
  rw [execCopyPacketStart, h]
  exact congrArg _ (if_pos rfl)

theorem exec_copyOrdToken_kept {s : State} {cl k : Nat} {inst : BitVec 8} {a : Arrival} (ha : s.arrivalAt cl k = some a)
    (he : a.out.eng = some (1, inst, 1)) : exec (.copyOrdToken cl k) s = .next ((s.dropArrival cl k).onCluster cl fun c =>
      { c with copy := { c.copy with ord := c.copy.ord ++ [a.out.tok] } }) := by
  change execCopyOrdToken cl k s = _
  rw [execCopyOrdToken, ha]
  simp only [he, if_true]

/-- A performed packet fills every line that it still covers. -/
theorem State.fillLines_whole (s : State) (p : CopyPk) : s.fillLines p true [] = (s.setLines p.cover false, { p with cover := [] }) := by
  have hfull : p.cover.filter (fun _ => true) = p.cover := List.filter_eq_self.2 fun _ _ => rfl
  have hleft : p.cover.filter (fun ln => decide (ln ∉ p.cover)) = [] :=
    List.filter_eq_nil_iff.2 fun ln hln => by rw [decide_eq_false (not_not_intro hln)]; decide
  simp only [State.fillLines, List.filterMap_nil, List.filter_nil, union, List.foldl_nil, Bool.true_or, hfull, hleft]

/-- A performed packet leaves its engine. -/
def State.packetLeaves (s : State) (cl : Nat) (pk : CopyPk) : State :=
  (s.setLines pk.cover false).onCluster cl fun c =>
    ({ c with copy := c.copy.finish { pk with cover := [] } } : Cluster).storeImage { pk with cover := [] }

theorem Cluster.copy_storeImage (c : Cluster) (p : CopyPk) : (c.storeImage p).copy = c.copy := by
  rw [Cluster.storeImage]
  split <;> rfl

theorem CopyEng.active_finish (e : CopyEng) (p : CopyPk) : (e.finish p).active.all (fun q => decide (q.id ≠ p.id)) = true :=
  List.all_eq_true.2 fun _ hq => (List.mem_filter.1 hq).2

theorem State.active_packetLeaves (s : State) (cl : Nat) (pk : CopyPk) :
    ((s.packetLeaves cl pk).cluster cl).copy.active.all (fun q => decide (q.id ≠ pk.id)) = true := by
  rw [State.packetLeaves, State.cluster_onCluster, Cluster.copy_storeImage]
  exact CopyEng.active_finish _ _

theorem exec_copyPacketPerformed {s : State} {cl p : Nat} {pk : CopyPk}
    (hq : (s.cluster cl).copy.active.find? (fun q => decide (q.id = p)) = some pk) (hfin : pk.finished = true) (hpark : pk.parked = none)
    (hhold : (s.cluster cl).copy.holds pk = false) (hrun : s.enginesRun cl = true ∨ pk.sched ≠ none) {u : State}
    (hadd : (s.packetLeaves cl pk).engineAdd (cl / 128) (s.packetReach { pk with cover := [] }) pk.client.part pk.knot pk.add = (.done, u)) :
    exec (.copyPacketPerformed cl p) s = .next (match pk.firing with
      | some f => if pk.token then u.engineReply f false .completion 0 else u
      | none => u) := by
  have hgo : (!pk.finished || pk.parked.isSome || (s.cluster cl).copy.holds pk || !(s.enginesRun cl || pk.sched.isSome)) = false := by
    have hor : (s.enginesRun cl || pk.sched.isSome) = true := by
      rw [Bool.or_eq_true, Option.isSome_iff_ne_none]; exact hrun
    rw [hfin, hpark, hhold, hor]; rfl
  change execCopyPacketPerformed cl p s = _
  rw [execCopyPacketPerformed, hq]
  simp only [hgo, Bool.false_eq_true, if_false, State.fillLines_whole]
  rw [State.packetLeaves] at hadd
  simp only [hadd]
  cases pk.firing <;> rfl

/-! Copy queues (R114, R239, R240). -/

section
variable {s : State} {part q : Nat} {v : Word} {h : QueueHdr} (hv : look (s.part part).cq q = some v)
  (hh : look (s.part part).cqHdr q = some h) (hon : (s.part part).enable = true) (hvalid : v.getLsbD 0 = true)
  (hpub : s.published h = false) (hroom : (s.cluster h.recbase).copy.room = true)
  (hturn : s.nextSource h.recbase = some (2 + part * 16 + q))
include hv hh hon hvalid hpub hroom hturn

theorem exec_copyQueuePacket_takes {pkt : List Word} {s1 s2 : State}
    (hpeek : s.queuePeek ⟨none, part, h.recbase, false⟩ (v.toNat / 64 * 64) h.read h.log2 = (some pkt, s1))
    (htake : s1.queueTake ⟨none, part, h.recbase, false⟩ (v.toNat / 64 * 64) h.read h.log2 pkt = .ok (pkt, s2)) :
    exec (.copyQueuePacket part q) s = .next ((s2.onPart part fun x => { x with cqHdr := put x.cqHdr q { h with read := h.read + 1 } }).takeQueued
      part q h.read h.recbase (v.toNat / 64 * 64) pkt) := by
  have hgo : (!(s.part part).enable || !v.getLsbD 0) = false := by rw [hon, hvalid]; rfl
  have hmine : (!(s.cluster h.recbase).copy.room || decide (s.nextSource h.recbase ≠ some (queueSource part q))) = false := by
    rw [hroom, hturn]; exact decide_eq_false (not_not_intro rfl)
  change execCopyQueuePacket part q s = _
  simp only [execCopyQueuePacket, hv, hh, hgo, hpub, hmine, Bool.false_eq_true, if_false, queueClient, entryAddr, hpeek, htake]

end

/-- A copy queue's turn is noted at its engine. -/
def State.queueTurn (s : State) (part q cl : Nat) : State :=
  s.onCluster cl fun k => { k with copy := { k.copy with turn := 2 + part * 16 + q } }

theorem State.takeQueued_refused {s : State} {part q i cl a code : Nat} {p : List Word}
    (h : (s.queueTurn part q cl).packetError part none p = some code) :
    s.takeQueued part q i cl a p = (s.queueTurn part q cl).copyQueueError ⟨none, part, cl, false⟩ a i code p := by
  rw [State.queueTurn] at h
  simp only [State.takeQueued, queueSource, h]
  rfl

/-- The packet that a copy queue's slot makes. -/
def State.queuedPacket (s : State) (part q i cl : Nat) (p : List Word) : CopyPk :=
  packetOf s.serial { (⟨none, part, cl, false⟩ : Client) with counts := true } (some (part, q, i)) p

/-- A packet that its engine takes, the tracked lines that it covers being empty. -/
def State.engineTakes (s : State) (cl : Nat) (pk : CopyPk) : State :=
  { (s.setLines (s.packetCover pk) true).onCluster cl (fun k =>
    { k with copy := { k.copy with active := k.copy.active ++ [{ pk with cover := s.packetCover pk }] } }) with serial := s.serial + 1 }

theorem State.takeQueued_taken {s : State} {part q i cl a : Nat} {p : List Word}
    (h : (s.queueTurn part q cl).packetError part none p = none) :
    s.takeQueued part q i cl a p = (s.queueTurn part q cl).engineTakes cl ((s.queueTurn part q cl).queuedPacket part q i cl p) := by
  rw [State.queueTurn] at h
  simp only [State.takeQueued, queueSource, h]
  rfl

/-! Weight loads (R215). -/

/-- A packet that one load of a weight image is made of. -/
def State.weightPacket (s : State) (part image load cl : Nat) (w : List Word) : CopyPk :=
  { packetOf s.serial ⟨none, part, cl, true⟩ none w with sched := some (.weight image load) }

theorem exec_weightLoadCommand {s : State} {part image load cl : Nat} {w : List Word} (hnew : (image, load) ∉ (s.part part).wrefused)
    (hok : weightPacketOk part w = true) (hcl : cl < 512) : exec (.weightLoadCommand part image load cl w) s =
      .next (if s.weightClash (s.weightPacket part image load cl w) then s.refuseWeight image load (s.weightPacket part image load cl w)
        else s.queueCopy cl (s.weightPacket part image load cl w)) := by
  have hgo : ¬ ((image, load) ∈ (s.part part).wrefused ∨ weightPacketOk part w = false ∨ 512 ≤ cl) := by
    rintro (h | h | h)
    · exact hnew h
    · rw [hok] at h; exact absurd h (by decide)
    · omega
  change execWeightLoadCommand part image load cl w s = _
  exact congrArg _ (if_neg hgo)

theorem exec_weightLoadCommand_refused {s : State} {part image load cl : Nat} {w : List Word}
    (h : (image, load) ∈ (s.part part).wrefused) : exec (.weightLoadCommand part image load cl w) s = .next s := by
  change execWeightLoadCommand part image load cl w s = _
  exact congrArg _ (if_pos (.inl h))

/-- The weight address that WLADDR names: bits 56:0 of the packet's destination. -/
theorem weightAddr_eq (s : State) (part image load cl : Nat) (w : List Word) :
    BitVec.ofNat 64 (((s.weightPacket part image load cl w).runs.head?.map CopyRun.dst).getD 0) =
      ((wordAt w 2).setWidth 57).setWidth 64 := by
  have hdst : ((s.weightPacket part image load cl w).runs.head?.map CopyRun.dst).getD 0 = bitsOf (wordAt w 2).toNat 0 57 := rfl
  rw [hdst, bitsOf]
  apply BitVec.eq_of_toNat_eq
  simp

/-! The spawn slot (R184). -/

section
variable {s : State} {cl : Nat} {cmd : SpawnCmd} {rest : List SpawnCmd}

theorem exec_spawnSlotStep (hhead : (s.cluster cl).copy.spawn = cmd :: rest) (hpark : cmd.parked = none) (hrun : s.enginesRun cl = true)
    (hhalt : s.enginesHalt cl = false) : exec (.spawnSlotStep cl) s = .next (s.spawnStep cl cmd) := by
  change execSpawnSlotStep cl s = _
  rw [execSpawnSlotStep, hhead]
  simp only [hpark, hrun, hhalt, Option.isNone_none, Bool.true_and, Bool.false_and, Bool.not_false, if_true]

variable {x : FormE} {ring : Nat} {packet : List Word} {clash : Bool}
  (hparts : s.spawnParts cmd.firing (wordsOf cmd.tmpl) = some (x, ring, packet, clash))
include hparts

theorem State.spawnStep_reads {as_ : List Acc} {t : State} (hstep : cmd.step = 0)
    (hmove : s.accsStep (s.clientOf cmd.firing) (if cmd.accs = [] then readsAt (s.sw1 cmd.firing x).space (some (s.sw1 cmd.firing x).range)
      (s.sw1 cmd.firing x).base 64 else cmd.accs) = .moved as_ t) :
    s.spawnStep cl cmd =
      t.putSpawn cl (if allDone as_ then { cmd with step := 1, tmpl := gotOf as_, accs := [] } else { cmd with accs := as_ }) := by
  simp only [State.spawnStep, hparts, hstep, List.isEmpty_iff, hmove]

theorem State.spawnStep_clashes (hstep : cmd.step = 1) (hclash : clash = true) :
    s.spawnStep cl cmd = s.parkSpawn cl { cmd with step := 0 } .trap 0x0105 0 := by
  simp only [State.spawnStep, hparts, hstep, hclash, if_true]

theorem State.spawnStep_claims {bs : List Byte} {s1 s2 : State} (hstep : cmd.step = 1) (hclash : clash = false)
    (hread : s.gRead (s.clientOf cmd.firing) ring 8 ⟨true, true, false, 3⟩ = (.ok bs, s1))
    (hwrite : s1.gWrite (s.clientOf cmd.firing) ring (leBytes 8 (leNat bs + 1)) ⟨true, true, false, 3⟩ = .ok s2) :
    s.spawnStep cl cmd = s2.putSpawn cl { cmd with step := 2, index := leNat bs } := by
  simp only [State.spawnStep, hparts, hstep, hclash, State.queueClaim, State.queueRead, State.queueWrite, hread, hwrite,
    Bool.false_eq_true, if_false]

theorem State.spawnStep_waits {rd w3 : List Byte} {s1 s2 : State} (hstep : cmd.step = 2)
    (hread : s.gRead (s.clientOf cmd.firing) (ring + 16) 8 Need.read = (.ok rd, s1))
    (hsize : s1.gRead (s.clientOf cmd.firing) (ring + 24) 8 Need.read = (.ok w3, s2)) :
    s.spawnStep cl cmd = if (BitVec.ofNat 64 cmd.index - BitVec.ofNat 64 (leNat rd)).toNat < ringSize (leNat w3 % 16)
      then s2.putSpawn cl { cmd with step := 3 } else s2 := by
  simp only [State.spawnStep, hparts, hstep, State.queueRoom, State.queueRead, hread, hsize, decide_eq_true_eq]

theorem State.spawnStep_publishes {w3 kn : List Byte} {s1 s2 s3 s4 u : State} (hstep : cmd.step = 3)
    (hsize : s.gRead (s.clientOf cmd.firing) (ring + 24) 8 Need.read = (.ok w3, s1))
    (hclear : s1.gWrite (s.clientOf cmd.firing) (ring + 64 + cmd.index % ringSize (leNat w3 % 16) * 64)
      (bytesOf (BitVec.ofNat 64 ((wordAt packet 0).toNat % 2 ^ 63) :: packet.drop 1)) Need.write = .ok s2)
    (hvalid : s2.gWrite (s.clientOf cmd.firing) (ring + 64 + cmd.index % ringSize (leNat w3 % 16) * 64)
      (leBytes 8 ((wordAt packet 0).toNat % 2 ^ 63 + 2 ^ 63)) Need.write = .ok s3)
    (hknot : s3.gRead (s.clientOf cmd.firing) (ring + 8) 8 Need.read = (.ok kn, s4))
    (hadd : s4.engineAdd (cmd.firing.cl / 128) (some cmd.firing.launch) (s.launch cmd.firing.launch).part (BitVec.ofNat 64 (leNat kn)) 1 =
      (.done, u)) :
    s.spawnStep cl cmd = u.putSpawn cl { cmd with step := 4 } := by
  have hadd' : s4.engineAdd ((s.clientOf cmd.firing).cl / 128) (s.clientOf cmd.firing).launch (s.clientOf cmd.firing).part
      (BitVec.ofNat 64 (leNat kn)) 1 = (.done, u) := hadd
  simp only [State.spawnStep, hparts, hstep, State.queuePublish, State.queueRead, State.queueWrite, hsize, hclear, hvalid, hknot, hadd']
  rfl

theorem State.spawnStep_answers {u : State} (hstep : cmd.step = 4)
    (hadd : (s.onCluster cl fun k => { k with copy := { k.copy with spawn := k.copy.spawn.drop 1 } }).engineAdd (cl / 128)
      (some cmd.firing.launch) (s.launch cmd.firing.launch).part (cmd.firing.knotOf x) (s.addOf cmd.firing x) = (.done, u)) :
    s.spawnStep cl cmd = u.engineReply cmd.firing false .value (BitVec.ofNat 64 cmd.index) := by
  simp only [State.spawnStep, hparts, hstep, hadd]
  rfl

end

/-- The packet and the ring of a command of the spawn slot, and whether its template has a SEED of its own. -/
theorem State.spawnParts_of_spawn (s : State) {f : Firing} {x : FormE} {seed : Bool} (h : f.Is (.spawn x seed)) (tmpl : List Word) :
    s.spawnParts f tmpl = some (x, (s.opEB f x).toNat, if seed then setNth tmpl 7 (BitVec.ofNat 64
      ((wordAt tmpl 7).toNat / 2 ^ 40 * 2 ^ 40 + (s.opEA f x).toNat % 2 ^ 40)) else tmpl, seed && (wordAt tmpl 0).getLsbD 8) := by
  rw [State.spawnParts, show decode f.word = _ from h]

/-- A CQPUSH's packet: its template, with the source or the destination that the firing gives. -/
def cqPacket (patch : CqPatch) (tmpl : List Word) (v : Word) : List Word :=
  match patch with
  | .none => tmpl
  | .src => setNth tmpl 1 (BitVec.ofNat 64 ((wordAt tmpl 1).toNat / 2 ^ 57 * 2 ^ 57 + v.toNat % 2 ^ 57))
  | .dst => setNth tmpl 2 (BitVec.ofNat 64 ((wordAt tmpl 2).toNat / 2 ^ 57 * 2 ^ 57 + v.toNat % 2 ^ 57))

theorem State.spawnParts_of_cqpush (s : State) {f : Firing} {x : FormE} {patch : CqPatch} (h : f.Is (.cqpush x patch)) (tmpl : List Word) :
    s.spawnParts f tmpl = some (x, (s.opEA f x).toNat, cqPacket patch tmpl (s.opEB f x), false) := by
  rw [State.spawnParts, show decode f.word = _ from h]
  cases patch <;> rfl

theorem Firing.Is.unique {f : Firing} {i j : Instr} (hi : f.Is i) (hj : f.Is j) : i = j := Except.ok.inj (hi.symm.trans hj)

end Sys2Proof.Machine

namespace Sys2Proof.Proofs
open Sys2Proof.Machine

/-- Settles O40, step by step of the engine, of a copy queue, of the spawn slot and of a weight load. -/
theorem copyEngineSteps : Obligations.CopyEngineSteps := by
  refine ⟨fun s cl k p => ⟨fun a h => exec_copyPacketStart_one h, exec_copyPacketStart_none, fun a inst ha he => exec_copyOrdToken_kept ha he,
    ?_⟩, fun s part q cl image load v h w => ?_⟩
  · intro pk hq hfin hpark hhold hrun full s1 r
    refine ⟨s.active_packetLeaves cl pk, fun hdone => exec_copyPacketPerformed hq hfin hpark hhold hrun (u := r.2) ?_⟩
    exact (Prod.ext hdone rfl : r = (.done, r.2))
  · intro pt a c
    refine ⟨?_, ?_, ?_, fun h => exec_weightLoadCommand_refused h⟩
    · intro hv hh hon hvalid hpub _ _ hroom hturn pkt s1 s2 hpeek htake s3 pk
      have htakes := exec_copyQueuePacket_takes hv hh hon hvalid hpub hroom hturn hpeek htake
      exact ⟨fun code herr => htakes.trans (congrArg _ (State.takeQueued_refused herr)),
        fun hok => htakes.trans (congrArg _ (State.takeQueued_taken hok))⟩
    · intro cmd rest x seed patch ring packet hhead hpark hrun hhalt f me tmpl low hpacket w go put
      have hgo : go = .next (s.spawnStep cl cmd) := exec_spawnSlotStep hhead hpark hrun hhalt
      have hparts : ∃ clash, s.spawnParts cmd.firing (wordsOf cmd.tmpl) = some (x, ring, packet, clash) ∧
          (clash = true ↔ f.Is (.spawn x true) ∧ (wordAt tmpl 0).getLsbD 8 = true) := by
        obtain ⟨his, hring, hpk⟩ | ⟨his, hring, hpk⟩ := hpacket
        · refine ⟨seed && (wordAt tmpl 0).getLsbD 8, ?_, ?_⟩
          · rw [s.spawnParts_of_spawn his, hring, hpk]
          · rw [Bool.and_eq_true]
            refine and_congr_left fun _ => ⟨fun hs => hs ▸ his, fun hs => ?_⟩
            injection his.unique hs
        · refine ⟨false, ?_, ?_⟩
          · have hpk' : packet = cqPacket patch tmpl (s.opEB f x) := by rw [hpk]; cases patch <;> rfl
            rw [s.spawnParts_of_cqpush his, hring, hpk']
          · exact ⟨nofun, fun hs => nomatch his.unique hs.1⟩
      obtain ⟨clash, hparts, hclash⟩ := hparts
      refine ⟨fun h0 as_ t hmove => ?_, fun h1 => ⟨fun hc => ?_, fun hc bs s1 s2 hread hwrite => ?_⟩, fun h2 rd w3 s1 s2 hread hsize => ?_,
        fun h3 w3 kn s1 s2 s3 s4 u hsize hclear hvalid hknot hadd => ?_, fun h4 u hadd => ?_⟩
      · exact hgo.trans (congrArg _ (State.spawnStep_reads hparts h0 hmove))
      · exact hgo.trans (congrArg _ (State.spawnStep_clashes hparts h1 (hclash.2 hc)))
      · exact hgo.trans (congrArg _ (State.spawnStep_claims hparts h1 (Bool.eq_false_iff.2 fun hb => hc (hclash.1 hb)) hread hwrite))
      · have hstep := hgo.trans (congrArg _ (State.spawnStep_waits hparts h2 hread hsize))
        exact ⟨fun hroom => hstep.trans (congrArg _ (if_pos hroom)), fun hroom => hstep.trans (congrArg _ (if_neg hroom))⟩
      · exact hgo.trans (congrArg _ (State.spawnStep_publishes hparts h3 hsize hclear hvalid hknot hadd))
      · exact hgo.trans (congrArg _ (State.spawnStep_answers hparts h4 hadd))
    · intro hnew hok hcl pk
      have hstep := exec_weightLoadCommand hnew hok hcl
      refine ⟨fun hclash => ?_, fun hclash => ?_⟩
      · refine hstep.trans (congrArg _ ((if_pos hclash).trans ?_))
        simp only [State.refuseWeight, weightAddr_eq]
        rfl
      · exact hstep.trans (congrArg _ (if_neg (Bool.eq_false_iff.1 hclash)))

end Sys2Proof.Proofs
end

section
/-! SUPPORT. The tensor unit's register commands (R256, R258, R263 to R270), row-stream tokens (R253 to R255), the released TSCAN (R274) and
the output row (R262). -/

namespace Sys2Proof.Machine

/-! Tables from which some keys are taken. -/

theorem look_filter_of_kept {α : Type} {m : List (Nat × α)} {p : Nat → Bool} {k : Nat} (h : p k = true) :
    look (m.filter fun e => p e.1) k = look m k := by
  induction m with
  | nil => rfl
  | cons e m ih =>
    obtain ⟨j, v⟩ := e
    by_cases hj : p j = true
    · simp only [List.filter_cons, hj, if_true, look, ih]
    · have hjk : j ≠ k := fun he => hj (he ▸ h)
      rw [List.filter_cons, if_neg hj, ih, look, if_neg hjk]

theorem look_filter_of_dropped {α : Type} {m : List (Nat × α)} {p : Nat → Bool} {k : Nat} (h : p k = false) :
    look (m.filter fun e => p e.1) k = none := by
  induction m with
  | nil => rfl
  | cons e m ih =>
    obtain ⟨j, v⟩ := e
    by_cases hj : p j = true
    · have hjk : j ≠ k := fun he => by rw [he, h] at hj; exact absurd hj (by decide)
      rw [List.filter_cons, if_pos hj, look, if_neg hjk, ih]
    · rw [List.filter_cons, if_neg hj, ih]

/-- A key of a table that is kept by blocks of keys: one block taken out reads the default, another as before. -/
theorem getAt_filter_block {α : Type} (m : List (Nat × α)) (n q k : Nat) (d : α) :
    getAt (m.filter fun e => decide (e.1 / n ≠ q)) k d = if k / n = q then d else getAt m k d := by
  by_cases hk : k / n = q
  · rw [getAt, look_filter_of_dropped (p := fun j => decide (j / n ≠ q)) (decide_eq_false (not_not_intro hk)), if_pos hk]
    rfl
  · rw [getAt, look_filter_of_kept (p := fun j => decide (j / n ≠ q)) (decide_eq_true hk), if_neg hk]
    rfl

/-! How a register command ends (R250, R254). -/

/-- Whether a register command's o0 token is plain: TRDSH's carries a word, and TZERO of a slot discards what waits there. -/
def endsPlain : Instr → Bool
  | .trdsh _ => false
  | .tzeroCarry _ => false
  | _ => true

/-- The unit's registers and its flags as a register command leaves them. -/
def State.unitDone (s : State) (cl : Nat) (u : TensorUnit) (e : Exc) : State := (s.onUnit cl fun _ => u).unitFlags cl e

theorem State.commandStep_of_done {s : State} {cl : Nat} {r : TRun} {i : Instr} {u : TensorUnit} {e : Exc} (hi : r.firing.Is i)
    (hp : endsPlain i = true) (h : s.regCommand (s.unit cl) r.firing = some (.done u e)) :
    s.commandStep cl r = (s.unitDone cl u e).endCommand cl r.firing .completion 0 := by
  rw [State.commandStep, h]
  simp only [show decode r.firing.word = _ from hi]
  split
  · next heq => rw [Except.ok.inj heq] at hp; exact absurd hp Bool.false_ne_true
  · next heq => rw [Except.ok.inj heq] at hp; exact absurd hp Bool.false_ne_true
  · rfl

theorem State.commandStep_of_wait {s : State} {cl : Nat} {r : TRun} (h : s.regCommand (s.unit cl) r.firing = some .wait) :
    s.commandStep cl r = s := by
  rw [State.commandStep, h]

/-- The flags of a tile's rows, ORed. -/
def rowFlags (m : List (List Exc)) : Exc := m.foldl (fun e row => row.foldl (fun e p => e ||| p) e) 0

theorem TensorUnit.build_of_legal {u : TensorUnit} {t : Nat} {h : Shape} (g : Nat → Nat → FRes) (hl : h.legal = true) :
    u.build t h g =
      let cells := (countFrom 0 h.rows).map fun i => (countFrom 0 h.cols).map fun j => g i j
      .done (u.putTile t h (cells.map fun row => row.map Prod.fst) (cells.map fun _ => [])) (rowFlags (cells.map fun row => row.map Prod.snd)) := by
  simp only [TensorUnit.build, hl, Bool.not_true, Bool.false_eq_true, if_false, rowFlags, List.foldl_map]

/-- A built tile: BAD_SHAPE, or the tile with its flags. -/
theorem State.commandStep_of_build {s : State} {cl t : Nat} {r : TRun} {i : Instr} {h : Shape} {g : Nat → Nat → FRes} (hi : r.firing.Is i)
    (hp : endsPlain i = true) (hreg : s.regCommand (s.unit cl) r.firing = some ((s.unit cl).build t h g)) :
    (h.legal = false → s.commandStep cl r = s.parkCommand cl r .trap (BitVec.ofNat 64 (0x0304 + t * 2 ^ 16)) 0) ∧
    (h.legal = true → s.commandStep cl r =
      let cells := (countFrom 0 h.rows).map fun i => (countFrom 0 h.cols).map fun j => g i j
      (s.unitDone cl ((s.unit cl).putTile t h (cells.map fun row => row.map Prod.fst) (cells.map fun _ => []))
        (rowFlags (cells.map fun row => row.map Prod.snd))).endCommand cl r.firing .completion 0) := by
  refine ⟨fun hl => ?_, fun hl => ?_⟩
  · exact State.commandStep_of_trap (hreg.trans (congrArg some (TensorUnit.build_of_illegal g hl)))
  · exact State.commandStep_of_done hi hp (hreg.trans (congrArg some (TensorUnit.build_of_legal g hl)))

/-! Source tiles (R263). -/

theorem TensorUnit.withTile_of_unset {u : TensorUnit} {a : Nat} {ok : Shape → Bool} (k : Shape → RegRes) (h : (u.shape a).set = false) :
    u.withTile a ok k = .trap 0x0303 := by
  simp [TensorUnit.withTile, h]

theorem TensorUnit.withTile_of_empty {u : TensorUnit} {a : Nat} {ok : Shape → Bool} (k : Shape → RegRes)
    (hset : (u.shape a).set = true) (hok : ok (u.shape a) = true) (hfull : u.allFull a = false) : u.withTile a ok k = .wait := by
  simp [TensorUnit.withTile, hset, hok, hfull]

/-- Whether a shape spreads over another, as TADD and TMUL take it. -/
def Shape.spreads (b a : Shape) : Prop := b.set = true ∧ (b.rows = 1 ∨ b.rows = a.rows) ∧ (b.cols = 1 ∨ b.cols = a.cols)

theorem Shape.spreads_iff (b a : Shape) :
    (b.set && decide ((b.rows = 1 ∨ b.rows = a.rows) ∧ (b.cols = 1 ∨ b.cols = a.cols))) = true ↔ b.spreads a := by
  rw [Bool.and_eq_true, decide_eq_true_eq, Shape.spreads]

section
variable {u : TensorUnit} {d a b code : Nat} (f : FVal → FVal → FRes)

theorem TensorUnit.binary_of_unset (h : (u.shape a).set = false) : u.binary d a b code f = .trap 0x0303 := by
  rw [TensorUnit.binary]; exact TensorUnit.withTile_of_unset _ h

theorem TensorUnit.binary_of_not_spreads (h : ¬ (u.shape b).spreads (u.shape a)) : u.binary d a b code f = .trap 0x0303 := by
  rw [TensorUnit.binary]; exact TensorUnit.withTile_of_not_ok _ (Bool.eq_false_iff.2 fun hs => h ((Shape.spreads_iff _ _).1 hs))

variable (hset : (u.shape a).set = true) (hs : (u.shape b).spreads (u.shape a))
include hset hs

theorem TensorUnit.binary_of_empty (ha : u.allFull a = false) : u.binary d a b code f = .wait := by
  rw [TensorUnit.binary]; exact TensorUnit.withTile_of_empty _ hset ((Shape.spreads_iff _ _).2 hs) ha

theorem TensorUnit.binary_of_emptySpread (ha : u.allFull a = true) (hb : u.allFull b = false) : u.binary d a b code f = .wait := by
  rw [TensorUnit.binary]
  refine (TensorUnit.withTile_of_ok _ hset ((Shape.spreads_iff _ _).2 hs) ha).trans ?_
  simp [hb]

theorem TensorUnit.binary_of_full (ha : u.allFull a = true) (hb : u.allFull b = true) : u.binary d a b code f =
    u.build d ⟨(u.shape a).rows, (u.shape a).cols, code, false⟩ fun i j =>
      f (u.elem a i j) (u.elem b (if (u.shape b).rows = 1 then 0 else i) (if (u.shape b).cols = 1 then 0 else j)) := by
  rw [TensorUnit.binary]
  refine (TensorUnit.withTile_of_ok _ hset ((Shape.spreads_iff _ _).2 hs) ha).trans ?_
  simp [hb]

end

/-! Each register command's result. -/

section
variable {f : Firing} {x : FormT} (s : State) (u : TensorUnit)

theorem State.regCommand_of_tshape (h : f.Is (.tshape x)) : s.regCommand u f =
    some (if shapeWordOk (s.opTA f x) then .done (u.setShape x.td.val (shapeOf (s.opTA f x))) 0 else badShape x.td.val) := by
  rw [State.regCommand, show decode f.word = _ from h]

theorem State.regCommand_of_trdsh (h : f.Is (.trdsh x)) : s.regCommand u f = some (.done u 0) := by
  rw [State.regCommand, show decode f.word = _ from h]

theorem State.regCommand_of_tzeroTile (h : f.Is (.tzeroTile x)) : s.regCommand u f = some (.done (u.zeroTile x.td.val) 0) := by
  rw [State.regCommand, show decode f.word = _ from h]

/-- A unit with one accumulator zeroed. -/
def TensorUnit.zeroAcc (u : TensorUnit) (q : Nat) : TensorUnit := { u with accs := u.accs.filter fun e => decide (e.1 / 16384 ≠ q) }

theorem State.regCommand_of_tzeroAcc (h : f.Is (.tzeroAcc x)) : s.regCommand u f = some (.done (u.zeroAcc x.qa.val) 0) := by
  rw [State.regCommand, show decode f.word = _ from h]
  rfl

/-- A unit with one carry slot zeroed: neither SWAPPED nor with a TSCAN set aside. -/
def TensorUnit.zeroCarry (u : TensorUnit) (h : Nat) : TensorUnit :=
  ({ u with
    carry := u.carry.filter fun e => decide (e.1 / 128 ≠ h)
    aside := u.aside.filter fun g => !asideOn h g }).setSwap h false noKnot

theorem keepsAside_eq (h : Nat) : (fun g : Firing => match decode g.word with
    | .ok (.tscan y) => decide (slotOf y ≠ h)
    | _ => true) = fun g => !asideOn h g := by
  funext g
  simp only [asideOn]
  split <;> simp_all

theorem State.regCommand_of_tzeroCarry (h : f.Is (.tzeroCarry x)) : s.regCommand u f = some (.done (u.zeroCarry (slotOf x)) 0) := by
  rw [TensorUnit.zeroCarry, ← keepsAside_eq, State.regCommand, show decode f.word = _ from h] <;> rfl

theorem State.regCommand_of_tadd (h : f.Is (.tadd x)) : s.regCommand u f =
    some (u.binary x.td.val x.ta.val x.tb.val (codeOf x.ty) (elemAdd (codeOf x.ty))) := by
  rw [State.regCommand, show decode f.word = _ from h]

theorem State.regCommand_of_tmul (h : f.Is (.tmul x)) : s.regCommand u f = some (u.binary x.td.val x.ta.val x.tb.val (codeOf x.ty)
    (elemMul (intCode (u.shape x.ta.val).elem && intCode (u.shape x.tb.val).elem) (codeOf x.ty))) := by
  rw [State.regCommand, show decode f.word = _ from h]

theorem State.regCommand_of_tscale (h : f.Is (.tscale x)) : s.regCommand u f =
    some (u.unary x.td.val x.ta.val (codeOf x.ty) (fun _ => true) fun v =>
      elemScale (codeOf x.ty) v (f32Of (s.opTA f x)) (f32Of (s.opTB f x))) := by
  rw [State.regCommand, show decode f.word = _ from h]

theorem State.regCommand_of_tact {fn : ActFn} (h : f.Is (.tact x fn)) : s.regCommand u f =
    some (u.unary x.td.val x.ta.val (codeOf x.ty) (fun _ => true) (elemAct fn (codeOf x.ty))) := by
  rw [State.regCommand, show decode f.word = _ from h]

theorem State.regCommand_of_tredSum (h : f.Is (.tredSum x)) : s.regCommand u f =
    some (u.reduce x.td.val x.ta.val (codeOf x.ty) (x.flg.getLsbD 0) (reduceSum (codeOf x.ty))) := by
  rw [State.regCommand, show decode f.word = _ from h]

theorem State.regCommand_of_tredMax (h : f.Is (.tredMax x)) : s.regCommand u f =
    some (u.reduce x.td.val x.ta.val (codeOf x.ty) (x.flg.getLsbD 0) (reduceMax (codeOf x.ty))) := by
  rw [State.regCommand, show decode f.word = _ from h]

theorem State.regCommand_of_tqnt (h : f.Is (.tqnt x)) : s.regCommand u f =
    some (u.quant x.td.val x.ta.val (codeOf x.ty) (deltaOf x (s.swatch f.launch x.sw.toNat)) (x.flg.toNat % 8)) := by
  rw [State.regCommand, show decode f.word = _ from h]

theorem State.regCommand_of_tdq (h : f.Is (.tdq x)) : s.regCommand u f =
    some (u.unary x.td.val x.ta.val (codeOf x.ty) Shape.yb (toElem (codeOf x.ty) .rne)) := by
  rw [State.regCommand, show decode f.word = _ from h]

theorem State.regCommand_of_tcvt (h : f.Is (.tcvt x)) : s.regCommand u f =
    some (u.unary x.td.val x.ta.val (cvtCode x) (fun h => !h.yb) (toElem (cvtCode x) (rmOf (x.flg.toNat % 8)))) := by
  rw [State.regCommand, show decode f.word = _ from h]

theorem State.regCommand_of_tmovq (h : f.Is (.tmovq x)) : s.regCommand u f =
    some (u.movq x.td.val x.qa.val (bitsOf (s.opTA f x).toNat 0 7) (bitsOf (s.opTA f x).toNat 8 8) (s.opTB f x).toNat (cvtCode x)
      (rmOf (x.flg.toNat % 8))) := by
  rw [State.regCommand, show decode f.word = _ from h]

end

/-! TZERO (R258). -/

theorem TensorUnit.acc_zeroAcc_same (u : TensorUnit) {q i j : Nat} (hi : i < 128) (hj : j < 128) : (u.zeroAcc q).acc q i j = 0 := by
  rw [TensorUnit.acc, TensorUnit.zeroAcc, getAt_filter_block, if_pos (by omega)]

theorem TensorUnit.acc_zeroAcc_ne (u : TensorUnit) {p q i j : Nat} (h : p ≠ q) (hi : i < 128) (hj : j < 128) :
    (u.zeroAcc q).acc p i j = u.acc p i j := by
  rw [TensorUnit.acc, TensorUnit.zeroAcc, getAt_filter_block, if_neg (by omega)]
  rfl

theorem TensorUnit.car_zeroCarry_same (u : TensorUnit) {h j : Nat} (hj : j < 128) : (u.zeroCarry h).car h j = 0 := by
  change getAt (u.carry.filter fun e => decide (e.1 / 128 ≠ h)) (h * 128 + j) 0 = 0
  rw [getAt_filter_block, if_pos (by omega)]

theorem TensorUnit.car_zeroCarry_ne (u : TensorUnit) {g h j : Nat} (hg : g ≠ h) (hj : j < 128) : (u.zeroCarry h).car g j = u.car g j := by
  change getAt (u.carry.filter fun e => decide (e.1 / 128 ≠ h)) (g * 128 + j) 0 = u.car g j
  rw [getAt_filter_block, if_neg (by omega)]
  rfl

theorem TensorUnit.swapHandle_zeroCarry_same (u : TensorUnit) (h : Nat) : (u.zeroCarry h).swapHandle h = noKnot := by
  change noKnot ^^^ getAt (setAt u.swapKnot h (noKnot ^^^ noKnot) 0) h 0 = noKnot
  rw [getAt_setAt_same, BitVec.xor_self, BitVec.xor_zero]

theorem TensorUnit.swapHandle_zeroCarry_ne (u : TensorUnit) {g h : Nat} (hg : g ≠ h) : (u.zeroCarry h).swapHandle g = u.swapHandle g := by
  change noKnot ^^^ getAt (setAt u.swapKnot h (noKnot ^^^ noKnot) 0) g 0 = noKnot ^^^ getAt u.swapKnot g 0
  rw [getAt_setAt_ne _ _ _ _ _ hg]

theorem TensorUnit.swapped_zeroCarry (u : TensorUnit) (h g : Nat) :
    (u.zeroCarry h).swapped.getLsbD g = (u.swapped.getLsbD g && decide (g ≠ h)) := by
  change (u.swapped &&& ~~~(BitVec.ofNat 8 (2 ^ h))).getLsbD g = _
  by_cases hg : g < 8
  · rw [BitVec.getLsbD_and, BitVec.getLsbD_not, BitVec.getLsbD_ofNat, Nat.testBit_two_pow]
    simp [hg, eq_comm]
  · simp [BitVec.getLsbD_of_ge _ _ (Nat.le_of_not_lt hg)]

theorem TensorUnit.swapped_zeroCarry_same (u : TensorUnit) (h : Nat) : (u.zeroCarry h).swapped.getLsbD h = false := by
  rw [u.swapped_zeroCarry, decide_eq_false (not_not_intro rfl), Bool.and_false]

theorem TensorUnit.swapped_zeroCarry_ne (u : TensorUnit) {g h : Nat} (hg : g ≠ h) :
    (u.zeroCarry h).swapped.getLsbD g = u.swapped.getLsbD g := by
  rw [u.swapped_zeroCarry, decide_eq_true hg, Bool.and_true]

theorem State.commandStep_of_tzeroCarry {s : State} {cl : Nat} {r : TRun} {x : FormT} (hi : r.firing.Is (.tzeroCarry x)) :
    s.commandStep cl r = ((s.unitDone cl ((s.unit cl).zeroCarry (slotOf x)) 0).leaveAside (s.unit cl) (slotOf x)).endCommand cl r.firing
      .completion 0 := by
  rw [State.commandStep, s.regCommand_of_tzeroCarry _ hi]
  simp only [show decode r.firing.word = _ from hi]
  rfl

theorem State.commandStep_of_trdsh {s : State} {cl : Nat} {r : TRun} {x : FormT} (hi : r.firing.Is (.trdsh x)) :
    s.commandStep cl r = (s.unitDone cl (s.unit cl) 0).endCommand cl r.firing .value (getAt (s.unit cl).shapes x.ta.val 0) := by
  rw [State.commandStep, s.regCommand_of_trdsh _ hi]
  simp only [show decode r.firing.word = _ from hi]
  rfl

/-! TQNT and TMOVQ (R267, R269). -/

theorem deltaOf_eq (x : FormT) (w : Swatch) :
    deltaOf x w = if x.flg.getLsbD 3 = true ∧ w.delta ≠ 0 then w.delta else if x.ty = .yb4 then 2 else 3 := by
  rw [deltaOf]
  cases x.flg.getLsbD 3 <;> by_cases hd : w.delta = 0 <;> simp [hd]

theorem TensorUnit.movq_of_limit {u : TensorUnit} {d q row0 n m code : Nat} {rm : RM}
    (h : n = 0 ∨ m = 0 ∨ 128 < m ∨ 128 < row0 + n) : u.movq d q row0 n m code rm = .trap 0x0306 := if_pos h

theorem TensorUnit.movq_of_fit {u : TensorUnit} {d q row0 n m code : Nat} {rm : RM}
    (hn : 1 ≤ n) (hm : 1 ≤ m) (hcols : m ≤ 128) (hrows : row0 + n ≤ 128) : u.movq d q row0 n m code rm =
      u.build d ⟨n, m, code, false⟩ fun i j => toElem code rm (fp32.decode (u.acc q (row0 + i) j).toNat) := if_neg (by omega)

/-- The blocks of TQNT's result. -/
def TensorUnit.quantBlocks (u : TensorUnit) (a code delta rm : Nat) : List (List YbBlock) :=
  let h : Shape := u.shape a
  (countFrom 0 h.rows).map fun i => (countFrom 0 h.blocks).map fun b => quantBlock code delta u.dither.toNat rm
    ((countFrom (32 * b) 32).map fun j => if j < h.cols then u.elem a i j else .fin false 0 0)

/-- TQNT's result in the unit. -/
def TensorUnit.putBlocks (u : TensorUnit) (d a code rm : Nat) (blocks : List (List YbBlock)) : TensorUnit :=
  let v := u.putTile d ⟨(u.shape a).rows, (u.shape a).cols, code, false⟩
    (blocks.map fun row => (row.flatMap YbBlock.codes).take (u.shape a).cols)
    (blocks.map fun row => row.flatMap fun b => [BitVec.ofNat 8 b.ehi, BitVec.ofNat 8 b.elo])
  if rm = 5 then { v with dither := v.dither + 1 } else v

theorem rowFlags_blocks (m : List (List YbBlock)) :
    rowFlags (m.map fun row => row.map YbBlock.exc) = m.foldl (fun e row => row.foldl (fun e b => e ||| b.exc) e) 0 := by
  simp only [rowFlags, List.foldl_map]

section
variable {u : TensorUnit} {d a code delta rm : Nat} (hset : (u.shape a).set = true) (hok : (u.shape a).elem ∈ [3, 4, 5])
  (hfull : u.allFull a = true)
include hset hok hfull

theorem TensorUnit.quant_of_illegal (hl : (⟨(u.shape a).rows, (u.shape a).cols, code, false⟩ : Shape).legal = false) :
    u.quant d a code delta rm = badShape d := by
  refine (TensorUnit.withTile_of_ok _ hset (by simpa using hok) hfull).trans ?_
  simp [hl]

theorem TensorUnit.quant_of_legal (hl : (⟨(u.shape a).rows, (u.shape a).cols, code, false⟩ : Shape).legal = true) :
    u.quant d a code delta rm = .done (u.putBlocks d a code rm (u.quantBlocks a code delta rm))
      (rowFlags ((u.quantBlocks a code delta rm).map fun row => row.map YbBlock.exc)) := by
  refine (TensorUnit.withTile_of_ok _ hset (by simpa using hok) hfull).trans ?_
  rw [rowFlags_blocks]
  simp only [hl, Bool.not_true, Bool.false_eq_true, if_false]
  rfl

end

/-! Row-stream tokens (R253 to R255). -/

theorem State.unit_dropArrival (s : State) (cl k : Nat) : (s.dropArrival cl k).unit cl = s.unit cl := by
  rw [State.unit, State.dropArrival, State.cluster_onCluster]
  rfl

theorem State.remnant_dropArrival (s : State) (cl k : Nat) :
    ((s.dropArrival cl k).cluster cl).remnant = (s.cluster cl).remnant := by
  rw [State.dropArrival, State.cluster_onCluster]

theorem State.remnantFree_dropArrival (s : State) (l cl k : Nat) : (s.dropArrival cl k).remnantFree l cl = s.remnantFree l cl := by
  simp only [State.remnantFree, State.remnantUse, Cluster.stageUse, s.remnant_dropArrival]
  rfl

/-- Whether a row-stream token of a tile whose FE is set is refused (Table 12.4). -/
def TensorUnit.badRow (u : TensorUnit) (t : Nat) (k : Token) : Prop :=
  k.cls ≠ .tile ∨ (u.shape t).rows ≤ k.payload.toNat / 2 ^ 20 % 256 ∨ k.payload.toNat % 8 ≠ 0 ∨ k.payload.toNat / 2 ^ 48 ≠ 0

theorem handleParts_align (w : Word) : bitsOf w.toNat 0 20 % 8 = w.toNat % 8 := by
  rw [bitsOf, Nat.pow_zero, Nat.div_one]; omega

theorem handleParts_high (w : Word) : bitsOf w.toNat 48 16 = w.toNat / 2 ^ 48 := by
  have := w.isLt
  rw [bitsOf]; omega

theorem TensorUnit.rowTrap_of_unset {u : TensorUnit} {t : Nat} {k : Token} (hc : k.cls = .tile) (hfe : (u.shape t).fe = false) :
    u.rowTrap t k = some 0x0301 := by
  simp only [TensorUnit.rowTrap, handleParts, hc, hfe, ne_eq, not_true, if_false, Bool.not_false, if_true]

theorem TensorUnit.rowTrap_of_bad {u : TensorUnit} {t : Nat} {k : Token} (hb : u.badRow t k) (hfe : k.cls ≠ .tile ∨ (u.shape t).fe = true) :
    u.rowTrap t k = some 0x0302 := by
  simp only [TensorUnit.rowTrap, handleParts, handleParts_align, handleParts_high]
  by_cases hc : k.cls = .tile
  · rw [if_neg (not_not_intro hc), hfe.resolve_left (not_not_intro hc), if_neg (by decide)]
    exact if_pos (hb.resolve_left (not_not_intro hc))
  · exact if_pos hc

theorem TensorUnit.rowTrap_of_good {u : TensorUnit} {t : Nat} {k : Token} (hb : ¬ u.badRow t k) (hfe : (u.shape t).fe = true) :
    u.rowTrap t k = none := by
  rw [TensorUnit.badRow, not_or] at hb
  simp only [TensorUnit.rowTrap, handleParts, handleParts_align, handleParts_high]
  rw [if_neg hb.1, hfe, if_neg (by decide)]
  exact if_neg hb.2

theorem State.rowWaits_iff (s : State) (cl t row : Nat) : s.rowWaits cl t row = true ↔
    (((s.unit cl).shape t).fe = false ∨ getAt (s.unit cl).rowEmpty (t * 192 + row) false = false) ∨
    (∃ r ∈ (s.unit cl).rows, r.tile = t ∧ r.tok.payload.toNat / 2 ^ 20 % 256 = row) ∨
    ∃ e ∈ (s.cluster cl).remnant, e.kind = .rowWait (t * 192 + row) := by
  simp only [State.rowWaits, TensorUnit.full, Bool.or_eq_true, Bool.not_eq_true', List.any_eq_true, decide_eq_true_eq, or_assoc]
  rfl

section
variable {s : State} {cl k : Nat} {a : Arrival} {i p : BitVec 8} (ha : s.arrivalAt cl k = some a) (he : a.out.eng = some (2, i, p))
include ha he

theorem exec_rowStreamToken : exec (.rowStreamToken cl k) s = .next
    (if (s.launch a.launch).freeze.isSome ∧ s.rowFits a.launch cl (p.toNat % 16) a.out.tok = false then s
    else (s.dropArrival cl k).rowToken a.launch cl (p.toNat % 16) a.out) := by
  have hport : a.out.rowPort = some (p.toNat % 16) := by rw [OutTok.rowPort, he]; rfl
  change execRowStreamToken cl k s = _
  rw [execRowStreamToken, ha]
  simp only [hport]

theorem exec_rowStreamToken_traps {c : Nat} (ht : (s.unit cl).rowTrap (p.toNat % 16) a.out.tok = some c) :
    exec (.rowStreamToken cl k) s =
      .next ((s.dropArrival cl k).parkRow a.launch cl ⟨a.out.tok, p.toNat % 16, [], none⟩ .trap (BitVec.ofNat 64 c) 0) := by
  have hfits : s.rowFits a.launch cl (p.toNat % 16) a.out.tok = true := by
    rw [State.rowFits, ht]; rfl
  rw [exec_rowStreamToken ha he, if_neg fun h => by rw [hfits] at h; exact absurd h.2 (by decide)]
  rw [State.rowToken, State.unit_dropArrival, ht]

variable (ht : (s.unit cl).rowTrap (p.toNat % 16) a.out.tok = none)
include ht

theorem exec_rowStreamToken_starts (hw : s.rowWaits cl (p.toNat % 16) (a.out.tok.payload.toNat / 2 ^ 20 % 256) = false) :
    exec (.rowStreamToken cl k) s = .next ((s.dropArrival cl k).onUnit cl fun u =>
      { u with rows := u.rows ++ [⟨a.out.tok, p.toNat % 16, [], none⟩] }) := by
  have hw' : s.rowWaits cl (p.toNat % 16) (handleParts a.out.tok.payload).2.1 = false := hw
  have hq : (s.dropArrival cl k).rowWaits cl (p.toNat % 16) (handleParts a.out.tok.payload).2.1 = false := by
    rw [State.rowWaits, State.unit_dropArrival, State.remnant_dropArrival]; exact hw'
  rw [exec_rowStreamToken ha he, if_neg fun h => by rw [State.rowFits, hw'] at h; simp at h]
  simp only [State.rowToken, State.unit_dropArrival, ht, State.rowFits, hq, Bool.not_false, Bool.true_or, Bool.or_true, Bool.not_true,
    Bool.false_eq_true, if_false]

variable (hw : s.rowWaits cl (p.toNat % 16) (a.out.tok.payload.toNat / 2 ^ 20 % 256) = true)
include hw

theorem exec_rowStreamToken_waits (hf : s.remnantFree a.launch cl = true) :
    exec (.rowStreamToken cl k) s = .next ((s.dropArrival cl k).onCluster cl fun c => { c with remnant := c.remnant ++
      [⟨a.out.tok, 0, .rowWait (p.toNat % 16 * 192 + a.out.tok.payload.toNat / 2 ^ 20 % 256), 0, s.aCycle⟩] }) := by
  have hw' : s.rowWaits cl (p.toNat % 16) (handleParts a.out.tok.payload).2.1 = true := hw
  have hq : (s.dropArrival cl k).rowWaits cl (p.toNat % 16) (handleParts a.out.tok.payload).2.1 = true := by
    rw [State.rowWaits, State.unit_dropArrival, State.remnant_dropArrival]; exact hw'
  rw [exec_rowStreamToken ha he, if_neg fun h => by rw [State.rowFits, hf] at h; simp at h]
  simp only [State.rowToken, State.unit_dropArrival, ht, State.rowFits, hq, State.remnantFree_dropArrival, hf, Bool.or_true, Bool.not_true,
    Bool.false_eq_true, if_false, if_true]
  rfl

theorem exec_rowStreamToken_full (hf : s.remnantFree a.launch cl = false) :
    exec (.rowStreamToken cl k) s = .next (if (s.launch a.launch).freeze.isSome then s
      else (s.dropArrival cl k).tensionPark a.launch cl a.out) := by
  have hw' : s.rowWaits cl (p.toNat % 16) (handleParts a.out.tok.payload).2.1 = true := hw
  have hq : (s.dropArrival cl k).rowWaits cl (p.toNat % 16) (handleParts a.out.tok.payload).2.1 = true := by
    rw [State.rowWaits, State.unit_dropArrival, State.remnant_dropArrival]; exact hw'
  have hfits : s.rowFits a.launch cl (p.toNat % 16) a.out.tok = false := by
    rw [State.rowFits, ht, hw', hf]; rfl
  have hqfits : (s.dropArrival cl k).rowFits a.launch cl (p.toNat % 16) a.out.tok = false := by
    rw [State.rowFits, State.unit_dropArrival, ht, hq, State.remnantFree_dropArrival, hf]; rfl
  rw [exec_rowStreamToken ha he]
  simp only [State.rowToken, State.unit_dropArrival, ht, hfits, hqfits, and_true, Bool.not_false, if_true]

end

/-! The released TSCAN and the output row (R262, R274). -/

theorem exec_tscanSetAsideRelease {s : State} {cl slot : Nat} {f : Firing} (hr : (s.unit cl).ready.getLsbD slot = true)
    (hc : (s.unit cl).cur = none) (hrun : s.enginesRun cl = true) (hhalt : s.enginesHalt cl = false)
    (hf : (s.unit cl).aside.find? (asideOn slot) = some f) : exec (.tscanSetAsideRelease cl slot) s = .next (s.onUnit cl fun u => { u with
      aside := u.aside.erase f, ready := u.ready &&& ~~~(BitVec.ofNat 8 (2 ^ slot)), cur := some ⟨f, false, 0, [], none⟩ }) := by
  change execTscanSetAsideRelease cl slot s = _
  rw [execTscanSetAsideRelease]
  simp only [hr, hc, hrun, hhalt, hf, Option.isSome_none, Bool.not_true, Bool.or_self, Bool.false_eq_true, if_false]

theorem exec_streamOutputRow {s : State} {cl l : Nat} {w : SWord} {ws : List SWord} (ho : s.ownerOf cl = some l)
    (hrow : (s.unit cl).outRow = w :: ws) (heng : (s.launch l).engines = true)
    (hsend : (s.fab l).canSend (endpoint ((s.launch l).panel.footprint cl) 15 0 0) = true) :
    exec (.streamOutputRow cl) s = .next ((s.onUnit cl fun u => { u with outRow := ws }).sendWord l
      (endpoint ((s.launch l).panel.footprint cl) 15 0 0) w) := by
  change execStreamOutputRow cl s = _
  rw [execStreamOutputRow, ho, hrow]
  simp only [heng, hsend, Bool.and_self, if_true]

end Sys2Proof.Machine

namespace Sys2Proof.Proofs
open Sys2Proof.Machine

/-- Settles O42: the unit's step is its current command's, whose result the register commands' equations give; a row-stream token goes by
its trap, then by whether it waits. -/
theorem tensorUnitPerforms : Obligations.TensorUnitPerforms := by
  refine ⟨fun s cl l r hown heng hacts hcur => ?_, fun s cl => ⟨fun k a i p ha he => ?_, fun slot f => exec_tscanSetAsideRelease,
    fun l w ws ho hrow heng hsend => exec_streamOutputRow ho hrow heng hsend⟩⟩
  · intro f u s1 ends traps orOf x fn ha hb code cvt reads gives one spreads two y
    have step : ∀ {t}, s1.commandStep cl r = t → exec (.tensorCommandPerform cl) s = .next t := fun h =>
      (exec_tensorCommandPerform_command hown heng hacts hcur).trans (congrArg _ h)
    have htrap : ∀ {d : Nat}, s1.regCommand u f = some (.trap d) → traps d := fun h => step (State.commandStep_of_trap h)
    have hwait : s1.regCommand u f = some .wait → exec (.tensorCommandPerform cl) s = .next s1 := fun h =>
      step (State.commandStep_of_wait h)
    have hgives : ∀ {i : Instr} {h : Machine.Shape} {g : Nat → Nat → FRes}, f.Is i → endsPlain i = true →
        s1.regCommand u f = some (u.build x.td.val h g) → gives h g := fun hi hp hreg =>
      ⟨fun hl => step ((State.commandStep_of_build hi hp hreg).1 hl), fun hl => step ((State.commandStep_of_build hi hp hreg).2 hl)⟩
    refine ⟨fun hi => ?_, fun hi => step (State.commandStep_of_trdsh hi), fun hi => ?_, fun hi => ?_, fun hi => ?_, ?_, ?_, fun hi hyb => ?_,
      fun hi hyb => ?_, fun hi hel => ?_, ?_, ?_, ?_, ?_, fun hi => ?_⟩
    · have hreg := s1.regCommand_of_tshape u hi
      by_cases hok : shapeWordOk (s.opTA f x) = true
      · rw [if_pos hok]
        exact step (State.commandStep_of_done hi rfl (hreg.trans (congrArg some (if_pos hok))))
      · rw [if_neg hok]
        exact htrap (hreg.trans (congrArg some (if_neg hok)))
    · exact step (State.commandStep_of_done hi rfl (s1.regCommand_of_tzeroTile u hi))
    · exact ⟨u.zeroAcc x.qa.val, step (State.commandStep_of_done hi rfl (s1.regCommand_of_tzeroAcc u hi)),
        fun i j => u.acc_zeroAcc_same, fun q i j => u.acc_zeroAcc_ne⟩
    · refine ⟨u.zeroCarry (slotOf x), rfl, ?_, u.swapHandle_zeroCarry_same _, fun j => u.car_zeroCarry_same, fun g j => u.car_zeroCarry_ne,
        fun g hg => ⟨u.swapHandle_zeroCarry_ne hg, ?_⟩, step (State.commandStep_of_tzeroCarry hi)⟩
      · exact u.swapped_zeroCarry_same _
      · exact u.swapped_zeroCarry_ne hg
    · intro hi hset
      obtain hi | hi | hi | hi | hi | hi | hi | hi | hi := hi
      · exact htrap ((s1.regCommand_of_tadd u hi).trans (congrArg some (TensorUnit.binary_of_unset _ hset)))
      · exact htrap ((s1.regCommand_of_tmul u hi).trans (congrArg some (TensorUnit.binary_of_unset _ hset)))
      · exact htrap ((s1.regCommand_of_tscale u hi).trans (congrArg some (TensorUnit.withTile_of_unset _ hset)))
      · exact htrap ((s1.regCommand_of_tact u hi).trans (congrArg some (TensorUnit.withTile_of_unset _ hset)))
      · exact htrap ((s1.regCommand_of_tredSum u hi).trans (congrArg some (TensorUnit.withTile_of_unset _ hset)))
      · exact htrap ((s1.regCommand_of_tredMax u hi).trans (congrArg some (TensorUnit.withTile_of_unset _ hset)))
      · exact htrap ((s1.regCommand_of_tqnt u hi).trans (congrArg some (TensorUnit.withTile_of_unset _ hset)))
      · exact htrap ((s1.regCommand_of_tdq u hi).trans (congrArg some (TensorUnit.withTile_of_unset _ hset)))
      · exact htrap ((s1.regCommand_of_tcvt u hi).trans (congrArg some (TensorUnit.withTile_of_unset _ hset)))
    · rintro (hi | hi) hs
      · exact htrap ((s1.regCommand_of_tadd u hi).trans (congrArg some (TensorUnit.binary_of_not_spreads _ hs)))
      · exact htrap ((s1.regCommand_of_tmul u hi).trans (congrArg some (TensorUnit.binary_of_not_spreads _ hs)))
    · exact htrap ((s1.regCommand_of_tcvt u hi).trans (congrArg some (TensorUnit.withTile_of_not_ok _ (congrArg not hyb))))
    · exact htrap ((s1.regCommand_of_tdq u hi).trans (congrArg some (TensorUnit.withTile_of_not_ok _ hyb)))
    · exact htrap ((s1.regCommand_of_tqnt u hi).trans (congrArg some (TensorUnit.withTile_of_not_ok _ (by simpa using hel))))
    · rintro ((hi | hi | hi | hi | ⟨hi, hyb⟩ | ⟨hi, hyb⟩ | ⟨hi, hel⟩) | ⟨hi | hi, hs⟩) hset hfull
      · exact hwait ((s1.regCommand_of_tscale u hi).trans (congrArg some (TensorUnit.withTile_of_empty _ hset rfl hfull)))
      · exact hwait ((s1.regCommand_of_tact u hi).trans (congrArg some (TensorUnit.withTile_of_empty _ hset rfl hfull)))
      · exact hwait ((s1.regCommand_of_tredSum u hi).trans (congrArg some (TensorUnit.withTile_of_empty _ hset rfl hfull)))
      · exact hwait ((s1.regCommand_of_tredMax u hi).trans (congrArg some (TensorUnit.withTile_of_empty _ hset rfl hfull)))
      · exact hwait ((s1.regCommand_of_tcvt u hi).trans (congrArg some (TensorUnit.withTile_of_empty _ hset (congrArg not hyb) hfull)))
      · exact hwait ((s1.regCommand_of_tdq u hi).trans (congrArg some (TensorUnit.withTile_of_empty _ hset hyb hfull)))
      · exact hwait ((s1.regCommand_of_tqnt u hi).trans
          (congrArg some (TensorUnit.withTile_of_empty _ hset (by simpa using hel) hfull)))
      · exact hwait ((s1.regCommand_of_tadd u hi).trans (congrArg some (TensorUnit.binary_of_empty _ hset hs hfull)))
      · exact hwait ((s1.regCommand_of_tmul u hi).trans (congrArg some (TensorUnit.binary_of_empty _ hset hs hfull)))
    · rintro ⟨hi | hi, hs⟩ ⟨hset, hfull⟩ hempty
      · exact hwait ((s1.regCommand_of_tadd u hi).trans (congrArg some (TensorUnit.binary_of_emptySpread _ hset hs hfull hempty)))
      · exact hwait ((s1.regCommand_of_tmul u hi).trans (congrArg some (TensorUnit.binary_of_emptySpread _ hset hs hfull hempty)))
    · rintro ⟨-, hs⟩ ⟨hset, hfull⟩ hfullB
      exact ⟨fun hi => hgives hi rfl ((s1.regCommand_of_tadd u hi).trans (congrArg some (TensorUnit.binary_of_full _ hset hs hfull hfullB))),
        fun hi => hgives hi rfl ((s1.regCommand_of_tmul u hi).trans (congrArg some (TensorUnit.binary_of_full _ hset hs hfull hfullB)))⟩
    · rintro ⟨hset, hfull⟩
      refine ⟨fun hi => ?_, fun hi => ?_, fun hi hf => ?_, fun hi hf => ?_, fun hi hf => ?_, fun hi hf => ?_, fun hi hyb => ?_,
        fun hi hyb => ?_, fun hi hel => ?_⟩
      · exact hgives hi rfl ((s1.regCommand_of_tscale u hi).trans (congrArg some (TensorUnit.withTile_of_ok _ hset rfl hfull)))
      · exact hgives hi rfl ((s1.regCommand_of_tact u hi).trans (congrArg some (TensorUnit.withTile_of_ok _ hset rfl hfull)))
      · exact hgives hi rfl ((s1.regCommand_of_tredSum u hi).trans (congrArg some
          ((TensorUnit.withTile_of_ok _ hset rfl hfull).trans (if_neg (Bool.eq_false_iff.1 hf)))))
      · exact hgives hi rfl ((s1.regCommand_of_tredSum u hi).trans (congrArg some
          ((TensorUnit.withTile_of_ok _ hset rfl hfull).trans (if_pos hf))))
      · exact hgives hi rfl ((s1.regCommand_of_tredMax u hi).trans (congrArg some
          ((TensorUnit.withTile_of_ok _ hset rfl hfull).trans (if_neg (Bool.eq_false_iff.1 hf)))))
      · exact hgives hi rfl ((s1.regCommand_of_tredMax u hi).trans (congrArg some
          ((TensorUnit.withTile_of_ok _ hset rfl hfull).trans (if_pos hf))))
      · exact hgives hi rfl ((s1.regCommand_of_tdq u hi).trans (congrArg some (TensorUnit.withTile_of_ok _ hset hyb hfull)))
      · exact hgives hi rfl ((s1.regCommand_of_tcvt u hi).trans
          (congrArg some (TensorUnit.withTile_of_ok _ hset (congrArg not hyb) hfull)))
      · intro h rm d delta blocks v
        have hreg := s1.regCommand_of_tqnt u hi
        rw [deltaOf_eq] at hreg
        exact ⟨fun hl => htrap (hreg.trans (congrArg some (TensorUnit.quant_of_illegal hset hel hfull hl))),
          fun hl => step (State.commandStep_of_done hi rfl (hreg.trans (congrArg some (TensorUnit.quant_of_legal hset hel hfull hl))))⟩
    · intro row0 n m
      have hreg := s1.regCommand_of_tmovq u hi
      exact ⟨fun hl => htrap (hreg.trans (congrArg some (TensorUnit.movq_of_limit hl))), fun h1 h2 h3 h4 =>
        hgives hi rfl (hreg.trans (congrArg some (TensorUnit.movq_of_fit h1 h2 h3 h4)))⟩
  · intro t w row u h q bad busy free traps
    have htraps : ∀ {c : Nat}, u.rowTrap t a.out.tok = some c → traps (BitVec.ofNat 64 c) := fun hc => exec_rowStreamToken_traps ha he hc
    have hbusy : s.rowWaits cl t row = true ↔ busy := s.rowWaits_iff cl t row
    have hfree : s.remnantFree a.launch cl = true ↔ free := decide_eq_true_iff
    refine ⟨fun hc hfe => htraps (TensorUnit.rowTrap_of_unset hc hfe), fun hb hfe => htraps (TensorUnit.rowTrap_of_bad hb hfe),
      fun hb hfe => ?_⟩
    have hnone := TensorUnit.rowTrap_of_good (u := u) (t := t) (k := a.out.tok) hb hfe
    exact ⟨fun hw => exec_rowStreamToken_starts ha he hnone (Bool.eq_false_iff.2 fun h => hw (hbusy.1 h)),
      fun hw hf => exec_rowStreamToken_waits ha he hnone (hbusy.2 hw) (hfree.2 hf),
      fun hw hf => exec_rowStreamToken_full ha he hnone (hbusy.2 hw) (Bool.eq_false_iff.2 fun h => hf (hfree.1 h))⟩

end Sys2Proof.Proofs
end

section
/-! SUPPORT. The tensor commands that work row by row: TMMA, TLD, TST, TROW, TSCAN and TCARRY (R257, R259 to R262, R271 to R273). -/

namespace Sys2Proof.Machine

/-! Rows of cells. -/

theorem length_countFrom (a n : Nat) : (countFrom a n).length = n := by
  rw [countFrom_eq_range', List.length_range']

theorem zip_map_countFrom {α : Type} (g : Nat → α) (a n : Nat) :
    ((countFrom a n).map g).zip (countFrom a n) = (countFrom a n).map fun j => (g j, j) := by
  induction countFrom a n with
  | nil => rfl
  | cons j js ih => simp [ih]

/-- The cells that a row's values are written to, one after another. -/
def writeCells (m : List (Nat × BitVec 32)) (base : Nat) (g : Nat → Nat) (a n : Nat) : List (Nat × BitVec 32) :=
  (countFrom a n).foldl (fun m j => setAt m (base + j) (BitVec.ofNat 32 (g j)) 0) m

theorem getAt_writeCells (m : List (Nat × BitVec 32)) (base : Nat) (g : Nat → Nat) (a n key : Nat) :
    getAt (writeCells m base g a n) key 0 =
      if base + a ≤ key ∧ key < base + a + n then BitVec.ofNat 32 (g (key - base)) else getAt m key 0 := by
  induction n generalizing m a with
  | zero => rw [if_neg (by omega)]; rfl
  | succ n ih =>
    have hstep : writeCells m base g a (n + 1) = writeCells (setAt m (base + a) (BitVec.ofNat 32 (g a)) 0) base g (a + 1) n := rfl
    rw [hstep, ih, getAt_setAt]
    by_cases hkey : key = base + a
    · rw [if_neg (by omega), if_pos hkey, if_pos (by omega), hkey, Nat.add_sub_cancel_left]
    · rw [if_neg hkey]
      by_cases hin : base + a ≤ key ∧ key < base + a + (n + 1)
      · rw [if_pos (by omega), if_pos hin]
      · rw [if_neg (by omega), if_neg hin]

theorem filterMap_unless {α β : Type} (z : α → Bool) (f : α → β) (xs : List α) :
    (xs.filterMap fun j => if z j = true then none else some (f j)) = (xs.filter fun j => !z j).map f := by
  induction xs with
  | nil => rfl
  | cons x xs ih => by_cases hx : z x = true <;> simp [hx, ih]

/-- A stream row sends its columns that are not ±0, in order, then its mark. -/
theorem streamRow_eq (g : Nat → Nat × Bool) (n coord : Nat) : streamRow ((countFrom 0 n).map g) coord =
    ((countFrom 0 n).filter fun j => !(g j).2).map (fun j => ⟨BitVec.ofNat 32 (g j).1, BitVec.ofNat 32 j, 0⟩) ++
      [⟨0, BitVec.ofNat 32 coord, 1⟩] := by
  rw [streamRow, List.length_map, length_countFrom, zip_map_countFrom, List.filterMap_map, ← filterMap_unless]
  rfl

theorem TensorUnit.putCarry_eq (u : TensorUnit) (h n : Nat) (g : Nat → Nat) :
    u.putCarry h ((countFrom 0 n).map g) = { u with carry := writeCells u.carry (h * 128) g 0 n } := by
  rw [TensorUnit.putCarry, List.length_map, length_countFrom, zip_map_countFrom, List.foldl_map]
  rfl

theorem TensorUnit.car_putCarry_same (u : TensorUnit) (h : Nat) (g : Nat → Nat) {j : Nat} (hj : j < 128) :
    (u.putCarry h ((countFrom 0 128).map g)).car h j = BitVec.ofNat 32 (g j) := by
  rw [u.putCarry_eq, TensorUnit.car, getAt_writeCells, if_pos (by omega), Nat.add_sub_cancel_left]

theorem TensorUnit.car_putCarry_ne (u : TensorUnit) {h k : Nat} (g : Nat → Nat) {j : Nat} (hk : k ≠ h) (hj : j < 128) :
    (u.putCarry h ((countFrom 0 128).map g)).car k j = u.car k j := by
  rw [u.putCarry_eq, TensorUnit.car, getAt_writeCells, if_neg (by omega)]
  rfl

/-- An accumulator row takes its new values. -/
def TensorUnit.putAccRow (u : TensorUnit) (q i n : Nat) (g : Nat → Nat) : TensorUnit :=
  { u with accs := writeCells u.accs (q * 16384 + i * 128) g 0 n }

theorem TensorUnit.foldl_putAcc (u : TensorUnit) (q i a n : Nat) (g : Nat → FRes) :
    ((countFrom a n).map fun j => (g j, j)).foldl (fun u p => u.putAcc q i p.2 (BitVec.ofNat 32 p.1.1)) u =
      { u with accs := writeCells u.accs (q * 16384 + i * 128) (fun j => (g j).1) a n } := by
  induction n generalizing u a with
  | zero => rfl
  | succ n ih => exact ih (u.putAcc q i a (BitVec.ofNat 32 (g a).1)) (a + 1)

theorem TensorUnit.acc_putAccRow_same (u : TensorUnit) (q i : Nat) {n j : Nat} (g : Nat → Nat) (hj : j < n) :
    (u.putAccRow q i n g).acc q i j = BitVec.ofNat 32 (g j) := by
  rw [TensorUnit.acc, TensorUnit.putAccRow, getAt_writeCells, if_pos (by omega), Nat.add_sub_cancel_left]

theorem TensorUnit.acc_putAccRow_ne (u : TensorUnit) {q i n p k j : Nat} (g : Nat → Nat) (hn : n ≤ 128) (hi : i < 128) (hk : k < 128)
    (hj : j < 128) (h : p ≠ q ∨ k ≠ i ∨ n ≤ j) : (u.putAccRow q i n g).acc p k j = u.acc p k j := by
  rw [TensorUnit.acc, TensorUnit.putAccRow, getAt_writeCells, if_neg (by omega)]
  rfl

/-! The unit of a state. -/

theorem State.onUnit_const (s : State) (cl : Nat) (g : TensorUnit → TensorUnit) : s.onUnit cl g = s.onUnit cl fun _ => g (s.unit cl) := rfl

/-! The accesses of one row. -/

section
variable {s : State} {cl : Nat} {r : TRun} {fresh : List Acc} {k : State → List Acc → State}

theorem State.rowAccs_of_bad {kd : FaultKind} {d : Word} {a : Nat} {t : State}
    (h : s.accsStep (s.clientOf r.firing) (if r.accs = [] then fresh else r.accs) = .bad kd d a t) :
    s.rowAccs cl r (if r.accs.isEmpty then fresh else r.accs) k = t.parkCommand cl r kd d a := by
  simp only [State.rowAccs, List.isEmpty_iff, h]

theorem State.rowAccs_of_moved {as_ : List Acc} {t : State}
    (h : s.accsStep (s.clientOf r.firing) (if r.accs = [] then fresh else r.accs) = .moved as_ t) :
    s.rowAccs cl r (if r.accs.isEmpty then fresh else r.accs) k = if allDone as_ then k t as_ else t.putRun cl { r with accs := as_ } := by
  simp only [State.rowAccs, List.isEmpty_iff, h]

end

/-! The step of each command. -/

section
variable {s : State} {cl : Nat} {r : TRun} {x : FormT}

theorem State.commandStep_of_tmma (h : r.firing.Is (.tmma x)) : s.commandStep cl r = s.mmaStep cl r x := by
  rw [State.commandStep, State.regCommand, show decode r.firing.word = _ from h]

theorem State.commandStep_of_tld (h : r.firing.Is (.tld x)) : s.commandStep cl r = s.tldStep cl r x := by
  rw [State.commandStep, State.regCommand, show decode r.firing.word = _ from h]

theorem State.commandStep_of_tst (h : r.firing.Is (.tst x)) : s.commandStep cl r = s.tstStep cl r x := by
  rw [State.commandStep, State.regCommand, show decode r.firing.word = _ from h]

theorem State.commandStep_of_trow (h : r.firing.Is (.trow x)) : s.commandStep cl r = s.trowStep cl r x := by
  rw [State.commandStep, State.regCommand, show decode r.firing.word = _ from h]

theorem State.commandStep_of_trowStr (h : r.firing.Is (.trowStr x)) : s.commandStep cl r = s.trowStrStep cl r x := by
  rw [State.commandStep, State.regCommand, show decode r.firing.word = _ from h]

theorem State.commandStep_of_tscan (h : r.firing.Is (.tscan x)) : s.commandStep cl r = s.scanRow cl r x := by
  rw [State.commandStep, State.regCommand, show decode r.firing.word = _ from h]

theorem State.commandStep_of_tcarrySave (h : r.firing.Is (.tcarrySave x)) : s.commandStep cl r = s.saveStep cl r x := by
  rw [State.commandStep, State.regCommand, show decode r.firing.word = _ from h]

theorem State.commandStep_of_tcarryLoad (h : r.firing.Is (.tcarryLoad x)) : s.commandStep cl r = s.loadStep cl r x := by
  rw [State.commandStep, State.regCommand, show decode r.firing.word = _ from h]

end

/-! TMMA (R259, R260, R262). -/

/-- The shapes that a TMMA takes (R259). -/
def TensorUnit.mmaShapes (u : TensorUnit) (code a b : Nat) : Prop :=
  let okB := fun (h : Shape) => h.set = true ∧ (h.elem = code ∨ code < 2 ∧ h.elem < 2)
  (u.shape a).set = true ∧ (u.shape a).elem = code ∧ okB (u.shape b) ∧
    (code = 7 → okB (u.shape (b + 1)) ∧ (u.shape (b + 1)).cols = (u.shape b).cols) ∧ (u.shape b).cols ≤ 128 ∧ u.kc code b ≤ chunkK code

/-- The rows and columns within which a TMMA works (R259). -/
def TensorUnit.mmaInside (u : TensorUnit) (a row0 n acol qrow : Nat) : Prop :=
  1 ≤ n ∧ row0 + n ≤ (u.shape a).rows ∧ qrow + n ≤ 128 ∧ acol < (u.shape a).cols ∧ ((u.shape a).yb = true → acol % 32 = 0)

theorem TensorUnit.mmaTrap_of_shapes {u : TensorUnit} {code a b row0 n acol qrow : Nat} (h : ¬ u.mmaShapes code a b) :
    u.mmaTrap code a b row0 n acol qrow = some 0x0303 := by
  simp only [TensorUnit.mmaTrap]
  split_ifs with h1 h2 h3
  · rfl
  · rfl
  · simp [TensorUnit.mmaShapes] at *
    grind
  · simp [TensorUnit.mmaShapes] at *
    grind

theorem TensorUnit.mmaTrap_of_outside {u : TensorUnit} {code a b row0 n acol qrow : Nat} (h : u.mmaShapes code a b)
    (hi : ¬ u.mmaInside a row0 n acol qrow) : u.mmaTrap code a b row0 n acol qrow = some 0x0306 := by
  simp only [TensorUnit.mmaTrap]
  split_ifs with h1 h2 h3
  · simp [TensorUnit.mmaShapes] at *
    grind
  · simp [TensorUnit.mmaShapes] at *
    grind
  · rfl
  · simp [TensorUnit.mmaInside] at *
    grind

theorem TensorUnit.mmaTrap_of_fit {u : TensorUnit} {code a b row0 n acol qrow : Nat} (h : u.mmaShapes code a b)
    (hi : u.mmaInside a row0 n acol qrow) : u.mmaTrap code a b row0 n acol qrow = none := by
  simp only [TensorUnit.mmaTrap]
  split_ifs with h1 h2 h3
  · simp [TensorUnit.mmaShapes] at *
    grind
  · simp [TensorUnit.mmaShapes] at *
    grind
  · simp [TensorUnit.mmaInside] at *
    grind
  · rfl

/-- One sum of a row firing, in column j (R55, R260; log 153). -/
def TensorUnit.mmaSum (u : TensorUnit) (code a b q arow acol out : Nat) (acc : Bool) (j : Nat) : FRes :=
  tensorSum (decide (code = 2))
    (((countFrom 0 (u.kc code b)).map fun k =>
      (if acol + k < (u.shape a).cols then u.elem a arow (acol + k) else .fin false 0 0,
        if code = 7 ∧ (u.shape b).rows ≤ k then u.elem (b + 1) (k - (u.shape b).rows) j else u.elem b k j)) ++
      List.replicate (chunkK code - u.kc code b) (.fin false 0 0, .fin false 0 0))
    (if acc then some (fp32.decode (u.acc q out j).toNat) else none)

theorem TensorUnit.rowFiring_eq (u : TensorUnit) (code a b q arow acol out : Nat) (acc : Bool) :
    u.rowFiring code a b q arow acol out acc = (countFrom 0 (u.shape b).cols).map (u.mmaSum code a b q arow acol out acc) := by
  simp only [TensorUnit.rowFiring, List.zip_map', TensorUnit.bElem]
  rfl

/-- What a TMMA's next row waits for: its rows of A and B, and the stream buffer. -/
def TensorUnit.mmaReady (u : TensorUnit) (code a b row : Nat) (streams : Bool) : Prop :=
  u.full a row = true ∧ u.allFull b = true ∧ (code = 7 → u.allFull (b + 1) = true) ∧ (streams = true → u.outRow = [])

theorem TensorUnit.mmaReady_iff (u : TensorUnit) (code a b row : Nat) (streams : Bool) :
    (!u.full a row || !(u.allFull b && (decide (code ≠ 7) || u.allFull (b + 1))) || (streams && !u.outRow.isEmpty)) = false ↔
      u.mmaReady code a b row streams := by
  simp [TensorUnit.mmaReady, and_assoc, imp_iff_not_or]

/-- The unit after one row firing: the sums in the accumulator's row, the row of A emptied, the words that the circuit is sent. -/
def TensorUnit.mmaRow (u : TensorUnit) (x : FormT) (row out n : Nat) (sum : Nat → FRes) : TensorUnit :=
  { u.putAccRow x.qa.val out n (fun j => (sum j).1) with
    rowEmpty := if x.flg.getLsbD 2 = true ∧ (u.shape x.ta.val).fe = true then setAt u.rowEmpty (x.ta.val * 192 + row) true false
      else u.rowEmpty
    outRow := if x.flg.getLsbD 1 then ((countFrom 0 n).filter fun j => decide ((sum j).1 % 2 ^ 31 ≠ 0)).map
        (fun j => ⟨BitVec.ofNat 32 (sum j).1, BitVec.ofNat 32 j, 0⟩) ++ [⟨0, BitVec.ofNat 32 out, 1⟩] else u.outRow }

theorem TensorUnit.mmaRow_eq (u : TensorUnit) (x : FormT) (row out n : Nat) (sum : Nat → FRes) :
    let vs := (countFrom 0 n).map sum
    let u1 := (vs.zip (countFrom 0 vs.length)).foldl (fun u p => u.putAcc x.qa.val out p.2 (BitVec.ofNat 32 p.1.1)) u
    let u2 := if x.flg.getLsbD 2 ∧ (u.shape x.ta.val).fe = true then u1.setRow x.ta.val row true else u1
    (if x.flg.getLsbD 1 then { u2 with outRow := streamRow (vs.map fun v => (v.1, decide (v.1 % 2 ^ 31 = 0))) out } else u2) =
      u.mmaRow x row out n sum := by
  intro vs u1 u2
  have hu1 : u1 = u.putAccRow x.qa.val out n (fun j => (sum j).1) := by
    simp only [u1, vs, List.length_map, length_countFrom, zip_map_countFrom, TensorUnit.foldl_putAcc, TensorUnit.putAccRow]
  have hwords : streamRow (vs.map fun v => (v.1, decide (v.1 % 2 ^ 31 = 0))) out =
      ((countFrom 0 n).filter fun j => decide ((sum j).1 % 2 ^ 31 ≠ 0)).map (fun j => ⟨BitVec.ofNat 32 (sum j).1, BitVec.ofNat 32 j, 0⟩) ++
        [⟨0, BitVec.ofNat 32 out, 1⟩] := by
    rw [List.map_map]
    simp only [decide_not]
    exact streamRow_eq (fun j => ((sum j).1, decide ((sum j).1 % 2 ^ 31 = 0))) n out
  rw [hwords]
  simp only [u2, hu1, TensorUnit.mmaRow]
  by_cases hempty : x.flg.getLsbD 2 = true ∧ (u.shape x.ta.val).fe = true <;> by_cases hout : x.flg.getLsbD 1 = true
  · simp only [if_pos hempty, if_pos hout]; rfl
  · simp only [if_pos hempty, if_neg hout]; rfl
  · simp only [if_neg hempty, if_pos hout]; rfl
  · simp only [if_neg hempty, if_neg hout]; rfl

section
variable {s : State} {cl : Nat} {r : TRun} {x : FormT} {u : TensorUnit} (hu : s.unit cl = u)
include hu

/-- Where a TMMA's firing stands: not yet checked, or checked and found to fit. -/
theorem State.mmaStep_of_trap {c : Nat} (hs : r.started = false) (h : u.mmaTrap (codeOf x.ty) x.ta.val x.tb.val
      (selRow0 (s.opTA r.firing x)) (selRows (s.opTA r.firing x)) (bitsOf (s.opTA r.firing x).toNat 16 9)
      (bitsOf (s.opTB r.firing x).toNat 0 7) = some c) :
    s.mmaStep cl r x = s.parkCommand cl r .trap (BitVec.ofNat 64 c) 0 := by
  subst hu
  simp only [State.mmaStep, hs, h, Bool.false_eq_true, if_false]

variable (hfit : r.started = true ∨ u.mmaShapes (codeOf x.ty) x.ta.val x.tb.val ∧ u.mmaInside x.ta.val (selRow0 (s.opTA r.firing x))
    (selRows (s.opTA r.firing x)) (bitsOf (s.opTA r.firing x).toNat 16 9) (bitsOf (s.opTB r.firing x).toNat 0 7))
include hfit

omit hu in
theorem State.mmaChecked : (if r.started then none else u.mmaTrap (codeOf x.ty) x.ta.val x.tb.val
      (selRow0 (s.opTA r.firing x)) (selRows (s.opTA r.firing x)) (bitsOf (s.opTA r.firing x).toNat 16 9)
      (bitsOf (s.opTB r.firing x).toNat 0 7)) = none := by
  obtain h | ⟨hshapes, hinside⟩ := hfit
  · exact if_pos h
  · rw [TensorUnit.mmaTrap_of_fit hshapes hinside, ite_self]

theorem State.mmaStep_waits (hr : ¬ u.mmaReady (codeOf x.ty) x.ta.val x.tb.val (selRow0 (s.opTA r.firing x) + r.row) (x.flg.getLsbD 1)) :
    s.mmaStep cl r x = s.putRun cl { r with started := true } := by
  have hchecked := State.mmaChecked hfit
  rw [← TensorUnit.mmaReady_iff, Bool.not_eq_false] at hr
  subst hu
  simp only [State.mmaStep, hchecked, hr, if_true]

theorem State.mmaStep_fires (hr : u.mmaReady (codeOf x.ty) x.ta.val x.tb.val (selRow0 (s.opTA r.firing x) + r.row) (x.flg.getLsbD 1)) :
    s.mmaStep cl r x =
      let out := bitsOf (s.opTB r.firing x).toNat 0 7 + r.row
      let row := selRow0 (s.opTA r.firing x) + r.row
      let n := (u.shape x.tb.val).cols
      let sum := u.mmaSum (codeOf x.ty) x.ta.val x.tb.val x.qa.val row (bitsOf (s.opTA r.firing x).toNat 16 9) out (x.flg.getLsbD 0)
      let t := ((s.onUnit cl fun _ => u.mmaRow x row out n sum).unitFlags cl (((countFrom 0 n).map sum).foldl (fun e p => e ||| p.2) 0)).meter
        r.firing.launch (cl / 128) (macMeter (codeOf x.ty)) (u.kc (codeOf x.ty) x.tb.val * n)
      if r.row + 1 = selRows (s.opTA r.firing x) then t.endCommand cl r.firing .completion 0
      else t.putRun cl { r with started := true, row := r.row + 1 } := by
  have hchecked := State.mmaChecked hfit
  rw [← TensorUnit.mmaReady_iff] at hr
  subst hu
  simp only [State.mmaStep, hchecked, hr, Bool.false_eq_true, if_false, TensorUnit.rowFiring_eq, TensorUnit.mmaRow_eq]

end

/-! TLD, TST and TROW (R257, R271). -/

section
variable {s : State} {cl : Nat} {r : TRun} {x : FormT}

theorem State.tldStep_checks (hs : r.started = false) : s.tldStep cl r x =
    if (s.opTB r.firing x).toNat < 1 ∨ 192 < (s.opTB r.firing x).toNat ∨
        (s.swatch r.firing.launch x.sw.toNat).rows < (s.opTA r.firing x).toNat + (s.opTB r.firing x).toNat then
      s.parkCommand cl r .trap 0x0306 0
    else
      let w := s.swatch r.firing.launch x.sw.toNat
      let h : Shape := ⟨(s.opTB r.firing x).toNat, w.cols, w.elem, false⟩
      if !h.legal then s.parkCommand cl r .trap (BitVec.ofNat 64 (0x0304 + x.td.val * 2 ^ 16)) 0
      else (s.onUnit cl fun u => u.setShape x.td.val h).putRun cl { r with started := true } := by
  simp only [State.tldStep, hs, Bool.not_false, if_true]

/-- A row's accesses are done: the command ends after its last row, or goes on with the next. -/
def State.rowEnds (s : State) (cl : Nat) (r : TRun) (last : Bool) : State :=
  if last then s.endCommand cl r.firing .completion 0 else s.putRun cl { r with started := true, row := r.row + 1, accs := [] }

theorem State.rowEnds_decide (s : State) (cl : Nat) {r : TRun} (hs : r.started = true) (p : Prop) [Decidable p] :
    s.rowEnds cl r (decide p) =
      if p then s.endCommand cl r.firing .completion 0 else s.putRun cl { r with row := r.row + 1, accs := [] } := by
  simp only [State.rowEnds, decide_eq_true_eq, hs]

theorem State.tldStep_row (hs : r.started = true) : s.tldStep cl r x =
    let w := s.swatch r.firing.launch x.sw.toNat
    let count := (s.opTB r.firing x).toNat
    let h : Shape := ⟨count, w.cols, w.elem, false⟩
    s.rowAccs cl r (if r.accs.isEmpty then rowReads w ((s.opTA r.firing x).toNat + r.row) else r.accs) fun t bs =>
      (t.onUnit cl fun u => u.putRow x.td.val r.row ((gotOf bs).take h.rowBytes) ((gotOf bs).drop h.rowBytes)).rowEnds cl r
        (decide (r.row + 1 = count)) := by
  simp only [State.tldStep, hs, Bool.not_true, Bool.false_eq_true, if_false, State.rowEnds, decide_eq_true_eq]

/-- Whether a tile has the type and the columns of a swatch. -/
def Shape.fits (h : Shape) (w : Swatch) : Prop := h.set = true ∧ h.elem = w.elem ∧ h.cols = w.cols

theorem Shape.fits_iff (h : Shape) (w : Swatch) : (!h.set || decide (h.elem ≠ w.elem ∨ h.cols ≠ w.cols)) = false ↔ h.fits w := by
  simp [Shape.fits]

theorem State.tstStep_checks (hs : r.started = false) : s.tstStep cl r x =
    let w := s.swatch r.firing.launch x.sw.toNat
    let h := (s.unit cl).shape x.ta.val
    if !h.set || decide (h.elem ≠ w.elem ∨ h.cols ≠ w.cols) then s.parkCommand cl r .trap 0x0303 0
    else if w.rows < (s.opTA r.firing x).toNat + h.rows then s.parkCommand cl r .trap 0x0306 0
    else s.putRun cl { r with started := true } := by
  simp only [State.tstStep, hs, Bool.not_false, if_true]

theorem State.tstStep_waits (hs : r.started = true) (hf : (s.unit cl).full x.ta.val r.row = false) : s.tstStep cl r x = s := by
  simp only [State.tstStep, hs, hf, Bool.not_true, Bool.not_false, Bool.false_eq_true, if_false, if_true]

theorem State.tstStep_row (hs : r.started = true) (hf : (s.unit cl).full x.ta.val r.row = true) : s.tstStep cl r x =
    s.rowAccs cl r (if r.accs.isEmpty then rowWrites (s.swatch r.firing.launch x.sw.toNat) ((s.opTA r.firing x).toNat + r.row)
      ((s.unit cl).cleanRow x.ta.val r.row) ((s.unit cl).rowScale x.ta.val r.row) else r.accs) fun t _ =>
      t.rowEnds cl r (decide (r.row + 1 = ((s.unit cl).shape x.ta.val).rows)) := by
  simp only [State.tstStep, hs, hf, Bool.not_true, Bool.false_eq_true, if_false, State.rowEnds, decide_eq_true_eq]

theorem rowsWithin_iff (n a b : Nat) : 1 ≤ n ∧ a ≤ b ↔ ¬ (n = 0 ∨ b < a) := by omega

theorem rowsInside_iff (n a b c d : Nat) : 1 ≤ n ∧ a ≤ b ∧ c ≤ d ↔ ¬ (n = 0 ∨ b < a ∨ d < c) := by omega

theorem State.trowStep_checks (hs : r.started = false) : s.trowStep cl r x =
    let w := s.swatch r.firing.launch x.sw.toNat
    let h := (s.unit cl).shape x.ta.val
    let sel := s.opTA r.firing x
    if !h.set || decide (h.elem ≠ w.elem ∨ h.cols ≠ w.cols) then s.parkCommand cl r .trap 0x0303 0
    else if selRows sel = 0 ∨ h.rows < selRow0 sel + selRows sel ∨ w.rows < (s.opTB r.firing x).toNat + selRow0 sel + selRows sel then
      s.parkCommand cl r .trap 0x0306 0
    else s.putRun cl { r with started := true } := by
  simp only [State.trowStep, hs, Bool.not_false, if_true]

theorem State.trowStep_waits (hs : r.started = true)
    (hf : (s.unit cl).full x.ta.val (selRow0 (s.opTA r.firing x) + r.row) = false) : s.trowStep cl r x = s := by
  simp only [State.trowStep, hs, hf, Bool.not_true, Bool.not_false, Bool.false_eq_true, if_false, if_true]

theorem State.trowStep_row (hs : r.started = true)
    (hf : (s.unit cl).full x.ta.val (selRow0 (s.opTA r.firing x) + r.row) = true) : s.trowStep cl r x =
    let w := s.swatch r.firing.launch x.sw.toNat
    let i := selRow0 (s.opTA r.firing x) + r.row
    let drow := (s.opTB r.firing x).toNat + i
    s.rowAccs cl r (if r.accs.isEmpty then rowWrites w drow ((s.unit cl).cleanRow x.ta.val i) ((s.unit cl).rowScale x.ta.val i)
      else r.accs) fun t _ =>
      let v := t.engineReply r.firing false .tile (tileHandle w drow i)
      if r.row + 1 = selRows (s.opTA r.firing x) then v.onUnit cl (fun u => { u with cur := none })
      else v.putRun cl { r with row := r.row + 1, accs := [] } := by
  simp only [State.trowStep, hs, hf, Bool.not_true, Bool.false_eq_true, if_false]

theorem State.trowStrStep_checks (hs : r.started = false) : s.trowStrStep cl r x =
    let h := (s.unit cl).shape x.ta.val
    let sel := s.opTA r.firing x
    if !h.set then s.parkCommand cl r .trap 0x0303 0
    else if selRows sel = 0 ∨ h.rows < selRow0 sel + selRows sel then s.parkCommand cl r .trap 0x0306 0
    else s.putRun cl { r with started := true } := by
  simp only [State.trowStrStep, hs, Bool.not_false, if_true]

theorem State.trowStrStep_waits (hs : r.started = true)
    (hf : (s.unit cl).full x.ta.val (selRow0 (s.opTA r.firing x) + r.row) = false ∨ (s.unit cl).outRow ≠ []) :
    s.trowStrStep cl r x = s := by
  have hwait : (!(s.unit cl).full x.ta.val (selRow0 (s.opTA r.firing x) + r.row) || !(s.unit cl).outRow.isEmpty) = true := by
    simpa using hf
  simp only [State.trowStrStep, hs, hwait, Bool.not_true, Bool.false_eq_true, if_false, if_true]

/-- The words of a tile's row that TROW sends to its circuit (R271). -/
def TensorUnit.rowWords (u : TensorUnit) (t i : Nat) (ends : Prop) [Decidable ends] : List SWord :=
  ((countFrom 0 (u.shape t).cols).filter fun j => !(u.streamElem t i j).2).map
    (fun j => ⟨BitVec.ofNat 32 (u.streamElem t i j).1, BitVec.ofNat 32 j, 0⟩) ++ [⟨0, BitVec.ofNat 32 i, 1⟩] ++
    if ends then [⟨0, 0, 15⟩] else []

theorem State.trowStrStep_row (hs : r.started = true)
    (hf : (s.unit cl).full x.ta.val (selRow0 (s.opTA r.firing x) + r.row) = true) (hout : (s.unit cl).outRow = []) :
    s.trowStrStep cl r x =
      let i := selRow0 (s.opTA r.firing x) + r.row
      let last := r.row + 1 = selRows (s.opTA r.firing x)
      let t := s.onUnit cl fun u => { u with outRow := (s.unit cl).rowWords x.ta.val i (last ∧ x.flg.getLsbD 0 = true) }
      if last then t.endCommand cl r.firing .completion 0 else t.putRun cl { r with row := r.row + 1 } := by
  simp only [State.trowStrStep, hs, hf, hout, Bool.not_true, List.isEmpty_nil, Bool.or_self, Bool.false_eq_true, if_false,
    streamRow_eq, Bool.and_eq_true, decide_eq_true_eq]
  rfl

end

/-! TSCAN and TCARRY (R272, R273). -/

/-- The shapes that a TSCAN takes. -/
def TensorUnit.scanShapes (u : TensorUnit) (x : FormT) : Prop :=
  (u.shape x.ta.val).set = true ∧ (u.shape x.tb.val).set = true ∧ (u.shape x.ta.val).cols = 128 ∧ (u.shape x.tb.val).cols = 128 ∧
    (x.flg.getLsbD 3 = true → (u.shape x.td.val).set = true ∧ (u.shape x.td.val).cols = 128 ∧ (u.shape x.td.val).elem = codeOf x.ty)

/-- The rows within which a TSCAN works. -/
def TensorUnit.scanInside (u : TensorUnit) (x : FormT) (row0 n : Nat) : Prop :=
  1 ≤ n ∧ n ≤ 64 ∧ row0 + n ≤ (u.shape x.ta.val).rows ∧ row0 + n ≤ (u.shape x.tb.val).rows ∧
    (x.flg.getLsbD 3 = true → row0 + n ≤ (u.shape x.td.val).rows)

theorem TensorUnit.scanTrap_of_shapes {u : TensorUnit} {x : FormT} {row0 n : Nat} (h : ¬ u.scanShapes x) :
    u.scanTrap x row0 n = some 0x0303 := by
  simp only [TensorUnit.scanTrap]
  refine if_pos ?_
  simp [TensorUnit.scanShapes] at *
  grind

theorem TensorUnit.scanTrap_of_taken {u : TensorUnit} {x : FormT} {row0 n : Nat} (h : u.scanShapes x) :
    u.scanTrap x row0 n = if n < 1 ∨ 64 < n ∨ (u.shape x.ta.val).rows < row0 + n ∨ (u.shape x.tb.val).rows < row0 + n ∨
      (x.flg.getLsbD 3 = true ∧ (u.shape x.td.val).rows < row0 + n) then some 0x0306 else none := by
  simp only [TensorUnit.scanTrap]
  refine if_neg ?_
  simp [TensorUnit.scanShapes] at *
  grind

theorem TensorUnit.scanInside_iff {u : TensorUnit} {x : FormT} {row0 n : Nat} : u.scanInside x row0 n ↔
    ¬ (n < 1 ∨ 64 < n ∨ (u.shape x.ta.val).rows < row0 + n ∨ (u.shape x.tb.val).rows < row0 + n ∨
      (x.flg.getLsbD 3 = true ∧ (u.shape x.td.val).rows < row0 + n)) := by
  simp only [TensorUnit.scanInside, not_or, not_and, not_lt]

/-- A channel of TSCAN's next carry (R272). -/
def TensorUnit.scanNext (u : TensorUnit) (x : FormT) (i : Nat) (fresh : Bool) (j : Nat) : FRes :=
  scanStep (u.elem x.ta.val i j) (if fresh then .fin false 0 0 else fp32.decode (u.car (slotOf x) j).toNat) (u.elem x.tb.val i j)

/-- The unit after one row of TSCAN. -/
def TensorUnit.scanned (u : TensorUnit) (x : FormT) (i : Nat) (fresh : Bool) : TensorUnit :=
  let outs := ((countFrom 0 128).map (u.scanNext x i fresh)).map fun c => toElem (codeOf x.ty) .rne (fp32.decode c.1)
  { (if x.flg.getLsbD 3 then u.putRow x.td.val i (packRow (elemBits (codeOf x.ty)) (outs.map Prod.fst)) [] else u) with
    carry := (u.putCarry (slotOf x) ((countFrom 0 128).map fun j => (u.scanNext x i fresh j).1)).carry }

theorem TensorUnit.car_scanned_same (u : TensorUnit) (x : FormT) (i : Nat) (fresh : Bool) {j : Nat} (hj : j < 128) :
    (u.scanned x i fresh).car (slotOf x) j = BitVec.ofNat 32 (u.scanNext x i fresh j).1 := by
  rw [← u.car_putCarry_same (slotOf x) (fun j => (u.scanNext x i fresh j).1) hj, TensorUnit.car, TensorUnit.car, TensorUnit.scanned]

theorem TensorUnit.car_scanned_ne (u : TensorUnit) (x : FormT) (i : Nat) (fresh : Bool) {g j : Nat} (hg : g ≠ slotOf x) (hj : j < 128) :
    (u.scanned x i fresh).car g j = u.car g j := by
  rw [← u.car_putCarry_ne (fun j => (u.scanNext x i fresh j).1) hg hj, TensorUnit.car, TensorUnit.car, TensorUnit.scanned]

theorem TensorUnit.scanned_eq (u : TensorUnit) (x : FormT) (i : Nat) (fresh : Bool) :
    let vs := (countFrom 0 128).map (u.scanNext x i fresh)
    let u1 := u.putCarry (slotOf x) (vs.map Prod.fst)
    (if x.flg.getLsbD 3 then u1.putRow x.td.val i (packRow (elemBits (codeOf x.ty))
      ((vs.map fun c => toElem (codeOf x.ty) .rne (fp32.decode c.1)).map Prod.fst)) [] else u1) = u.scanned x i fresh := by
  rw [TensorUnit.scanned]
  generalize countFrom 0 128 = js
  simp only [List.map_map]
  cases x.flg.getLsbD 3
  · rfl
  · rfl

section
variable {s : State} {cl : Nat} {r : TRun} {x : FormT} {u : TensorUnit} (hu : s.unit cl = u)
include hu

theorem State.scanRow_of_trap {c : Nat} (hs : r.started = false)
    (h : u.scanTrap x (selRow0 (s.opTA r.firing x)) (selRows (s.opTA r.firing x)) = some c) :
    s.scanRow cl r x = s.parkCommand cl r .trap (BitVec.ofNat 64 c) 0 := by
  subst hu
  simp only [State.scanRow, hs, h, Bool.false_eq_true, if_false]

variable (hfit : r.started = true ∨ u.scanShapes x ∧ u.scanInside x (selRow0 (s.opTA r.firing x)) (selRows (s.opTA r.firing x)))
include hfit

omit hu in
theorem State.scanChecked : (if r.started then none
    else u.scanTrap x (selRow0 (s.opTA r.firing x)) (selRows (s.opTA r.firing x))) = none := by
  obtain h | ⟨hshapes, hinside⟩ := hfit
  · exact if_pos h
  · rw [TensorUnit.scanTrap_of_taken hshapes, if_neg (TensorUnit.scanInside_iff.1 hinside), ite_self]

theorem State.scanRow_waits (hr : u.full x.ta.val (selRow0 (s.opTA r.firing x) + r.row) = false ∨
      u.full x.tb.val (selRow0 (s.opTA r.firing x) + r.row) = false) :
    s.scanRow cl r x = s.putRun cl { r with started := true } := by
  have hchecked := State.scanChecked hfit
  have hwait : (!u.full x.ta.val (selRow0 (s.opTA r.firing x) + r.row) || !u.full x.tb.val (selRow0 (s.opTA r.firing x) + r.row)) = true := by
    simpa using hr
  subst hu
  simp only [State.scanRow, hchecked, hwait, if_true]

theorem State.scanRow_scans (ha : u.full x.ta.val (selRow0 (s.opTA r.firing x) + r.row) = true)
    (hb : u.full x.tb.val (selRow0 (s.opTA r.firing x) + r.row) = true) :
    s.scanRow cl r x =
      let i := selRow0 (s.opTA r.firing x) + r.row
      let fresh := (s.opTB r.firing x).getLsbD r.row
      let cells := (countFrom 0 128).map (u.scanNext x i fresh)
      let outs := cells.map fun c => toElem (codeOf x.ty) .rne (fp32.decode c.1)
      let t := (s.onUnit cl fun _ => u.scanned x i fresh).unitFlags cl
        ((cells ++ if x.flg.getLsbD 3 then outs else []).foldl (fun e p => e ||| p.2) 0)
      if r.row + 1 = selRows (s.opTA r.firing x) then t.endCommand cl r.firing .completion 0
      else t.putRun cl { r with started := true, row := r.row + 1 } := by
  have hchecked := State.scanChecked hfit
  subst hu
  simp only [State.scanRow, hchecked, ha, hb, Bool.not_true, Bool.or_self, Bool.false_eq_true, if_false, ← TensorUnit.scanned_eq]
  rfl

end

/-- The bytes at which TCARRY's block may stand (R273). -/
theorem carryRange_iff (off len : Nat) : carryRange off len = false ↔ off % 8 = 0 ∧ off + 512 ≤ len := by
  simp [carryRange]

section
variable {s : State} {cl : Nat} {r : TRun} {x : FormT}

theorem State.saveStep_checks (hs : r.started = false) : s.saveStep cl r x =
    if (s.unit cl).swapped.getLsbD (slotOf x) then s.parkCommand cl r .trap 0x0305 0
    else if carryRange (s.opTA r.firing x).toNat (s.swatch r.firing.launch x.sw.toNat).length then s.parkCommand cl r .trap 0x0306 0
    else if badHandle (s.opTB r.firing x) then s.parkCommand cl r .knotHandle (s.opTB r.firing x) 0
    else s.putRun cl { r with started := true } := by
  simp only [State.saveStep, hs, Bool.not_false, if_true]

theorem State.saveStep_block (hs : r.started = true) : s.saveStep cl r x =
    let w := s.swatch r.firing.launch x.sw.toNat
    s.rowAccs cl r (if r.accs.isEmpty then writesAt w.space (some w.range) (w.base + (s.opTA r.firing x).toNat)
      ((countFrom 0 128).flatMap fun j => leBytes 4 ((s.unit cl).car (slotOf x) j).toNat) else r.accs) fun t _ =>
      (t.onUnit cl fun u => ({ u with carry := u.carry.filter fun e => decide (e.1 / 128 ≠ slotOf x) }).setSwap (slotOf x) true
        (s.opTB r.firing x)).endCommand cl r.firing .completion 0 := by
  simp only [State.saveStep, hs, Bool.not_true, Bool.false_eq_true, if_false]

theorem State.loadStep_checks (hs : r.started = false) : s.loadStep cl r x =
    if carryRange (s.opTA r.firing x).toNat (s.swatch r.firing.launch x.sw.toNat).length then s.parkCommand cl r .trap 0x0306 0
    else s.putRun cl { r with started := true } := by
  simp only [State.loadStep, hs, Bool.not_false, if_true]

/-- A TCARRY's load has its block: the slot takes it, and a swapped one makes its add and lets what waits go (R242, R273, R274). -/
def State.carryLoaded (src : FaultSrc) (cl : Nat) (f : Firing) (part h : Nat) (t : State) (bs : List Acc) : State :=
  let k := (t.unit cl).swapHandle h
  let t1 := t.onUnit cl fun u => ({ u.putCarry h ((chunks 4 128 (gotOf bs)).map leNat) with cur := none }).setSwap h false k
  if (t.unit cl).swapped.getLsbD h = false then t1.engineReply f false .completion 0
  else
    match t1.engineAdd (cl / 128) (some f.launch) part k 1 with
    | (.done, t2) => (t2.releaseAside cl h k).engineReply f false .completion 0
    | (res, t2) => t2.addFault (some f.launch) res k src

theorem State.loadStep_block (hs : r.started = true) : s.loadStep cl r x =
    let w := s.swatch r.firing.launch x.sw.toNat
    s.rowAccs cl r (if r.accs.isEmpty then readsAt w.space (some w.range) (w.base + (s.opTA r.firing x).toNat) 512 else r.accs)
      fun t bs => State.carryLoaded (s.engineSrc r.firing 2) cl r.firing (s.launch r.firing.launch).part (slotOf x) t bs := by
  simp only [State.loadStep, hs, Bool.not_true, Bool.false_eq_true, if_false, State.carryLoaded, Bool.not_eq_true'] <;> rfl

end

theorem State.releaseAside_eq (s : State) (cl h : Nat) (k : Word) : s.releaseAside cl h k =
    let n := (s.unit cl).aside.countP (asideOn h)
    let t := if n = 0 then s else s.onUnit cl fun u => { u with ready := u.ready ||| BitVec.ofNat 8 (2 ^ h) }
    if n = 0 ∨ k = noKnot then t else t.addWaiters (knotKey k) false n := by
  have hany : (s.unit cl).aside.any (asideOn h) = true ↔ ¬ (s.unit cl).aside.countP (asideOn h) = 0 := by
    rw [List.any_eq_true, List.countP_eq_zero]; simp
  simp only [State.releaseAside, State.leaveWait]
  by_cases hn : (s.unit cl).aside.countP (asideOn h) = 0
  · rw [if_neg fun g => hany.1 g hn, if_pos hn]
  · rw [if_pos (hany.2 hn), if_neg hn]

end Sys2Proof.Machine

namespace Sys2Proof.Proofs
open Sys2Proof.Machine

/-- Settles O44: the unit's step is its current command's, which checks, waits, works on one row or makes an access of it. -/
theorem tensorRowCommands : Obligations.TensorRowCommands := by
  intro s cl l r hown heng hacts hcur f u s1 goes traps begun onward accesses x w va vb code a b ha hb sel0 n reads writes
  have step : ∀ {t}, s1.commandStep cl r = t → goes = .next t := fun h =>
    (exec_tensorCommandPerform_command hown heng hacts hcur).trans (congrArg _ h)
  have hrow : ∀ {fresh : List Acc} {k : List Acc → State → State},
      s1.commandStep cl r = s1.rowAccs cl r (if r.accs.isEmpty then fresh else r.accs) (fun t as_ => k as_ t) → accesses fresh k :=
    fun h as_ t => ⟨fun kd d a hbad => step (h.trans (State.rowAccs_of_bad hbad)), fun hmoved => step (h.trans (State.rowAccs_of_moved hmoved))⟩
  refine ⟨fun hi => ?_, fun hi => ?_, fun hi => ?_, fun hi => ?_, fun hi => ?_, fun hi => ?_, fun hi => ?_, fun hi => ?_⟩
  · intro hc kc acol qrow okB shapes inside row out ready sum cells
    have hstep : s1.commandStep cl r = s1.mmaStep cl r x := State.commandStep_of_tmma hi
    have hu : s1.unit cl = u := rfl
    refine ⟨fun hs h => ?_, fun hs h h' => ?_, fun hfit hr => ?_, fun hfit hr hcols hout => ?_⟩
    · exact step (hstep.trans (State.mmaStep_of_trap hu hs (TensorUnit.mmaTrap_of_shapes h)))
    · exact step (hstep.trans (State.mmaStep_of_trap hu hs (TensorUnit.mmaTrap_of_outside h h')))
    · exact step (hstep.trans (State.mmaStep_waits hu hfit hr))
    · refine ⟨u.mmaRow x row out hb.cols sum, fun j => ?_, fun q i j hi' hj => ?_, rfl, step (hstep.trans (State.mmaStep_fires hu hfit hr))⟩
      · exact u.acc_putAccRow_same x.qa.val out (fun j => (sum j).1)
      · exact u.acc_putAccRow_ne (fun j => (sum j).1) hcols hout hi' hj
  · intro count h
    have hstep : s1.commandStep cl r = s1.tldStep cl r x := State.commandStep_of_tld hi
    refine ⟨fun hs hlim => ?_, fun hs h1 h2 h3 => ?_, fun hs => hrow (hstep.trans (State.tldStep_row hs))⟩
    · exact step (hstep.trans ((State.tldStep_checks hs).trans (if_pos hlim)))
    · have hno : ¬ (count < 1 ∨ 192 < count ∨ w.rows < va.toNat + count) :=
        not_or.2 ⟨not_lt.2 h1, not_or.2 ⟨not_lt.2 h2, not_lt.2 h3⟩⟩
      have hcheck := hstep.trans ((State.tldStep_checks hs).trans (if_neg hno))
      exact ⟨fun hl => step (hcheck.trans (if_pos (congrArg not hl))),
        fun hl => step (hcheck.trans (if_neg (ne_of_eq_of_ne (congrArg not hl) Bool.false_ne_true)))⟩
  · intro fits
    have hstep : s1.commandStep cl r = s1.tstStep cl r x := State.commandStep_of_tst hi
    refine ⟨fun hs hf => ?_, fun hs hf hlim => ?_, fun hs hf hlim => ?_, fun hs hfull => step (hstep.trans (State.tstStep_waits hs hfull)),
      fun hs hfull => hrow (hstep.trans (State.tstStep_row hs hfull))⟩
    · have hbad := Bool.eq_false_iff.not_left.1 ((Shape.fits_iff ha w).not.2 hf)
      exact step (hstep.trans ((State.tstStep_checks hs).trans (if_pos hbad)))
    · have hok := Bool.eq_false_iff.1 ((Shape.fits_iff ha w).2 hf)
      exact step (hstep.trans ((State.tstStep_checks hs).trans ((if_neg hok).trans (if_pos hlim))))
    · have hok := Bool.eq_false_iff.1 ((Shape.fits_iff ha w).2 hf)
      exact step (hstep.trans ((State.tstStep_checks hs).trans ((if_neg hok).trans (if_neg (not_lt.2 hlim)))))
  · intro i drow fits inside handle
    have hstep : s1.commandStep cl r = s1.trowStep cl r x := State.commandStep_of_trow hi
    have hin : inside ↔ ¬ (n = 0 ∨ ha.rows < sel0 + n ∨ w.rows < vb.toNat + sel0 + n) := rowsInside_iff n _ _ _ _
    refine ⟨fun hs hf => ?_, fun hs hf hlim => ?_, fun hs hf hlim => ?_, fun hs hfull => step (hstep.trans (State.trowStep_waits hs hfull)),
      fun hs hfull => hrow (hstep.trans (State.trowStep_row hs hfull))⟩
    · have hbad := Bool.eq_false_iff.not_left.1 ((Shape.fits_iff ha w).not.2 hf)
      exact step (hstep.trans ((State.trowStep_checks hs).trans (if_pos hbad)))
    · have hok := Bool.eq_false_iff.1 ((Shape.fits_iff ha w).2 hf)
      exact step (hstep.trans ((State.trowStep_checks hs).trans ((if_neg hok).trans (if_pos (not_not.1 (hin.not.1 hlim))))))
    · have hok := Bool.eq_false_iff.1 ((Shape.fits_iff ha w).2 hf)
      exact step (hstep.trans ((State.trowStep_checks hs).trans ((if_neg hok).trans (if_neg (hin.1 hlim)))))
  · intro i inside words t
    have hstep : s1.commandStep cl r = s1.trowStrStep cl r x := State.commandStep_of_trowStr hi
    have hin : inside ↔ ¬ (n = 0 ∨ ha.rows < sel0 + n) := rowsWithin_iff n _ _
    refine ⟨fun hs hset => ?_, fun hs hset hlim => ?_, fun hs hset hlim => ?_,
      fun hs hwait => step (hstep.trans (State.trowStrStep_waits hs hwait)),
      fun hs hfull hout => step (hstep.trans (State.trowStrStep_row hs hfull hout))⟩
    · exact step (hstep.trans ((State.trowStrStep_checks hs).trans (if_pos (congrArg not hset))))
    · have hok : ¬ (!ha.set) = true := ne_of_eq_of_ne (congrArg not hset) Bool.false_ne_true
      exact step (hstep.trans ((State.trowStrStep_checks hs).trans ((if_neg hok).trans (if_pos (not_not.1 (hin.not.1 hlim))))))
    · have hok : ¬ (!ha.set) = true := ne_of_eq_of_ne (congrArg not hset) Bool.false_ne_true
      exact step (hstep.trans ((State.trowStrStep_checks hs).trans ((if_neg hok).trans (if_neg (hin.1 hlim)))))
  · intro d hd i h out shapes inside next cells outs
    have hstep : s1.commandStep cl r = s1.scanRow cl r x := State.commandStep_of_tscan hi
    have hu : s1.unit cl = u := rfl
    refine ⟨fun hs hsh => ?_, fun hs hsh hin => ?_, fun hfit hr => step (hstep.trans (State.scanRow_waits hu hfit hr)),
      fun hfit hfa hfb => ?_⟩
    · exact step (hstep.trans (State.scanRow_of_trap hu hs (TensorUnit.scanTrap_of_shapes hsh)))
    · exact step (hstep.trans (State.scanRow_of_trap hu hs
        ((TensorUnit.scanTrap_of_taken hsh).trans (if_pos (not_not.1 (TensorUnit.scanInside_iff.not.1 hin))))))
    · refine ⟨u.scanned x i (vb.getLsbD r.row), fun j => ?_, fun g j => ?_, rfl, step (hstep.trans (State.scanRow_scans hu hfit hfa hfb))⟩
      · exact u.car_scanned_same x i (vb.getLsbD r.row)
      · exact u.car_scanned_ne x i (vb.getLsbD r.row)
  · intro h off range
    have hstep : s1.commandStep cl r = s1.saveStep cl r x := State.commandStep_of_tcarrySave hi
    have hcheck := fun hs => hstep.trans (State.saveStep_checks (s := s1) (cl := cl) (r := r) (x := x) hs)
    have hrange : carryRange off w.length = false ↔ range := carryRange_iff off w.length
    refine ⟨fun hs hw => step ((hcheck hs).trans (if_pos hw)), fun hs hw hr => ?_, fun hs hw hr hk => ?_, fun hs hw hr hk => ?_,
      fun hs => hrow (hstep.trans (State.saveStep_block hs))⟩
    · have hbad := Bool.eq_false_iff.not_left.1 (hrange.not.2 hr)
      exact step ((hcheck hs).trans ((if_neg (Bool.eq_false_iff.1 hw)).trans (if_pos hbad)))
    · have hok := Bool.eq_false_iff.1 (hrange.2 hr)
      exact step ((hcheck hs).trans ((if_neg (Bool.eq_false_iff.1 hw)).trans ((if_neg hok).trans (if_pos hk))))
    · have hok := Bool.eq_false_iff.1 (hrange.2 hr)
      exact step ((hcheck hs).trans ((if_neg (Bool.eq_false_iff.1 hw)).trans ((if_neg hok).trans (if_neg (Bool.eq_false_iff.1 hk)))))
  · intro h off range
    have hstep : s1.commandStep cl r = s1.loadStep cl r x := State.commandStep_of_tcarryLoad hi
    have hrange : carryRange off w.length = false ↔ range := carryRange_iff off w.length
    refine ⟨fun hs hr => ?_, fun hs hr => ?_, fun hs => hrow ?_⟩
    · have hbad := Bool.eq_false_iff.not_left.1 (hrange.not.2 hr)
      exact step (hstep.trans ((State.loadStep_checks hs).trans (if_pos hbad)))
    · exact step (hstep.trans ((State.loadStep_checks hs).trans (if_neg (Bool.eq_false_iff.1 (hrange.2 hr)))))
    · refine (hstep.trans (State.loadStep_block hs)).trans ?_
      simp only [State.carryLoaded, State.releaseAside_eq] <;> rfl

end Sys2Proof.Proofs
end

section
/-! SUPPORT. Stream instructions and stream operators (R276 to R292). -/

namespace Sys2Proof.Machine

/-! The instructions (R288 to R291). -/

theorem zeroIn_iff (p : Prop) [Decidable p] (v : BitVec 32) :
    zeroIn (if p then 0 else 1) v = true ↔ if p then v.toNat % 2 ^ 31 = 0 else v = 0 := by
  by_cases hp : p
  · simp [zeroIn, hp]
  · simp [zeroIn, hp]

/-- A word that enters the circuit of an injector, whose next firing is performed while a slot is free. -/
def State.injected (s : State) (f : Firing) (from_ : Nat) (w : SWord) : State :=
  let t := s.sendWord f.launch from_ w
  if (t.fab f.launch).canSend from_ then t.wakeAt f.launch from_ else t

theorem State.injectWord_eq (s : State) (f : Firing) (pm : Pred) (ch : Nat) (w : SWord) :
    s.injectWord f pm ch w =
      let from_ := s.stationEnd f 13 ch
      if (s.fab f.launch).canSend from_ = true ∧ s.aheadAtEnd f from_ = false then (s.injected f from_ w).emit0 f pm .completion 0
      else s.park f .stream := by
  simp only [State.injectWord, State.injected, Bool.and_eq_true, Bool.not_eq_true']

section
variable {s : State} {x : FormX} (h : s.RunsPlain x.pm)
include h

theorem exec_semit_zero {ch : BitVec 2} (hz : zeroIn (if x.ty = .f32 then 0 else 1) ((s.opXB s.cur x).setWidth 32) = true) :
    exec (.semit x ch) s = .next (s.emit0 s.cur x.pm .completion 0) :=
  (State.fireHeld_plain h _ : execSemit x ch s = _).trans (congrArg _ (if_pos hz))

theorem exec_semit_word {ch : BitVec 2} (hz : ¬ zeroIn (if x.ty = .f32 then 0 else 1) ((s.opXB s.cur x).setWidth 32) = true) :
    exec (.semit x ch) s =
      .next (s.injectWord s.cur x.pm ch.toNat ⟨(s.opXB s.cur x).setWidth 32, (s.opXA s.cur x).setWidth 32, 0⟩) :=
  (State.fireHeld_plain h _ : execSemit x ch s = _).trans (congrArg _ (if_neg hz))

theorem exec_smark (ch : BitVec 2) (mark : BitVec 4) :
    exec (.smark x ch mark) s = .next (s.injectWord s.cur x.pm ch.toNat ⟨0, (s.opXA s.cur x).setWidth 32, mark⟩) :=
  (State.fireHeld_plain h _ : execSmark x ch mark s = _)

theorem exec_srecv_word {ch : BitVec 2} {w : SWord} {ws : List SWord}
    (hq : (s.fab s.cur.launch).queue (s.stationEnd s.cur 14 ch.toNat) = w :: ws)
    (ha : s.aheadAtEnd s.cur (s.stationEnd s.cur 14 ch.toNat) = false) : exec (.srecv x ch) s = .next
      (let into := s.stationEnd s.cur 14 ch.toNat
      let t := s.onFab s.cur.launch fun b => b.take into
      let taken := if (t.fab s.cur.launch).queue into = [] then t else t.wakeAt s.cur.launch into
      if w.mark = 0 then taken.emit0 s.cur x.pm .value (w.value.setWidth 64 ||| (w.coord.setWidth 64) <<< 32)
      else taken.emit1 s.cur .value (w.coord.setWidth 64 ||| (w.mark.setWidth 64) <<< 32)) := by
  refine (State.fireHeld_plain h _ : execSrecv x ch s = _).trans (congrArg _ ?_)
  simp only [hq, ha]

theorem exec_srecv_parks {ch : BitVec 2} (hq : (s.fab s.cur.launch).queue (s.stationEnd s.cur 14 ch.toNat) = [] ∨
      s.aheadAtEnd s.cur (s.stationEnd s.cur 14 ch.toNat) = true) : exec (.srecv x ch) s = .next (s.park s.cur .stream) := by
  refine (State.fireHeld_plain h _ : execSrecv x ch s = _).trans (congrArg _ ?_)
  obtain hq | ha := hq
  · simp only [hq]
  · simp only [ha]
    cases (s.fab s.cur.launch).queue (s.stationEnd s.cur 14 ch.toNat) <;> rfl

section
variable {kind : BitVec 4} {inst : BitVec 1} {i : Nat} {o : OpInst} (hi : s.opIndex s.cur kind.toNat inst.toNat = some i)
  (ho : nth (s.fab s.cur.launch).ops i = some o)
include hi ho

/-- Whether a SPARM to an instance waits: for the instance, or behind an earlier one. -/
theorem exec_sparm (preg : BitVec 2) : exec (.sparm x kind inst preg) s = .next
    (if (o.idle && !(s.launch s.cur.launch).parked.any fun p => p.ahead s.cur && s.namesOp p.firing o) = true then
      if preg = 0 ∧ p0Ok o.kind (s.opXA s.cur x) (((s.pattern s.cur.launch).map Pattern.swatches).getD []) = false then s.trap s.cur 0x0401
      else ((s.putOp s.cur.launch i (o.setParam preg.toNat (s.opXA s.cur x))).wakeSparm s.cur.launch i).emit0 s.cur x.pm .completion 0
    else s.park s.cur .stream) := by
  refine (State.fireHeld_plain h _ : execSparm x kind inst preg s = _).trans (congrArg _ ?_)
  simp only [hi, ho]

theorem exec_sstat : exec (.sstat x kind inst) s = .next (s.emit0 s.cur x.pm .value
    (o.inw.setWidth 64 ||| (o.eosn.setWidth 64) <<< 32 ||| BitVec.ofNat 64 (s.opStatus s.cur.launch o * 2 ^ 48 +
      (if s.opStatus s.cur.launch o = 2 then o.pport else 0) * 2 ^ 52))) := by
  refine (State.fire_runs h.1 _ : execSstat x kind inst s = _).trans (congrArg _ ?_)
  simp only [hi, ho, Option.bind_some]

end

end

theorem State.opStatus_of_parked {s : State} {l : Nat} {o : OpInst} (h : o.parked.isSome = true) : s.opStatus l o = 2 := if_pos h

theorem State.opStatus_of_running {s : State} {l : Nat} {o : OpInst} (h : o.parked = none) : s.opStatus l o ≠ 2 := by
  simp only [State.opStatus, h, Option.isSome_none, Bool.false_eq_true, if_false]
  split
  · decide
  · split
    · decide
    · split
      · decide
      · decide

theorem OpInst.setParam_eq (o : OpInst) (preg : BitVec 2) (v : Word) : o.setParam preg.toNat v =
    if preg = 0 then { o with p0 := v } else if preg = 1 then { o with p1 := v } else { o with p2 := v } := by
  rw [OpInst.setParam]
  congr 1
  · rw [← BitVec.toNat_inj]; rfl
  · congr 1
    rw [← BitVec.toNat_inj]; rfl

theorem exec_circuitSlotReturn {s : State} {l ep from_ : Nat} (hp : (s.fab l).producer ep = some from_) (hm : (s.launch l).moves = true)
    (hn : min 7 (getAt (s.fab l).freed ep 0) ≠ 0) : exec (.circuitSlotReturn l ep) s = .next ((s.onFab l fun _ => { s.fab l with
      freed := setAt (s.fab l).freed ep (getAt (s.fab l).freed ep 0 - min 7 (getAt (s.fab l).freed ep 0)) 0
      credits := setAt (s.fab l).credits from_ (getAt (s.fab l).credits from_ 0 - min 7 (getAt (s.fab l).freed ep 0)) 0 }).wakeAt l from_) := by
  change execCircuitSlotReturn l ep s = _
  simp only [execCircuitSlotReturn, hp, hn, hm, Bool.true_eq_false, or_self, if_false]

/-! One act of an instance (R282). -/

section
variable {s : State} {l i : Nat} {o : OpInst} (ho : nth (s.fab l).ops i = some o) (hpark : o.parked = none)
  (heng : (s.launch l).engines = true)
include ho hpark heng

/-- An instance with one thing to do does it. -/
theorem exec_streamOperatorStep_one {a : OpAct} (ha : o.acts (s.fab l) (!(s.launch l).halting) = [a]) :
    exec (.streamOperatorStep l i) s = .next ((({ s with freeCtr := s.freeCtr + 1 } : State).opAct l i o a).wakeSparm l i) := by
  have hchoice : s.choose [a].length = (0, { s with freeCtr := s.freeCtr + 1 }) := Prod.ext (Nat.mod_one _) rfl
  change execStreamOperatorStep l i s = _
  simp only [execStreamOperatorStep, ho, hpark, heng, ha, Option.isSome_none, Bool.not_true, Bool.or_self, Bool.false_eq_true, if_false,
    reduceCtorEq, hchoice, nth]

/-- An instance that may only take words takes its turn, with a free number for its ties. -/
theorem exec_streamOperatorStep_words (ha : o.acts (s.fab l) (!(s.launch l).halting) = [.words]) :
    ∃ sw tie, tie < 2 ∧ exec (.streamOperatorStep l i) s =
      .next ((({ s with freeCtr := s.freeCtr + 2 } : State).opTurn l i o (o.turn (s.fab l) sw tie)).wakeSparm l i) :=
  ⟨_, _, Nat.mod_lt (Config.freeChoice (s.freeCtr + 1)) (by decide), exec_streamOperatorStep_one ho hpark heng ha⟩

end

theorem State.opTurn_of_error {s : State} {l i : Nat} {o : OpInst} {code port : Nat} (hp : o.pend = []) :
    s.opTurn l i o (.error code port) = s.parkOp l i o .streamProtocol (BitVec.ofNat 64 code) 0 port := if_pos hp

/-! An output (R278, R282). -/

section
variable {o : OpInst} {b : StreamFab} {port : Nat} {w : SWord} (hm : w.mark = 0)
include hm

theorem OpInst.emit_of_zero (hz : zeroIn o.vt w.value = true) : o.emit b port w = o := by
  simp [OpInst.emit, hm, hz]

theorem OpInst.out_emit_of_open (hz : zeroIn o.vt w.value = false) (hc : b.consumer (o.output port) = none) :
    (o.emit b port w).out = o.out := by
  have hc' : ∀ since, b.consumer (({ o with since := since } : OpInst).output port) = none := fun _ => hc
  simp [OpInst.emit, hm, hz, hc']

theorem OpInst.out_emit_of_circuit (hz : zeroIn o.vt w.value = false) (hc : b.consumer (o.output port) ≠ none) :
    (o.emit b port w).out = o.out ++ [(port, w)] := by
  have hc' : ∀ since, (b.consumer (({ o with since := since } : OpInst).output port)).isSome = true :=
    fun _ => Option.isSome_iff_ne_none.2 hc
  simp [OpInst.emit, hm, hz, hc']

end

/-! Turns (Table 13.3, R286). -/

/-- A MARK that Table 13.2 gives a meaning, other than a reset. -/
def SWord.known (w : SWord) : Prop := w.mark.toNat ≤ 4 ∨ w.mark = 15

theorem SWord.known.not_reset {w : SWord} (h : w.known) : w.mark ≠ 14 := by
  rintro h14
  rw [SWord.known, h14] at h
  revert h
  decide

theorem SWord.known.not_reserved {w : SWord} (h : w.known) : ¬ (5 ≤ w.mark.toNat ∧ w.mark.toNat ≤ 13) := by
  obtain h | h := h
  · omega
  · rw [h]; decide

/-- Whether a word ascends over what its input has had in its fibre. -/
def SWord.ascends (last : Option (BitVec 32)) (w : SWord) : Prop := w.mark = 0 → ∀ c, last = some c → c < w.coord

theorem OpInst.wordError_of_reserved {o : OpInst} {port : Nat} {w : SWord} (hlo : 5 ≤ w.mark.toNat) (hhi : w.mark.toNat ≤ 13) :
    o.wordError port w = some 2 := if_pos ⟨hlo, hhi⟩

theorem OpInst.wordError_of_known {o : OpInst} {port : Nat} {w : SWord} (hk : w.known)
    (ha : orderedIn o.kind = true → w.ascends (if port = 0 then o.prev0 else o.prev1)) : o.wordError port w = none := by
  simp only [OpInst.wordError]
  rw [if_neg hk.not_reserved]
  split
  · next hm =>
    rw [Bool.and_eq_true, decide_eq_true_eq] at hm
    split
    · next c hc =>
      exact if_neg (BitVec.not_le.2 (ha hm.2 (BitVec.eq_of_toNat_eq hm.1) c hc))
    · rfl
  · rfl

theorem OpInst.wordError_of_descent {o : OpInst} {w : SWord} {c : BitVec 32} (hk : orderedIn o.kind = true) (hm : w.mark = 0)
    (hp : o.prev0 = some c) (hc : w.coord ≤ c) : o.wordError 0 w = some 1 := by
  simp [OpInst.wordError, hm, hk, hp, hc]

section
variable {o : OpInst} {b : StreamFab} (sw : Swatch) (tie : Nat) (hd : o.drop = 0)
include hd

/-- A word alone at the one input of an instance. -/
theorem OpInst.turn_of_error {w : SWord} {ws : List SWord} {c : Nat} (hq : b.queue (o.input 0) = w :: ws) (hone : (opPorts o.kind).1 = 1)
    (hr : w.mark ≠ 14) (he : o.wordError 0 w = some c) : o.turn b sw tie = .error c 0 := by
  simp only [OpInst.turn, hd, hq, hone, hr, he, List.head?_cons, Option.bind_some, Option.map_some, Option.getD_some, Option.map_none,
    Option.getD_none, decide_false, Bool.false_eq_true, if_false, OfNat.one_ne_ofNat]
  rfl

section
variable {w : SWord} {ws : List SWord} (hq : b.queue (o.input 0) = w :: ws) (hr : w.mark ≠ 14) (he : o.wordError 0 w = none)
include hq hr he

theorem OpInst.turn_of_filter (hk : o.kind = 7) :
    o.turn b sw tie = .took true false (if w.mark = 0 && !o.passes w then o else o.emit b 0 w) := by
  simp only [OpInst.turn, hd, hq, he, hk, hr, opPorts, List.head?_cons, Option.bind_some, Option.map_some, Option.getD_some,
    Option.bind_none, Option.map_none, Option.getD_none, decide_false, Bool.false_eq_true, if_false, OfNat.one_ne_ofNat]
  rfl

theorem OpInst.turn_of_reduce (hk : o.kind = 8) : o.turn b sw tie = .took true false (o.reduceWord b w) := by
  simp only [OpInst.turn, hd, hq, he, hk, hr, opPorts, List.head?_cons, Option.bind_some, Option.map_some, Option.getD_some,
    Option.bind_none, Option.map_none, Option.getD_none, decide_false, Bool.false_eq_true, if_false, OfNat.one_ne_ofNat]
  rfl

theorem OpInst.turn_of_fork (hk : o.kind = 12) :
    o.turn b sw tie = if o.bothFree b then .took true false (o.emitAll b w) else .idle := by
  simp only [OpInst.turn, hd, hq, he, hk, hr, opPorts, List.head?_cons, Option.bind_some, Option.map_some, Option.getD_some,
    Option.bind_none, Option.map_none, Option.getD_none, decide_false, Bool.false_eq_true, if_false, OfNat.one_ne_ofNat]
  rfl

end

theorem OpInst.turn_of_pair {x y : SWord} {xs ys : List SWord} (hx : b.queue (o.input 0) = x :: xs) (hy : b.queue (o.input 1) = y :: ys)
    (hk : o.kind = 3 ∨ o.kind = 4 ∨ o.kind = 6) (hrx : x.mark ≠ 14) (hry : y.mark ≠ 14) (hex : o.wordError 0 x = none)
    (hey : o.wordError 1 y = none) : o.turn b sw tie = o.pair b x y tie := by
  have htwo : (opPorts o.kind).1 = 2 := by
    obtain hk | hk | hk := hk <;> rw [hk] <;> rfl
  have h5 : o.kind ≠ 5 := by omega
  simp only [OpInst.turn, hd, hx, hy, htwo, hex, hey, h5, hrx, hry, List.head?_cons, Option.bind_some, Option.map_some, Option.getD_some,
    decide_false, Bool.false_eq_true, if_false, if_true]
  rfl

end

/-! FILTER, REDUCE and FORK. -/

theorem OpInst.passes_band {o : OpInst} (hm : o.mode = 0 ∨ o.mode = 3) (w : SWord) :
    o.passes w = true ↔ ((o.p1.setWidth 32 ≤ w.coord ∧ w.coord ≤ o.p2.setWidth 32) ↔ o.mode = 0) := by
  by_cases hin : o.p1.setWidth 32 ≤ w.coord ∧ w.coord ≤ o.p2.setWidth 32
  · obtain hm | hm := hm <;> simp [OpInst.passes, hm, hin]
  · obtain hm | hm := hm <;> simp [OpInst.passes, hm, hin]

section
variable {o : OpInst} {b : StreamFab} {w : SWord}

theorem OpInst.reduceWord_of_data (hm : w.mark = 0) : o.reduceWord b w = { o with part := some (match o.part with
    | none => if o.mode = 3 then 1 else w.value
    | some a => if o.mode = 3 then a + 1 else combineIn o.vt o.mode a w.value) } := if_pos hm

theorem OpInst.reduceWord_of_end (hm : w.mark = 15) : o.reduceWord b w = ({ o with part := none } : OpInst).emit b 0 ⟨0, 0, 15⟩ := by
  rw [OpInst.reduceWord, if_neg (by rw [hm]; decide), if_pos hm]

theorem OpInst.reduceWord_of_marker (hlo : 1 ≤ w.mark.toNat) (hhi : w.mark.toNat ≤ 4) : o.reduceWord b w =
    let o1 := match o.part with
      | some v => ({ o with part := none } : OpInst).emit b 0 ⟨v, w.coord, 0⟩
      | none => o
    if w.mark = 1 then o1 else o1.emit b 0 ⟨0, w.coord, w.mark - 1⟩ := by
  have h0 : w.mark ≠ 0 := fun h => by rw [h] at hlo; exact absurd hlo (by decide)
  have h15 : w.mark ≠ 15 := fun h => by rw [h] at hhi; exact absurd hhi (by decide)
  rw [OpInst.reduceWord, if_neg h0, if_neg h15] <;> rfl

end

/-! INTERSECT, UNION and MULT. -/

section
variable {o : OpInst} {b : StreamFab} {x y : SWord} {tie : Nat}

section
variable (hk : o.kind = 3 ∨ o.kind = 4) (hx : x.mark = 0) (hy : y.mark = 0)
include hk hx hy

theorem OpInst.pair_of_lt (hc : x.coord < y.coord) : o.pair b x y tie = .took true false
    (if o.kind = 4 then ({ o with prev0 := some x.coord } : OpInst).emit b 0 x else { o with prev0 := some x.coord }) := by
  have h6 : o.kind ≠ 6 := by omega
  have hnot : ¬ y.coord < x.coord := fun h => absurd (BitVec.lt_trans h hc) (BitVec.lt_irrefl _)
  simp [OpInst.pair, hx, hy, h6, hc, hnot, OpInst.noted]

theorem OpInst.pair_of_gt (hc : y.coord < x.coord) : o.pair b x y tie = .took false true
    (if o.kind = 4 then ({ o with prev1 := some y.coord } : OpInst).emit b 0 y else { o with prev1 := some y.coord }) := by
  have h6 : o.kind ≠ 6 := by omega
  simp [OpInst.pair, hx, hy, h6, hc, OpInst.noted]

theorem OpInst.pair_of_eq (hc : x.coord = y.coord) : o.pair b x y tie = .took true true
    (if o.kind = 4 then ({ o with prev0 := some x.coord, prev1 := some y.coord } : OpInst).emit b 0
        ⟨combineIn o.vt o.mode x.value y.value, x.coord, 0⟩
      else (({ o with prev0 := some x.coord, prev1 := some y.coord } : OpInst).emit b 0 x).emit b 1 y) := by
  have hirr : ¬ y.coord < y.coord := BitVec.lt_irrefl _
  obtain h3 | h4 := hk
  · simp [OpInst.pair, hx, hy, hc, hirr, h3, OpInst.noted]
  · simp [OpInst.pair, hx, hy, hc, hirr, h4, OpInst.noted, OpInst.vt, OpInst.mode]

end

theorem OpInst.pair_of_product (hk : o.kind = 6) (hx : x.mark = 0) (hy : y.mark = 0) : o.pair b x y tie =
    if x.coord ≠ y.coord then .error 3 tie else .took true true (o.emit b 0 ⟨mulIn o.vt x.value y.value, x.coord, 0⟩) := by
  simp [OpInst.pair, hx, hy, hk]

theorem OpInst.pair_of_markers (hx : x.mark ≠ 0) (hy : y.mark ≠ 0) : o.pair b x y tie =
    if x.mark ≠ y.mark then .error 3 tie else .took true true (o.endFibre.emitAll b ⟨0, x.coord, x.mark⟩) := by
  simp only [OpInst.pair, hx, hy, decide_false, Bool.not_false, Bool.and_self, if_true]

end

theorem opPorts_one {k : Nat} (h : k ∈ [1, 2, 7, 8, 9, 10, 11, 12]) : (opPorts k).1 = 1 := by
  revert k
  decide

theorem OpInst.emitAll_of_kind (o : OpInst) (b : StreamFab) (w : SWord) (hk : o.kind = 3 ∨ o.kind = 4 ∨ o.kind = 6) :
    o.emitAll b w = if o.kind = 3 then (o.emit b 0 w).emit b 1 w else o.emit b 0 w := by
  rw [OpInst.emitAll]
  obtain hk | hk | hk := hk <;> rw [hk] <;> rfl

end Sys2Proof.Machine

namespace Sys2Proof.Proofs
open Sys2Proof.Machine

/-- Settles O45: the instructions and the steps of the fabric are read off their functions; an instance that may only take words takes the
turn that Table 13.3 gives them. -/
theorem streamFabric : Obligations.StreamFabric := by
  refine ⟨fun x ch mark s h => ?_, fun s i o => ⟨fun x kind inst preg h => ?_, fun l port w ho hpark heng hacts => ?_,
    fun l ep from_ hp hm => exec_circuitSlotReturn hp hm⟩, fun o b port w hm => ⟨OpInst.emit_of_zero hm, OpInst.out_emit_of_open hm,
    OpInst.out_emit_of_circuit hm⟩, fun s l i o ho hpark heng hacts hdrop hpend => ?_⟩
  · intro f b from_ into v c sent
    have hz : zeroIn (if x.ty = .f32 then 0 else 1) v = true ↔ if x.ty = .f32 then v.toNat % 2 ^ 31 = 0 else v = 0 := zeroIn_iff _ _
    refine ⟨fun hv => exec_semit_zero h (hz.2 hv), fun hv => ?_, ?_, fun w ws hq ha => exec_srecv_word h hq ha, exec_srecv_parks h⟩
    · rw [exec_semit_word h (hz.not.2 hv), State.injectWord_eq]; rfl
    · rw [exec_smark h, State.injectWord_eq]; rfl
  · intro f v sw ahead hi ho
    have hstep := exec_sparm h hi ho preg
    have hgo : (o.idle && !ahead) = true ↔ o.idle = true ∧ ahead = false := by rw [Bool.and_eq_true, Bool.not_eq_true']
    refine ⟨fun ⟨hidle, hahead, hok⟩ => ?_, fun ⟨hidle, hahead, hp, hbad⟩ => ?_, fun hwait => ?_, fun hparked => ?_, fun hparked => ?_⟩
    · rw [← o.setParam_eq]
      have hfree : ¬ (preg = 0 ∧ p0Ok o.kind v sw = false) := fun ⟨hp, hbad⟩ =>
        hok.elim (absurd hp) fun ht => absurd (hbad.symm.trans ht) Bool.false_ne_true
      exact hstep.trans (congrArg _ ((if_pos (hgo.2 ⟨hidle, hahead⟩)).trans (if_neg hfree)))
    · exact hstep.trans (congrArg _ ((if_pos (hgo.2 ⟨hidle, hahead⟩)).trans (if_pos ⟨hp, hbad⟩)))
    · refine hstep.trans (congrArg _ (if_neg fun hg => ?_))
      obtain ⟨hidle, hahead⟩ := hgo.1 hg
      obtain hw | hw := hwait
      · exact absurd (hw.symm.trans hidle) Bool.false_ne_true
      · exact absurd (hahead.symm.trans hw) Bool.false_ne_true
    · rw [exec_sstat h hi ho, State.opStatus_of_parked hparked, if_pos rfl]
    · rw [exec_sstat h hi ho, if_neg (State.opStatus_of_running hparked), Nat.zero_mul, Nat.add_zero]
  · exact exec_streamOperatorStep_one ho hpark heng hacts
  · intro b s1 goes took errs known after
    obtain ⟨sw, tie, htie, hstep⟩ := exec_streamOperatorStep_words ho hpark heng hacts
    have htook : ∀ {in0 in1 : Bool} {o1 : OpInst}, o.turn b sw tie = .took in0 in1 o1 → took in0 in1 o1 := fun ht =>
      hstep.trans (by rw [show o.turn (s.fab l) sw tie = _ from ht]; rfl)
    have herrs : ∀ {code port : Nat}, o.turn b sw tie = .error code port → errs code port := fun ht =>
      hstep.trans (by rw [show o.turn (s.fab l) sw tie = _ from ht, State.opTurn_of_error hpend])
    have htied : o.turn b sw tie = .error 3 tie → errs 3 0 ∨ errs 3 1 := fun ht => by
      obtain h | h : tie = 0 ∨ tie = 1 := by omega
      · exact .inl (h ▸ herrs ht)
      · exact .inr (h ▸ herrs ht)
    refine ⟨fun w ws hq => ⟨fun hk hlo hhi => ?_, fun hk hm ⟨c, hp, hc⟩ => ?_, fun hk hknown => ?_, fun hk => ?_, fun hk hknown => ?_⟩,
      fun x xs y ys hx hy hkx hky => ⟨fun hk hax hay hmx hmy => ?_, fun hk hmx hmy => ?_, fun hk hmx hmy => ?_⟩⟩
    · have hone : (opPorts o.kind).1 = 1 := opPorts_one hk
      exact herrs (OpInst.turn_of_error sw tie hdrop hq hone (fun h => by rw [h] at hhi; exact absurd hhi (by decide))
        (OpInst.wordError_of_reserved hlo hhi))
    · have hord : orderedIn o.kind = true := by rw [hk]; rfl
      exact herrs (OpInst.turn_of_error sw tie hdrop hq (by rw [hk]; rfl) (by rw [hm]; decide)
        (OpInst.wordError_of_descent hord hm hp hc))
    · have hord : orderedIn o.kind = true → w.ascends o.prev0 := fun h => by rw [hk] at h; exact absurd h (by decide)
      have hturn := OpInst.turn_of_filter sw tie hdrop hq (SWord.known.not_reset hknown) (OpInst.wordError_of_known hknown hord) hk
      refine ⟨fun hm hmode => ?_, fun hm => htook (hturn.trans (congrArg _ (if_neg fun h => ?_)))⟩
      · have hpass := OpInst.passes_band hmode w
        exact ⟨fun hin => htook (hturn.trans (congrArg _ (if_neg (by rw [hpass.2 hin]; simp)))),
          fun hin => htook (hturn.trans (congrArg _ (if_pos (by rw [Bool.eq_false_iff.2 (hpass.not.2 hin)]; simp [hm]))))⟩
      · rw [Bool.and_eq_true, decide_eq_true_eq] at h
        exact hm h.1
    · have hord : orderedIn o.kind = true → w.ascends o.prev0 := fun h => by rw [hk] at h; exact absurd h (by decide)
      have hturn : SWord.known w → o.turn b sw tie = .took true false (o.reduceWord b w) := fun hknown =>
        OpInst.turn_of_reduce sw tie hdrop hq (SWord.known.not_reset hknown) (OpInst.wordError_of_known hknown hord) hk
      refine ⟨fun hm => ?_, fun hlo hhi => ?_, fun hm => ?_⟩
      · exact htook ((hturn (.inl (by rw [hm]; decide))).trans (congrArg _ (OpInst.reduceWord_of_data hm)))
      · exact htook ((hturn (.inl hhi)).trans (congrArg _ (OpInst.reduceWord_of_marker hlo hhi)))
      · exact htook ((hturn (.inr hm)).trans (congrArg _ (OpInst.reduceWord_of_end hm)))
    · have hord : orderedIn o.kind = true → w.ascends o.prev0 := fun h => by rw [hk] at h; exact absurd h (by decide)
      have hturn := OpInst.turn_of_fork sw tie hdrop hq (SWord.known.not_reset hknown) (OpInst.wordError_of_known hknown hord) hk
      have hall : o.emitAll b w = (o.emit b 0 w).emit b 1 w := if_pos (by rw [hk]; rfl)
      refine ⟨fun h0 h1 => htook (hturn.trans ((if_pos ?_).trans (congrArg _ hall))), fun h => ?_⟩
      · rw [OpInst.bothFree, h0, h1]; rfl
      · have hidle : o.turn b sw tie = .idle := hturn.trans (if_neg fun hb => by
          rw [OpInst.bothFree, Bool.and_eq_true] at hb
          exact h.elim (fun h => absurd (h.symm.trans hb.1) Bool.false_ne_true) fun h => absurd (h.symm.trans hb.2) Bool.false_ne_true)
        exact hstep.trans (by rw [show o.turn (s.fab l) sw tie = _ from hidle]; rfl)
    · have hkinds : o.kind = 3 ∨ o.kind = 4 ∨ o.kind = 6 := hk.imp_right .inl
      have hturn := OpInst.turn_of_pair sw tie hdrop hx hy hkinds (SWord.known.not_reset hkx) (SWord.known.not_reset hky)
        (OpInst.wordError_of_known hkx fun _ => hax) (OpInst.wordError_of_known hky fun _ => hay)
      exact ⟨fun hc => htook (hturn.trans (OpInst.pair_of_lt hk hmx hmy hc)),
        fun hc => htook (hturn.trans (OpInst.pair_of_gt hk hmx hmy hc)),
        fun hc => htook (hturn.trans (OpInst.pair_of_eq hk hmx hmy hc))⟩
    · have hord : ¬ orderedIn o.kind = true := by rw [hk]; decide
      have hturn := OpInst.turn_of_pair sw tie hdrop hx hy (.inr (.inr hk)) (SWord.known.not_reset hkx) (SWord.known.not_reset hky)
        (OpInst.wordError_of_known hkx fun h => absurd h hord) (OpInst.wordError_of_known hky fun h => absurd h hord)
      have hpair := hturn.trans (OpInst.pair_of_product hk hmx hmy)
      exact ⟨fun hc => htook (hpair.trans (if_neg (not_not_intro hc))), fun hc => htied (hpair.trans (if_pos hc))⟩
    · have hturn := OpInst.turn_of_pair sw tie hdrop hx hy (or_assoc.1 (by tauto)) (SWord.known.not_reset hkx) (SWord.known.not_reset hky)
        (OpInst.wordError_of_known hkx fun _ hm => absurd hm hmx) (OpInst.wordError_of_known hky fun _ hm => absurd hm hmy)
      have hpair := hturn.trans (OpInst.pair_of_markers hmx hmy)
      refine ⟨fun hc => ?_, fun hc => ?_⟩
      · exact htook ((hpair.trans (if_neg (not_not_intro hc))).trans (congrArg _ (OpInst.emitAll_of_kind _ b _ hk)))
      · exact htied (hpair.trans (if_pos hc))

end Sys2Proof.Proofs
end

section
/-! SUPPORT. The seam network: its instructions (R308 to R315), and the steps of its units (R296 to R303). -/

namespace Sys2Proof.Machine

/-! The instructions. -/

@[simp] theorem bitsOf_zero_start (w n : Nat) : bitsOf w 0 n = w % 2 ^ n := by
  rw [bitsOf, Nat.pow_zero, Nat.div_one]

/-- Bits lo to 63 of a word are zero exactly when nothing is left of it above bit lo. -/
theorem zeroBits_top (w : Word) {lo : Nat} (hlo : lo ≤ 63) : zeroBits w lo 63 = decide (w.toNat / 2 ^ lo = 0) := by
  have hlt : w.toNat / 2 ^ lo < 2 ^ (63 + 1 - lo) :=
    Nat.div_lt_of_lt_mul (by rw [← Nat.pow_add, show lo + (63 + 1 - lo) = 64 by omega]; exact w.isLt)
  rw [zeroBits, bitsOf, Nat.mod_eq_of_lt hlt]

/-- SMOPEN's configuration word has its reserved bits zero (R310). -/
theorem seamConfig_clean {cfg : Word} (hlo : cfg.toNat / 2 ^ 13 % 8 = 0) (hhi : cfg.toNat / 2 ^ 18 = 0) :
    (zeroBits cfg 13 15 && zeroBits cfg 18 63) = true :=
  Bool.and_eq_true_iff.2 ⟨decide_eq_true hlo, (zeroBits_top cfg (by decide)).trans (decide_eq_true hhi)⟩

/-- What SMABORT does to a current context that no access has parked (R315). -/
def State.abortRunning (s : State) (key c : Nat) (y : SeamCtx) (f : Firing) : State :=
  let y1 := { y with aborters := y.aborters ++ [f] }
  if y.st = .ending then s.putSeam key c y1
  else if y.phase = .boundary then s.endSeam key c y1 .aborted
  else s.putSeam key c (y1.stopWith .aborted)

section Instructions
variable {s : State} {x : FormE} (h : s.RunsPlain x.pm)
include h

/-- SMOPEN with a configuration that R310 allows goes on to its context. -/
theorem exec_smopen_config (inst ctx : BitVec 2) {key : Nat} (hlo : (s.opEA s.cur x).toNat % 2 ^ 13 ≠ 0)
    (hhi : (s.opEA s.cur x).toNat % 2 ^ 13 ≤ 4096) (hmid : (s.opEA s.cur x).toNat / 2 ^ 13 % 8 = 0)
    (htop : (s.opEA s.cur x).toNat / 2 ^ 18 = 0)
    (hlen : 32 + 8 * ((s.opEB s.cur x).toNat % 2 ^ 32) ≤ (s.sw2 s.cur x).length)
    (hkey : s.seamKey s.cur.launch ((s.launch s.cur.launch).panel.locate s.cur.cl).1 inst.toNat = some key) :
    exec (.smopen x inst ctx) s = .next (
      if (s.seamCtx key ctx.toNat).st ≠ .free then s.trap s.cur 0x0502
      else if badHandle (s.cur.knotOf x) then s.faultFiring s.cur .knotHandle (s.cur.knotOf x) 0
      else s.putSeam key ctx.toNat { SeamCtx.free ((s.seamCtx key ctx.toNat).gen + 1) with
        st := .binding, firing := s.cur, n := (s.opEA s.cur x).toNat % 2 ^ 13, op := (s.opEA s.cur x).toNat / 2 ^ 16 % 4
        sw1 := x.sw1.toNat, sw2 := x.sw2.toNat, ovcap := (s.opEB s.cur x).toNat % 2 ^ 32, knot := s.cur.knotOf x
        add := s.addOf s.cur x, charged := 32 + 8 * ((s.opEB s.cur x).toNat % 2 ^ 32), phase := .opening }) := by
  refine (State.fireHeld_plain h _ : execSmopen x inst ctx s = _).trans (congrArg _ ?_)
  have hgood : ¬ ((s.opEA s.cur x).toNat % 2 ^ 13 = 0 ∨ 4096 < (s.opEA s.cur x).toNat % 2 ^ 13 ∨
      (!(zeroBits (s.opEA s.cur x) 13 15 && zeroBits (s.opEA s.cur x) 18 63)) = true ∨
      (s.sw2 s.cur x).length < 32 + 8 * ((s.opEB s.cur x).toNat % 2 ^ 32)) := by
    rw [seamConfig_clean hmid htop]
    exact not_or.2 ⟨hlo, not_or.2 ⟨Nat.not_lt.2 hhi, not_or.2 ⟨Bool.false_ne_true, Nat.not_lt.2 hlen⟩⟩⟩
  simp only [bitsOf_zero_start, hkey]
  exact if_neg hgood

/-- SMOPEN of a number of inputs out of range, or of a run area without room for the status and the overflow segment (R310). -/
theorem exec_smopen_badConfig (inst ctx : BitVec 2)
    (hbad : (s.opEA s.cur x).toNat % 2 ^ 13 = 0 ∨ 4096 < (s.opEA s.cur x).toNat % 2 ^ 13 ∨
      (s.sw2 s.cur x).length < 32 + 8 * ((s.opEB s.cur x).toNat % 2 ^ 32)) :
    exec (.smopen x inst ctx) s = .next (s.trap s.cur 0x0501) := by
  refine (State.fireHeld_plain h _ : execSmopen x inst ctx s = _).trans (congrArg _ ?_)
  simp only [bitsOf_zero_start]
  exact if_pos (hbad.imp_right (Or.imp_right .inr))

section Named
variable {key c : Nat} (hnamed : s.seamNamed s.cur.launch (s.opEA s.cur x) = some (key, c))
include hnamed

theorem exec_smfeed_named : exec (.smfeed x) s = .next (
    if (s.seamCtx key c).st ≠ .binding then s.trap s.cur 0x0505
    else if (s.seamCtx key c).n ≤ (s.opEB s.cur x).toNat % 2 ^ 12 ∨
        ((s.seamCtx key c).inputs.any fun i => decide (i.idx = (s.opEB s.cur x).toNat % 2 ^ 12)) = true ∨
        (s.seam key).portHeld c (s.seamGroup (s.seamCtx key c)) ((s.opEB s.cur x).toNat % 2 ^ 12)
          ((s.opEB s.cur x).toNat / 2 ^ 16 % 2 ^ 5) = true
      then s.trap s.cur 0x0504
    else (s.putSeam key c { s.seamCtx key c with inputs := (s.seamCtx key c).inputs ++
      [SeamIn.bind ((s.opEB s.cur x).toNat % 2 ^ 12) ((s.opEB s.cur x).toNat / 2 ^ 16 % 2 ^ 5)] }).engineReply s.cur false .completion 0) := by
  refine (State.fireHeld_plain h _ : execSmfeed x s = _).trans (congrArg _ ?_)
  simp only [hnamed, bitsOf_zero_start]
  rfl

theorem exec_smclose_named : exec (.smclose x) s = .next (
    if (s.seamCtx key c).st ≠ .binding ∨ (s.seamCtx key c).inputs.length < (s.seamCtx key c).n then s.trap s.cur 0x0505
    else (s.putSeam key c { s.seamCtx key c with st := .merging, used := 1 }).engineReply s.cur false .completion 0) := by
  refine (State.fireHeld_plain h _ : execSmclose x s = _).trans (congrArg _ ?_)
  simp only [hnamed]

theorem exec_smstat_named : exec (.smstat x) s = .next (s.engineReply s.cur false .value (s.seamCtx key c).statWord) := by
  refine (State.fire_runs h.1 _ : execSmstat x s = _).trans (congrArg _ ?_)
  simp only [hnamed]

theorem exec_smabort_running (hpark : (s.seamCtx key c).parked = none) :
    exec (.smabort x) s = .next (s.abortRunning key c (s.seamCtx key c) s.cur) := by
  refine (State.fireHeld_plain h _ : execSmabort x s = _).trans (congrArg _ ?_)
  simp only [State.abortRunning, hnamed, hpark]

theorem exec_smabort_parked {id : Nat} (hpark : (s.seamCtx key c).parked = some id) (hst : (s.seamCtx key c).st ≠ .ending)
    (hphase : (s.seamCtx key c).phase ≠ .opening) :
    exec (.smabort x) s = .next ((s.discardRecord s.cur.launch id).endSeam key c
      { s.seamCtx key c with aborters := (s.seamCtx key c).aborters ++ [s.cur] } .aborted) := by
  refine (State.fireHeld_plain h _ : execSmabort x s = _).trans (congrArg _ ?_)
  simp only [hnamed, hpark]
  exact (if_neg hst).trans (if_neg hphase)

end Named

/-- A handle that is not current: SMFEED and SMCLOSE trap, SMSTAT answers 0 and SMABORT is done (R311 to R315). -/
theorem exec_seam_of_stale (hstale : s.seamNamed s.cur.launch (s.opEA s.cur x) = none) :
    exec (.smfeed x) s = .next (s.trap s.cur 0x0503) ∧ exec (.smclose x) s = .next (s.trap s.cur 0x0503) ∧
    exec (.smstat x) s = .next (s.engineReply s.cur false .value 0) ∧
    exec (.smabort x) s = .next (s.engineReply s.cur false .completion 0) := by
  refine ⟨(State.fireHeld_plain h _ : execSmfeed x s = _).trans (congrArg _ ?_),
    (State.fireHeld_plain h _ : execSmclose x s = _).trans (congrArg _ ?_),
    (State.fire_runs h.1 _ : execSmstat x s = _).trans (congrArg _ ?_),
    (State.fireHeld_plain h _ : execSmabort x s = _).trans (congrArg _ ?_)⟩
  all_goals simp only [hstale]

end Instructions

end Sys2Proof.Machine

namespace Sys2Proof.Proofs
open Sys2Proof.Machine

/-- Settles O46. -/
theorem seamInstructions : Obligations.SeamInstructions := by
  intro x inst ctx s h f cfg n ovcap die
  refine ⟨exec_smopen_badConfig h inst ctx, fun key hlo hhi hmid htop hlen hkey => ?_, exec_seam_of_stale h, fun key c hnamed => ?_⟩
  · have hopen := exec_smopen_config h inst ctx hlo hhi hmid htop hlen hkey
    exact ⟨fun hst => hopen.trans (congrArg _ (if_pos hst)), fun hst hgood =>
      hopen.trans (congrArg _ ((if_neg (not_not_intro hst)).trans (if_neg (Bool.eq_false_iff.1 hgood))))⟩
  · have hfeed := exec_smfeed_named h hnamed
    have hclose := exec_smclose_named h hnamed
    refine ⟨fun hst => ⟨hfeed.trans (congrArg _ (if_pos hst)), hclose.trans (congrArg _ (if_pos (.inl hst)))⟩, fun hst => ⟨fun hk => ?_,
      fun hk hnew hfree => ?_, ?_⟩, exec_smstat_named h hnamed, fun hst hpark => ?_, fun hst hpark => ?_, fun id hpark hst hphase =>
      exec_smabort_parked h hnamed hpark hst hphase⟩
    · exact hfeed.trans (congrArg _ ((if_neg (not_not_intro hst)).trans (if_pos (.inl hk))))
    · refine hfeed.trans (congrArg _ ((if_neg (not_not_intro hst)).trans (if_neg ?_)))
      exact not_or.2 ⟨Nat.not_le.2 hk, not_or.2 ⟨Bool.eq_false_iff.1 hnew, Bool.eq_false_iff.1 hfree⟩⟩
    · exact hclose.trans (congrArg _ (if_congr (or_iff_right (not_not_intro hst)) rfl rfl))
    · exact (exec_smabort_running h hnamed hpark).trans (congrArg _ (if_pos hst))
    · exact (exec_smabort_running h hnamed hpark).trans (congrArg _ ((if_neg hst).trans (by rfl)))

end Sys2Proof.Proofs
end

section
/-! SUPPORT. The steps of a seam unit (R296 to R303): its ports, the merge of a row, and what a context writes. -/

namespace Sys2Proof.Machine

/-! The merge of a row's entries (R300). -/

/-- The values of one column, in the order of the words. -/
def valuesAt (col : Nat) (ws : List (Nat × BitVec 32)) : List (BitVec 32) := (ws.filter fun e => decide (e.1 = col)).map Prod.snd

/-- Entries in ascending columns. -/
abbrev Ascending (es : List (Nat × BitVec 32)) : Prop := es.Pairwise fun a b => a.1 < b.1

/-- A value joins what its column holds. -/
def joinValue (op : Nat) (o : Option (BitVec 32)) (v : BitVec 32) : Option (BitVec 32) :=
  some (match o with
    | none => v
    | some a => seamComb op a v)

theorem look_eq_none_of_lt {c : Nat} {es : List (Nat × BitVec 32)} (h : ∀ e ∈ es, c < e.1) : look es c = none :=
  Option.eq_none_iff_forall_ne_some.2 fun _ hv => absurd (h _ (mem_of_look hv)) (Nat.lt_irrefl c)

theorem look_foldEntry_same (op c : Nat) (v : BitVec 32) (es : List (Nat × BitVec 32)) (hes : Ascending es) :
    look (foldEntry op c v es) c = joinValue op (look es c) v := by
  induction es with
  | nil => exact if_pos rfl
  | cons e es ih =>
    obtain ⟨d, a⟩ := e
    obtain ⟨hhead, htail⟩ := List.pairwise_cons.1 hes
    obtain hlt | heq | hgt := lt_trichotomy c d
    · have hnone : look ((d, a) :: es) c = none :=
        look_eq_none_of_lt (List.forall_mem_cons.2 ⟨hlt, fun e he => hlt.trans (hhead e he)⟩)
      rw [foldEntry, if_pos hlt, hnone]
      exact if_pos rfl
    · rw [foldEntry, if_neg heq.not_lt, if_pos heq, look, look, if_pos rfl, if_pos heq.symm]
      rfl
    · rw [foldEntry, if_neg hgt.not_gt, if_neg hgt.ne', look, look, if_neg hgt.ne, if_neg hgt.ne, ih htail]

theorem look_foldEntry_ne (op : Nat) {c k : Nat} (v : BitVec 32) (es : List (Nat × BitVec 32)) (hk : c ≠ k) :
    look (foldEntry op c v es) k = look es k := by
  induction es with
  | nil => exact if_neg hk
  | cons e es ih =>
    obtain ⟨d, a⟩ := e
    obtain hlt | heq | hgt := lt_trichotomy c d
    · rw [foldEntry, if_pos hlt]
      exact if_neg hk
    · rw [foldEntry, if_neg heq.not_lt, if_pos heq, look, look, if_neg hk, if_neg (heq ▸ hk)]
    · rw [foldEntry, if_neg hgt.not_gt, if_neg hgt.ne', look, look, ih]

/-- The columns of a fold are those there and the one folded in. -/
theorem column_of_mem_foldEntry {op c : Nat} {v : BitVec 32} {es : List (Nat × BitVec 32)} {e : Nat × BitVec 32}
    (h : e ∈ foldEntry op c v es) : e.1 = c ∨ ∃ e' ∈ es, e.1 = e'.1 := by
  induction es with
  | nil => exact .inl (congrArg Prod.fst (List.mem_singleton.1 h))
  | cons d es ih =>
    rw [foldEntry] at h
    split_ifs at h
    · obtain rfl | h := List.mem_cons.1 h
      · exact .inl rfl
      · exact .inr ⟨e, h, rfl⟩
    · obtain rfl | h := List.mem_cons.1 h
      · exact .inl rfl
      · exact .inr ⟨e, List.mem_cons_of_mem _ h, rfl⟩
    · obtain rfl | h := List.mem_cons.1 h
      · exact .inr ⟨_, List.mem_cons_self, rfl⟩
      · obtain hc | ⟨e', he', hc⟩ := ih h
        · exact .inl hc
        · exact .inr ⟨e', List.mem_cons_of_mem _ he', hc⟩

theorem ascending_foldEntry (op c : Nat) (v : BitVec 32) (es : List (Nat × BitVec 32)) (hes : Ascending es) :
    Ascending (foldEntry op c v es) := by
  induction es with
  | nil => exact List.pairwise_singleton _ _
  | cons e es ih =>
    obtain ⟨d, a⟩ := e
    obtain ⟨hhead, htail⟩ := List.pairwise_cons.1 hes
    obtain hlt | heq | hgt := lt_trichotomy c d
    · rw [foldEntry, if_pos hlt]
      exact List.pairwise_cons.2 ⟨List.forall_mem_cons.2 ⟨hlt, fun e he => hlt.trans (hhead e he)⟩, hes⟩
    · rw [foldEntry, if_neg heq.not_lt, if_pos heq]
      exact List.pairwise_cons.2 ⟨fun e he => heq ▸ hhead e he, htail⟩
    · rw [foldEntry, if_neg hgt.not_gt, if_neg hgt.ne']
      refine List.pairwise_cons.2 ⟨fun e he => ?_, ih htail⟩
      obtain hc | ⟨e', he', hc⟩ := column_of_mem_foldEntry he
      · exact hc ▸ hgt
      · exact hc ▸ hhead e' he'

theorem ascending_foldEntries (op : Nat) (es acc : List (Nat × BitVec 32)) (hacc : Ascending acc) : Ascending (foldEntries op acc es) := by
  induction es generalizing acc with
  | nil => exact hacc
  | cons e es ih => exact ih _ (ascending_foldEntry op e.1 e.2 acc hacc)

theorem look_foldEntries (op col : Nat) (es acc : List (Nat × BitVec 32)) (hacc : Ascending acc) :
    look (foldEntries op acc es) col = (valuesAt col es).foldl (joinValue op) (look acc col) := by
  induction es generalizing acc with
  | nil => rfl
  | cons e es ih =>
    refine (ih _ (ascending_foldEntry op e.1 e.2 acc hacc)).trans ?_
    by_cases he : e.1 = col
    · rw [valuesAt, valuesAt, List.filter_cons, if_pos (decide_eq_true he), ← he, look_foldEntry_same op e.1 e.2 acc hacc]
      rfl
    · rw [valuesAt, valuesAt, List.filter_cons, if_neg (by simpa using he), look_foldEntry_ne op e.2 acc he]

theorem foldl_joinValue_some (op : Nat) (vs : List (BitVec 32)) (v : BitVec 32) :
    vs.foldl (joinValue op) (some v) = some (vs.foldl (seamComb op) v) := by
  induction vs generalizing v with
  | nil => rfl
  | cons w vs ih => exact ih _

/-- What a column holds after a row's words are merged. -/
theorem look_foldEntries_nil (op col : Nat) (es : List (Nat × BitVec 32)) :
    look (foldEntries op [] es) col = match valuesAt col es with
      | [] => none
      | v :: vs => some (vs.foldl (seamComb op) v) := by
  rw [look_foldEntries op col es [] List.Pairwise.nil]
  cases valuesAt col es with
  | nil => rfl
  | cons v vs => exact foldl_joinValue_some op vs v

theorem foldEntries_append (op : Nat) (acc es es' : List (Nat × BitVec 32)) :
    foldEntries op acc (es ++ es') = foldEntries op (foldEntries op acc es) es' := List.foldl_append

/-- The words that an input holds of a row, none of them in a run. -/
def SeamIn.wordsOf (r : Nat) (i : SeamIn) : List (Nat × BitVec 32) :=
  match i.rows.head? with
  | some f => if f.row = r then f.entries ++ f.held else []
  | none => []

/-- A row of members without runs is merged from what their fibre buffers hold. -/
theorem mergeInputs_of_short (op r : Nat) (is : List SeamIn) (got acc : List (Nat × BitVec 32))
    (hshort : ∀ i ∈ is, ∀ f, i.rows.head? = some f → f.long = none) :
    mergeInputs op r is got acc = foldEntries op acc (is.flatMap (SeamIn.wordsOf r)) := by
  induction is generalizing acc with
  | nil => rfl
  | cons i is ih =>
    obtain ⟨hi, his⟩ := List.forall_mem_cons.1 hshort
    rw [mergeInputs, List.flatMap_cons, foldEntries_append]
    cases hhead : i.rows.head? with
    | none => exact (ih acc his).trans (by rw [SeamIn.wordsOf, hhead]; rfl)
    | some f =>
      by_cases hrow : f.row = r
      · simp only [if_pos hrow, hi f hhead, Option.map_none, Option.getD_none, List.drop_zero, List.take_zero, List.append_nil]
        rw [ih _ his, SeamIn.wordsOf, hhead]
        simp only [if_pos hrow]
      · simp only [if_neg hrow]
        rw [ih _ his, SeamIn.wordsOf, hhead]
        simp only [if_neg hrow]
        rfl

/-! The ports (R296, R298, R304). -/

theorem exec_seamTokenArrival {s : State} {die k key : Nat} {a : Arrival} {i p : BitVec 8}
    (hfirst : behindSame (getAt s.dieArr die []) k = false) (hk : nth (getAt s.dieArr die []) k = some a)
    (heng : a.out.eng = some (3, i, p)) (hkey : s.seamKey a.launch a.out.tok.tag.die.toNat i.toNat = some key)
    (hmoves : (s.launch a.launch).moves = true) :
    exec (.seamTokenArrival die k) s =
      .next (({ s with dieArr := setAt s.dieArr die (dropNth (getAt s.dieArr die []) k) [] } : State).onSeam key fun u =>
        u.setPort p.toNat { u.port p.toNat with queue := (u.port p.toNat).queue ++ [a.out] }) := by
  change execSeamTokenArrival die k s = _
  simp only [execSeamTokenArrival, hfirst, hk, heng, hkey, hmoves, ne_eq, not_true_eq_false, Bool.true_eq_false, Bool.false_eq_true,
    or_self, if_false]

section Port
variable {l unit port key : Nat} {h : PortHead} {s : State} (hkey : s.seamKey l (unit / 4) (unit % 4) = some key)
  (hl : (s.launch l).engines = true) (hhalt : (s.launch l).halting = false)
  (hhead : s.portHead l key (unit / 4) (unit % 4) port = some h)
include hkey hl hhalt hhead

theorem exec_seamPortWord_discard (hd : ((s.seam key).port port).discard ≠ 0) :
    exec (.seamPortWord l unit port) s = .next ((s.portTake l key (unit / 4) (unit % 4) port).onSeam key fun u =>
      u.setPort port { u.port port with discard :=
        if h.bad = false ∧ h.word.mark = 15 then ((s.seam key).port port).discard - 1 else ((s.seam key).port port).discard }) := by
  change execSeamPortWord l unit port s = _
  simp only [execSeamPortWord, hkey, hl, hhalt, hhead, if_pos hd, Bool.not_true, Bool.false_eq_true, if_false, Bool.and_eq_true,
    Bool.not_eq_true', decide_eq_true_eq]

theorem exec_seamPortWord_input (hd : ((s.seam key).port port).discard = 0) {c : Nat} {x : SeamCtx} {i : SeamIn}
    (hin : s.portInput key port = some (c, x, i)) :
    exec (.seamPortWord l unit port) s = .next (s.inputWord l key (unit / 4) (unit % 4) c x i h) := by
  change execSeamPortWord l unit port s = _
  simp only [execSeamPortWord, hkey, hl, hhalt, hhead, if_neg (not_not_intro hd), Bool.not_true, Bool.false_eq_true, if_false, hin]

end Port

/-- A port's words go to the first context when that merges at level 0 and an input of its group that has not ended is bound to it. -/
theorem State.portInput_of_first {s : State} {key port : Nat} {i : SeamIn} (hst : (s.seamCtx key 0).st = .merging)
    (hlevel : (s.seamCtx key 0).level = 0) (hend : (s.seamCtx key 0).endWith = none)
    (hi : ((s.seamCtx key 0).groupInputs (s.seamGroup (s.seamCtx key 0))).find? (fun i => decide (i.port = port) && !i.ended) = some i) :
    s.portInput key port = some (0, s.seamCtx key 0, i) := by
  have hfirst : (if (s.seamCtx key 0).st = .merging ∧ (s.seamCtx key 0).level = 0 ∧ (s.seamCtx key 0).endWith = none then
      (((s.seamCtx key 0).groupInputs (s.seamGroup (s.seamCtx key 0))).find? fun i => decide (i.port = port) && !i.ended).map
        fun i => (0, s.seamCtx key 0, i) else none) = some (0, s.seamCtx key 0, i) := by
    rw [if_pos ⟨hst, hlevel, hend⟩, hi]
    rfl
  rw [State.portInput, countFrom, List.findSome?_cons]
  simp only [hfirst]

/-- A data word in order joins the row being filled (R298). -/
theorem State.inputWord_of_data {s : State} {l key die inst c : Nat} {x : SeamCtx} {i : SeamIn} {h : PortHead}
    (hbroken : i.broken = false) (hbad : h.bad = false) (hmark : h.word.mark = 0) (hcol : i.lastCol ≤ h.word.coord.toNat)
    (hcols : h.word.coord.toNat < (s.seamOut x).cols) (hroom : i.cur.length < 1024) (hpark : x.parked = none) :
    s.inputWord l key die inst c x i h = (s.portTake l key die inst i.port).putSeam key c
      (x.putIn { i with cur := i.cur ++ [(h.word.coord.toNat, h.word.value)], lastCol := h.word.coord.toNat + 1 }) := by
  have hm : h.word.mark.toNat = 0 := by rw [hmark]; rfl
  have hstall : ¬ (x.parked.isSome = true ∧ 1024 ≤ i.buffered) := fun hp => by rw [hpark] at hp; exact absurd hp.1 Bool.false_ne_true
  simp only [State.inputWord, hbroken, hbad, hm, Bool.false_eq_true, if_false, if_true, if_neg (Nat.not_lt.2 hcol),
    if_neg (Nat.not_le.2 hcols), if_pos hroom, if_neg hstall]

/-! The acts of a context (R299 to R303). -/

section Active
variable {l unit c key : Nat} {x : SeamCtx} {s : State} (hact : s.seamActive l unit c = some (key, x))
include hact

theorem exec_seamMergeRow_active (hst : x.st ≠ .ending) : exec (.seamMergeRow l unit c) s = .next (s.seamStep key c x) := by
  change execSeamMergeRow l unit c s = _
  simp only [execSeamMergeRow, hact, if_neg hst]

theorem exec_seamContextEnd_add (hst : x.st = .ending) (hphase : x.phase = .add) (hleft : allDone x.left = true) :
    exec (.seamContextEnd l unit c) s = .next (s.seamAdd key c x) := by
  change execSeamContextEnd l unit c s = _
  simp only [execSeamContextEnd, hact, if_neg (not_not_intro hst), hleft, Bool.not_true, Bool.false_eq_true, if_false, if_pos hphase]

end Active

section Acts
variable {s : State} {key c : Nat} {x : SeamCtx}

theorem State.seamStep_of_moved (h : allDone x.accs = false) {as_ : List Acc} {t : State}
    (ht : s.accsStep (s.seamClient x) x.accs = .moved as_ t) : s.seamStep key c x = t.putSeam key c { x with accs := as_ } := by
  simp only [State.seamStep, h, Bool.not_false, if_true, ht]

theorem State.seamStep_of_bad (h : allDone x.accs = false) {k : FaultKind} {d : Word} {a : Nat} {t : State}
    (ht : s.accsStep (s.seamClient x) x.accs = .bad k d a t) : s.seamStep key c x = t.parkSeam key c x k d a 0 := by
  simp only [State.seamStep, h, Bool.not_false, if_true, ht]

theorem State.seamStep_of_performed (hdone : allDone x.accs = true) (hne : x.accs ≠ []) (hphase : x.phase ≠ .reading) :
    s.seamStep key c x = s.putSeam key c { x with
      accs := [], idx := x.idx + 1, ptr := if x.phase = .pointers ∨ x.phase = .trailing then x.ptr + 1 else x.ptr } := by
  simp only [State.seamStep, hdone, Bool.not_true, Bool.false_eq_true, if_false, if_pos (And.intro hne hphase)]

/-- With no access to perform, a context takes its next item. -/
theorem State.seamStep_of_item (hdone : allDone x.accs = true) (hnext : x.accs = [] ∨ x.phase = .reading) :
    s.seamStep key c x = match s.seamItem x with
      | .accs as_ => s.putSeam key c { x with accs := as_ }
      | .past => s.phaseOver key c x
      | .spill => (s.countEntries key x (if x.phase = .entries then x.idx else 0)).2.endSeam key c
          (s.countEntries key x (if x.phase = .entries then x.idx else 0)).1 .spill := by
  have hgo : ¬ (x.accs ≠ [] ∧ x.phase ≠ .reading) := fun h => hnext.elim h.1 h.2
  simp only [State.seamStep, hdone, Bool.not_true, Bool.false_eq_true, if_false, if_neg hgo] <;> rfl

theorem State.seamStep_of_accs (haccs : x.accs = []) {as_ : List Acc} (h : s.seamItem x = .accs as_) :
    s.seamStep key c x = s.putSeam key c { x with accs := as_ } := by
  rw [State.seamStep_of_item (by rw [haccs]; rfl) (.inl haccs), h]

theorem State.seamStep_of_past (hdone : allDone x.accs = true) (hnext : x.accs = [] ∨ x.phase = .reading) (h : s.seamItem x = .past) :
    s.seamStep key c x = s.phaseOver key c x := by
  rw [State.seamStep_of_item hdone hnext, h]

theorem State.seamStep_of_spill (haccs : x.accs = []) (hphase : x.phase = .entries) (h : s.seamItem x = .spill) :
    s.seamStep key c x = (s.meter x.firing.launch (key / 4) 16 x.idx).endSeam key c
      { x with entries := x.entries + x.idx, ovcount := x.entries + x.idx - (s.seamOut x).csrCap } .spill := by
  rw [State.seamStep_of_item (by rw [haccs]; rfl) (.inl haccs), h, if_pos hphase]
  rfl

/-- The merge of a row at level 0, the last level, of members without runs (R300). -/
theorem State.mergeRow_of_short (hlevel : x.level = 0) (hlast : x.lastLevel (s.seamGroup x) = true)
    (hshort : ∀ i ∈ x.groupInputs (s.seamGroup x), ∀ f, i.rows.head? = some f → f.long = none) :
    s.mergeRow x = { x with
      accs := [], ents := foldEntries x.op [] ((x.groupInputs (s.seamGroup x)).flatMap (SeamIn.wordsOf x.row))
      idx := 0, ptr := x.rowsDone + 1, mrow := x.row + 1, phase := .entries
      inputs := x.inputs.map fun i =>
        if (x.groupInputs (s.seamGroup x)).any (fun j => decide (j.idx = i.idx)) = true ∧ i.rows.head?.map FibreRow.row = some x.row then
          { i with rows := i.rows.drop 1 }
        else i } := by
  rw [← mergeInputs_of_short x.op x.row _ (entriesOf (gotOf x.accs)) [] hshort]
  simp only [State.mergeRow, if_pos hlevel, if_pos hlast, Bool.and_eq_true, decide_eq_true_eq]

theorem State.phaseOver_of_reading (h : x.phase = .reading) : s.phaseOver key c x = s.putSeam key c (s.mergeRow x) := by
  rw [State.phaseOver, h]

theorem State.phaseOver_of_pointers (h : x.phase = .pointers) :
    s.phaseOver key c x = (s.meter x.firing.launch (key / 4) 16 x.ents.length).putSeam key c { x with
      entries := x.entries + x.ents.length, ovcount := x.entries + x.ents.length - (s.seamOut x).csrCap
      phase := .boundary, rowsDone := x.row + 1, ents := [] } := by
  rw [State.phaseOver, h] <;> rfl

/-! What a context writes next (R301, R302). -/

theorem State.seamItem_of_reading (h : x.phase = .reading) : s.seamItem x = .past := by rw [State.seamItem, h]

/-- The bits of an entry's value in the output's element type. -/
def Swatch.entryBits (w : Swatch) (v : BitVec 32) : Nat :=
  if w.elem = 4 then (roundVal bf16 .rne (fp32.decode v.toNat)).1 else v.toNat

theorem State.seamItem_of_entry (h : x.phase = .entries) {col : Nat} {v : BitVec 32} (hent : nth x.ents x.idx = some (col, v)) :
    s.seamItem x =
      if x.entries + x.idx < (s.seamOut x).csrCap then
        .accs ((s.seamOut x).puts32 ((s.seamOut x).coordOff + 4 * (x.entries + x.idx)) col ++
          (s.seamOut x).elemTo ((s.seamOut x).valueOff + (s.seamOut x).valueBytes * (x.entries + x.idx))
            (leBytes (s.seamOut x).valueBytes ((s.seamOut x).entryBits v)))
      else if x.entries + x.idx - (s.seamOut x).csrCap < x.ovcap then
        .accs [spillAcc (s.seamSpill x) (32 + 8 * (x.entries + x.idx - (s.seamOut x).csrCap)) (col + (s.seamOut x).entryBits v * 2 ^ 32)]
      else .spill := by
  simp only [State.seamItem, h, hent] <;> rfl

theorem State.seamItem_of_pointer (h : x.phase = .pointers) :
    s.seamItem x =
      if x.ptr ≤ x.row then .accs ((s.seamOut x).puts32 (4 * x.ptr) x.entries)
      else if x.ptr = x.row + 1 then .accs ((s.seamOut x).puts32 (4 * x.ptr) (x.entries + x.ents.length))
      else .past := by
  simp only [State.seamItem, h]

theorem State.seamItem_of_runHeader (h : x.phase = .run) (hrun : x.runAt ≠ 0) (hidx : x.idx = 0) :
    s.seamItem x = .accs (runHeader (s.seamSpill x) x.runAt x.ents.length x.row x.level x.group) := by
  simp only [State.seamItem, h, if_neg hrun, if_pos hidx]

theorem State.seamItem_of_runEntry (h : x.phase = .run) (hrun : x.runAt ≠ 0) {k col : Nat} {v : BitVec 32} (hidx : x.idx = k + 1)
    (hent : nth x.ents k = some (col, v)) :
    s.seamItem x = .accs [spillAcc (s.seamSpill x) (x.runAt + 8 + 8 * x.idx) (col + v.toNat * 2 ^ 32)] := by
  simp only [State.seamItem, h, if_neg hrun, hidx, Nat.succ_ne_zero, if_false, Nat.add_sub_cancel, hent]

end Acts

end Sys2Proof.Machine

namespace Sys2Proof.Proofs
open Sys2Proof.Machine

/-- Settles O47; a row's merge is the insertion of its words, in member order, into entries in ascending columns. -/
theorem seamSteps : Obligations.SeamSteps := by
  intro s
  refine ⟨fun die k key a i p => exec_seamTokenArrival, fun l unit port key h hkey hl hhalt hhead => ⟨?_, ?_⟩, fun l unit c key x hact =>
    ⟨fun hst as_ t hacc ht => ?_, fun hst k d a t hacc ht => ?_, fun hst => ?_, fun hst hphase hleft => ?_⟩⟩
  · exact exec_seamPortWord_discard hkey hl hhalt hhead
  · intro hd i x hst hlevel hpark hend hbroken hi hbad hmark hcol hcols hroom
    exact (exec_seamPortWord_input hkey hl hhalt hhead hd (State.portInput_of_first hst hlevel hend hi)).trans
      (congrArg _ (State.inputWord_of_data hbroken hbad hmark hcol hcols hroom hpark))
  · exact (exec_seamMergeRow_active hact hst).trans (congrArg _ (State.seamStep_of_moved hacc ht))
  · exact (exec_seamMergeRow_active hact hst).trans (congrArg _ (State.seamStep_of_bad hacc ht))
  · have hgoes : ∀ {t : State}, s.seamStep key c x = t → exec (.seamMergeRow l unit c) s = .next t := fun ht =>
      (exec_seamMergeRow_active hact (by rw [hst]; nofun)).trans (congrArg _ ht)
    intro goes puts out sw is
    refine ⟨fun hphase hdone hlevel hlast hshort => ?_, fun hphase hne hdone => hgoes (State.seamStep_of_performed hdone hne hphase),
      fun hphase haccs col v hent => ⟨fun hcap => ?_, fun hcap hov => ?_, fun hcap hov => ?_⟩,
      fun hphase haccs => ⟨fun hptr => ?_, fun hptr => ?_, fun hptr => ?_⟩, fun hphase haccs hrun => ⟨fun hidx => ?_, fun k col v hidx hent => ?_⟩⟩
    · refine ⟨foldEntries x.op [] (is.flatMap (SeamIn.wordsOf x.row)), ascending_foldEntries _ _ _ List.Pairwise.nil,
        fun col => look_foldEntries_nil x.op col _, ?_⟩
      exact hgoes ((State.seamStep_of_past hdone (.inr hphase) (State.seamItem_of_reading hphase)).trans
        ((State.phaseOver_of_reading hphase).trans (congrArg _ (State.mergeRow_of_short hlevel hlast hshort))))
    · exact hgoes (State.seamStep_of_accs haccs ((State.seamItem_of_entry hphase hent).trans (if_pos hcap)))
    · exact hgoes (State.seamStep_of_accs haccs ((State.seamItem_of_entry hphase hent).trans
        ((if_neg (Nat.not_lt.2 hcap)).trans (if_pos hov))))
    · exact hgoes (State.seamStep_of_spill haccs hphase ((State.seamItem_of_entry hphase hent).trans
        ((if_neg (Nat.not_lt.2 hcap)).trans (if_neg (Nat.not_lt.2 hov)))))
    · exact hgoes (State.seamStep_of_accs haccs ((State.seamItem_of_pointer hphase).trans (if_pos hptr)))
    · exact hgoes (State.seamStep_of_accs haccs ((State.seamItem_of_pointer hphase).trans
        ((if_neg (by omega)).trans (if_pos hptr))))
    · exact hgoes ((State.seamStep_of_past (by rw [haccs]; rfl) (.inl haccs) ((State.seamItem_of_pointer hphase).trans
        ((if_neg (by omega)).trans (if_neg (by omega))))).trans (State.phaseOver_of_pointers hphase))
    · exact hgoes (State.seamStep_of_accs haccs (State.seamItem_of_runHeader hphase hrun hidx))
    · exact hgoes (State.seamStep_of_accs haccs (State.seamItem_of_runEntry hphase hrun hidx hent))
  · exact exec_seamContextEnd_add hact hst hphase hleft

end Sys2Proof.Proofs
end

section
/-! SUPPORT. UMRANK's ranking (R326): scores are totally ordered, so the positions chosen are those that rank first. -/

namespace Sys2Proof.Machine

/-! The order of floating-point values, as an order of numbers. -/

/-- The rational that a finite value stands for. -/
def finVal (n : Bool) (m : Nat) (e : Int) : ℚ := (if n then -(m : ℚ) else m) * 2 ^ e

theorem alignSum_mul (n1 n2 : Bool) (m1 m2 : Nat) (e1 e2 : Int) :
    ((alignSum n1 m1 e1 (!n2) m2 e2).1 : ℚ) * 2 ^ (if e1 ≤ e2 then e1 else e2) = finVal n1 m1 e1 - finVal n2 m2 e2 := by
  have hscale : ∀ (m : Nat) {e e0 : Int}, e0 ≤ e → ((m * 2 ^ (e - e0).toNat : Nat) : ℚ) * 2 ^ e0 = m * 2 ^ e := by
    intro m e e0 he
    have hz : (2 : ℚ) ^ (e - e0).toNat = 2 ^ (e - e0) := by rw [← zpow_natCast, Int.toNat_of_nonneg (by omega)]
    rw [Nat.cast_mul, Nat.cast_pow, Nat.cast_ofNat, hz, mul_assoc, ← zpow_add₀ (by norm_num), sub_add_cancel]
  have h1 := hscale m1 (e := e1) (e0 := if e1 ≤ e2 then e1 else e2) (by split <;> omega)
  have h2 := hscale m2 (e := e2) (e0 := if e1 ≤ e2 then e1 else e2) (by split <;> omega)
  simp only [alignSum, finVal]
  cases n1 <;> cases n2 <;> push_cast at h1 h2 ⊢ <;> simp only [Bool.not_true, Bool.not_false, if_true, Bool.false_eq_true, if_false] <;>
    linarith

/-- Where a value stands in the ranking: a NaN below every number, the finite values between the infinities. -/
def FVal.standing : FVal → WithBot (WithBot (WithTop ℚ))
  | .nan _ => ⊥
  | .inf true => ((⊥ : WithBot (WithTop ℚ)) : WithBot (WithBot (WithTop ℚ)))
  | .inf false => (((⊤ : WithTop ℚ) : WithBot (WithTop ℚ)) : WithBot (WithBot (WithTop ℚ)))
  | .fin n m e => (((finVal n m e : WithTop ℚ) : WithBot (WithTop ℚ)) : WithBot (WithBot (WithTop ℚ)))

theorem ltVals_iff_standing {x y : FVal} (hx : x.isNan = false) (hy : y.isNan = false) : ltVals x y = true ↔ x.standing < y.standing := by
  cases x with
  | nan _ => cases hx
  | inf a => cases y with
    | nan _ => cases hy
    | inf b =>
      cases a <;> cases b
      case true.false => exact iff_of_true rfl (WithBot.coe_lt_coe.2 (WithBot.bot_lt_coe _))
      all_goals simp [ltVals, FVal.standing]
    | fin n m e => cases a <;> simp [ltVals, FVal.standing]
  | fin n m e => cases y with
    | nan _ => cases hy
    | inf b =>
      cases b
      · exact iff_of_true rfl (WithBot.coe_lt_coe.2 (WithBot.coe_lt_coe.2 (WithTop.coe_lt_top _)))
      · simp [ltVals, FVal.standing]
    | fin n' m' e' =>
      have hpos : (0 : ℚ) < 2 ^ (if e ≤ e' then e else e') := zpow_pos (by norm_num) _
      have hneg : ((alignSum n m e (!n') m' e').1 : ℚ) < 0 ↔ finVal n m e < finVal n' m' e' := by
        rw [← sub_neg (b := finVal n' m' e'), ← alignSum_mul]
        exact ⟨fun h => mul_neg_of_neg_of_pos h hpos, fun h => lt_of_not_ge fun h' => absurd h (mul_nonneg h' hpos.le).not_gt⟩
      rw [ltVals, decide_eq_true_eq, FVal.standing, FVal.standing, WithBot.coe_lt_coe, WithBot.coe_lt_coe, WithTop.coe_lt_coe, ← hneg,
        Int.cast_lt_zero]

theorem standing_of_isNan {x : FVal} (hx : x.isNan = true) : x.standing = ⊥ := by
  cases x with
  | nan _ => rfl
  | _ => cases hx

theorem bot_lt_standing {x : FVal} (hx : x.isNan = false) : ⊥ < x.standing := by
  cases x with
  | nan _ => cases hx
  | inf a => cases a <;> exact WithBot.bot_lt_coe _
  | fin _ _ _ => exact WithBot.bot_lt_coe _

/-! The ranking. -/

/-- Where a score stands. -/
def standingOf (a : Nat × Nat) : WithBot (WithBot (WithTop ℚ)) := (fp32.decode (a.2 % 2 ^ 32)).standing

/-- The ranking is by standing, highest first, and then by position. -/
theorem ranksBefore_iff (a b : Nat × Nat) :
    ranksBefore a b = true ↔ standingOf b < standingOf a ∨ standingOf a = standingOf b ∧ a.1 < b.1 := by
  simp only [ranksBefore, standingOf]
  cases hu : (fp32.decode (a.2 % 2 ^ 32)).isNan <;> cases hv : (fp32.decode (b.2 % 2 ^ 32)).isNan
  · have hgt := ltVals_iff_standing hv hu
    have hlt := ltVals_iff_standing hu hv
    simp only [Bool.or_self, Bool.false_eq_true, if_false]
    split
    · next h => exact ⟨fun _ => .inl (hgt.1 h), fun _ => rfl⟩
    · next h =>
      have hle := not_lt.1 (hgt.not.1 h)
      split
      · next h' =>
        have hne := hlt.1 h'
        exact ⟨fun h => absurd h Bool.false_ne_true, fun h => h.elim (fun h => absurd hne h.not_gt) fun h => absurd h.1 hne.ne⟩
      · next h' =>
        have heq := le_antisymm hle (not_lt.1 (hlt.not.1 h'))
        rw [decide_eq_true_eq]
        exact ⟨fun h => .inr ⟨heq, h⟩, fun h => h.elim (fun h => absurd h hle.not_gt) And.right⟩
  · exact ⟨fun _ => .inl (standing_of_isNan hv ▸ bot_lt_standing hu), fun _ => rfl⟩
  · have hlt := bot_lt_standing hv
    rw [standing_of_isNan hu]
    exact ⟨fun h => absurd h Bool.false_ne_true, fun h => h.elim (fun h => absurd hlt h.not_gt) fun h => absurd h.1 hlt.ne⟩
  · rw [standing_of_isNan hu, standing_of_isNan hv]
    simp

theorem ranksBefore_trans {a b c : Nat × Nat} (hab : ranksBefore a b = true) (hbc : ranksBefore b c = true) : ranksBefore a c = true := by
  rw [ranksBefore_iff] at *
  obtain hab | ⟨hab, hpab⟩ := hab
  · obtain hbc | ⟨hbc, -⟩ := hbc
    · exact .inl (hbc.trans hab)
    · exact .inl (hbc ▸ hab)
  · obtain hbc | ⟨hbc, hpbc⟩ := hbc
    · exact .inl (hab ▸ hbc)
    · exact .inr ⟨hab.trans hbc, hpab.trans hpbc⟩

/-- Of two scores of different positions one ranks before the other. -/
theorem ranksBefore_of_not {a b : Nat × Nat} (hne : a.1 ≠ b.1) (h : ranksBefore a b ≠ true) : ranksBefore b a = true := by
  rw [ne_eq, ranksBefore_iff, not_or, not_lt, not_and, not_lt] at h
  rw [ranksBefore_iff]
  obtain hlt | heq := h.1.lt_or_eq
  · exact .inl hlt
  · exact .inr ⟨heq.symm, lt_of_le_of_ne (h.2 heq) hne.symm⟩

theorem rankInto_perm (a : Nat × Nat) (l : List (Nat × Nat)) : (rankInto a l).Perm (a :: l) := by
  induction l with
  | nil => exact List.Perm.refl _
  | cons b l ih =>
    rw [rankInto]
    split
    · exact List.Perm.refl _
    · exact (ih.cons b).trans (List.Perm.swap a b l)

/-- A list in ranking order. -/
abbrev Ranked (l : List (Nat × Nat)) : Prop := l.Pairwise fun a b => ranksBefore a b = true

theorem ranked_rankInto {a : Nat × Nat} {l : List (Nat × Nat)} (hl : Ranked l) (ha : ∀ b ∈ l, a.1 ≠ b.1) : Ranked (rankInto a l) := by
  induction l with
  | nil => exact List.pairwise_singleton _ _
  | cons b l ih =>
    obtain ⟨hb, hl'⟩ := List.pairwise_cons.1 hl
    obtain ⟨hab, hal⟩ := List.forall_mem_cons.1 ha
    rw [rankInto]
    split
    · next h => exact List.pairwise_cons.2 ⟨List.forall_mem_cons.2 ⟨h, fun c hc => ranksBefore_trans h (hb c hc)⟩, hl⟩
    · next h =>
      refine List.pairwise_cons.2 ⟨fun c hc => ?_, ih hl' hal⟩
      obtain rfl | hc := List.mem_cons.1 ((rankInto_perm a l).mem_iff.1 hc)
      · exact ranksBefore_of_not hab h
      · exact hb c hc

/-- The scores in ranking order. -/
def rankOrder (l : List (Nat × Nat)) : List (Nat × Nat) := l.foldl (fun acc e => rankInto e acc) []

theorem foldl_rankInto_ranked (l acc : List (Nat × Nat)) (hacc : Ranked acc) (hnd : ((l ++ acc).map Prod.fst).Nodup) :
    Ranked (l.foldl (fun acc e => rankInto e acc) acc) ∧ (l.foldl (fun acc e => rankInto e acc) acc).Perm (l ++ acc) := by
  induction l generalizing acc with
  | nil => exact ⟨hacc, List.Perm.refl _⟩
  | cons a l ih =>
    have hperm : (l ++ rankInto a acc).Perm (a :: l ++ acc) := ((rankInto_perm a acc).append_left l).trans List.perm_middle
    have hfresh : ∀ b ∈ acc, a.1 ≠ b.1 := fun b hb he =>
      (List.nodup_cons.1 hnd).1 (he ▸ List.mem_map_of_mem (List.mem_append_right l hb))
    obtain ⟨hr, hp⟩ := ih (rankInto a acc) (ranked_rankInto hacc hfresh) ((hperm.map Prod.fst).nodup_iff.2 hnd)
    exact ⟨hr, hp.trans hperm⟩

theorem ranked_rankOrder {l : List (Nat × Nat)} (hnd : (l.map Prod.fst).Nodup) : Ranked (rankOrder l) ∧ (rankOrder l).Perm l := by
  have h := foldl_rankInto_ranked l [] List.Pairwise.nil (by rwa [List.append_nil])
  rwa [List.append_nil] at h

/-- The scores chosen: those whose position is one of the first `n` of the ranking, in the list's order. -/
def chosenOf (n : Nat) (l : List (Nat × Nat)) : List (Nat × Nat) :=
  l.filter fun e => decide (e.1 ∈ ((rankOrder l).take n).map Prod.fst)

theorem mem_chosenOf {n : Nat} {l : List (Nat × Nat)} (hnd : (l.map Prod.fst).Nodup) {e : Nat × Nat} (he : e ∈ l) :
    e ∈ chosenOf n l ↔ e ∈ (rankOrder l).take n := by
  have hperm := (ranked_rankOrder hnd).2
  rw [chosenOf, List.mem_filter, decide_eq_true_eq]
  refine ⟨fun h => ?_, fun h => ⟨he, List.mem_map_of_mem h⟩⟩
  obtain ⟨e', he', hpos⟩ := List.mem_map.1 h.2
  exact List.inj_on_of_nodup_map hnd (hperm.mem_iff.1 (List.mem_of_mem_take he')) he hpos ▸ he'

theorem length_chosenOf {n : Nat} {l : List (Nat × Nat)} (hnd : (l.map Prod.fst).Nodup) (hn : n ≤ l.length) : (chosenOf n l).length = n := by
  obtain ⟨-, hperm⟩ := ranked_rankOrder hnd
  have hnd' : (rankOrder l).Nodup := List.Nodup.of_map _ ((hperm.map Prod.fst).nodup_iff.2 hnd)
  have hsame : (chosenOf n l).Perm ((rankOrder l).take n) := by
    refine (List.perm_ext_iff_of_nodup (List.Nodup.filter _ (List.Nodup.of_map _ hnd)) (hnd'.sublist (List.take_sublist _ _))).2 fun e => ?_
    refine ⟨fun h => (mem_chosenOf hnd (List.mem_of_mem_filter h)).1 h, fun h => ?_⟩
    exact (mem_chosenOf hnd (hperm.mem_iff.1 (List.mem_of_mem_take h))).2 h
  rw [hsame.length_eq, List.length_take, hperm.length_eq, Nat.min_eq_left hn]

/-- What is chosen ranks before all that is not. -/
theorem chosenOf_ranksBefore {n : Nat} {l : List (Nat × Nat)} (hnd : (l.map Prod.fst).Nodup) {a b : Nat × Nat} (ha : a ∈ chosenOf n l)
    (hb : b ∈ l) (hnb : b ∉ chosenOf n l) : ranksBefore a b = true := by
  obtain ⟨hranked, hperm⟩ := ranked_rankOrder hnd
  have ha' := (mem_chosenOf hnd (List.mem_of_mem_filter ha)).1 ha
  have hb' : b ∈ (rankOrder l).drop n := by
    have h := hperm.mem_iff.2 hb
    rw [← List.take_append_drop n (rankOrder l)] at h
    exact (List.mem_append.1 h).resolve_left fun h => hnb ((mem_chosenOf hnd hb).2 h)
  rw [← List.take_append_drop n (rankOrder l)] at hranked
  exact (List.pairwise_append.1 hranked).2.2 a ha' b hb'

end Sys2Proof.Machine
end

section
/-! SUPPORT. The unmask engines: their instructions (R320 to R330), contexts and tokens (R317, R325), and what their commands do. -/

namespace Sys2Proof.Machine

/-! Two writes of one key. -/

theorem put_put {α : Type} (m : List (Nat × α)) (k : Nat) (v w : α) : put (put m k v) k w = put m k w := by
  induction m with
  | nil => simp [put]
  | cons e m ih =>
    obtain ⟨j, u⟩ := e
    by_cases hlt : k < j
    · simp [put, hlt]
    · by_cases heq : k = j
      · simp [put, heq]
      · simp [put, hlt, heq, ih]

theorem del_put {α : Type} (m : List (Nat × α)) (k : Nat) (v : α) : del (put m k v) k = del m k := by
  induction m with
  | nil => simp [put, del]
  | cons e m ih =>
    obtain ⟨j, u⟩ := e
    by_cases hlt : k < j
    · rw [put, if_pos hlt, del_cons, if_pos rfl]
    · by_cases heq : k = j
      · rw [put, if_neg hlt, if_pos heq, del_cons, del_cons, if_pos rfl, if_pos heq.symm]
      · rw [put, if_neg hlt, if_neg heq, del_cons, del_cons, ih]

/-- Of two writes of one key the second stands, where the first is not the default. -/
theorem setAt_setAt {α : Type} [DecidableEq α] (m : List (Nat × α)) (k : Nat) {v d : α} (w : α) (hv : v ≠ d) :
    setAt (setAt m k v d) k w d = setAt m k w d := by
  simp only [setAt, if_neg hv, put_put, del_put]

/-! Contexts of an engine. -/

@[simp] theorem State.um_onUm (s : State) (d : Nat) (g : UmEngine → UmEngine) : (s.onUm d g).um d = g (s.um d) :=
  getAt_setAt_same _ _ _ _

theorem State.onUm_congr (s : State) (d : Nat) {g h : UmEngine → UmEngine} (e : g (s.um d) = h (s.um d)) : s.onUm d g = s.onUm d h := by
  rw [State.onUm, State.onUm, e]

@[simp] theorem UmEngine.ctx_setCtx (e : UmEngine) (c : Nat) (x : UmCtx) : (e.setCtx c x).ctx c = x := getAt_setAt_same _ _ _ _

@[simp] theorem State.umCtx_putUm (s : State) (d c : Nat) (x : UmCtx) : (s.putUm d c x).umCtx d c = x := by
  rw [State.umCtx, State.putUm, State.um_onUm, UmEngine.ctx_setCtx]

/-- A context written twice, where what is first written has a command. -/
theorem State.putUm_putUm (s : State) (d c : Nat) {x y : UmCtx} (hx : x.queue ≠ []) : (s.putUm d c x).putUm d c y = s.putUm d c y := by
  have hctx : x ≠ UmCtx.blank := fun h => hx (congrArg UmCtx.queue h)
  have hput : ∀ m : List (Nat × UmCtx), put m c x ≠ [] := fun m h => by
    have := look_put_same m c x
    rw [h] at this
    cases this
  have heng : (s.um d).setCtx c x ≠ UmEngine.blank := fun h => by
    have := congrArg UmEngine.ctxs h
    rw [UmEngine.setCtx, setAt, if_neg hctx] at this
    exact hput _ this
  have hset : ((s.um d).setCtx c x).setCtx c y = (s.um d).setCtx c y := by
    rw [UmEngine.setCtx, UmEngine.setCtx, UmEngine.setCtx, setAt_setAt _ _ _ hctx]
  rw [State.putUm, State.onUm, State.putUm, State.um_onUm, hset, State.onUm, State.putUm, State.onUm, setAt_setAt _ _ _ heng]

/-! The instructions (R320 to R330). -/

theorem State.umSend_named {s : State} {f : Firing} {h : Word} {d c : Nat} (hn : s.umNamed f.launch h = some (d, c)) (query : Bool) :
    s.umSend f h query = s.putUm d c { s.umCtx d c with
      queue := (s.umCtx d c).queue ++ [{ UmCmd.ofFiring f with gen := some (s.umCtx d c).gen }] } := by
  rw [State.umSend, hn]

theorem State.umSend_stale {s : State} {f : Firing} {h : Word} (hn : s.umNamed f.launch h = none) (query : Bool) :
    s.umSend f h query = if query then s.engineReply f false .value 0 else s.trap f 0x0602 := by
  rw [State.umSend, hn]

section Sending
variable {s : State} {x : FormE} (h : s.RunsPlain x.pm)
include h

/-- The unmask instructions that check nothing before they are sent. -/
theorem exec_umSend (f16 : Bool) :
    exec (.umctxRelease x) s = .next (s.umSend s.cur (s.opEA s.cur x) false) ∧
    exec (.umscore x f16) s = .next (s.umSend s.cur (s.opEA s.cur x) false) ∧
    exec (.umtap x) s = .next (s.umSend s.cur (s.opEA s.cur x) false) ∧
    exec (.umclr x) s = .next (s.umSend s.cur (s.opEA s.cur x) false) :=
  have hs := State.fireHeld_plain h fun s f => s.umSend f (s.opEA f x) false
  ⟨hs, hs, hs, hs⟩

theorem exec_umQuery :
    exec (.umqryInfo x) s = .next (s.umSend s.cur (s.opEA s.cur x) true) ∧
    exec (.umqryMask x) s = .next (s.umSend s.cur (s.opEA s.cur x) true) ∧
    exec (.umqryDirty x) s = .next (s.umSend s.cur (s.opEA s.cur x) true) ∧
    exec (.umqryRound x) s = .next (s.umSend s.cur (s.opEA s.cur x) true) :=
  have hs := State.fire_runs h.1 fun s f => s.umSend f (s.opEA f x) true
  ⟨hs, hs, hs, hs⟩

/-- UMRANK and UMDIRTY check their knot first (R321). -/
theorem exec_umAdding :
    (badHandle (s.cur.knotOf x) = true →
      exec (.umrank x) s = .next (s.faultFiring s.cur .knotHandle (s.cur.knotOf x) 0) ∧
      exec (.umdirty x) s = .next (s.faultFiring s.cur .knotHandle (s.cur.knotOf x) 0)) ∧
    (badHandle (s.cur.knotOf x) = false →
      exec (.umrank x) s = .next (s.umSend s.cur (s.opEA s.cur x) false) ∧
      exec (.umdirty x) s = .next (s.umSend s.cur (s.opEA s.cur x) false)) := by
  have hrank := (State.fireHeld_plain h _ : execUmrank x s = _)
  have hdirty := (State.fireHeld_plain h _ : execUmdirty x s = _)
  exact ⟨fun hb => ⟨hrank.trans (congrArg _ (if_pos hb)), hdirty.trans (congrArg _ (if_pos hb))⟩, fun hb =>
    ⟨hrank.trans (congrArg _ (if_neg (Bool.eq_false_iff.1 hb))), hdirty.trans (congrArg _ (if_neg (Bool.eq_false_iff.1 hb)))⟩⟩

theorem exec_umctxOpen (die : BitVec 2) {d : Nat} (hd : nth (s.launch s.cur.launch).panel.dies die.toNat = some d) :
    exec (.umctxOpen x die) s = .next (s.onUm d fun e => { e with opens := e.opens ++ [s.cur] }) :=
  (State.fireHeld_plain h _ : execUmctxOpen x die s = _).trans (by simp only [hd])

theorem exec_umctxOpen_none (die : BitVec 2) (hd : nth (s.launch s.cur.launch).panel.dies die.toNat = none) :
    exec (.umctxOpen x die) s = .next (s.trap s.cur 0x0601) :=
  (State.fireHeld_plain h _ : execUmctxOpen x die s = _).trans (by simp only [hd])

end Sending

/-! Contexts granted, and tokens at unmask.in (R317, R325). -/

section Grant
variable {s : State} {d c : Nat} {f : Firing} {fs : List Firing} {y : FormE} {die : BitVec 2} (hf : f.Is (.umctxOpen y die))
  (hl : (s.launch f.launch).engines = true) (hhalt : (s.launch f.launch).halting = false) (hfree : (s.um d).freeCtx = some c)
include hf hl hhalt hfree

theorem exec_unmaskContextGrant_old (hold : (s.um d).old = f :: fs) :
    exec (.unmaskContextGrant d) s = .next (s.onUm d fun e => ({ e with old := fs }).setCtx c { (s.um d).ctx c with
      holder := some f.launch, sw1 := y.sw1.toNat, sw2 := y.sw2.toNat, queue := [{ UmCmd.ofFiring f with started := true }] }) := by
  change execUnmaskContextGrant d s = _
  simp only [execUnmaskContextGrant, hold, List.map_cons, List.cons_append, indexOf, hl, hhalt, Bool.not_false, Bool.and_self, if_true, hfree,
    nth, show decode f.word = _ from hf]
  refine congrArg _ (State.onUm_congr s d ?_)
  simp only [hold, List.length_cons, Nat.zero_lt_succ, if_true, dropNth]

theorem exec_unmaskContextGrant_new (hold : (s.um d).old = []) (hopens : (s.um d).opens = f :: fs) (hleft : s.savedLeft f.launch = false) :
    exec (.unmaskContextGrant d) s = .next (s.onUm d fun e => ({ e with opens := fs }).setCtx c { (s.um d).ctx c with
      holder := some f.launch, sw1 := y.sw1.toNat, sw2 := y.sw2.toNat, queue := [{ UmCmd.ofFiring f with started := true }] }) := by
  change execUnmaskContextGrant d s = _
  simp only [execUnmaskContextGrant, hold, hopens, List.map_nil, List.nil_append, List.map_cons, indexOf, hl, hhalt, hleft, Bool.not_false,
    Bool.and_self, if_true, hfree, nth, show decode f.word = _ from hf]
  refine congrArg _ (State.onUm_congr s d ?_)
  simp only [hold, hopens, List.length_nil, Nat.lt_irrefl, if_false, Nat.sub_self, dropNth]

end Grant

/-- The source by which a token at unmask.in keeps its order (R320). -/
def State.tokenSrc (s : State) (a : Arrival) : Nat :=
  match a.src with
  | some n => 2 ^ 21 + n
  | none => 2 ^ 22 + s.serial

theorem exec_unmaskInToken {s : State} {d k : Nat} {a : Arrival} {i p : BitVec 8}
    (hfirst : behindSame (getAt s.dieArr d []) k = false) (hk : nth (getAt s.dieArr d []) k = some a)
    (heng : a.out.eng = some (4, i, p)) (hmoves : (s.launch a.launch).moves = true) :
    exec (.unmaskInToken d k) s = .next (
      let s1 : State := { s with dieArr := setAt s.dieArr d (dropNth (getAt s.dieArr d []) k) [] }
      let c := bitsOf a.out.tok.payload.toNat 47 8
      if (s.umCtx d c).holder ≠ some a.launch then s1.strayToken d c 0x0602 a
      else if zeroBits a.out.tok.payload 55 63 = false then s1.strayToken d c 0x0603 a
      else { s1.putUm d c { s.umCtx d c with
          queue := (s.umCtx d c).queue ++ [UmCmd.ofToken (tokenFiring a.launch a.out.tok) a.out (s.tokenSrc a)] } with
        serial := s.serial + 1 }) := by
  change execUnmaskInToken d k s = _
  simp only [execUnmaskInToken, hfirst, hk, heng, hmoves, ne_eq, not_true_eq_false, Bool.true_eq_false, Bool.false_eq_true, or_self, if_false]
  rfl

end Sys2Proof.Machine
end

section
/-! SUPPORT. The commands of the unmask engines, access by access (R325 to R330). -/

namespace Sys2Proof.Machine

/-! Bits. -/

/-- An odd number less one: bit 0 is clear and every other as it was. -/
theorem testBit_sub_one_of_odd {n : Nat} (hodd : n % 2 = 1) (j : Nat) : (n - 1).testBit j = (n.testBit j && decide (j ≠ 0)) := by
  cases j with
  | zero =>
    rw [Nat.testBit_zero]
    simp only [ne_eq, not_true_eq_false, decide_false, Bool.and_false, decide_eq_false_iff_not]
    omega
  | succ j =>
    rw [Nat.testBit_succ, Nat.testBit_succ, show (n - 1) / 2 = n / 2 by omega]
    simp

/-- Clearing a bit of a number that has it takes its power of two off. -/
theorem testBit_clearBit (n b j : Nat) : (if n.testBit b then n - 2 ^ b else n).testBit j = (n.testBit j && decide (j ≠ b)) := by
  split
  · next hb =>
    have hodd : n / 2 ^ b % 2 = 1 := by simpa [Nat.testBit_eq_decide_div_mod_eq] using hb
    have hlow : n % 2 ^ b < 2 ^ b := Nat.mod_lt _ (Nat.two_pow_pos b)
    have hn : n = 2 ^ b * (n / 2 ^ b) + n % 2 ^ b := (Nat.div_add_mod n (2 ^ b)).symm
    have hpos : 1 ≤ n / 2 ^ b := Nat.pos_of_ne_zero fun h => by rw [h] at hodd; exact absurd hodd (by decide)
    have hm : n - 2 ^ b = 2 ^ b * (n / 2 ^ b - 1) + n % 2 ^ b := by
      rw [Nat.mul_sub, Nat.mul_one, ← Nat.sub_add_comm (Nat.le_mul_of_pos_right _ hpos), ← hn]
    rw [hm, Nat.testBit_two_pow_mul_add _ hlow]
    conv_rhs => rw [hn, Nat.testBit_two_pow_mul_add _ hlow]
    split
    · next hj => simp [hj.ne]
    · next hj =>
      rw [testBit_sub_one_of_odd hodd]
      congr 2
      exact propext (not_congr (by omega))
  · next hb =>
    by_cases hj : j = b
    · subst hj
      simp [hb]
    · simp [hj]

/-- A bitmap byte with the positions of a list cleared (R326). -/
theorem getLsbD_foldl_clear (l : List (Nat × Nat)) (block : Nat) (b : Byte) {j : Nat} (hj : j < 8) :
    (l.foldl (fun b e => if e.1 / 8 = block then b &&& ~~~(BitVec.ofNat 8 (2 ^ (e.1 % 8))) else b) b).getLsbD j =
      (b.getLsbD j && decide (block * 8 + j ∉ l.map Prod.fst)) := by
  induction l generalizing b with
  | nil => simp
  | cons e l ih =>
    have hbit : (if e.1 / 8 = block then b &&& ~~~(BitVec.ofNat 8 (2 ^ (e.1 % 8))) else b).getLsbD j =
        (b.getLsbD j && decide (block * 8 + j ≠ e.1)) := by
      split
      · next he =>
        have hiff : e.1 % 8 = j ↔ block * 8 + j = e.1 := by omega
        rw [BitVec.getLsbD_and, BitVec.getLsbD_not, BitVec.getLsbD_ofNat, Nat.testBit_two_pow]
        simp [hj, hiff]
      · next he =>
        have hne : block * 8 + j ≠ e.1 := by omega
        simp [hne]
    rw [List.foldl_cons, ih, hbit, Bool.and_assoc, ← Bool.decide_and, List.map_cons]
    simp only [List.mem_cons, not_or, ne_eq]

/-! One act of a context's command. -/

section Commands
variable {s : State} {d c : Nat} {x : UmCtx} {q : UmCmd} {qs : List UmCmd} {y : FormE}

theorem State.putCmd_eq (p : UmCmd) (hq : x.queue = q :: qs) : s.putCmd d c x p = s.putUm d c { x with queue := p :: qs } := by
  rw [State.putCmd, hq, List.drop_one, List.tail_cons]

theorem State.dropCmd_eq (hq : (s.umCtx d c).queue = q :: qs) : s.dropCmd d c = s.putUm d c { s.umCtx d c with queue := qs } := by
  simp only [State.dropCmd, hq, List.drop_one, List.tail_cons]

/-- A context under way performs its command. -/
theorem exec_unmaskCommandPerform_step (hq : (s.umCtx d c).queue = q :: qs) (hl : (s.launch q.firing.launch).engines = true)
    (hpark : q.parked = none) (hstart : q.started = true) :
    exec (.unmaskCommandPerform d c) s = .next (s.umStep d c (s.umCtx d c) q) := by
  change execUnmaskCommandPerform d c s = _
  simp only [execUnmaskCommandPerform, hq, hl, hpark, hstart, Option.isSome_none, Bool.not_true, Bool.or_self, Bool.false_eq_true, if_false,
    if_true]

theorem State.umStep_of_moved (h : allDone q.accs = false) {as_ : List Acc} {t : State}
    (ht : s.accsStep (s.umClient q) q.accs = .moved as_ t) : s.umStep d c x q = t.putCmd d c x { q with accs := as_ } := by
  simp only [State.umStep, h, Bool.false_eq_true, if_false, ht]

theorem State.umStep_of_done (h : allDone q.accs = true) : s.umStep d c x q = s.umAdvance d c x q := if_pos h

theorem State.umAdvance_of_token {o : OutTok} (h : q.tok = some o) : s.umAdvance d c x q = s.umToken d c x q o.tok := by
  rw [State.umAdvance, h]

/-- A command that a condition of Table 15.2 stops, where it is an instruction's. -/
theorem State.stopCmd_of_firing (h : q.tok = none) (code : Nat) : s.stopCmd d c code q = (s.dropCmd d c).trap q.firing code := by
  rw [State.stopCmd, State.umTrap, h]

/-! What an instruction's command does is its own. -/

section Firings
variable (htok : q.tok = none)
include htok

theorem State.umAdvance_of_release (h : q.firing.Is (.umctxRelease y)) : s.umAdvance d c x q =
    ((s.dropCmd d c).freeCtx d c { x with queue := x.queue.drop 1 }).engineReply q.firing false .completion 0 := by
  rw [State.umAdvance, htok, show decode q.firing.word = _ from h]

theorem State.umAdvance_of_score {f16 : Bool} (h : q.firing.Is (.umscore y f16)) : s.umAdvance d c x q =
    s.umScore d c x q y f16 := by
  rw [State.umAdvance, htok, show decode q.firing.word = _ from h]

theorem State.umAdvance_of_rank (h : q.firing.Is (.umrank y)) : s.umAdvance d c x q =
    s.umRank d c x q y := by
  rw [State.umAdvance, htok, show decode q.firing.word = _ from h]

theorem State.umAdvance_of_tap (h : q.firing.Is (.umtap y)) : s.umAdvance d c x q =
    s.umTap d c x q y := by
  rw [State.umAdvance, htok, show decode q.firing.word = _ from h]

theorem State.umAdvance_of_dirty (h : q.firing.Is (.umdirty y)) : s.umAdvance d c x q =
    s.umDirty d c x q y := by
  rw [State.umAdvance, htok, show decode q.firing.word = _ from h]

theorem State.umAdvance_of_clr (h : q.firing.Is (.umclr y)) : s.umAdvance d c x q =
    s.umClr d c x q y := by
  rw [State.umAdvance, htok, show decode q.firing.word = _ from h]

theorem State.umAdvance_of_queryInfo (h : q.firing.Is (.umqryInfo y)) : s.umAdvance d c x q =
    s.umQry d c x q y 0 := by
  rw [State.umAdvance, htok, show decode q.firing.word = _ from h]

theorem State.umAdvance_of_queryMask (h : q.firing.Is (.umqryMask y)) : s.umAdvance d c x q =
    s.umQry d c x q y 1 := by
  rw [State.umAdvance, htok, show decode q.firing.word = _ from h]

theorem State.umAdvance_of_queryDirty (h : q.firing.Is (.umqryDirty y)) : s.umAdvance d c x q =
    s.umQry d c x q y 2 := by
  rw [State.umAdvance, htok, show decode q.firing.word = _ from h]

theorem State.umAdvance_of_queryRound (h : q.firing.Is (.umqryRound y)) : s.umAdvance d c x q =
    s.umQry d c x q y 3 := by
  rw [State.umAdvance, htok, show decode q.firing.word = _ from h]

end Firings

/-- A context without commands is freed (R324). -/
theorem State.freeCtx_of_empty (h : x.queue = []) : s.freeCtx d c x = s.putUm d c x.freed := by
  rw [State.freeCtx, h]
  rfl

/-! UMSCORE (R325). -/

theorem State.umScore_begin (f16 : Bool) (h : q.phase = 0) : s.umScore d c x q y f16 =
    let w := (s.opEB q.firing y).toNat
    if bitsOf w 16 16 = 0 ∨ x.len < bitsOf w 0 16 + bitsOf w 16 16 ∨ w / 2 ^ 32 % 8 ≠ 0 ∨
        (s.swatch q.firing.launch y.sw1.toNat).length < w / 2 ^ 32 + 8 * bitsOf w 16 16 then s.stopCmd d c 0x0603 q
    else s.putCmd d c x { q with phase := 1 } := by
  rw [State.umScore, h]
  rfl

theorem State.umScore_read (f16 : Bool) (h : q.phase = 1) (haccs : q.accs = []) : s.umScore d c x q y f16 =
    let w := (s.opEB q.firing y).toNat
    if q.idx < bitsOf w 16 16 then
      s.putCmd d c x { q with accs := (s.swatch q.firing.launch y.sw1.toNat).readsFrom (w / 2 ^ 32 + 8 * q.idx) 8 }
    else s.umDone d c q .completion 0 := by
  rw [State.umScore, h]
  exact if_neg (not_not_intro haccs)

theorem State.umScore_write (f16 : Bool) (h : q.phase = 1) (haccs : q.accs ≠ []) : s.umScore d c x q y f16 =
    let e := leNat (gotOf q.accs)
    s.putCmd d c x { q with
      phase := 2
      accs := (s.swatch q.firing.launch x.sw1).writesTo (0x1000 + 8 * (bitsOf (s.opEB q.firing y).toNat 0 16 + q.idx))
        (leBytes 8 ((if f16 then fp16.widen (e % 2 ^ 16) else e % 2 ^ 32) + e / 2 ^ 32 * 2 ^ 32)) } := by
  rw [State.umScore, h]
  exact if_pos haccs

theorem State.umScore_next (f16 : Bool) (h : q.phase = 2) :
    s.umScore d c x q y f16 = s.putCmd d c x { q with phase := 1, idx := q.idx + 1, accs := [] } := by
  rw [State.umScore, h]
  rfl

/-! UMRANK (R326). -/

theorem State.umRank_begin (h : q.phase = 0) : s.umRank d c x q y =
    if (s.swatch q.firing.launch y.sw1.toNat).length < 8 * min x.maxc x.len then s.stopCmd d c 0x0603 q
    else s.putCmd d c x { q with phase := 1 } := by
  rw [State.umRank, h]
  rfl

theorem State.umRank_choose (h : q.phase = 2) (haccs : q.accs = []) (hseeds : q.seeds = []) : s.umRank d c x q y =
    s.putCmd d c x { q with phase := 3, idx := 0, count := q.list.length, list := chosenOf (x.shareOf q.list) q.list } := by
  rw [State.umRank, h]
  refine (if_neg (not_not_intro haccs)).trans ?_
  simp only [hseeds]
  rfl

theorem State.umRank_list (h : q.phase = 3) {p v : Nat} (hn : nth q.list q.idx = some (p, v)) : s.umRank d c x q y =
    if q.accs = [] then s.putCmd d c x { q with
      accs := (s.swatch q.firing.launch y.sw1.toNat).writesTo (8 * q.idx) (leBytes 8 (p + v / 2 ^ 32 * 2 ^ 32)) }
    else s.putCmd d c x { q with
      phase := 4, accs := (s.swatch q.firing.launch x.sw2).writesTo (p / 8) [(q.list.take (q.idx + 1)).foldl
        (fun b e => if e.1 / 8 = p / 8 then b &&& ~~~(BitVec.ofNat 8 (2 ^ (e.1 % 8))) else b) (getAt q.read (p / 8) 0)] } := by
  rw [State.umRank, h]
  simp only [hn]

theorem State.umRank_listed (h : q.phase = 3) (hn : nth q.list q.idx = none) : s.umRank d c x q y =
    s.putCmd d c { x with remaining := q.count - q.list.length } { q with phase := 5 } := by
  rw [State.umRank, h]
  simp only [hn]

theorem State.umRank_round (h : q.phase = 4) {p v : Nat} (hn : nth q.list q.idx = some (p, v)) : s.umRank d c x q y =
    s.putCmd d c { x with round := setAt x.round (p / 16) true false } { q with phase := 3, idx := q.idx + 1, accs := [] } := by
  rw [State.umRank, h]
  simp only [hn]
  rfl

/-- A completion add that is made. -/
theorem State.umAdd_done {h : Word} {n : Nat} {u : State}
    (hu : s.engineAdd d (some q.firing.launch) (s.launch q.firing.launch).part h n = (.done, u)) : s.umAdd d c q h n = (true, u) := by
  simp only [State.umAdd, hu]
  rfl

@[simp] theorem State.part_launch_onLaunch (s : State) (l k : Nat) {g : Launch → Launch} (hg : ∀ y, (g y).part = y.part) :
    ((s.onLaunch l g).launch k).part = (s.launch k).part := by
  by_cases hk : k = l
  · subst hk
    rw [State.launch, State.look_onLaunch, State.launch]
    cases look s.launches k with
    | none => rfl
    | some y => simp [hg]
  · rw [State.launch_onLaunch_ne s l k g hk]

theorem State.part_launch_meter (s : State) (l die i n k : Nat) : ((s.meter l die i n).launch k).part = (s.launch k).part :=
  State.part_launch_onLaunch _ l k fun _ => rfl

theorem State.umRank_end (h : q.phase = 5) {u : State}
    (hu : (s.meter q.firing.launch d 17 q.list.length).engineAdd d (some q.firing.launch) (s.launch q.firing.launch).part (q.firing.knotOf y)
      (s.addOf q.firing y) = (.done, u)) :
    s.umRank d c x q y = (u.dropCmd d c).engineReply q.firing false .value (BitVec.ofNat 64 q.list.length) := by
  rw [← State.part_launch_meter s q.firing.launch d 17 q.list.length] at hu
  rw [State.umRank, h]
  simp only [State.umAdd_done hu, if_true]
  rfl

/-! UMTAP (R327). -/

theorem State.umTap_begin (h : q.phase = 0) : s.umTap d c x q y =
    let w := (s.opEB q.firing y).toNat
    let src := s.swatch q.firing.launch y.sw1.toNat
    if bitsOf w 0 7 = 0 ∨ x.layers ≤ bitsOf w 0 7 ∨ 8 < bitsOf w 8 4 ∨ x.blocks ≤ bitsOf w 16 11 ∨ w / 2 ^ 32 % 8 ≠ 0 ∨
        (bitsOf w 8 4 ≠ 0 ∧ src.length < w / 2 ^ 32 + 8 * bitsOf w 8 4) then s.stopCmd d c 0x0603 q
    else s.putCmd d c x { q with phase := 1, accs := src.readsFrom (w / 2 ^ 32) (8 * bitsOf w 8 4) } := by
  rw [State.umTap, h]
  rfl

theorem State.umTap_stop (h : q.phase = 1) (hp : ∃ p ∈ wordsOf (gotOf q.accs), x.blocks ≤ p.toNat % 2 ^ 16) :
    s.umTap d c x q y = s.stopCmd d c 0x0603 q := by
  rw [State.umTap, h]
  exact if_pos (by simpa using hp)

/-- The free values of the pairs past N, with V clear. -/
theorem freeRest (ns : List Nat) (ws : List Word) (s : State) : ∃ (k : Nat) (rest : List Word),
    ns.foldl (fun (acc : List Word × State) _ => (acc.1 ++ [acc.2.freeWord.1 &&& 0xFFFFFFFF0000FFFF], acc.2.freeWord.2)) (ws, s) =
      (ws ++ rest, { s with freeCtr := k }) ∧ rest.length = ns.length ∧ ∀ v ∈ rest, v.getLsbD 31 = false := by
  induction ns generalizing ws s with
  | nil => exact ⟨s.freeCtr, [], by simp, rfl, nofun⟩
  | cons n ns ih =>
    obtain ⟨k, rest, hfold, hlen, hclear⟩ := ih (ws ++ [s.freeWord.1 &&& 0xFFFFFFFF0000FFFF]) s.freeWord.2
    refine ⟨k, (s.freeWord.1 &&& 0xFFFFFFFF0000FFFF) :: rest, ?_, congrArg Nat.succ hlen, List.forall_mem_cons.2 ⟨?_, hclear⟩⟩
    · rw [List.foldl_cons]
      exact hfold.trans (by rw [List.append_assoc]; rfl)
    · rw [BitVec.getLsbD_and]
      exact Bool.and_false _

theorem State.umTap_image (h : q.phase = 1) (hp : ∀ p ∈ wordsOf (gotOf q.accs), p.toNat % 2 ^ 16 < x.blocks) :
    ∃ (k : Nat) (rest : List Word), rest.length = 8 - bitsOf (s.opEB q.firing y).toNat 8 4 ∧ (∀ v ∈ rest, v.getLsbD 31 = false) ∧
      s.umTap d c x q y = ({ s with freeCtr := k } : State).putCmd d c x { q with
        phase := 2
        accs := (s.swatch q.firing.launch x.sw1).writesTo
          (x.taps + 64 * (bitsOf (s.opEB q.firing y).toNat 0 7 * x.blocks + bitsOf (s.opEB q.firing y).toNat 16 11))
          (bytesOf ((wordsOf (gotOf q.accs)).map (fun p => (p &&& 0xFFFFFFFF0000FFFF) ||| 0x80000000) ++ rest)) } := by
  obtain ⟨k, rest, hfold, hlen, hclear⟩ := freeRest (countFrom 0 (8 - bitsOf (s.opEB q.firing y).toNat 8 4)) [] s
  refine ⟨k, rest, hlen.trans (length_countFrom _ _), hclear, ?_⟩
  rw [State.umTap, h]
  refine (if_neg (by simpa using hp)).trans ?_
  simp only [hfold, List.nil_append]

theorem State.umTap_end (h : q.phase = 2) : s.umTap d c x q y = s.umDone d c q .completion 0 := by
  rw [State.umTap, h]
  rfl

/-! UMDIRTY (R328). -/

theorem State.umDirty_begin (h : q.phase = 0) : s.umDirty d c x q y =
    let first := (List.range x.blocks).filter fun i => getAt x.round i false
    if first = [] then (s.dropCmd d c).engineReply q.firing true .completion 0
    else s.putCmd d c x { q with phase := 1, idx := x.blocks, seeds := first } := by
  rw [State.umDirty, h]
  simp only [countFrom_eq_range', ← List.range_eq_range']

theorem State.umDirty_layers (h : q.phase = 1) (hidx : x.layers * x.blocks ≤ q.idx) :
    s.umDirty d c x q y = s.putCmd d c x { q with phase := 2, idx := 0 } := by
  rw [State.umDirty, h]
  exact if_pos hidx

theorem State.umDirty_read (h : q.phase = 1) (hidx : q.idx < x.layers * x.blocks) (haccs : q.accs = []) : s.umDirty d c x q y =
    s.putCmd d c x { q with accs := (s.swatch q.firing.launch x.sw1).readsFrom (x.taps + 64 * q.idx) 64 } := by
  rw [State.umDirty, h]
  exact (if_neg (Nat.not_le.2 hidx)).trans (if_pos haccs)

/-- Whether an entry of the layer below is dirty. -/
def belowDirty (x : UmCtx) (q : UmCmd) (k : Nat) : Bool := decide ((q.idx / x.blocks - 1) * 65536 + k ∈ q.seeds)

/-- Whether the entry that is read is dirty (R328). -/
def entryDirty (x : UmCtx) (q : UmCmd) : Bool :=
  let mass := fp32.decode (tapMass x.blocks (belowDirty x q) (wordsOf (gotOf q.accs)))
  let th := fp32.decode (getAt x.thetas (q.idx / x.blocks) 0).toNat
  belowDirty x q (q.idx % x.blocks) || (!mass.isNan && !th.isNan && !ltVals mass th)

theorem entryDirty_iff (x : UmCtx) (q : UmCmd) :
    entryDirty x q = true ↔ belowDirty x q (q.idx % x.blocks) = true ∨
      ((fp32.decode (tapMass x.blocks (belowDirty x q) (wordsOf (gotOf q.accs)))).isNan = false ∧
        (fp32.decode (getAt x.thetas (q.idx / x.blocks) 0).toNat).isNan = false ∧
        ltVals (fp32.decode (tapMass x.blocks (belowDirty x q) (wordsOf (gotOf q.accs))))
          (fp32.decode (getAt x.thetas (q.idx / x.blocks) 0).toNat) = false) := by
  simp only [entryDirty, Bool.or_eq_true, Bool.and_eq_true, Bool.not_eq_true', and_assoc]

theorem State.umDirty_entry (h : q.phase = 1) (hidx : q.idx < x.layers * x.blocks) (haccs : q.accs ≠ []) : s.umDirty d c x q y =
    s.putCmd d c x { q with
      idx := q.idx + 1, accs := []
      seeds := if entryDirty x q then q.seeds ++ [q.idx / x.blocks * 65536 + q.idx % x.blocks] else q.seeds } := by
  rw [State.umDirty, h]
  exact (if_neg (Nat.not_le.2 hidx)).trans (if_neg haccs)

theorem State.umDirty_seed_plain (h : q.phase = 4) {e : Nat} {es : List Nat} (hseeds : q.seeds = e :: es) (hstop : q.stopAdd = true) :
    s.umDirty d c x q y = (s.umSeed d q.firing e).putCmd d c x { q with seeds := es, count := q.count + 1 } := by
  rw [State.umDirty, h]
  simp only [hseeds, hstop, if_true, Bool.true_or]

theorem State.umDirty_seed_add (h : q.phase = 4) {e : Nat} {es : List Nat} (hseeds : q.seeds = e :: es) (hstop : q.stopAdd = false) {u : State}
    (hu : (s.umSeed d q.firing e).engineAdd d (some q.firing.launch) ((s.umSeed d q.firing e).launch q.firing.launch).part (q.firing.knotOf y) 1 =
      (.done, u)) :
    s.umDirty d c x q y = u.putCmd d c x { q with seeds := es, count := q.count + 1 } := by
  rw [State.umDirty, h]
  simp only [hseeds, hstop, Bool.false_eq_true, if_false, State.umAdd_done hu, Bool.false_or, Bool.not_true]

theorem State.umDirty_end (h : q.phase = 4) (hseeds : q.seeds = []) (hq : x.queue = q :: qs) :
    s.umDirty d c x q y = (s.putUm d c { x with round := [], queue := qs }).engineReply q.firing true .completion (BitVec.ofNat 64 q.count) := by
  have hne : ({ x with round := [] } : UmCtx).queue ≠ [] := by simp [hq]
  have hctx : ((s.putUm d c { x with round := [] }).umCtx d c).queue = q :: qs := by rw [State.umCtx_putUm]; exact hq
  rw [State.umDirty, h]
  simp only [hseeds]
  rw [State.dropCmd_eq hctx, State.umCtx_putUm, State.putUm_putUm s d c hne]

/-! UMCLR and UMQRY (R329, R330). -/

/-- The word of the dirty bits that UMCLR and UMQRY name. -/
def UmCtx.dirtyWord (x : UmCtx) (w : Nat) : Nat := x.dirty + 8 * (bitsOf w 16 7 * x.dirtyWords + bitsOf w 0 16 / 64)

theorem State.umClr_begin (h : q.phase = 0) : s.umClr d c x q y =
    let w := (s.opEB q.firing y).toNat
    if x.layers ≤ bitsOf w 16 7 ∨ x.blocks ≤ bitsOf w 0 16 then s.stopCmd d c 0x0603 q
    else s.putCmd d c x { q with phase := 1, accs := (s.swatch q.firing.launch x.sw1).readsFrom (x.dirtyWord w) 8 } := by
  rw [State.umClr, h]
  rfl

theorem State.umClr_write (h : q.phase = 1) : s.umClr d c x q y =
    let w := (s.opEB q.firing y).toNat
    let old := leNat (gotOf q.accs)
    s.putCmd d c x { q with
      phase := 2
      accs := (s.swatch q.firing.launch x.sw1).writesTo (x.dirtyWord w)
        (leBytes 8 (if old.testBit (bitsOf w 0 16 % 64) then old - 2 ^ (bitsOf w 0 16 % 64) else old)) } := by
  rw [State.umClr, h]
  rfl

theorem State.umClr_end (h : q.phase = 2) : s.umClr d c x q y = s.umDone d c q .completion 0 := by
  rw [State.umClr, h]
  rfl

end Commands

end Sys2Proof.Machine

namespace Sys2Proof.Proofs
open Sys2Proof.Machine

/-- Settles O48. -/
theorem unmaskEngine : Obligations.UnmaskEngine := by
  refine ⟨fun x die f16 s h => ?_, fun s d c => ⟨fun f fs y die hf hl hhalt hc hfree hlow => ?_, fun k a i p hfirst hk heng hmoves hctx => ?_,
    fun q qs y f16 hq hl hpark hstart => ?_⟩⟩
  · obtain ⟨hrelease, hscore, htap, hclr⟩ := exec_umSend h f16
    obtain ⟨hinfo, hmask, hdirtyq, hround⟩ := exec_umQuery h
    obtain ⟨hbad, hgood⟩ := exec_umAdding h
    refine ⟨fun d => exec_umctxOpen h die, exec_umctxOpen_none h die, hbad, fun d c hn => ?_, fun hn => ?_⟩
    · have hsend := fun query => congrArg (Host.Outcome.next (φ := Fault) (ρ := Refusal)) (State.umSend_named hn query)
      exact ⟨hrelease.trans (hsend _), hscore.trans (hsend _), htap.trans (hsend _), hinfo.trans (hsend _), hmask.trans (hsend _),
        hdirtyq.trans (hsend _), hround.trans (hsend _), hclr.trans (hsend _), fun hb => (hgood hb).imp (·.trans (hsend _)) (·.trans (hsend _))⟩
    · have hsend := fun query => congrArg (Host.Outcome.next (φ := Fault) (ρ := Refusal)) (State.umSend_stale hn query)
      exact ⟨hrelease.trans (hsend _), hscore.trans (hsend _), htap.trans (hsend _), hclr.trans (hsend _),
        fun hb => (hgood hb).imp (·.trans (hsend _)) (·.trans (hsend _)), hinfo.trans (hsend _), hmask.trans (hsend _),
        hdirtyq.trans (hsend _), hround.trans (hsend _)⟩
  · have hfirst : (s.um d).freeCtx = some c :=
      countFrom_find_lowest hc (decide_eq_true hfree) fun j hj => decide_eq_false (hlow j hj)
    refine ⟨exec_unmaskContextGrant_old hf hl hhalt hfirst, fun hold hopens hleft =>
      exec_unmaskContextGrant_new hf hl hhalt hfirst hold hopens ?_⟩
    exact List.any_eq_false.2 fun k hk => Bool.eq_false_iff.1 (hleft k hk)
  · have hgo := exec_unmaskInToken hfirst hk heng hmoves
    have htop := zeroBits_top a.out.tok.payload (lo := 55) (by decide)
    subst hctx
    refine ⟨fun hh => hgo.trans (congrArg _ (if_pos hh)), fun hh ht => hgo.trans (congrArg _ ((if_neg (not_not_intro hh)).trans (if_pos ?_))),
      fun hh ht => ⟨s.tokenSrc a, hgo.trans (congrArg _ ((if_neg (not_not_intro hh)).trans (if_neg ?_)))⟩⟩
    · rw [htop, decide_eq_false ht]
    · rw [htop, decide_eq_true ht]
      exact Bool.noConfusion
  · have hstep := exec_unmaskCommandPerform_step hq hl hpark hstart
    have hput : ∀ {t : State} {p : UmCmd}, t.putCmd d c (s.umCtx d c) p = t.putUm d c { s.umCtx d c with queue := p :: qs } :=
      fun {t p} => State.putCmd_eq p hq
    have hdrop := State.dropCmd_eq hq
    have hdone : ∀ cls v, s.umDone d c q cls v = (s.putUm d c { s.umCtx d c with queue := qs }).engineReply q.firing false cls v :=
      fun cls v => by rw [State.umDone, hdrop]
    intro x f t m src goes then_ gone w fld word
    refine ⟨fun haccs as_ t ht => hstep.trans (congrArg _ ((State.umStep_of_moved haccs ht).trans hput)), fun haccs o ho => ?_,
      fun haccs htok => ?_⟩
    · have hgo : ∀ {t : State}, s.umToken d c (s.umCtx d c) q o.tok = t → goes = .next t := fun ht =>
        hstep.trans (congrArg _ ((State.umStep_of_done haccs).trans ((State.umAdvance_of_token ho).trans ht)))
      refine ⟨fun hp hpos => hgo ?_, fun hp hpos => hgo ?_, fun hp => hgo ?_⟩
      · refine (if_pos ⟨hp, hpos⟩).trans ?_
        rw [State.stopCmd, State.umTrap, ho, hdrop]
        rfl
      · exact (if_neg fun h => absurd h.2 (Nat.not_le.2 hpos)).trans ((if_pos hp).trans hput)
      · exact (if_neg fun h => hp h.1).trans ((if_neg hp).trans hdrop)
    · have hgo : ∀ {t : State}, s.umAdvance d c (s.umCtx d c) q = t → goes = .next t := fun ht =>
        hstep.trans (congrArg _ ((State.umStep_of_done haccs).trans ht))
      have hstop : s.stopCmd d c 0x0603 q = gone.trap f 0x0603 :=
        (State.stopCmd_of_firing htok _).trans (congrArg (fun t => State.trap t f 0x0603) hdrop)
      refine ⟨fun hf => hgo ((State.umAdvance_of_queryInfo htok hf).trans (hdone _ _)), fun hf => ?_, fun hf => ?_,
        fun hf => hgo ((State.umAdvance_of_queryRound htok hf).trans ((hdone _ _).trans (congrArg _ (apply_ite (BitVec.ofNat 64) _ 1 0)))),
        fun hf hqs => ?_, fun hf => ?_, fun hf => ?_, fun hf => ?_,
        fun hf => ?_, fun hf => ?_⟩
      · have hgo := fun {t : State} ht => hgo ((State.umAdvance_of_queryMask htok hf).trans (ht : _ = t))
        refine ⟨fun hw => hgo ((if_pos hw).trans (hdone _ _)), fun hw hp => hgo ?_, fun hw hp => hgo ?_⟩
        · exact (if_neg (Nat.not_le.2 hw)).trans ((if_pos hp).trans hput)
        · exact (if_neg (Nat.not_le.2 hw)).trans ((if_neg hp).trans (hdone _ _))
      · have hgo := fun {t : State} ht => hgo ((State.umAdvance_of_queryDirty htok hf).trans (ht : _ = t))
        refine ⟨fun hw => hgo ((if_pos hw).trans (hdone _ _)), fun hlayer hblock => ?_⟩
        have hin := not_or.2 ⟨Nat.not_le.2 hlayer, Nat.not_le.2 hblock⟩
        exact ⟨fun hp => hgo ((if_neg hin).trans ((if_pos hp).trans hput)), fun hp => hgo ((if_neg hin).trans ((if_neg hp).trans (hdone _ _)))⟩
      · refine hgo ((State.umAdvance_of_release htok hf).trans ?_)
        rw [hdrop, State.freeCtx_of_empty (by simp [hq, hqs])]
        rfl
      · have hgo := fun {t : State} ht => hgo ((State.umAdvance_of_score htok hf).trans (ht : _ = t))
        refine ⟨fun hp hbad => hgo ?_, fun hp hgood => hgo ?_, fun hp ha hi => hgo ?_, fun hp ha => hgo ?_, fun hp => hgo ?_,
          fun hp ha hi => hgo ?_⟩
        · exact (State.umScore_begin f16 hp).trans ((if_pos hbad).trans hstop)
        · exact (State.umScore_begin f16 hp).trans ((if_neg hgood).trans hput)
        · exact (State.umScore_read f16 hp ha).trans ((if_pos hi).trans hput)
        · exact (State.umScore_write f16 hp ha).trans hput
        · exact (State.umScore_next f16 hp).trans hput
        · exact (State.umScore_read f16 hp ha).trans ((if_neg (Nat.not_lt.2 hi)).trans (hdone _ _))
      · have hgo := fun {t : State} ht => hgo ((State.umAdvance_of_rank htok hf).trans (ht : _ = t))
        refine ⟨fun hp hlen => hgo ?_, fun hp ha hseeds hnd => ⟨chosenOf ((s.umCtx d c).shareOf q.list) q.list, hgo ?_, List.filter_sublist,
          ?_, fun a ha b hb hnb => chosenOf_ranksBefore hnd ha hb hnb⟩, fun p v hn => ⟨fun hp ha => hgo ?_, fun hp ha => ⟨_, hgo ?_,
          fun j hj => getLsbD_foldl_clear _ (p / 8) _ hj⟩, fun hp => hgo ?_⟩, fun hp hn => hgo ?_, fun hp u hu => hgo ?_⟩
        · exact (State.umRank_begin hp).trans ((if_pos hlen).trans hstop)
        · exact (State.umRank_choose hp ha hseeds).trans hput
        · exact length_chosenOf hnd (Nat.min_le_right _ _)
        · exact (State.umRank_list hp hn).trans ((if_pos ha).trans hput)
        · exact (State.umRank_list hp hn).trans ((if_neg ha).trans hput)
        · exact (State.umRank_round hp hn).trans (State.putCmd_eq _ hq)
        · exact (State.umRank_listed hp hn).trans (State.putCmd_eq _ hq)
        · exact State.umRank_end hp hu
      · have hgo := fun {t : State} ht => hgo ((State.umAdvance_of_tap htok hf).trans (ht : _ = t))
        refine ⟨fun hp hbad => hgo ?_, fun hp hgood => hgo ?_, fun hp hbad => hgo ?_, fun hp hgood => ?_, fun hp => hgo ?_⟩
        · exact (State.umTap_begin hp).trans ((if_pos hbad).trans hstop)
        · exact (State.umTap_begin hp).trans ((if_neg hgood).trans hput)
        · exact (State.umTap_stop hp hbad).trans hstop
        · obtain ⟨k, rest, hlen, hclear, ht⟩ := State.umTap_image (y := y) (d := d) (c := c) hp hgood
          exact ⟨k, rest, hlen, hclear, hgo (ht.trans hput)⟩
        · exact (State.umTap_end hp).trans (hdone _ _)
      · have hgo := fun {t : State} ht => hgo ((State.umAdvance_of_dirty htok hf).trans (ht : _ = t))
        refine ⟨fun hp hfirst => hgo ?_, fun hp hfirst => hgo ?_, fun hp hidx => ⟨fun ha => hgo ?_, fun ha => ?_⟩, fun hp hidx => hgo ?_,
          fun e es hp hseeds hstop => hgo ?_, fun e es u hp hseeds hstop hu => hgo ?_, fun hp hseeds => hgo ?_⟩
        · refine (State.umDirty_begin hp).trans ((if_pos hfirst).trans ?_)
          rw [hdrop]
        · exact (State.umDirty_begin hp).trans ((if_neg hfirst).trans hput)
        · exact (State.umDirty_read hp hidx ha).trans hput
        · have hentry := State.umDirty_entry (s := s) (d := d) (c := c) (y := y) hp hidx ha
          refine ⟨fun hd => hgo ((hentry.trans ?_).trans hput), fun hd => hgo ((hentry.trans ?_).trans hput)⟩
          · rw [if_pos ((entryDirty_iff _ _).2 hd)]
          · rw [if_neg fun h => hd ((entryDirty_iff _ _).1 h)]
        · exact (State.umDirty_layers hp hidx).trans hput
        · exact State.umDirty_seed_plain hp hseeds hstop
        · exact State.umDirty_seed_add hp hseeds hstop hu
        · exact State.umDirty_end hp hseeds hq
      · have hgo := fun {t : State} ht => hgo ((State.umAdvance_of_clr htok hf).trans (ht : _ = t))
        refine ⟨fun hp hbad => hgo ?_, fun hp hlayer hblock => hgo ?_, fun hp => ⟨_, hgo ?_, fun j => testBit_clearBit _ _ j⟩, fun hp => hgo ?_⟩
        · exact (State.umClr_begin hp).trans ((if_pos hbad).trans hstop)
        · exact (State.umClr_begin hp).trans ((if_neg (not_or.2 ⟨Nat.not_le.2 hlayer, Nat.not_le.2 hblock⟩)).trans hput)
        · exact (State.umClr_write hp).trans hput
        · exact (State.umClr_end hp).trans (hdone _ _)

end Sys2Proof.Proofs
end

section
/-! SUPPORT. System instructions and registers (R384 to R386), hems (R365, R366), and fault records and resumes (R371 to R377). -/

namespace Sys2Proof.Machine

/-! System registers (Table 18.5). -/

/-- The number of a constant register. -/
theorem toNat_constReg (n : BitVec 5) : (0x100 + n.setWidth 12 : BitVec 12).toNat = n.toNat + 256 := by
  have hn := n.isLt
  rw [BitVec.toNat_add, BitVec.toNat_setWidth, show (0x100 : BitVec 12).toNat = 256 from rfl]
  omega

theorem State.sysReg_const (s : State) (f : Firing) {n : Nat} (hn : n < 32) : s.sysReg f (n + 256) = (getAt f.consts n 0, s) := by
  have hin : 0x100 ≤ n + 256 ∧ n + 256 < 0x120 := by omega
  simp only [State.sysReg, if_pos hin, Nat.add_sub_cancel]

theorem State.setSysReg_const (s : State) (f : Firing) {n : Nat} (hn : n < 32) (v : Word) : s.setSysReg f (n + 256) v =
    s.onStation f.cl f.st fun x => { x with consts := setAt x.consts n v 0, modified := x.modified ||| BitVec.ofNat 32 (2 ^ n) } := by
  have h6 : n + 256 ≠ 6 := by omega
  have h7 : n + 256 ≠ 7 := by omega
  have hin : 0x100 ≤ n + 256 ∧ n + 256 < 0x120 := by omega
  simp only [State.setSysReg, if_neg h6, if_neg h7, if_pos hin, Nat.add_sub_cancel]

/-- The registers that are only read take no write (R386). -/
theorem State.setSysReg_readOnly (s : State) (f : Firing) {n : Nat} (hn : n < 6 ∨ n = 8 ∨ n = 9 ∨ n = 10) (v : Word) :
    s.setSysReg f n v = s := by
  have h6 : n ≠ 6 := by omega
  have h7 : n ≠ 7 := by omega
  have hout : ¬ (0x100 ≤ n ∧ n < 0x120) := by omega
  rw [State.setSysReg, if_neg h6, if_neg h7, if_neg hout]

theorem State.rdidx_of_read {s : State} {l a : Nat} {bs : List Byte} {t : State} (ha : (s.launch l).ovArea = some a)
    (hr : s.gRead (s.faultClient l) (a + 4) 4 .read = (.ok bs, t)) : s.rdidx l = (leNat bs, t) := by
  simp only [State.rdidx, ha, hr]

theorem State.sysReg_faultQueue {s : State} {f : Firing} {a : Nat} {bs : List Byte} {t : State} (ha : (s.launch f.launch).ovArea = some a)
    (hr : s.gRead (s.faultClient f.launch) (a + 4) 4 .read = (.ok bs, t)) :
    s.sysReg f 6 = (BitVec.ofNat 64 ((s.launch f.launch).wridx % 2 ^ 32 + leNat bs % 2 ^ 32 * 2 ^ 32), t) := by
  simp only [State.sysReg, State.rdidx_of_read ha hr]

theorem State.writeRdidx_of_lt {s : State} {l a n : Nat} {bs : List Byte} {t : State} (ha : (s.launch l).ovArea = some a)
    (hr : s.gRead (s.faultClient l) (a + 4) 4 .read = (.ok bs, t)) (hn : n < leNat bs) : s.writeRdidx l n = t := by
  simp only [State.writeRdidx, State.rdidx_of_read ha hr, ha, if_pos hn]

theorem State.writeRdidx_of_le {s : State} {l a n : Nat} {bs : List Byte} {t u : State} (ha : (s.launch l).ovArea = some a)
    (hr : s.gRead (s.faultClient l) (a + 4) 4 .read = (.ok bs, t)) (hn : leNat bs ≤ n)
    (hw : t.gWrite (s.faultClient l) (a + 4) (leBytes 4 (min n ((s.launch l).wridx % 2 ^ 32))) .write = .ok u) : s.writeRdidx l n = u := by
  simp only [State.writeRdidx, State.rdidx_of_read ha hr, ha, if_neg (Nat.not_lt.2 hn), hw]

section Registers
variable {s : State} {x : FormX}

theorem exec_sysrd (h : s.Runs x.pm) {r : BitVec 12} {v : Word} {t : State} (hv : s.sysReg s.cur r.toNat = (v, t)) :
    exec (.sysrd x r) s = .next (t.emit0 s.cur x.pm .value v) := by
  refine (State.fire_runs h _ : execSysrd x r s = _).trans ?_
  simp only [hv]

theorem exec_syswr (h : s.RunsPlain x.pm) {r : BitVec 12} {t : State} (ht : s.setSysReg s.cur r.toNat (s.opXA s.cur x) = t) :
    exec (.syswr x r) s = .next (t.emit0 s.cur x.pm .completion 0) :=
  (State.fireHeld_plain h _ : execSyswr x r s = _).trans (congrArg (fun t : State => Host.Outcome.next (t.emit0 s.cur x.pm .completion 0)) ht)

end Registers

theorem exec_yieldExpiry {s : State} {l p t : Nat} {w : Parked} {x : FormX} {n : BitVec 24} (hp : (s.launch l).parkedAt p = some w)
    (hwhy : w.why = .yield t) (hw : w.firing.Is (.yield x n)) (ht : t ≤ s.aCycle) (hl : (s.launch l).runs = true)
    (hroom : s.roomFor w.firing = true) :
    exec (.yieldExpiry l p) s = .next ((s.unpark l p).emit0 w.firing x.pm .value (s.opXA w.firing x)) := by
  change execYieldExpiry l p s = _
  simp only [execYieldExpiry, hp, hwhy, show decode w.firing.word = _ from hw, if_pos (And.intro ht (And.intro hl hroom))]

/-! The fault queue and resumes (R372, R373, R376, R377). -/

section Records
variable {s : State} {l : Nat} {r : FaultRec}

/-- A launch with one fault, which has no record yet. -/
theorem State.faultWrite_of_new {area rd : Nat} {s1 : State} (hcfg : (s.launch l).cfg = none) (harea : (s.launch l).ovArea = some area)
    (hfaults : (s.launch l).faults = [r]) (hnew : r.recid = 0) (hrd : s.rdidx l = (rd, s1)) :
    s.faultWrite l = if ((s.launch l).st = .saved ∨ (s.launch l).st = .restoring) ∧ (s.launch l).ending = none then s
      else if ((s.launch l).wridx + 2 ^ 32 - rd) % 2 ^ 32 < 255 then s1.writeRecord l area r else s := by
  simp only [State.faultWrite, hcfg, Option.isSome_none, Bool.false_eq_true, if_false, harea, hfaults, List.find?_cons, hnew, ne_eq,
    not_true_eq_false, false_and, decide_false, decide_true, List.find?_nil, hrd]

/-- The record that a fault takes when it is written next. -/
def State.recordOf (s : State) (l : Nat) (r : FaultRec) : FaultRec :=
  { r with recid := (s.launch l).wridx + 1, stampA := s.aCycle, shown := r.showing }

theorem State.writeRecord_of_room {area : Nat} {s1 s2 : State}
    (h1 : s.gWrite (s.faultClient l) (recordAddr area ((s.launch l).wridx + 1)) (bytesOf (s.recordOf l r).words) .write = .ok s1)
    (h2 : s1.gWrite (s.faultClient l) area (leBytes 4 (((s.launch l).wridx + 1) % 2 ^ 32)) .write = .ok s2) :
    s.writeRecord l area r = (((s2.onLaunch l fun x => { x with wridx := (s.launch l).wridx + 1 }).putFault l (s.recordOf l r)).meter l
      ((s.faultClient l).cl / 128) 20 1).deliverFault l (s.recordOf l r) := by
  rw [State.recordOf] at h1
  simp only [State.writeRecord, h1, h2]
  rfl

theorem State.resume_of_done {recid : Nat} (hr : (s.launch l).faults.find? (fun q => decide (q.recid = recid ∧ recid ≠ 0)) = some r)
    (h : r.state ≠ .parked ∨ (s.launch l).ending ≠ none) (discard : Bool) : s.resume l recid discard = s := by
  simp only [State.resume, hr]
  exact if_pos h

section Parked
variable {recid : Nat} (hr : (s.launch l).faults.find? (fun q => decide (q.recid = recid ∧ recid ≠ 0)) = some r) (hstate : r.state = .parked)
  (hend : (s.launch l).ending = none)
include hr hstate hend

theorem State.resume_of_running (hst : (s.launch l).st = .running) (hfreeze : (s.launch l).freeze = none) (discard : Bool) :
    s.resume l recid discard =
      (s.putFault l { r with state := if discard then .discarded else .retried }).carryOut l r discard := by
  have hlive : ¬ (r.state ≠ .parked ∨ (s.launch l).ending ≠ none) := not_or.2 ⟨not_not_intro hstate, not_not_intro hend⟩
  simp only [State.resume, hr, if_neg hlive]
  refine (if_neg ?_).trans (if_pos hst)
  simp [hst, hfreeze]

theorem State.resume_of_away (hst : (s.launch l).st = .freezing ∨ (s.launch l).st = .saved ∨ (s.launch l).st = .restoring) (discard : Bool) :
    s.resume l recid discard =
      s.putFault l { r with state := if discard then .discarded else .retried, pending := some discard } := by
  have hlive : ¬ (r.state ≠ .parked ∨ (s.launch l).ending ≠ none) := not_or.2 ⟨not_not_intro hstate, not_not_intro hend⟩
  simp only [State.resume, hr, if_neg hlive]
  exact if_pos (hst.imp_right (Or.imp_right .inl))

end Parked

end Records

end Sys2Proof.Machine

namespace Sys2Proof.Proofs
open Sys2Proof.Machine

/-- Settles O49. -/
theorem systemInstructions : Obligations.SystemInstructions := by
  refine ⟨fun x code id mask n i s => ⟨fun h => ?_, fun h => ?_, fun l p t w hp hwhy hw ht hl hroom => exec_yieldExpiry hp hwhy hw ht hl hroom⟩,
    fun x n s => ⟨fun h => ?_, fun h => ?_⟩⟩
  · exact ⟨(State.fire_runs h _ : execCycle x s = _), (State.fire_runs h _ : execCycleStamp x s = _),
      (State.fire_runs h _ : execMeter x i s = _), (State.fire_runs h _ : execYield x n s = _)⟩
  · have htrap := (State.fireHeld_plain h _ : execTrap x code s = _)
    have hbkpt := (State.fireHeld_plain h _ : execBkpt x id s = _)
    refine ⟨fun hr => htrap.trans (congrArg _ (if_neg (Bool.eq_false_iff.1 hr))), fun hr => ⟨htrap.trans (congrArg _ (if_pos hr)),
      hbkpt.trans (congrArg _ (if_neg ?_))⟩, fun hd hr => hbkpt.trans (congrArg _ (if_pos ?_)), fun hd => hbkpt.trans (congrArg _ (if_neg ?_)),
      (State.fireHeld_plain h _ : execFlag x mask s = _)⟩
    · rw [hr]; simp
    · rw [Bool.and_eq_true, hr]; exact ⟨hd, rfl⟩
    · rw [Bool.and_eq_true]; exact fun hb => absurd (hd.symm.trans hb.1) Bool.false_ne_true
  · refine ⟨exec_sysrd h rfl, exec_sysrd h rfl, exec_sysrd h rfl, exec_sysrd h rfl, fun p hp => exec_sysrd h ?_, exec_sysrd h rfl,
      fun a bs t ha hr => exec_sysrd h ?_, exec_sysrd h rfl, fun hw => exec_sysrd h ?_, fun n hw => exec_sysrd h ?_, fun a ha => exec_sysrd h ?_,
      exec_sysrd h ?_⟩
    · change (s.panelWord s.cur.launch, s) = _
      rw [State.panelWord, hp]
    · exact State.sysReg_faultQueue ha hr
    · change ((s.launch s.cur.launch).wdogLeft, s) = _
      rw [Launch.wdogLeft, hw]
    · change ((s.launch s.cur.launch).wdogLeft, s) = _
      rw [Launch.wdogLeft, hw]
      rfl
    · change (BitVec.ofNat 64 ((s.launch s.cur.launch).ovArea.getD 0), s) = _
      rw [ha]
      rfl
    · rw [toNat_constReg, State.sysReg_const s _ n.isLt]
  · refine ⟨exec_syswr h ?_, fun r hr => exec_syswr h (State.setSysReg_readOnly s _ ?_ _), fun a bs t ha hr => ⟨fun hlt => ?_, fun hle u hw => ?_⟩,
      exec_syswr h rfl⟩
    · rw [toNat_constReg, State.setSysReg_const s _ n.isLt]
    · exact hr.imp_right fun h => by rcases h with rfl | rfl | rfl <;> decide
    · exact exec_syswr h (State.writeRdidx_of_lt ha hr hlt)
    · exact exec_syswr h (State.writeRdidx_of_le ha hr hle hw)

/-- A machine whose launch runs on clusters 0 and 1, with a hem begun that has reached neither, and its outbound token at cluster 0, where
station 0's output queue is full. -/
def hemBeforeFullQueue : State :=
  let tok : Token := ⟨0, .hem, 0, 0, 0, 0, 0, ⟨0, 0, 0⟩, 0⟩
  let hem : Hem := ⟨0, .stage, [⟨0, false, [], [], [], 0, false⟩, ⟨1, false, [], [], [], 0, false⟩], false⟩
  let full : Station := { Station.clear with outq := List.replicate 16 ⟨tok, none⟩ }
  { oneLaunch { Launch.blank with panel := ⟨[0], [[0, 1]], [], 0, 0⟩, hems := [hem] } with
    clusters := [(0, { Cluster.clear with arrivals := [⟨0, ⟨tok, none⟩, none, 0, 4⟩], stations := [(0, full)] })] }

/-- The arrivals that an outcome leaves at cluster 0. -/
def arrivalsLeft : Host.Outcome State Fault Refusal → Nat
  | .next s => (s.cluster 0).arrivals.length
  | _ => 0

/-- Refutes O50: an outbound hem token waits, as every token does (R150), while the output queue that its forwards join has no room for
them, so a cluster that sees it need not take it in. -/
theorem not_hemPasses : ¬ Obligations.HemPasses := by
  intro h
  obtain ⟨-, hout, -⟩ := h hemBeforeFullQueue
  have hpass := hout 0 0 _ _ _ rfl rfl rfl rfl rfl rfl rfl
  exact absurd (congrArg arrivalsLeft hpass) (by decide +kernel)

/-- Settles O51. -/
theorem faultRecordsAndResumes : Obligations.FaultRecordsAndResumes := by
  intro s l
  refine ⟨fun area r hcfg harea hfaults hnew rd s1 hrd => ?_, fun area r s1 s2 h1 h2 => State.writeRecord_of_room h1 h2, fun recid r hrecid hr => ⟨fun hdone => ?_,
    fun hstate hend hst hfreeze => ?_, fun hstate hend hst => ?_⟩⟩
  · have hwrite := congrArg (Host.Outcome.next (φ := Fault) (ρ := Refusal)) (State.faultWrite_of_new hcfg harea hfaults hnew hrd)
    exact ⟨fun haway => hwrite.trans (congrArg _ (if_pos haway)), fun haway => hwrite.trans (congrArg _ (if_neg haway))⟩
  · exact ⟨congrArg _ (State.resume_of_done hr hdone _), congrArg _ (State.resume_of_done hr hdone _)⟩
  · exact ⟨congrArg _ (State.resume_of_running hr hstate hend hst hfreeze _), congrArg _ (State.resume_of_running hr hstate hend hst hfreeze _)⟩
  · exact ⟨congrArg _ (State.resume_of_away hr hstate hend hst _), congrArg _ (State.resume_of_away hr hstate hend hst _)⟩

end Sys2Proof.Proofs
end

section
/-! SUPPORT. Reset, the counters, the quota windows and bring-up (R12, R13, R134, R411). -/

namespace Sys2Proof.Machine

/-! Reset (R12, R214, R411). -/

theorem reset_settled : State.reset.Settled := fun _ _ h => nomatch h

theorem reset_byte (p : Place1) : State.reset.byte p = 0 := by cases p <;> rfl

/-! Ages (R13). -/

theorem Token.clamp_age (stamp : BitVec 16) (t : Token) :
    (t.clamp stamp).age = if 16384 < (stamp - t.age).toNat then stamp - 16384 else t.age := by
  rw [Token.clamp]
  split <;> rfl

/-! Quota windows (R134). -/

/-- A state that differs in its meters and its free values. -/
def State.withMeters (s : State) (m : List (Nat × Word)) (n : Nat) : State := { s with meters := m, freeCtr := n }

/-- Estimates of energy change meters only. -/
theorem State.energy_foldl_dies (part : Nat) (ds : List Nat) (s : State) (m : List (Nat × Word)) (n : Nat) :
    ∃ m' n', ds.foldl (fun s d => s.energy part d) (s.withMeters m n) = s.withMeters m' n' := by
  induction ds generalizing m n with
  | nil => exact ⟨m, n, rfl⟩
  | cons d ds ih => exact ih _ _

theorem State.energy_foldl (ps : List (Nat × Partition)) (s : State) (m : List (Nat × Word)) (n : Nat) :
    ∃ m' n', ps.foldl (fun s p => (countFrom 0 4).foldl (fun s d => s.energy p.1 d) s) (s.withMeters m n) = s.withMeters m' n' := by
  induction ps generalizing m n with
  | nil => exact ⟨m, n, rfl⟩
  | cons p ps ih =>
    obtain ⟨m1, n1, h⟩ := State.energy_foldl_dies p.1 (countFrom 0 4) s m n
    rw [List.foldl_cons, h]
    exact ih m1 n1

theorem exec_quotaWindowBegin {s : State} (h : s.quotaWindow < s.nCycle / quotaSpan) : ∃ m n, exec .quotaWindowBegin s =
    .next (({ s with quotaWindow := s.quotaWindow + 1, parts := s.parts.map fun p => (p.1, p.2.newWindow) } : State).withMeters m n) := by
  obtain ⟨m, n, hfold⟩ := State.energy_foldl (s.parts.filter fun p => p.2.metered)
    { s with quotaWindow := s.quotaWindow + 1, parts := s.parts.map fun p => (p.1, p.2.newWindow) } s.meters s.freeCtr
  exact ⟨m, n, congrArg _ ((if_pos h).trans hfold)⟩

/-! Bring-up (R411). -/

/-- The steps of bring-up that do nothing but count. -/
theorem exec_bringUp_count {s : State} (h : s.bringUp = 0 ∨ s.bringUp = 1 ∨ s.bringUp = 4) :
    exec .bringUp s = .next { s with bringUp := s.bringUp + 1 } := by
  change execBringUp s = _
  rcases h with h | h | h <;> simp [execBringUp, h]

theorem exec_bringUp_heldHit (s : State) : ∃ t, exec .bringUp s = .next t ∧ t.heldHit = s.heldHit := by
  change ∃ t, execBringUp s = .next t ∧ _
  refine ⟨_, rfl, ?_⟩
  split
  · rfl
  · rfl
  · rfl
  · split <;> rfl

/-- Until the functions are presented, a step with nothing on the agenda is a step of bring-up. -/
theorem step_of_bringUp {s : State} (hagenda : s.agenda = []) (hpres : s.presented = false) (hheld : s.heldHit = false) :
    step s = s.settled (exec .bringUp { s with freeCtr := s.freeCtr + 1 }) := by
  have hpicks : s.picks = [.event .bringUp] := by rw [State.picks, hpres]; rfl
  have hact : s.act = s.choosePick := State.act_of_all_wait fun pre b post hsplit => by
    rw [hagenda] at hsplit
    exact absurd hsplit.symm (List.append_ne_nil_of_right_ne_nil _ (List.cons_ne_nil _ _))
  obtain ⟨p, hp, hpick⟩ := State.choosePick_of_picks (s := s) (by rw [hpicks]; exact List.cons_ne_nil _ _)
  rw [hpicks, List.mem_singleton] at hp
  subst hp
  refine congrArg s.settled (hact.trans (hpick.trans (orWait_of_not_waits (Bool.eq_false_iff.2 fun hw => ?_))))
  obtain ⟨t, ht, hhit⟩ := (waitsForStack_iff _).1 hw
  obtain ⟨t', ht', hsame⟩ := exec_bringUp_heldHit { s with freeCtr := s.freeCtr + 1 }
  have htt : t' = t := by
    have := ht'.symm.trans ht
    injection this
  rw [← htt, hsame, hheld] at hhit
  cases hhit

end Sys2Proof.Machine

namespace Sys2Proof.Proofs
open Sys2Proof.Machine

/-- Settles O52. -/
theorem resetAndCounters : Obligations.ResetAndCounters := by
  refine ⟨⟨rfl, rfl, fun _ => rfl, rfl, reset_byte, rfl, rfl, rfl, fun _ => rfl, rfl, reset_memoryWf, reset_settled⟩,
    fun s => ⟨rfl, rfl, fun _ => rfl, Token.clamp_age s.stamp, exec_quotaWindowBegin, exec_bringUp_count, fun h => ?_, fun h => ?_, fun h => ?_,
      fun h => ?_⟩, fun s => step_of_bringUp⟩
  all_goals
    change execBringUp s = _
    simp [execBringUp, h]

end Sys2Proof.Proofs
end

section
/-! SUPPORT. The scheduler: packets taken and headers read again (R112, R114), admission (R118 to R120), ages, dependences and decisions
(R118, R132, R133), and registration (R101, R106). -/

namespace Sys2Proof.Machine

/-! Packets and headers (R112, R114). -/

section Queue
variable {s : State} {part q : Nat} {v : Word} {h : QueueHdr} (hq : look (s.part part).lq q = some v)
  (hh : look (s.part part).lqHdr q = some h) (hen : (s.part part).enable = true) (hvalid : v.getLsbD 0 = true)
include hq hh hen hvalid

/-- A queue with a packet that is published and whose slot's former launch is gone. -/
theorem exec_consumePacket_published (hread : h.read < (s.knot (knotKey h.publish)).value.toNat)
    (hold : (s.launches.any fun e => decide (e.2.part = part ∧ e.2.qidx = q ∧ e.2.pkt + ringSize h.log2 = h.read)) = false) :
    exec (.consumePacket part q) s = .next (
      if s.published h then s.rereadLaunch part q v h
      else match s.queuePeek (s.schedClient part q) (entryAddr v) h.read h.log2 with
        | (none, s1) => s1
        | (some w, s1) => match s1.queueTake (s.schedClient part q) (entryAddr v) h.read h.log2 w with
          | .error _ => s1
          | .ok (w, s2) =>
            (s2.onPart part fun x => { x with lqHdr := put x.lqHdr q { h with read := h.read + 1 } }).consumed part q h.read h w) := by
  change execConsumePacket part q s = _
  have hlt : decide ((s.knot (knotKey h.publish)).value.toNat ≤ h.read) = false := decide_eq_false (Nat.not_le.2 hread)
  simp only [execConsumePacket, hq, hh, hen, hvalid, hlt, hold, Bool.not_true, Bool.or_self, Bool.false_eq_true, if_false] <;> rfl

theorem exec_queueRereadPoll_published (hseen : s.published h = true) :
    exec (.queueRereadPoll part q) s = .next (s.rereadLaunch part q v h) := by
  change execQueueRereadPoll part q s = _
  simp only [execQueueRereadPoll, hq, hh, hen, hvalid, hseen, Bool.and_self, if_true]

end Queue

theorem State.published_iff (s : State) (h : QueueHdr) : s.published h = true ↔ h.seen ≠ (s.knot (knotKey h.publish)).value.toNat :=
  decide_eq_true_iff

/-- A header read again is kept, or taken as it is accepted: a free choice (R112). -/
theorem State.reread_of_read {s s1 : State} {c : Client} {a : Nat} {h n : QueueHdr} (fits : QueueHdr → Option QueueHdr)
    (hr : s.readHeader c a = (some n, s1)) :
    s.reread c a h fits = ({ h with seen := s.knotValue h.publish }, { s1 with freeCtr := s1.freeCtr + 1 }) ∨
      ∃ m, fits n = some m ∧
        s.reread c a h fits = ({ m with read := h.read, seen := s1.knotValue m.publish }, { s1 with freeCtr := s1.freeCtr + 1 }) := by
  simp only [State.reread, hr]
  generalize ho : (if (s1.choose 2).1 = 0 then none else fits n) = o
  cases o with
  | none => exact .inl rfl
  | some m =>
    refine .inr ⟨m, ?_, rfl⟩
    split at ho
    · cases ho
    · exact ho

theorem State.rereadLaunch_of_read {s : State} {part q : Nat} {v : Word} {h n : QueueHdr} {s1 : State}
    (hr : s.readHeader (s.schedClient part q) (entryAddr v) = (some n, s1)) : ∃ h1 : QueueHdr,
      (h1 = { h with seen := (s.knot (knotKey h.publish)).value.toNat } ∨
        (s.headerFits part n = true ∧ h1 = { n with read := h.read, seen := (s1.knot (knotKey n.publish)).value.toNat })) ∧
      s.rereadLaunch part q v h =
        ({ s1 with freeCtr := s1.freeCtr + 1 } : State).onPart part fun x => { x with lqHdr := put x.lqHdr q h1 } := by
  obtain hkeep | ⟨m, hm, htake⟩ := State.reread_of_read (h := h) (fun n => if s.headerFits part n then some n else none) hr
  · exact ⟨_, .inl rfl, by rw [State.rereadLaunch, hkeep]; rfl⟩
  · obtain ⟨hfit, hnm⟩ := Option.ite_none_right_eq_some.1 hm
    cases hnm
    exact ⟨_, .inr ⟨hfit, rfl⟩, by rw [State.rereadLaunch, htake]; rfl⟩

/-! Admission (R118 to R120, Table 5.5). -/

/-- A launch packet of the partition's own, for a pattern that it has registered: the checks that follow, in order. -/
theorem State.admission_of_pattern {s : State} {part : Nat} {p : List Word} {n : Nat} {pat : Pattern}
    (hpacket : (wordAt p 0).toNat % 256 = 1 ∧ launchPacketClean p = true)
    (hmine : (wordAt p 0).toNat / 2 ^ 32 % 2 ^ 6 = part ∧ (s.part part).enable = true)
    (hpat : s.handleOf? part (wordAt p 1) = some (n, pat)) :
    s.admission part p =
      let valid := fun (h : Word) => h = noKnot ∨ s.isStanding part h = true
      let named := fun (x v : Nat) => x = 0 ∨ x = v
      let w2 := (wordAt p 2).toNat
      let dies := (countFrom 0 4).countP fun d => (decide (w2 / 2 ^ 8 % 2 ^ 4 = 0) || (w2 / 2 ^ 8 % 2 ^ 4).testBit d) &&
        (s.part part).clusters.any fun k => decide (k / 128 = d)
      if ¬ (valid (wordAt p 6) ∧ valid (wordAt p 3) ∧ valid (wordAt p 4)) then some (3, 0)
      else if pat.stages.length ≤ w2 % 2 ^ 4 then some (2, 7)
      else if ¬ (named (w2 / 2 ^ 32 % 2 ^ 8) pat.fw ∧ named (w2 / 2 ^ 40 % 2 ^ 8) pat.fh ∧ named (w2 / 2 ^ 48 % 2 ^ 3) pat.fdies) then some (2, 8)
      else if (s.part part).clusters.length < pat.fw * pat.fh * pat.fdies then some (2, 1)
      else if dies < pat.fdies then some (2, 2)
      else if s.knotAllotment part < pat.knots then some (2, 3)
      else none := by
  obtain ⟨htype, hclean⟩ := hpacket
  obtain ⟨hpart, hen⟩ := hmine
  have hp : ¬ ((wordAt p 0).toNat % 256 ≠ 1 ∨ launchPacketClean p = false) := by simp [htype, hclean]
  have hm : ¬ (bitsOf (wordAt p 0).toNat 32 6 ≠ part ∨ (s.part part).enable = false) :=
    not_or.2 ⟨not_not_intro hpart, Bool.eq_false_iff.not_left.2 hen⟩
  rw [State.admission, if_neg hp, if_neg hm, hpat]
  refine if_congr ?_ rfl (if_congr ?_ rfl (if_congr ?_ rfl rfl))
  · rw [Bool.not_eq_true', ← Bool.not_eq_true]
    exact not_congr (by simp [and_assoc])
  · rw [bitsOf_zero_start]
  · rw [Bool.not_eq_true', ← Bool.not_eq_true]
    rw [Bool.and_eq_true, Bool.and_eq_true, and_assoc]
    exact not_congr (and_congr decide_eq_true_iff (and_congr decide_eq_true_iff decide_eq_true_iff))

theorem State.admission_of_noPattern {s : State} {part : Nat} {p : List Word}
    (hpacket : (wordAt p 0).toNat % 256 = 1 ∧ launchPacketClean p = true)
    (hmine : (wordAt p 0).toNat / 2 ^ 32 % 2 ^ 6 = part ∧ (s.part part).enable = true) (hpat : s.handleOf? part (wordAt p 1) = none) :
    s.admission part p = some (3, 0) := by
  have hp : ¬ ((wordAt p 0).toNat % 256 ≠ 1 ∨ launchPacketClean p = false) := by simp [hpacket]
  have hm : ¬ (bitsOf (wordAt p 0).toNat 32 6 ≠ part ∨ (s.part part).enable = false) :=
    not_or.2 ⟨not_not_intro hmine.1, Bool.eq_false_iff.not_left.2 hmine.2⟩
  rw [State.admission, if_neg hp, if_neg hm, hpat]

/-- A packet that fails a check is rejected with its record and its completion add (R120). -/
theorem State.consumed_of_rejected {s : State} {part q i : Nat} {h : QueueHdr} {p : List Word} {status res : Nat}
    (h0 : (wordAt p 0).toNat % 256 ≠ 0) (h3 : (wordAt p 0).toNat % 256 ≠ 3) (ha : s.admission part p = some (status, res)) :
    s.consumed part q i h p = ((s.writeReject part q i (h.recbase + i % ringSize h.log2 * 64) p 0 status res).validAdd part
      ((s.schedClient part q).cl / 128) (wordAt p 6)).freeHandles := by
  simp only [State.consumed, if_neg h0, if_neg h3, State.enterLaunch, ha]

/-- The launch that an admitted packet becomes (R116, R124). -/
def State.launchOf (s : State) (part q i : Nat) (h : QueueHdr) (p : List Word) : Launch :=
  let prio := min ((wordAt p 0).toNat / 2 ^ 38 % 2 ^ 2) h.qpri
  { Launch.blank with
    part := part, qidx := q, pkt := i, packet := p, recAddr := h.recbase + i % ringSize h.log2 * 64, pat := (wordAt p 1).toNat % 2 ^ 12
    stage := (wordAt p 2).toNat % 2 ^ 4, prio := prio, aged := prio
    wdog := if h.wdog ≠ 0 then some h.wdog else if (s.part part).wdogdef.toNat ≠ 0 then some (s.part part).wdogdef.toNat else none }

/-- A packet that passes the checks becomes a launch in Depending. -/
theorem State.consumed_of_admitted {s : State} {part q i : Nat} {h : QueueHdr} {p : List Word} (h0 : (wordAt p 0).toNat % 256 ≠ 0)
    (h3 : (wordAt p 0).toNat % 256 ≠ 3) (ha : s.admission part p = none) :
    s.consumed part q i h p =
      let t := ({ s with launches := put s.launches s.serial (s.launchOf part q i h p), serial := s.serial + 1 } : State).depWaiters p true
      (if dependences p = [] then ({ t with agenda := t.agenda ++ [.event (.dependencesMet s.serial)] } : State) else t).freeHandles := by
  simp only [State.consumed, if_neg h0, if_neg h3, State.enterLaunch, ha, State.launchOf, bitsOf_zero_start] <;> rfl

/-! Dependences and decisions (R118, R132, R133). -/

section Depending
variable {s s1 : State} {l : Nat} {x : Launch} (hx : look s.launches l = some x) (hst : x.st = .depending)
  (hmet : ∀ d ∈ dependences x.packet, d.2 ≤ (s.knot (knotKey d.1)).value.toNat)
include hx hst hmet

theorem exec_dependencesMet : exec (.dependencesMet l) s = .next (match s.seedsOf x with
    | (none, s1) => s1.rejectLaunch l 2 6
    | (some ds, s1) => ((s1.depWaiters x.packet false).enterPlacing l ds).carveAll x.part) := by
  change execDependencesMet l s = _
  have hl : s.launch l = x := by rw [State.launch, hx]; rfl
  have hall : (dependences x.packet).all (fun d => decide (d.2 ≤ (s.knot (knotKey d.1)).value.toNat)) = true :=
    List.all_eq_true.2 fun d hd => decide_eq_true (hmet d hd)
  simp only [execDependencesMet, hl, hx, hst, hall, ne_eq, not_true_eq_false, Option.isNone_some, Bool.false_eq_true, Bool.true_eq_false,
    or_self, if_false] <;> rfl

end Depending

/-- The state in which a partition's candidates are decided on: what cannot be restored rejected, ages and areas brought up to date. -/
def State.readyToPlace (s : State) (part : Nat) : State :=
  let s0 := s.rejectLost part
  ((s0.inOrder part).foldl (fun s e => s.onLaunch e.1 fun x => { x with aged := s.agedNow x }) s0).carveAll part

theorem exec_placementDecision_first {s : State} {part l n : Nat} {x : Launch} {r : Place} {rest : List (Nat × Launch)}
    (hen : (s.part part).enable = true) (hc : (s.readyToPlace part).candidates part = (l, x) :: rest)
    (hr : (s.readyToPlace part).legal l [] = some (n, r)) :
    exec (.placementDecision part) s = .next ((s.readyToPlace part).placeCandidate l r) := by
  change execPlacementDecision part s = _
  refine congrArg _ ((if_neg (Bool.eq_false_iff.not_left.2 hen)).trans ?_)
  change (s.readyToPlace part).decideAmong part ((s.readyToPlace part).candidates part) = _
  rw [hc, State.decideAmong, hr]

theorem exec_blockedHeadTimeout_head {s : State} {part l t : Nat} {x : Launch} {rest : List (Nat × Launch)}
    (hc : s.candidates part = (l, x) :: rest) (ht : (s.launch l).blockedAt = some t) (htime : t + 4200000 ≤ s.nCycle)
    (hb : (s.part part).blocked ≠ some l) :
    exec (.blockedHeadTimeout part) s = .next (s.onPart part fun p => { p with blocked := some l }) := by
  change execBlockedHeadTimeout part s = _
  have hout : s.headTimedOut l = true := by
    rw [State.headTimedOut, ht]
    exact decide_eq_true htime
  simp only [execBlockedHeadTimeout, hc, hout, if_true, if_neg hb]

/-! Registration (R101, R105, R106). -/

theorem headerOk_iff (img : List Byte) : headerOk img = true ↔
    64 ≤ img.length ∧ imgNat img 0 4 = 0x594B5A01 ∧ imgNat img 4 2 = 1 ∧ imgNat img 7 1 < 8 ∧ 1 ≤ imgNat img 8 1 ∧ imgNat img 8 1 ≤ 16 ∧
    1 ≤ imgNat img 9 1 ∧ imgNat img 9 1 ≤ 8 ∧ 1 ≤ imgNat img 10 1 ∧ imgNat img 10 1 ≤ 4 ∧ 1 ≤ imgNat img 11 1 ∧ imgNat img 11 1 ≤ 16 ∧
    1 ≤ imgNat img 12 2 ∧ imgNat img 16 8 = img.length ∧ ∀ x ∈ (img.drop 24).take 40, x = 0 := by
  simp only [headerOk, Bool.and_eq_true, decide_eq_true_eq, List.all_eq_true, and_assoc]

/-- The first failing slot is one of them. -/
theorem firstSlot_of_ne_nil {xs : List (RSlot × Nat)} (h : xs ≠ []) : ∃ x ∈ xs, firstSlot xs = some x := by
  induction xs with
  | nil => exact absurd rfl h
  | cons x xs ih =>
    cases xs with
    | nil => exact ⟨x, List.mem_singleton_self x, rfl⟩
    | cons y ys =>
      obtain ⟨z, hz, hfirst⟩ := ih (List.cons_ne_nil _ _)
      rw [firstSlot, hfirst]
      dsimp only
      split
      · exact ⟨z, List.mem_cons_of_mem _ hz, rfl⟩
      · exact ⟨x, List.mem_cons_self, rfl⟩

/-- The checks 2 to 10 of Table 4.5 that are made on an image without failing slots, in order, with the status of each. -/
def State.imageChecks (s : State) (part : Nat) (im : Image) : List (Bool × Nat) :=
  [(im.analyse.tablesOk, 1), (im.pat.errata.all fun e => decide (e = 17), 4), (Config.summaryAgrees im.summary im.bytes, 1),
    ((sizeCode im.pat).isNone, 5), (im.analyse.certFault.isNone, 6), (!im.analyse.mixes, 7), (im.analyse.portalOk, 8),
    (im.analyse.racePair.isNone || (s.part part).permissive, 9), (s.freeIndex.isSome, 10)]

/-- The status of the first check of a list that fails. -/
def firstFailing (cs : List (Bool × Nat)) : Nat := ((cs.find? fun c => !c.1).map Prod.snd).getD 0

theorem firstFailing_cons (b : Bool) (n : Nat) (cs : List (Bool × Nat)) :
    firstFailing ((b, n) :: cs) = if b then firstFailing cs else n := by
  cases b <;> rfl

theorem badErratum_eq_none_iff (es : List Nat) : badErratum es = none ↔ (es.all fun e => decide (e = 17)) = true := by
  simp [badErratum, List.find?_eq_none]

/-- An image's checks name the first slot that fails, with the number of those that do. -/
theorem Image.checks_of_failing {im : Image} {stepping : Nat} (h : im.analyse.failing stepping ≠ []) (permissive : Bool) :
    ∃ x ∈ im.analyse.failing stepping, im.checks stepping permissive = ⟨x.2, 0, (im.analyse.failing stepping).length, x.1.place, 0⟩ := by
  obtain ⟨x, hx, hfirst⟩ := firstSlot_of_ne_nil h
  refine ⟨x, hx, ?_⟩
  simp only [Image.checks, hfirst]

/-- The status of an image without failing slots is that of its first check that fails. -/
theorem State.firstFailing_imageChecks {s : State} {im : Image} (part : Nat) (h : im.analyse.failing s.stepping = []) :
    firstFailing (s.imageChecks part im) =
      if (im.checks s.stepping (s.part part).permissive).status ≠ 0 then (im.checks s.stepping (s.part part).permissive).status
      else if s.freeIndex.isSome then 0 else 10 := by
  simp only [State.imageChecks, firstFailing_cons, Image.checks, h, firstSlot]
  cases im.analyse.tablesOk with
  | false => rfl
  | true =>
    cases he : badErratum im.pat.errata with
    | some e =>
      have hall : (im.pat.errata.all fun e => decide (e = 17)) = false := Bool.eq_false_iff.2 fun h => by
        rw [(badErratum_eq_none_iff _).2 h] at he
        cases he
      rw [hall]
      rfl
    | none =>
      rw [(badErratum_eq_none_iff _).1 he]
      cases Config.summaryAgrees im.summary im.bytes with
      | false => rfl
      | true =>
        cases sizeCode im.pat with
        | some c => rfl
        | none =>
          cases im.analyse.certFault with
          | some c => rfl
          | none =>
            cases im.analyse.mixes with
            | true => rfl
            | false =>
              cases im.analyse.portalOk with
              | false => rfl
              | true =>
                cases im.analyse.racePair with
                | none => rfl
                | some xy => cases (s.part part).permissive <;> rfl

/-- What the checks of an image's bytes come to: the header, ISA and the directory first, then those of the parsed image. -/
theorem registerImage_of_parsed {img : List Byte} {part addr stepping : Nat} {permissive : Bool} {d : BitVec 384} {im : Image}
    (hh : headerOk img = true) (hisa : imgNat img 6 1 ≤ 3) (hdir : directoryOk img = true) (hp : parseImage img part addr d = some im) :
    (registerImage img part addr stepping permissive d).1 = im.checks stepping permissive ∧
      ((registerImage img part addr stepping permissive d).2.isNone ↔ (im.checks stepping permissive).status ≠ 0) := by
  simp only [registerImage, hh, hdir, hp, Bool.not_true, Bool.false_eq_true, if_false, if_neg (Nat.not_lt.2 hisa)]
  split
  · next h => exact ⟨rfl, iff_of_true rfl h⟩
  · next h => exact ⟨rfl, iff_of_false Bool.false_ne_true h⟩

/-- An image that is not registered has a status, and one that is has none. -/
theorem registerImage_status (img : List Byte) (part addr stepping : Nat) (permissive : Bool) (d : BitVec 384) :
    (registerImage img part addr stepping permissive d).2.isNone ↔ (registerImage img part addr stepping permissive d).1.status ≠ 0 := by
  simp only [registerImage]
  split
  · exact iff_of_true rfl Nat.one_ne_zero
  · split
    · exact iff_of_true rfl (by decide)
    · split
      · exact iff_of_true rfl Nat.one_ne_zero
      · split
        · exact iff_of_true rfl Nat.one_ne_zero
        · split
          · next h => exact iff_of_true rfl h
          · next h => exact iff_of_false Bool.false_ne_true h

/-- The machine with a pattern registered at a free index, and its digest in the launch log (R106, R401). -/
def State.registered (s : State) (part i : Nat) (p : Pattern) (d : BitVec 384) : State :=
  let logged := s.onPart part fun x => { x with launchLog := sha384 (digestBytes x.launchLog ++ digestBytes d) }
  { logged with
    patterns := put s.patterns i { p with gen := getAt s.gens i 0 % 2 ^ 30 }
    gens := put s.gens i (getAt s.gens i 0 % 2 ^ 30 + 1) }

section Registering
variable {s : State} {part addr : Nat} {img : List Byte} {d : BitVec 384} (hnew : s.patternBy part d = none)
include hnew

theorem State.registerBytes_of_refused {r : RegOut} (hr : registerImage img part addr s.stepping (s.part part).permissive d = (r, none)) :
    s.registerBytes part addr img d = (r, 0, s) := by
  simp only [State.registerBytes, hnew, hr]

theorem State.registerBytes_of_full {r : RegOut} {p : Pattern}
    (hr : registerImage img part addr s.stepping (s.part part).permissive d = (r, some p)) (hf : s.freeIndex = none) :
    s.registerBytes part addr img d = (.no 10 0, 0, s) := by
  simp only [State.registerBytes, hnew, hr, hf]

theorem State.registerBytes_of_free {r : RegOut} {p : Pattern} {i : Nat}
    (hr : registerImage img part addr s.stepping (s.part part).permissive d = (r, some p)) (hf : s.freeIndex = some i) :
    s.registerBytes part addr img d = (r, handleWord i part (getAt s.gens i 0 % 2 ^ 30), s.registered part i p d) := by
  simp only [State.registerBytes, hnew, hr, hf]
  rfl

end Registering

/-- The record's fields of a registration, by how its image's checks and the pattern indices stand. -/
theorem State.registerBytes_parsed {s : State} {part addr : Nat} {img : List Byte} {d : BitVec 384} {im : Image}
    (hnew : s.patternBy part d = none) (hh : headerOk img = true) (hisa : imgNat img 6 1 ≤ 3) (hdir : directoryOk img = true)
    (hp : parseImage img part addr d = some im) :
    (s.registerBytes part addr img d).1 =
      if (im.checks s.stepping (s.part part).permissive).status ≠ 0 then im.checks s.stepping (s.part part).permissive
      else if s.freeIndex.isSome then im.checks s.stepping (s.part part).permissive else .no 10 0 := by
  obtain ⟨hfst, hsnd⟩ := registerImage_of_parsed (stepping := s.stepping) (permissive := (s.part part).permissive) hh hisa hdir hp
  cases hr : registerImage img part addr s.stepping (s.part part).permissive d with
  | mk r op =>
    rw [hr] at hfst hsnd
    cases op with
    | none => rw [State.registerBytes_of_refused hnew hr, if_pos (hsnd.1 rfl)]; exact hfst
    | some p =>
      rw [if_neg fun h => Bool.false_ne_true (hsnd.2 h)]
      cases hf : s.freeIndex with
      | none => rw [State.registerBytes_of_full hnew hr hf]; rfl
      | some i => rw [State.registerBytes_of_free hnew hr hf]; exact hfst

/-- A registration with a status leaves the machine as it was, and one without takes the lowest free index (R106, R401). -/
theorem State.registerBytes_new {s : State} {part : Nat} (addr : Nat) (img : List Byte) {d : BitVec 384} (hnew : s.patternBy part d = none) :
    ((s.registerBytes part addr img d).1.status ≠ 0 →
      (s.registerBytes part addr img d).2.1 = 0 ∧ (s.registerBytes part addr img d).2.2 = s) ∧
    ((s.registerBytes part addr img d).1.status = 0 → ∃ i p, s.freeIndex = some i ∧
      (s.registerBytes part addr img d).2.1 = handleWord i part (getAt s.gens i 0 % 2 ^ 30) ∧
      (s.registerBytes part addr img d).2.2 = s.registered part i p d) := by
  have hstatus := registerImage_status img part addr s.stepping (s.part part).permissive d
  cases hr : registerImage img part addr s.stepping (s.part part).permissive d with
  | mk r op =>
    rw [hr] at hstatus
    cases op with
    | none =>
      rw [State.registerBytes_of_refused hnew hr]
      exact ⟨fun _ => ⟨rfl, rfl⟩, fun h => absurd h (hstatus.1 rfl)⟩
    | some p =>
      have hzero : r.status = 0 := not_not.1 fun h => Bool.false_ne_true (hstatus.2 h)
      cases hf : s.freeIndex with
      | none =>
        rw [State.registerBytes_of_full hnew hr hf]
        exact ⟨fun _ => ⟨rfl, rfl⟩, fun h => absurd h (Nat.succ_ne_zero 9)⟩
      | some i =>
        rw [State.registerBytes_of_free hnew hr hf]
        exact ⟨fun h => absurd hzero h, fun _ => ⟨i, p, rfl, rfl, rfl⟩⟩

end Sys2Proof.Machine

namespace Sys2Proof.Proofs
open Sys2Proof.Machine

/-- Settles O53. -/
theorem schedulerSteps : Obligations.SchedulerSteps := by
  intro s part q l
  refine ⟨fun v h w w' s1 s2 hq hh hen hvalid hread hold hseen hpeek htake => ?_, fun v h n s1 hq hh hen hvalid hseen hr => ?_,
    fun i h p h0 h3 => ?_, fun hst => ?_, fun x hx hst hmet => ⟨fun ds s1 hs => ?_, fun s1 hs => ?_⟩,
    fun x n r rest => ?_, fun x t rest => exec_blockedHeadTimeout_head, fun addr img d => ?_⟩
  · rw [exec_consumePacket_published hq hh hen hvalid hread hold, if_neg fun hp => (s.published_iff h).1 hp hseen, hpeek]
    simp only [htake]
  · obtain ⟨h1, hh1, hre⟩ := State.rereadLaunch_of_read (h := h) hr
    have hpub := (s.published_iff h).2 hseen
    refine ⟨h1, hh1, ?_⟩
    rw [← hre]
    exact ⟨exec_queueRereadPoll_published hq hh hen hvalid hpub, fun hread hold =>
      (exec_consumePacket_published hq hh hen hvalid hread hold).trans (congrArg _ (if_pos hpub))⟩
  · have hrejects : ∀ {status res : Nat}, s.admission part p = some (status, res) → _ := State.consumed_of_rejected (q := q) (i := i) (h := h) h0 h3
    refine ⟨fun hp => hrejects (if_pos ?_), fun hp hm => hrejects ((if_neg ?_).trans (if_pos ?_)), fun hp hm hn => hrejects ?_,
      fun n pat hp hm hn => ?_⟩
    · by_contra hno
      obtain ⟨ht, hc⟩ := not_or.1 hno
      exact hp ⟨not_not.1 ht, Bool.eq_true_of_not_eq_false hc⟩
    · exact not_or.2 ⟨not_not_intro hp.1, Bool.eq_false_iff.not_left.2 hp.2⟩
    · by_contra hno
      obtain ⟨hpart, he⟩ := not_or.1 hno
      exact hm ⟨not_not.1 hpart, Bool.eq_true_of_not_eq_false he⟩
    · exact State.admission_of_noPattern hp hm hn
    · have hadm := State.admission_of_pattern hp hm hn
      refine ⟨fun hk => hrejects (hadm.trans (if_pos hk)), fun hk hs => hrejects (hadm.trans ?_), fun hk hs hsh => hrejects (hadm.trans ?_),
        fun hk hs hsh hr => hrejects (hadm.trans ?_), fun hk hs hsh hr hd => hrejects (hadm.trans ?_),
        fun hk hs hsh hr hd hpool => hrejects (hadm.trans ?_), fun hk hs hsh hr hd hpool => ⟨rfl, State.consumed_of_admitted h0 h3 (hadm.trans ?_)⟩⟩
      · exact (if_neg (not_not_intro hk)).trans (if_pos (Nat.not_lt.1 hs))
      · exact (if_neg (not_not_intro hk)).trans ((if_neg (Nat.not_le.2 hs)).trans (if_pos hsh))
      · exact (if_neg (not_not_intro hk)).trans ((if_neg (Nat.not_le.2 hs)).trans ((if_neg (not_not_intro hsh)).trans (if_pos (Nat.not_le.1 hr))))
      · exact (if_neg (not_not_intro hk)).trans ((if_neg (Nat.not_le.2 hs)).trans ((if_neg (not_not_intro hsh)).trans
          ((if_neg (Nat.not_lt.2 hr)).trans (if_pos hd))))
      · exact (if_neg (not_not_intro hk)).trans ((if_neg (Nat.not_le.2 hs)).trans ((if_neg (not_not_intro hsh)).trans
          ((if_neg (Nat.not_lt.2 hr)).trans ((if_neg (Nat.not_lt.2 hd)).trans (if_pos (Nat.not_le.1 hpool))))))
      · exact (if_neg (not_not_intro hk)).trans ((if_neg (Nat.not_le.2 hs)).trans ((if_neg (not_not_intro hsh)).trans
          ((if_neg (Nat.not_lt.2 hr)).trans ((if_neg (Nat.not_lt.2 hd)).trans (if_neg (Nat.not_lt.2 hpool))))))
  · exact congrArg _ (if_pos (decide_eq_true hst))
  · rw [exec_dependencesMet hx hst hmet, hs]
  · rw [exec_dependencesMet hx hst hmet, hs]
  · intro s0 s1 s2 hen hc hr
    have hplace := exec_placementDecision_first hen hc hr
    refine ⟨fun hsaved => hplace.trans ?_, fun ok s3 hok => hplace.trans ?_⟩
    · have hintact : s2.saveIntact (s2.launch l) = (true, s2) := by rw [State.saveIntact, hsaved]
      change Host.Outcome.next (s2.placeCandidate l r) = _
      rw [State.placeCandidate, hintact]
      rfl
    · change Host.Outcome.next (s2.placeCandidate l r) = _
      rw [State.placeCandidate, hok]
  · refine ⟨(s.registerBytes part addr img d).1, (s.registerBytes part addr img d).2.1, (s.registerBytes part addr img d).2.2, rfl,
      fun i pt hpt => ?_, fun hnew => ?_⟩
    · simp only [State.registerBytes, hpt, and_self]
    · obtain ⟨hrefused, htaken⟩ := State.registerBytes_new addr img hnew
      refine ⟨hrefused, fun hbad => ?_, fun hh hisa => ?_, fun hh hisa hdir => ?_, fun im hh hisa hdir hp => ⟨fun hfail hcodes => ?_,
        fun hfail => ?_⟩, fun hzero => ?_⟩
      · have hreg : registerImage img part addr s.stepping (s.part part).permissive d = (.no 1 0, none) := by
          rw [registerImage, Bool.eq_false_iff.2 fun h => hbad ((headerOk_iff img).1 h)]
          rfl
        rw [State.registerBytes_of_refused hnew hreg]
        rfl
      · have hreg : registerImage img part addr s.stepping (s.part part).permissive d = (.no 2 0, none) := by
          rw [registerImage, (headerOk_iff img).2 hh]
          exact if_pos hisa
        rw [State.registerBytes_of_refused hnew hreg]
        rfl
      · have hreg : registerImage img part addr s.stepping (s.part part).permissive d = (.no 1 0, none) := by
          rw [registerImage, (headerOk_iff img).2 hh, hdir]
          exact if_neg (Nat.not_lt.2 hisa)
        rw [State.registerBytes_of_refused hnew hreg]
        rfl
      · obtain ⟨x, hx, hchecks⟩ := Image.checks_of_failing hfail (s.part part).permissive
        have hne : (im.checks s.stepping (s.part part).permissive).status ≠ 0 := by rw [hchecks]; exact hcodes x hx
        rw [State.registerBytes_parsed hnew ((headerOk_iff img).2 hh) hisa hdir hp, if_pos hne, hchecks]
        exact ⟨rfl, x, hx, rfl, rfl⟩
      · rw [State.registerBytes_parsed hnew ((headerOk_iff img).2 hh) hisa hdir hp]
        refine Eq.trans ?_ (State.firstFailing_imageChecks part hfail).symm
        split
        · rfl
        · next hzero =>
          split
          · exact not_not.1 hzero
          · rfl
      · obtain ⟨i, p, hfree, hhandle, ht⟩ := htaken hzero
        rw [hhandle, ht]
        exact ⟨i, hfree, rfl, fun j hj => look_put_ne _ _ _ _ hj, ⟨_, look_put_same _ _ _, rfl⟩, rfl, rfl⟩

end Sys2Proof.Proofs
end

section
/-! SUPPORT. Stage switches (R142 to R144): the wave that ends one beside a freeze that waits. -/

namespace Sys2Proof.Proofs
open Sys2Proof.Machine

/-- A pattern of one empty stage. -/
def onePlainStage : Pattern :=
  { part := 0, gen := 0, digest := 0, image := 0, imageLen := 0, isa := 0, fw := 1, fh := 1, fdies := 1, done := 1, classes := [], entries := []
    swatches := [], ranges := [], binds := [], knots := 0, stages := [⟨none, [], [], [], [], []⟩], seams := [], matchcap := 0, seamGroup := 0
    errata := [], warn := 0, released := false }

/-- A launch whose stations are all loaded for a stage switch, at N-cycle 100, beside a freeze that has waited since the start for it. -/
def freezeAfterSwitch : Launch := { Launch.blank with st := .running, cfg := some ⟨.switch 0, [], []⟩, freeze := some ⟨0, false⟩ }

/-- Where the freeze of launch 0 that an outcome leaves counts from. -/
def freezeSince : Host.Outcome State Fault Refusal → Option Nat
  | .next s => (s.launch 0).freeze.map Freeze.since
  | _ => none

/-- Refutes O54: a freeze that waited for a stage switch counts its bound from the switch's end, unless the watchdog began it (R144, R378);
the statement has it count from the time of its request. -/
theorem not_configurationSteps : ¬ Obligations.ConfigurationSteps := by
  intro h
  let s : State := { oneLaunch freezeAfterSwitch with patterns := [(0, onePlainStage)], nCycle := 100 }
  obtain ⟨-, -, hwave⟩ := h.1 s 0 freezeAfterSwitch _ _ _ rfl rfl rfl rfl
  obtain ⟨-, -, hswitch⟩ := hwave (by decide) (by decide)
  have hfreeze := (hswitch 0 rfl).2 ⟨0, false⟩ rfl
  exact absurd (congrArg freezeSince hfreeze) (by decide +kernel)

end Sys2Proof.Proofs
end

section
/-! SUPPORT. Proofs/Tokens.lean: tokens that reach their stations, remnant entries, seeds and activations (spec 01, 05, 07: R14, R22, R24,
R122, R123, R140, R154, R179, R378). -/

namespace Sys2Proof.Machine

/-! A token's delivery. -/

/-- An operand token that has a stage of its own to wait for does so (R140). -/
theorem State.deliverOperand_otherStage {s : State} {l g : Nat} {t : OutTok} (h : s.otherStage l t.tok = some g) (cl : Nat) :
    s.deliverOperand l cl t = s.stageWaitAt l cl g t := by
  simp only [State.deliverOperand, h]

/-- A token under a kill mark is annihilated (R27). -/
theorem State.deliverOperand_killed {s : State} {l cl : Nat} {t : OutTok} (h : s.otherStage l t.tok = none) (hc : t.tok.colour ≠ 0)
    (hk : ((s.station cl (t.tok.station.toNat % 16)).mark t.tok.slot.toNat t.tok.tag t.tok.colour).killed = true) :
    s.deliverOperand l cl t = s := by
  simp only [State.deliverOperand, h, hk, decide_eq_true hc, Bool.and_self, if_true]

/-- A token under no kill mark is placed (R151, R154). -/
theorem State.deliverOperand_placed {s : State} {l cl : Nat} {t : OutTok} (h : s.otherStage l t.tok = none)
    (hk : t.tok.colour = 0 ∨
      ((s.station cl (t.tok.station.toNat % 16)).mark t.tok.slot.toNat t.tok.tag t.tok.colour).killed = false) :
    s.deliverOperand l cl t = s.placeOperand l cl t := by
  rcases hk with hc | hk
  · simp only [State.deliverOperand, h, hc, ne_eq, not_true_eq_false, decide_false, Bool.false_and, Bool.false_eq_true, if_false]
  · simp only [State.deliverOperand, h, hk, Bool.and_false, Bool.false_eq_true, if_false]

section
variable {s : State} {cl k : Nat} {a : Arrival} (ha : s.arrivalAt cl k = some a) (he : a.out.eng = none)
  (ho : a.out.tok.cls.operand = true)
include ha he ho

/-- An operand token for a station is delivered, unless a freeze keeps it in flight (R378). -/
theorem State.exec_tokenDelivered (h : ¬ ((s.launch a.launch).freeze.isSome ∧ s.otherStage a.launch a.out.tok = none ∧
      s.fits a.launch cl a.out = false)) :
    exec (.tokenDelivered cl k) s = .next ((s.dropArrival cl k).deliverOperand a.launch cl a.out) := by
  change execTokenDelivered cl k s = _
  simp only [execTokenDelivered, ha, if_neg h, if_pos (And.intro he ho)]

omit he ho in
/-- During a freeze a token that finds no entry stays in flight (R378). -/
theorem State.exec_tokenDelivered_inFlight (h : (s.launch a.launch).freeze.isSome ∧ s.otherStage a.launch a.out.tok = none ∧
      s.fits a.launch cl a.out = false) :
    exec (.tokenDelivered cl k) s = .next s := by
  change execTokenDelivered cl k s = _
  simp only [execTokenDelivered, ha, if_pos h]

end

/-! A token's place. -/

section
variable (s : State) (l cl : Nat) (t : OutTok)

/-- A token of a station with room, or one that completes its firing, enters the station's table (R154). -/
def State.tableEntered : State :=
  let n := t.tok.station.toNat % 16
  (s.onStation cl n fun x => { x with arrseq := x.arrseq + 1 }).onStation cl n fun x => { x with
    table := x.table ++ [⟨t.tok, (s.station cl n).arrseq, s.aCycle, false⟩] }

/-- Whether a token enters its station's table: an entry is free, or it completes its firing (R154). -/
def State.entersTable : Prop :=
  let n := t.tok.station.toNat % 16
  s.tableUse l cl n < s.cap l ∨ (keyFiring l cl n (s.cluster cl) t.tok.slot t.tok.tag = none ∧
    (keyFiring l cl n ((s.tableEntered cl t).cluster cl) t.tok.slot t.tok.tag).isSome = true)

variable {s l cl t}

theorem State.placeOperand_of_entersTable (h : s.entersTable l cl t) : s.placeOperand l cl t = s.tableEntered cl t := by
  refine if_pos ?_
  rw [Bool.or_eq_true, decide_eq_true_iff, Bool.and_eq_true, Bool.not_eq_true', Option.isSome_eq_false_iff, Option.isNone_iff_eq_none]
  exact h.symm

/-- A token that does not enter its station's table takes a remnant entry, or parks in the overflow area (R24). -/
theorem State.placeOperand_of_not_entersTable (h : ¬ s.entersTable l cl t) : s.placeOperand l cl t =
    if s.remnantFree l cl then
      (s.onStation cl (t.tok.station.toNat % 16) fun x => { x with arrseq := x.arrseq + 1 }).onCluster cl fun c => { c with
        remnant := c.remnant ++ [⟨t.tok, (s.station cl (t.tok.station.toNat % 16)).arrseq, .operand, t.tok.station.toNat % 16, s.aCycle⟩] }
    else (s.onStation cl (t.tok.station.toNat % 16) fun x => { x with arrseq := x.arrseq + 1 }).tensionPark l cl t := by
  refine if_neg ?_
  rw [Bool.or_eq_true, decide_eq_true_iff, Bool.and_eq_true, Bool.not_eq_true', Option.isSome_eq_false_iff, Option.isNone_iff_eq_none]
  exact fun hn => h hn.symm

theorem State.station_tableEntered : (s.tableEntered cl t).station cl (t.tok.station.toNat % 16) =
    { s.station cl (t.tok.station.toNat % 16) with
      arrseq := (s.station cl (t.tok.station.toNat % 16)).arrseq + 1
      table := (s.station cl (t.tok.station.toNat % 16)).table ++
        [⟨t.tok, (s.station cl (t.tok.station.toNat % 16)).arrseq, s.aCycle, false⟩] } := by
  simp only [State.tableEntered, State.station_onStation]

theorem State.station_tableEntered_ne {k m : Nat} (h : ¬ (k = cl ∧ m = t.tok.station.toNat % 16)) :
    (s.tableEntered cl t).station k m = s.station k m := by
  have hne : (k, m) ≠ (cl, t.tok.station.toNat % 16) := fun e => h (Prod.mk.inj e)
  exact (State.station_onStation_ne _ _ _ _ _ _ hne).trans (State.station_onStation_ne _ _ _ _ _ _ hne)

end

/-! Remnant entries, seeds and activations. -/

/-- The injector has taken a seed (R123). -/
def State.seedTaken (s : State) (l : Nat) (d : Seed) : State :=
  s.onLaunch l fun y =>
    { y with seeds := y.seeds.erase d, seedAt := s.aCycle + 1, wdogOn := true, startA := if y.wdogOn then y.startA else s.aCycle }

/-- The earliest remnant entry of a station moves into a free entry of its table (R154). -/
theorem State.exec_remnantPromote {s : State} {cl st l : Nat} {h : Held} (ho : (s.cluster cl).owner = some l)
    (hu : s.tableUse l cl st < s.cap l)
    (hh : earliest (s.station cl st).arrseq (((s.cluster cl).remnant.filter fun r => decide (r.kind = .operand ∧ r.stn = st)).map
      fun r => ⟨r.tok, r.seq, r.wstamp, false⟩) = some h) :
    exec (.remnantPromote cl st) s = .next ((s.onCluster cl fun c => { c with remnant := c.remnant.filter fun r =>
      !(decide (r.kind = .operand ∧ r.stn = st ∧ r.seq = h.seq)) }).onStation cl st fun x => { x with table := x.table ++ [h] }) := by
  change execRemnantPromote cl st s = _
  simp only [execRemnantPromote, ho, if_pos hu, hh]

section
variable {s : State} {l : Nat} {p : Pattern} (hp : s.pattern l = some p) (hr : (s.launch l).runs = true)
include hp

/-- The injector handles one seed in an A-cycle (R122). -/
theorem State.exec_seedInject_early (h : s.aCycle < (s.launch l).seedAt) : exec (.seedInject l) s = .next s := by
  change execSeedInject l s = _
  unfold execSeedInject
  simp only [hp, decide_eq_true h, Bool.or_true, if_true]
  cases nextSeed (s.launch l).seeds (s.launch l).seedOrder <;> rfl

include hr

/-- A seed that is no entry's, or of a mixed group, is counted and discarded (R122). -/
theorem State.exec_seedInject_bad {d : Seed} (hd : nextSeed (s.launch l).seeds (s.launch l).seedOrder = some d)
    (h : (s.launch l).seedAt ≤ s.aCycle) (hbad : s.seedBad l p d = true ∨ d.group ∈ (s.launch l).badGroups) :
    exec (.seedInject l) s =
      .next ((s.seedTaken l d).onLaunch l fun y => { y with leftover := y.leftover + 1 }) := by
  change execSeedInject l s = _
  have hor : (s.seedBad l p d || decide (d.group ∈ (s.launch l).badGroups)) = true := by rwa [Bool.or_eq_true, decide_eq_true_iff]
  simp only [execSeedInject, State.seedTaken, hp, hd, hr, hor, decide_eq_false (not_lt.2 h), Bool.not_true, Bool.or_self, Bool.false_eq_true,
    if_false, if_true]

/-- A seed of an open group goes to its group's instance (R123). -/
theorem State.exec_seedInject_good {d : Seed} {e : Nat} (hd : nextSeed (s.launch l).seeds (s.launch l).seedOrder = some d)
    (h : (s.launch l).seedAt ≤ s.aCycle) (hgood : s.seedBad l p d = false) (hin : d.group ∉ (s.launch l).badGroups)
    (he : seedEntry p (s.launch l).firstStage d = some e) :
    exec (.seedInject l) s = .next ((s.seedTaken l d).seedGo l p (getAt (s.launch l).groupEntry d.group e) d) := by
  change execSeedInject l s = _
  simp only [execSeedInject, State.seedTaken, hp, hd, hr, hgood, he, decide_eq_false hin, decide_eq_false (not_lt.2 h), Bool.not_true,
    Bool.or_self, Bool.false_eq_true, if_false]

/-- An entry with room admits its oldest waiting activation (R22, R179). -/
theorem State.exec_entryAdmit {e id : Nat} {r : EntryRec} {o : OvfRec} (he : nth p.entries e = some r)
    (hid : (s.launch l).freeId = some id) (ho : oldestGroup ((s.launch l).ovf.filter fun o => decide (o.list = .entry e)) = some o)
    (ht : (s.launch l).activations e < r.tension) : exec (.entryAdmit l e) s = .next (
      let mine := fun (q : OvfRec) => decide (q.list = .entry e ∧ q.group = o.group)
      let s1 := (s.setOvf l ((s.launch l).ovf.filter fun q => !mine q)).onLaunch l fun y => { (y.openRoot p e id) with
        groups := y.groups.map fun g => if g.2 = 2 * o.group + 1 then (g.1, 2 * id) else g }
      ((s.launch l).ovf.filter mine).foldl (fun s q =>
        s.inject l ⟨{ q.tok with tag := { q.tok.tag with bobbin := BitVec.ofNat 10 id, iter := 0 } }, q.eng⟩ q.src) s1) := by
  change execEntryAdmit l e s = _
  simp only [execEntryAdmit, hp, he, hid, ho, if_pos (And.intro ht hr)]

end

end Sys2Proof.Machine

namespace Sys2Proof.Proofs

open Sys2Proof.Machine

/-- Settles O55: a token's delivery by its stage, its kill mark and its place; the place by the table's room, then the remnant store's;
then the remnant entries, the seeds and the activations. -/
theorem tokensAndEntries : Obligations.TokensAndEntries := by
  refine ⟨fun s cl => ⟨fun k a ha he ho => ⟨fun hf hs => ?_, fun g hg => ?_, fun hf hs hn => ?_⟩, fun l t => ⟨fun h => ?_, fun h hf => ?_,
    fun h hf => ?_, fun g => ⟨fun h => if_pos h, fun h => if_neg h⟩⟩, fun l st h => State.exec_remnantPromote⟩,
    fun s l p hp hr => ⟨State.exec_seedInject_early hp, fun d hd hat =>
      ⟨State.exec_seedInject_bad hp hr hd hat, fun hgood hin e => State.exec_seedInject_good hp hr hd hat hgood hin⟩, fun e id r o he hid ho ht =>
      State.exec_entryAdmit hp hr he hid ho ht⟩⟩
  · have hgo := State.exec_tokenDelivered ha he ho fun ⟨hz, _, hn⟩ => hf.elim (fun e => by rw [e] at hz; cases hz)
      fun e => Bool.false_ne_true (hn.symm.trans e)
    have ho1 : (s.dropArrival cl k).otherStage a.launch a.out.tok = none := hs
    exact ⟨fun hc => hgo.trans (congrArg _ (State.deliverOperand_placed ho1 (.inl hc))),
      fun hc hk => hgo.trans (congrArg _ (State.deliverOperand_killed ho1 hc hk)),
      fun _ hk => hgo.trans (congrArg _ (State.deliverOperand_placed ho1 (.inr hk)))⟩
  · exact (State.exec_tokenDelivered ha he ho fun ⟨_, hs, _⟩ => by rw [hg] at hs; cases hs).trans
      (congrArg _ (State.deliverOperand_otherStage (s := s.dropArrival cl k) hg cl))
  · exact State.exec_tokenDelivered_inFlight ha ⟨Option.isSome_iff_ne_none.2 hf, hs, hn⟩
  · rw [State.placeOperand_of_entersTable h]
    exact ⟨State.station_tableEntered, fun k m => State.station_tableEntered_ne, fun k => rfl⟩
  · exact (State.placeOperand_of_not_entersTable h).trans (if_pos (decide_eq_true hf))
  · exact (State.placeOperand_of_not_entersTable h).trans (if_neg (by rw [State.remnantFree, decide_eq_true_iff]; exact hf))

end Sys2Proof.Proofs

end

section
/-! SUPPORT. Proofs/Network.lean: the routers, the credits and the spine switches (spec 07: R158 to R164), and the waves of a colour (R26 to
R28). -/

namespace Sys2Proof.Machine

/-! The rank of flits at a router (R159). -/

/-- Of two flits one goes before the other. -/
theorem Flit.before_of_not_before {f g : Flit} (h : f.before g = false) : g.before f = true := by
  rw [Flit.before, Bool.or_eq_false_iff, Bool.and_eq_false_iff, Bool.not_eq_false', decide_eq_false_iff_not, not_le] at h
  rw [Flit.before, Bool.or_eq_true, Bool.and_eq_true, Bool.not_eq_true', decide_eq_true_iff]
  exact h.2.imp (fun ho => ho) fun hl => ⟨h.1, hl.le⟩

theorem perm_rankIn (f : Flit) (fs : List Flit) : (rankIn f fs).Perm (f :: fs) := by
  induction fs with
  | nil => exact .refl _
  | cons g gs ih =>
    rw [rankIn]
    split
    · exact .refl _
    · exact (ih.cons g).trans (.swap f g gs)

theorem perm_ranked (fs : List Flit) : (ranked fs).Perm fs := by
  induction fs with
  | nil => exact .refl _
  | cons f fs ih => exact (perm_rankIn f (ranked fs)).trans (ih.cons f)

/-- Ranked flits: each goes before the next. -/
abbrev RankedFlits : List Flit → Prop := List.IsChain fun f g => f.before g = true

theorem RankedFlits.cons_rankIn {f g : Flit} {fs : List Flit} (hg : g.before f = true) (h : RankedFlits (g :: fs))
    (hf : RankedFlits (rankIn f fs)) : RankedFlits (g :: rankIn f fs) := by
  cases fs with
  | nil => exact .cons_cons hg (.singleton f)
  | cons k ks =>
    by_cases hb : f.before k = true
    · rw [rankIn, if_pos hb] at hf ⊢
      exact .cons_cons hg hf
    · rw [rankIn, if_neg hb] at hf ⊢
      exact .cons_cons (List.isChain_cons_cons.1 h).1 hf

theorem rankedFlits_rankIn (f : Flit) {fs : List Flit} (h : RankedFlits fs) : RankedFlits (rankIn f fs) := by
  induction fs with
  | nil => exact .singleton f
  | cons g gs ih =>
    rw [rankIn]
    split
    next hb => exact .cons_cons hb h
    next hb => exact .cons_rankIn (Flit.before_of_not_before (Bool.eq_false_iff.2 hb)) h (ih h.tail)

theorem rankedFlits_ranked (fs : List Flit) : RankedFlits (ranked fs) := by
  induction fs with
  | nil => exact .nil
  | cons f fs ih => exact rankedFlits_rankIn f ih

/-- Two neighbours of a ranked list stand in its order. -/
theorem RankedFlits.adjacent {a b : List Flit} {f g : Flit} (h : RankedFlits (a ++ f :: g :: b)) : f.before g = true :=
  (List.isChain_cons_cons.1 (List.isChain_split.1 h).2).1

/-- The input of a router at which a flit stands. -/
def Flit.routerInput (f : Flit) : Nat := match f.at_ with | .router _ i => i | _ => 4

/-- What a rank says: the older goes first, then the lower input. -/
theorem Flit.before_iff {f g : Flit} : f.before g = true ↔ older f.out.tok.age g.out.tok.age = true ∨
    older g.out.tok.age f.out.tok.age = false ∧ f.routerInput ≤ g.routerInput := by
  rw [Flit.before, Bool.or_eq_true, Bool.and_eq_true, Bool.not_eq_true', decide_eq_true_iff]
  rfl

/-! A router's work (R158 to R160). -/

/-- The first value that a partial function gives is its value at the first place where a test holds that says it has one. -/
theorem findSome?_eq_map_find? {α β : Type} {f : α → Option β} {test : α → Bool} {v : α → β} (xs : List α)
    (h : ∀ x, f x = if test x = true then some (v x) else none) : xs.findSome? f = (xs.find? test).map v := by
  induction xs with
  | nil => rfl
  | cons x xs ih =>
    rw [List.findSome?_cons, List.find?_cons, h x]
    cases test x with
    | true => rfl
    | false => exact ih

/-- The output that a token takes is the first open one of the productive directions, then of all (R159). -/
theorem outputOf_eq (p : Panel) (used : List Nat) (cl dst : Nat) : outputOf p used cl dst =
    ((p.productive cl dst ++ [0, 1, 2, 3]).find? fun d =>
      (neighbour cl d).any (fun n => decide (n ∈ p.all)) && decide ((nth used d).getD 0 < 2)).map fun d => (d, (neighbour cl d).getD 0) := by
  refine findSome?_eq_map_find? _ fun d => ?_
  cases neighbour cl d with
  | none => rfl
  | some n => simp only [Option.any_some, Option.getD_some, Bool.and_eq_true, decide_eq_true_iff]

/-- The productive directions, said of each neighbour (R159). -/
theorem Panel.productive_eq (p : Panel) (cl dst : Nat) : p.productive cl dst = [0, 2, 1, 3].filter fun d =>
    (neighbour cl d).any fun n =>
      let far := fun (k : Nat) =>
        let tree := bfsFrom (p.all.filter fun k => decide (k / 128 = cl / 128)) dst
        hopsGo tree tree.length k
      decide (n ∈ p.all ∧ far n < far cl) := by
  refine List.filter_congr fun d _ => ?_
  cases neighbour cl d <;> rfl

/-- A free choice among the entries of a list that holds some takes one of them (log 3). -/
theorem State.choose_mem {α : Type} (s : State) {xs : List α} (h : xs ≠ []) : ∃ x ∈ xs, nth xs (s.choose xs.length).1 = some x :=
  nth_of_lt (Nat.mod_lt _ (List.length_pos_iff.2 h))

/-- The head of a station that a cluster's heads list takes a way that the list's test holds of (R158). -/
theorem State.test_of_mem_heads {s : State} {l cl : Nat} {test : Way → Bool} {h : Nat × OutTok} (hm : h ∈ s.heads l cl test) :
    test (s.way l cl h.2) = true := by
  obtain ⟨e, -, he⟩ := List.mem_filterMap.1 hm
  cases hq : e.2.outq with
  | nil => rw [hq] at he; cases he
  | cons t ts =>
    simp only [hq] at he
    split at he
    · next ht => cases he; exact ht
    · cases he

/-- The heads of the stations of a cluster that may be injected into the mesh (R161). -/
def State.meshHeads (s : State) (l cl : Nat) : List (Nat × OutTok) :=
  s.heads l cl fun w => match w with | .mesh k => (s.cluster cl).credit k | _ => false

theorem State.way_of_mem_meshHeads {s : State} {l cl : Nat} {h : Nat × OutTok} (hm : h ∈ s.meshHeads l cl) :
    ∃ k, s.way l cl h.2 = .mesh k := by
  have ht := State.test_of_mem_heads hm
  cases hw : s.way l cl h.2 with
  | mesh k => exact ⟨k, rfl⟩
  | near => rw [hw] at ht; cases ht
  | spine t => rw [hw] at ht; cases ht
  | lost => rw [hw] at ht; cases ht

/-- The heads of the stations of a cluster that may take its uplink (R161, R164). -/
def State.spineOutHeads (s : State) (l cl : Nat) : List (Nat × OutTok) :=
  s.heads l cl fun w => match w with | .spine (.cluster k) => (s.cluster cl).credit k | .spine _ => true | _ => false

theorem State.way_of_mem_spineOutHeads {s : State} {l cl : Nat} {h : Nat × OutTok} (hm : h ∈ s.spineOutHeads l cl) :
    ∃ to_, s.way l cl h.2 = .spine to_ := by
  have ht := State.test_of_mem_heads hm
  cases hw : s.way l cl h.2 with
  | spine t => exact ⟨t, rfl⟩
  | near => rw [hw] at ht; cases ht
  | mesh k => rw [hw] at ht; cases ht
  | lost => rw [hw] at ht; cases ht

/-- The heads that were not injected have waited one N-cycle more (R160). -/
def State.headsWait (s : State) (cl : Nat) (hs : List (Nat × OutTok)) : State :=
  hs.foldl (fun t h => t.onStation cl h.1 fun x => { x with injectWait := x.injectWait + 1 }) s

/-- The head that a router injects, of a number in its list: with the destination and the output, when one is free (R159, R160). -/
def State.meshFree (s : State) (l cl : Nat) (r : Router) (i : Nat) : Option ((Nat × OutTok) × Nat × Nat × Nat) :=
  if s.starved l cl then none
  else (nth (s.meshHeads l cl) i).bind fun h => match s.way l cl h.2 with
    | .mesh k => (outputOf (s.launch l).panel r.used cl k).map fun o => (h, k, o)
    | _ => none

/-- The state after the head `h` has left for `k` by the output `d` to `n` (R159, R161). -/
def State.meshInjected (s : State) (cl : Nat) (h : Nat × OutTok) (k d n : Nat) : State :=
  let (q, c) := (s.cluster cl).depart k
  ((({ s with
    freeCtr := s.freeCtr + 1, serial := s.serial + 1
    flits := s.flits ++ [⟨s.serial, h.2, cl, h.1, .cluster k, q, .router n ((d + 2) % 4), true⟩] } : State).setCluster cl
      { c with starve := none }).popOut cl h.1)

section
variable {s : State} {l cl : Nat} {r : Router}

theorem State.injectMesh_nil (h : s.meshHeads l cl = []) : s.injectMesh l cl r = s := if_pos h

variable (hne : s.meshHeads l cl ≠ [])
include hne

theorem State.injectMesh_waits (hn : s.meshFree l cl r (s.choose (s.meshHeads l cl).length).1 = none) :
    s.injectMesh l cl r = ({ s with freeCtr := s.freeCtr + 1 } : State).headsWait cl (s.meshHeads l cl) := by
  refine (if_neg hne).trans ?_
  split
  next => rfl
  next hs => cases hn.symm.trans hs

theorem State.injectMesh_goes {h : Nat × OutTok} {k d n : Nat}
    (hs : s.meshFree l cl r (s.choose (s.meshHeads l cl).length).1 = some (h, k, d, n)) : s.injectMesh l cl r =
      (s.meshInjected cl h k d n).headsWait cl ((s.meshHeads l cl).filter fun g => decide (g.1 ≠ h.1)) := by
  refine (if_neg hne).trans ?_
  split
  next hn => cases hs.symm.trans hn
  next he => cases hs.symm.trans he; rfl

/-- Under another router's STARVE no head is injected (R160). -/
theorem State.injectMesh_starved (hst : s.starved l cl = true) :
    s.injectMesh l cl r = ({ s with freeCtr := s.freeCtr + 1 } : State).headsWait cl (s.meshHeads l cl) :=
  State.injectMesh_waits hne (if_pos hst)

/-- Otherwise one head is chosen, and goes by a free output (R159). -/
theorem State.injectMesh_chosen (hst : s.starved l cl = false) : ∃ h ∈ s.meshHeads l cl, ∃ k, s.way l cl h.2 = .mesh k ∧
    (outputOf (s.launch l).panel r.used cl k = none →
      s.injectMesh l cl r = ({ s with freeCtr := s.freeCtr + 1 } : State).headsWait cl (s.meshHeads l cl)) ∧
    (∀ d n, outputOf (s.launch l).panel r.used cl k = some (d, n) → s.injectMesh l cl r =
      (s.meshInjected cl h k d n).headsWait cl ((s.meshHeads l cl).filter fun g => decide (g.1 ≠ h.1))) := by
  obtain ⟨h, hm, hn⟩ := s.choose_mem hne
  obtain ⟨k, hk⟩ := State.way_of_mem_meshHeads hm
  have hfree : s.meshFree l cl r (s.choose (s.meshHeads l cl).length).1 =
      (outputOf (s.launch l).panel r.used cl k).map fun o => (h, k, o) := by
    simp only [State.meshFree, hst, Bool.false_eq_true, if_false, hn, Option.bind_some, hk]
  exact ⟨h, hm, k, hk, fun ho => State.injectMesh_waits hne (hfree.trans (congrArg _ ho)),
    fun d n ho => State.injectMesh_goes hne (hfree.trans (congrArg _ ho))⟩

end

section
variable {s : State} {l cl : Nat}

theorem State.injectSpine_none (h : s.spineOutHeads l cl = [] ∨ 16 ≤ (s.spineFifo (cl / 128) (cl % 128)).length) :
    s.injectSpine l cl = s := if_pos h

/-- A cluster's departure towards a destination of the spine: only another cluster's takes a SEQ and a credit (R161, R164). -/
def Cluster.departTo (c : Cluster) (to_ : FlitTo) : Nat × Cluster := match to_ with | .cluster k => c.depart k | _ => (0, c)

/-- The state after a head has left by the uplink (R158, R164). -/
def State.spineInjected (s : State) (cl : Nat) (h : Nat × OutTok) (to_ : FlitTo) : State :=
  let (q, c) := (s.cluster cl).departTo to_
  ((({ s with
    freeCtr := s.freeCtr + 1, serial := s.serial + 1
    flits := s.flits ++ [⟨s.serial, h.2, cl, h.1, to_, q, .spine (cl / 128) (cl % 128), true⟩] } : State).setCluster cl c).popOut cl h.1)

theorem State.injectSpine_chosen (hne : s.spineOutHeads l cl ≠ []) (hf : ¬ 16 ≤ (s.spineFifo (cl / 128) (cl % 128)).length) :
    ∃ h ∈ s.spineOutHeads l cl, ∃ to_, s.way l cl h.2 = .spine to_ ∧ s.injectSpine l cl = s.spineInjected cl h to_ := by
  obtain ⟨h, hm, hn⟩ := s.choose_mem hne
  obtain ⟨to_, hk⟩ := State.way_of_mem_spineOutHeads hm
  refine ⟨h, hm, to_, hk, (if_neg (not_or.2 ⟨hne, hf⟩)).trans ?_⟩
  split
  next he => cases hn.symm.trans he
  next g he =>
    cases hn.symm.trans he
    simp only [hk]
    cases to_ <;> rfl

end

/-- The through tokens of a router: those that stand there and have not moved in this N-cycle (R159). -/
def State.through (s : State) (cl : Nat) : List Flit :=
  s.flits.filter fun f => !f.moved && match f.at_ with | .router k _ => decide (k = cl) | _ => false

/-- A router that works in this N-cycle assigns its through tokens in their rank, then injects (R158, R159). -/
theorem State.exec_routerCycle {s : State} {cl l : Nat} (ho : (s.cluster cl).owner = some l) (hm : (s.launch l).moves = true)
    (hr : (s.cluster cl).routed = false) : exec (.routerCycle cl) s = .next (
      let t := (ranked (s.through cl)).foldl (State.assign l cl) (s, ⟨[0, 0, 0, 0], 0⟩)
      (((t.1.injectMesh l cl t.2).injectSpine l cl).localPath l cl).onCluster cl fun c => { c with routed := true }) := by
  change execRouterCycle cl s = _
  simp only [execRouterCycle, State.through, ho, hr, hm, Bool.false_eq_true, Bool.not_true, or_self, if_false] <;> rfl

/-- An admitted through token takes an ejection lane where it is the one that is expected, and is held elsewhere (R162). -/
theorem State.receive_lanes (t : State) (l cl : Nat) (f : Flit) :
    ((t.receive l cl f ((t.cluster cl).lanes + 1)).onCluster cl fun c =>
        { c with lanes := c.lanes + (if (t.cluster cl).expects f then 1 else 0) }) =
      if (t.cluster cl).expects f = true then
        (t.portDeliver l cl f ((t.cluster cl).lanes + 1)).onCluster cl fun c => { c with lanes := c.lanes + 1 }
      else (t.moveFlit f (.reorder cl)).onCluster cl fun c => c := by
  rw [State.receive]
  by_cases he : (t.cluster cl).expects f = true
  · simp only [if_pos he]
  · simp only [if_neg he, Nat.add_zero]

/-- A router whose token has waited 64 N-cycles raises STARVE (R160). -/
theorem State.exec_starve_raised {s : State} {cl : Nat} {e : Nat × Station} (he : e ∈ (s.cluster cl).stations) (hw : 64 ≤ e.2.injectWait)
    (hn : (s.cluster cl).starve = none) : exec (.starve cl) s = .next (s.onCluster cl fun c => { c with starve := some s.nCycle }) := by
  have hany : ((s.cluster cl).stations.any fun e => decide (64 ≤ e.2.injectWait)) = true := List.any_of_mem he (decide_eq_true hw)
  change execStarve cl s = _
  simp only [execStarve, hn, hany, Option.isNone_none, Bool.and_self, if_true]

theorem State.exec_starve_again {s : State} {cl n : Nat} (hn : (s.cluster cl).starve = some n) : exec (.starve cl) s = .next s := by
  change execStarve cl s = _
  simp only [execStarve, hn, Option.isNone_some, Bool.false_and, Bool.false_eq_true, if_false]

/-- A receiving port takes in its downlink's head (R162). -/
theorem State.exec_receivePortDelivery {s : State} {cl l : Nat} {f : Flit} (ho : (s.cluster cl).owner = some l)
    (hm : (s.launch l).moves = true) (hr : (s.cluster cl).routed = true)
    (hf : (s.flits.find? fun f => decide (f.at_ = .downlink cl)) = some f) (hd : (s.cluster cl).down = false) (ha : s.admits cl f = true) :
    exec (.receivePortDelivery cl) s =
      .next (State.releases l cl 2 ((s.receive l cl f 3).onCluster cl fun c => { c with down := true })) := by
  change execReceivePortDelivery cl s = _
  simp only [execReceivePortDelivery, ho, hm, hr, hf, hd, ha, Bool.not_true, Bool.not_false, Bool.or_self, Bool.and_self, Bool.false_eq_true,
    if_false, if_true]

/-- A destination returns between 1 and 16 of the credits that it owes (R161). -/
theorem State.exec_creditReturn {s : State} {src cl : Nat} (h : getAt (s.cluster cl).owed src 0 ≠ 0) :
    ∃ n, 1 ≤ n ∧ n ≤ 16 ∧ n ≤ getAt (s.cluster cl).owed src 0 ∧
      exec (.creditReturn src cl) s = .next ((({ s with freeCtr := s.freeCtr + 1 } : State).onCluster cl fun c => { c with
        owed := setAt c.owed src (getAt (s.cluster cl).owed src 0 - n) 0 }).onCluster src fun c =>
          { c with credits := setAt c.credits cl (getAt c.credits cl 0 - n) 0 }) := by
  have hlt : (s.choose (min (getAt (s.cluster cl).owed src 0) 16)).1 < min (getAt (s.cluster cl).owed src 0) 16 :=
    Nat.mod_lt _ (by omega)
  refine ⟨(s.choose (min (getAt (s.cluster cl).owed src 0) 16)).1 + 1, by omega, by omega, by omega, ?_⟩
  change execCreditReturn src cl s = _
  simp only [execCreditReturn, if_neg h]
  rfl

/-- The only head at a spine switch takes its output (R164). -/
theorem State.exec_spineSwitchCycle {s : State} {d : Nat} {f : Flit} (hf : s.spineHeads d = [f])
    (hm : (s.launch (s.flitLaunch f)).moves = true) : exec (.spineSwitchCycle d) s = .next (s.spineTake d f) := by
  change execSpineSwitchCycle d s = _
  simp only [execSpineSwitchCycle, hf, List.filter_cons, hm, List.filter_nil, if_true, List.map_cons, List.map_nil, union, List.foldl_cons,
    List.foldl_nil, List.not_mem_nil, if_false, List.nil_append, decide_true, firstAtSpine]

/-- The cluster that a through token is for. -/
def Flit.through (f : Flit) (cl : Nat) : Nat := match f.to_ with | .cluster k => k | _ => cl

/-- What a router does with one through token, on a panel: it ejects it while two lanes are free, or sends it by an output (R159, R162). -/
def State.assignOn (p : Panel) (l cl : Nat) (acc : State × Router) (f : Flit) : State × Router :=
  let (t, r) := acc
  if f.through cl = cl ∧ r.eject < 2 ∧ t.admits cl f = true then
    (if (t.cluster cl).expects f = true then
        (t.portDeliver l cl f ((t.cluster cl).lanes + 1)).onCluster cl fun c => { c with lanes := c.lanes + 1 }
      else (t.moveFlit f (.reorder cl)).onCluster cl fun c => c, { r with eject := r.eject + 1 })
  else match outputOf p r.used cl (f.through cl) with
    | some (d, n) => (t.moveFlit f (.router n ((d + 2) % 4)), { r with used := setNth r.used d ((nth r.used d).getD 0 + 1) })
    | none => (t, r)

theorem State.assign_eq (l cl : Nat) (acc : State × Router) (f : Flit) :
    State.assign l cl acc f = State.assignOn (acc.1.launch l).panel l cl acc f := by
  simp only [State.assign, State.receive_lanes, State.assignOn] <;> rfl

/-- A through token's way changes no launch. -/
theorem State.launches_assignOn (p : Panel) (l cl : Nat) (acc : State × Router) (f : Flit) :
    (State.assignOn p l cl acc f).1.launches = acc.1.launches := by
  rw [State.assignOn]
  split
  · dsimp only
    split <;> rfl
  · split <;> rfl

/-- A router assigns its through tokens over its panel, which they do not change (R159). -/
theorem State.foldl_assign (s : State) (l cl : Nat) (r : Router) (fs : List Flit) :
    fs.foldl (State.assign l cl) (s, r) = fs.foldl (State.assignOn (s.launch l).panel l cl) (s, r) := by
  refine (List.foldl_rel (r := fun c d => c = d ∧ c.1.launches = s.launches) ⟨rfl, rfl⟩ fun f _ c d ⟨hcd, hl⟩ => ?_).1
  have hlaunch : c.1.launch l = s.launch l := by rw [State.launch, hl, State.launch]
  subst hcd
  rw [State.assign_eq, hlaunch]
  exact ⟨rfl, (State.launches_assignOn _ l cl c f).trans hl⟩

/-! The waves of a colour (R26 to R28). -/

/-- The colour that a control token carries. -/
abbrev Token.wave (t : Token) : BitVec 2 := BitVec.ofNat 2 t.payload.toNat

/-- The mark of a control token's slot, tag and colour. -/
abbrev State.waveMark (s : State) (cl : Nat) (t : Token) : ColourMark :=
  (s.station cl (t.station.toNat % 16)).mark t.slot.toNat t.tag t.wave

/-- Whether a control token's wave waits at its slot for a reply (log 62). -/
abbrev State.waveReplyDue (s : State) (cl : Nat) (t : Token) : Bool := s.replyDue cl (t.station.toNat % 16) t.slot.toNat t.tag t.wave

/-- A list has each of its entries in another, or one that is not. -/
theorem all_mem_eq_true {α : Type} [DecidableEq α] {ps qs : List α} : (ps.all fun p => decide (p ∈ qs)) = true ↔ ∀ p ∈ ps, p ∈ qs := by
  simp only [List.all_eq_true, decide_eq_true_iff]

theorem all_mem_eq_false {α : Type} [DecidableEq α] {ps qs : List α} :
    (ps.all fun p => decide (p ∈ qs)) = false ↔ ∃ p ∈ ps, p ∉ qs := by
  simp only [List.all_eq_false, decide_eq_true_iff]

/-- What a commit wave does at a slot whose ports are in, once the slot is uncoloured: it issues the held effects one after another, then
raises what was deferred and passes on (R26, R27). -/
def State.commitAt (u : State) (l cl k : Nat) (t : Token) : State :=
  let n := t.station.toNat % 16
  let slot := t.slot.toNat
  if u.issuing l cl n slot t.tag then u
  else match (u.station cl n).held.find? fun h => h.firing.under cl n slot t.tag t.wave with
    | some h => if h.tok.isSome || u.seamCredits h.firing then h.issue u else u
    | none =>
      if u.mayForward l cl t t.wave then
        ((((u.dropArrival cl k).raiseDeferred l cl n slot t.tag t.wave).forward l cl t t.wave).onStation cl n fun x =>
          x.clearMark slot t.tag t.wave).wavePassed l t t.wave
      else u

section
variable {u : State} {l cl k : Nat} {t : Token}

theorem State.commitAt_issuing (hi : u.issuing l cl (t.station.toNat % 16) t.slot.toNat t.tag = true) : u.commitAt l cl k t = u := if_pos hi

variable (hi : u.issuing l cl (t.station.toNat % 16) t.slot.toNat t.tag = false)
include hi

section
variable {h : HeldEffect}
  (hf : ((u.station cl (t.station.toNat % 16)).held.find? fun h =>
    h.firing.under cl (t.station.toNat % 16) t.slot.toNat t.tag t.wave) = some h)
include hf

theorem State.commitAt_issues (hs : h.tok ≠ none ∨ u.seamCredits h.firing = true) : u.commitAt l cl k t = h.issue u := by
  have hif : (h.tok.isSome || u.seamCredits h.firing) = true := by rwa [Bool.or_eq_true, Option.isSome_iff_ne_none]
  simp only [State.commitAt, hi, hf, hif, Bool.false_eq_true, if_false, if_true]

theorem State.commitAt_waits (ht : h.tok = none) (hs : u.seamCredits h.firing = false) : u.commitAt l cl k t = u := by
  simp only [State.commitAt, hi, hf, ht, hs, Option.isSome_none, Bool.or_self, Bool.false_eq_true, if_false]

end

variable (hf : ((u.station cl (t.station.toNat % 16)).held.find? fun h =>
  h.firing.under cl (t.station.toNat % 16) t.slot.toNat t.tag t.wave) = none)
include hf

theorem State.commitAt_passes (hm : u.mayForward l cl t t.wave = true) : u.commitAt l cl k t =
    ((((u.dropArrival cl k).raiseDeferred l cl (t.station.toNat % 16) t.slot.toNat t.tag t.wave).forward l cl t t.wave).onStation cl
      (t.station.toNat % 16) fun x => x.clearMark t.slot.toNat t.tag t.wave).wavePassed l t t.wave := by
  simp only [State.commitAt, hi, hf, hm, Bool.false_eq_true, if_false, if_true]

theorem State.commitAt_noRoom (hm : u.mayForward l cl t t.wave = false) : u.commitAt l cl k t = u := by
  simp only [State.commitAt, hi, hf, hm, Bool.false_eq_true, if_false]

end

/-- A held firing that is issued is parked, to be performed again (R26). -/
theorem HeldEffect.issue_firing {s : State} {h : HeldEffect} (ht : h.tok = none) : h.issue s =
    (s.onStation h.firing.cl h.firing.st fun x => { x with held := x.held.erase h }).park { h.firing.plain with atCommit := true } .again := by
  rw [HeldEffect.issue, ht]

/-- A held token that is issued stays, without its colour (R139). -/
theorem HeldEffect.issue_token {s : State} {h : HeldEffect} (ht : h.tok ≠ none) : h.issue s =
    s.onStation h.firing.cl h.firing.st fun x => { x with
      held := x.held.map fun g => if g = h then { h with firing := h.firing.plain } else g } := by
  obtain ⟨t, e⟩ := Option.ne_none_iff_exists'.1 ht
  rw [HeldEffect.issue, e]

section
variable {s : State} {cl k : Nat} {a : Arrival} (ha : s.arrivalAt cl k = some a) (he : a.out.eng = none)
include ha he

section
variable (hc : a.out.tok.cls = .commit)
include hc

/-- A commit token under a kill mark is annihilated (R27). -/
theorem State.exec_commitTokenArrival_killed (hk : (s.waveMark cl a.out.tok).killed = true) :
    exec (.commitTokenArrival cl k) s = .next (s.dropArrival cl k) := by
  change execCommitTokenArrival cl k s = _
  simp only [execCommitTokenArrival, ha, he, hc, ne_eq, not_true_eq_false, or_self, if_false, hk, if_true]

variable (hk : (s.waveMark cl a.out.tok).killed = false)
include hk

/-- A commit token that does not complete its slot's ports is remembered (R27). -/
theorem State.exec_commitTokenArrival_remembered (hp : ∃ p ∈ s.carrying a.launch a.out.tok a.out.tok.wave,
      p ∉ union (s.waveMark cl a.out.tok).commitPorts [a.out.tok.port]) :
    exec (.commitTokenArrival cl k) s = .next ((s.dropArrival cl k).onStation cl (a.out.tok.station.toNat % 16) fun x =>
      x.setMark { s.waveMark cl a.out.tok with commitPorts := union (s.waveMark cl a.out.tok).commitPorts [a.out.tok.port] }) := by
  change execCommitTokenArrival cl k s = _
  simp only [execCommitTokenArrival, ha, he, hc, ne_eq, not_true_eq_false, or_self, if_false, hk, all_mem_eq_false.2 hp, Bool.not_false,
    Bool.false_eq_true, if_true]

variable (hp : ∀ p ∈ s.carrying a.launch a.out.tok a.out.tok.wave, p ∈ union (s.waveMark cl a.out.tok).commitPorts [a.out.tok.port])
include hp

theorem State.exec_commitTokenArrival_due (hd : s.waveReplyDue cl a.out.tok = true) : exec (.commitTokenArrival cl k) s = .next s := by
  change execCommitTokenArrival cl k s = _
  simp only [execCommitTokenArrival, ha, he, hc, ne_eq, not_true_eq_false, or_self, if_false, hk, all_mem_eq_true.2 hp, Bool.not_true,
    Bool.false_eq_true, hd, if_true]

variable (hd : s.waveReplyDue cl a.out.tok = false)
include hd

theorem State.exec_commitTokenArrival_complete : exec (.commitTokenArrival cl k) s =
    .next ((s.uncolour a.launch cl (a.out.tok.station.toNat % 16) a.out.tok.slot.toNat a.out.tok.tag a.out.tok.wave).commitAt a.launch cl k
      a.out.tok) := by
  change execCommitTokenArrival cl k s = _
  simp only [execCommitTokenArrival, ha, he, hc, ne_eq, not_true_eq_false, or_self, if_false, hk, all_mem_eq_true.2 hp, Bool.not_true,
    Bool.false_eq_true, hd] <;> rfl

end

section
variable (hc : a.out.tok.cls = .kill)
include hc

/-- The annihilation of a slot by the first kill token of a wave, and the token passed on (R27). -/
def State.killAt (s : State) (l cl k : Nat) (t : Token) : State :=
  if (s.waveMark cl t).killed then s.dropArrival cl k
  else ((s.dropArrival cl k).annihilate l cl (t.station.toNat % 16) t.slot.toNat t.tag t.wave).forward l cl t t.wave

/-- A kill token waits for a reply that is due, and for room for what it passes on (R150; log 62). -/
theorem State.exec_killTokenArrival_waits (hw : s.waveReplyDue cl a.out.tok = true ∨
      (s.waveMark cl a.out.tok).killed = false ∧ s.mayForward a.launch cl a.out.tok a.out.tok.wave = false) :
    exec (.killTokenArrival cl k) s = .next s := by
  have hif : (s.waveReplyDue cl a.out.tok ||
      (!(s.waveMark cl a.out.tok).killed && !s.mayForward a.launch cl a.out.tok a.out.tok.wave)) = true := by
    rwa [Bool.or_eq_true, Bool.and_eq_true, Bool.not_eq_true', Bool.not_eq_true']
  change execKillTokenArrival cl k s = _
  simp only [execKillTokenArrival, ha, he, hc, ne_eq, not_true_eq_false, or_self, if_false, hif, if_true]

variable (hw : ¬ (s.waveReplyDue cl a.out.tok = true ∨
  (s.waveMark cl a.out.tok).killed = false ∧ s.mayForward a.launch cl a.out.tok a.out.tok.wave = false))
include hw

/-- Otherwise it annihilates; the mark is cleared with the last port's token, and kept until then (R27). -/
theorem State.exec_killTokenArrival : exec (.killTokenArrival cl k) s = .next (
    if ((s.killAt a.launch cl k a.out.tok).carrying a.launch a.out.tok a.out.tok.wave).all fun p =>
        decide (p ∈ union (s.waveMark cl a.out.tok).killPorts [a.out.tok.port]) then
      ((s.killAt a.launch cl k a.out.tok).onStation cl (a.out.tok.station.toNat % 16) fun x =>
        x.clearMark a.out.tok.slot.toNat a.out.tok.tag a.out.tok.wave).wavePassed a.launch a.out.tok a.out.tok.wave
    else (s.killAt a.launch cl k a.out.tok).onStation cl (a.out.tok.station.toNat % 16) fun x => x.setMark { s.waveMark cl a.out.tok with
      killed := true, killPorts := union (s.waveMark cl a.out.tok).killPorts [a.out.tok.port] }) := by
  have hif : (s.waveReplyDue cl a.out.tok ||
      (!(s.waveMark cl a.out.tok).killed && !s.mayForward a.launch cl a.out.tok a.out.tok.wave)) = false := by
    rwa [Bool.eq_false_iff, ne_eq, Bool.or_eq_true, Bool.and_eq_true, Bool.not_eq_true', Bool.not_eq_true']
  change execKillTokenArrival cl k s = _
  simp only [execKillTokenArrival, ha, he, hc, ne_eq, not_true_eq_false, or_self, if_false, hif, Bool.false_eq_true, State.killAt] <;> rfl

end

end

end Sys2Proof.Machine

namespace Sys2Proof.Proofs

open Sys2Proof.Machine

/-- Settles O56: a router's order is the insertion sort of its through tokens; each free choice takes an entry of its list; and a wave's
cases are those of its mark, its ports and what waits at its slot. -/
theorem networkAndColourWaves : Obligations.NetworkAndColourWaves := by
  refine ⟨fun s cl => ⟨fun l ho hm hr => ?_, fun p used dst => ?_, fun l r => ⟨State.injectMesh_nil, fun hst hne =>
    State.injectMesh_starved hne hst, fun hst hne => State.injectMesh_chosen hne hst⟩, fun l => ⟨State.injectSpine_none, fun hne hf => ?_⟩,
    fun l => rfl, fun e he hw hn => State.exec_starve_raised he hw hn, fun n => State.exec_starve_again, fun l f =>
    State.exec_receivePortDelivery, fun src => State.exec_creditReturn, fun d f => State.exec_spineSwitchCycle⟩,
    fun s cl k a ha he => ⟨fun hc => ⟨State.exec_commitTokenArrival_killed ha he hc, State.exec_commitTokenArrival_remembered ha he hc,
      fun hk hp => ⟨State.exec_commitTokenArrival_due ha he hc hk hp, fun hd => ?_⟩⟩, fun hc => ⟨State.exec_killTokenArrival_waits ha he hc,
      fun hw hp => ?_, fun hw hp => ?_⟩⟩⟩
  · exact ⟨ranked (s.through cl), perm_ranked _, fun a b f g h =>
      Flit.before_iff.1 (RankedFlits.adjacent (h ▸ rankedFlits_ranked (s.through cl))), (State.exec_routerCycle ho hm hr).trans
        (congrArg (fun t : State × Router => Host.Outcome.next ((((t.1.injectMesh l cl t.2).injectSpine l cl).localPath l cl).onCluster cl fun c =>
          { c with routed := true })) (State.foldl_assign s l cl _ _))⟩
  · rw [outputOf_eq, Panel.productive_eq]
  · obtain ⟨h, hm, to_, hw, hi⟩ := State.injectSpine_chosen hne hf
    refine ⟨h, hm, to_, hw, hi.trans ?_⟩
    cases to_ <;> rfl
  · have hgo := State.exec_commitTokenArrival_complete ha he hc hk hp hd
    exact ⟨fun hi => hgo.trans (congrArg _ (State.commitAt_issuing hi)), fun hi => ⟨
      fun h hf ht hs => hgo.trans (congrArg _ ((State.commitAt_issues hi hf (.inr hs)).trans (HeldEffect.issue_firing ht))),
      fun h hf ht hs => hgo.trans (congrArg _ (State.commitAt_waits hi hf ht hs)),
      fun h hf ht => hgo.trans (congrArg _ ((State.commitAt_issues hi hf (.inl ht)).trans (HeldEffect.issue_token ht))),
      fun hf hm => hgo.trans (congrArg _ (State.commitAt_passes hi hf hm)), fun hf hm => hgo.trans (congrArg _ (State.commitAt_noRoom hi hf hm))⟩⟩
  · exact (State.exec_killTokenArrival ha he hc hw).trans (congrArg _ (if_pos (all_mem_eq_true.2 hp)))
  · exact (State.exec_killTokenArrival ha he hc hw).trans (congrArg _ (if_neg (Bool.eq_false_iff.1 (all_mem_eq_false.2 hp))))

end Sys2Proof.Proofs

end

section
/-! SUPPORT. Proofs/Released.lean: what waits is released: phases, generators, NEXT, BALLOC and tickets (spec 08: R30, R173 to R176, R183,
R186). -/

namespace Sys2Proof.Machine

section
variable {s : State} {l : Nat} (hr : (s.launch l).runs = true)
include hr

/-- A phase's wave clears the touched bits, and releases the phase's PHWAITs where it finds the phase closed (R30, R183). -/
theorem State.exec_phaseReductionWave {ph : Nat} (hw : (s.launch l).phaseWaiters ph ≠ []) : exec (.phaseReductionWave l ph) s = .next (
    let s1 := (s.launch l).panel.all.foldl (fun s cl => s.onCluster cl fun c =>
      { c with touched := c.touched &&& ~~~(BitVec.ofNat 16 (2 ^ ph)) }) s
    if s.phaseClosed l ph then s1.onLaunch l fun x => { x with
      parked := x.parked.map fun p => if p ∈ (s.launch l).phaseWaiters ph then { p with why := .phdone } else p }
    else s1) := by
  change execPhaseReductionWave l ph s = _
  simp only [execPhaseReductionWave, hr, hw, Bool.not_true, Bool.false_eq_true, or_self, if_false]

omit hr in
/-- A released PHWAIT emits (R183). -/
theorem State.again_phwait {p : Parked} {x : FormX} {ph : BitVec 4} {src : Bool} (hp : p.why = .phdone)
    (h : p.firing.Is (.phwait x ph src)) : (Pick.again l p).run s =
      .next ((s.unpark l p.id).emit0 p.firing x.pm (passClass x.sa p.firing.a) (s.opXA p.firing x)) := by
  rw [Firing.Is] at h
  refine (if_pos hp).trans (congrArg _ ?_)
  simp only [State.phwaitDone, h]

/-- A parked NEXT whose next iteration is Live emits there (R176). -/
theorem State.exec_nextRelease {p : Nat} {w : Parked} {x : FormA} (hp : (s.launch l).parkedAt p = some w) (h : w.firing.Is (.next x))
    (hw : w.why = .next) (hn : (s.launch l).nextStep w.firing ≠ .wait) (hroom : s.roomFor w.firing = true) :
    exec (.nextRelease l p) s = .next ((s.unpark l p).nextFiring w.firing (passClass x.sa w.firing.a) (s.opA w.firing x)) := by
  rw [Firing.Is] at h
  change execNextRelease l p s = _
  simp only [execNextRelease, hp, h, hw, hr, hn, hroom, ne_eq, not_false_eq_true, and_self, if_true]

/-- A parked BALLOC allocates once its fan and the ids allow (R173). -/
theorem State.exec_ballocWake {p : Nat} {w : Parked} {x : FormX} {cls : BitVec 6} (hp : (s.launch l).parkedAt p = some w)
    (h : w.firing.Is (.balloc x cls)) (hw : w.why = .balloc) (hb : s.ballocReady w.firing cls.toNat = true)
    (hroom : s.roomFor w.firing = true) : exec (.ballocWake l p) s = .next ((s.unpark l p).balloc w.firing x.pm cls.toNat) := by
  rw [Firing.Is] at h
  change execBallocWake l p s = _
  simp only [execBallocWake, hp, h, hw, hr, hb, hroom, and_self, if_true]

/-- An arbiter with no grant held grants the first request of its FIFO (R186). -/
theorem State.exec_ticketGrant {cl arb arc : Nat} {f : Firing} {rest : List (Nat × Firing)} {x : FormX} {b : BitVec 3} {n : BitVec 6}
    (ho : (s.cluster cl).owner = some l) (hh : ((s.cluster cl).arbiter arb).holder = none)
    (hf : ((s.cluster cl).arbiter arb).fifo = (arc, f) :: rest) (ha : ((s.cluster cl).arbiter arb).released ≤ s.aCycle)
    (h : f.Is (.ticket x b n)) : exec (.ticketGrant cl arb) s =
      .next (((s.onCluster cl fun c => c.setArbiter arb { (s.cluster cl).arbiter arb with holder := some (arc, f), fifo := rest }).reply0 f
        .value (s.opXA f x)).ticketEnter l cl arb) := by
  rw [Firing.Is] at h
  change execTicketGrant cl arb s = _
  simp only [execTicketGrant, ho, hh, hf, hr, ha, h, and_self, if_true]

/-! Generators (R175). -/

section
variable {y : Generator} {rest : List Generator} (hg : (s.launch l).gens = y :: rest) (hroom : s.roomFor y.firing = true)
  (hcr : s.seamCredits y.firing = true)
include hg hroom hcr

omit hr hroom hcr in
/-- A generator issues no two iterations in one A-cycle. -/
theorem State.exec_generatorStep_early (h : s.aCycle < y.last) : exec (.generatorStep l y.id) s = .next s := by
  change execGeneratorStep l y.id s = _
  unfold execGeneratorStep
  simp only [hg, List.find?_cons, decide_true, h, Bool.or_true, if_true]

variable (h : y.last ≤ s.aCycle)
include h

/-- A generator that has issued every iteration ends. -/
theorem State.exec_generatorStep_done (hj : y.j = y.n) :
    exec (.generatorStep l y.id) s = .next ((s.dropGen l y.id).emit1 y.firing .completion (BitVec.ofNat 64 y.n)) := by
  change execGeneratorStep l y.id s = _
  simp only [execGeneratorStep, hg, List.find?_cons, decide_true, List.takeWhile_cons, ne_eq, not_true_eq_false, decide_false,
    Bool.false_eq_true, if_false, List.all_nil, hr, hroom, hcr, not_lt.2 h, Bool.not_true, Bool.or_self, hj, if_true]

variable (hj : y.j ≠ y.n)
include hj

/-- A generator whose instance has gone traps. -/
theorem State.exec_generatorStep_stale (hs : y.stale = true) :
    exec (.generatorStep l y.id) s = .next ((s.dropGen l y.id).trap y.firing 0x0101) := by
  change execGeneratorStep l y.id s = _
  simp only [execGeneratorStep, hg, List.find?_cons, decide_true, List.takeWhile_cons, ne_eq, not_true_eq_false, decide_false,
    Bool.false_eq_true, if_false, List.all_nil, hr, hroom, hcr, not_lt.2 h, Bool.not_true, Bool.or_self, hj, hs, if_true]

/-- Else it opens its instance's next iteration, once that is Free. -/
theorem State.exec_generatorStep_iterates {i : Instance} (hs : y.stale = false) (hi : look (s.launch l).insts y.inst = some i) :
    exec (.generatorStep l y.id) s =
      .next (if i.freeing ∨ (i.iter (i.nextIter % i.iters.length)).st ≠ .free then s else s.genIterate l y i) := by
  change execGeneratorStep l y.id s = _
  simp only [execGeneratorStep, hg, List.find?_cons, decide_true, List.takeWhile_cons, ne_eq, not_true_eq_false, decide_false,
    Bool.false_eq_true, if_false, List.all_nil, hr, hroom, hcr, not_lt.2 h, Bool.not_true, Bool.or_self, hj, hs, hi]

end

end

/-- A generator's next iteration: its ITER is Live with its number, and the last one marks its instance's end (R175). -/
theorem State.genIterate_eq (s : State) (l : Nat) (y : Generator) (i : Instance) : s.genIterate l y i = (
    let k := i.nextIter
    let it := k % i.iters.length
    let opened : Instance := { i with
      iters := setNth i.iters it ⟨.live, k⟩, nextIter := k + 1, endMark := if y.j + 1 = y.n then some k else i.endMark }
    let t := (s.onLaunch l fun x => { x with
      insts := put x.insts y.inst opened
      gens := x.gens.map fun z => if z.id = y.id then { z with j := y.j + 1, last := s.aCycle + 1 } else z }).emitGroup y.firing false
        { y.firing.carry .value (y.base + BitVec.ofNat 64 y.j * y.step.signExtend 64) with
          bobbin := BitVec.ofNat 10 y.inst, iter := BitVec.ofNat 6 it }
    if y.j + 1 = y.n then (t.dropGen l y.id).emit1 y.firing .completion (BitVec.ofNat 64 y.n) else t) := by
  simp only [State.genIterate, Instance.setIter, decide_eq_true_iff]

end Sys2Proof.Machine

namespace Sys2Proof.Proofs

open Sys2Proof.Machine

/-- Settles O57, by each waiter's event. -/
theorem waitersReleased : Obligations.WaitersReleased := by
  refine fun s l hr => ⟨fun ph hw => ⟨fun hc => ?_, fun hc => ?_⟩, fun p x ph src => State.again_phwait, fun y rest i hg hroom hcr =>
    ⟨State.exec_generatorStep_early hg, fun h => ⟨State.exec_generatorStep_done hr hg hroom hcr h,
      State.exec_generatorStep_stale hr hg hroom hcr h, fun hj hs hi hfr hfree => ?_, fun hj hs hi hwait => ?_⟩⟩,
    fun p w x => State.exec_nextRelease hr, fun p w x cls => State.exec_ballocWake hr, fun cl arb arc f rest x b n ho hh hf ha h =>
      State.exec_ticketGrant hr ho hh hf ha h⟩
  · exact (State.exec_phaseReductionWave hr hw).trans (congrArg _ (if_neg (Bool.eq_false_iff.1 hc)))
  · exact (State.exec_phaseReductionWave hr hw).trans (congrArg _ (if_pos hc))
  · refine (State.exec_generatorStep_iterates hr hg hroom hcr h hj hs hi).trans (congrArg _ ((if_neg ?_).trans (s.genIterate_eq l y i)))
    exact not_or.2 ⟨Bool.eq_false_iff.1 hfr, not_not.2 hfree⟩
  · exact (State.exec_generatorStep_iterates hr hg hroom hcr h hj hs hi).trans (congrArg _ (if_pos hwait))

end Sys2Proof.Proofs

end

section
/-! SUPPORT. Proofs/Panels.lean: what a write of the scheduler leaves unchanged: every cluster, every knot, and the launches and how each of
them stands. -/

namespace Sys2Proof.Machine

/-- Every cluster and every knot is as it was, and the same launches stand in the same states. -/
structure State.SamePanels (s t : State) : Prop where
  clusters : t.clusters = s.clusters
  knots : t.knots = s.knots
  launches : ∀ l, (look t.launches l).map Launch.st = (look s.launches l).map Launch.st

theorem State.SamePanels.refl (s : State) : s.SamePanels s := ⟨rfl, rfl, fun _ => rfl⟩

theorem State.SamePanels.trans {s t u : State} (h : s.SamePanels t) (g : t.SamePanels u) : s.SamePanels u :=
  ⟨g.clusters.trans h.clusters, g.knots.trans h.knots, fun l => (g.launches l).trans (h.launches l)⟩

theorem State.samePanels_of_eq {s t : State} (hc : t.clusters = s.clusters) (hk : t.knots = s.knots) (hl : t.launches = s.launches) :
    s.SamePanels t := ⟨hc, hk, fun l => by rw [hl]⟩

theorem State.SamePanels.look_eq_none {s t : State} (h : s.SamePanels t) {l : Nat} (hl : look s.launches l = none) :
    look t.launches l = none := by
  have hm := h.launches l
  rw [hl, Option.map_none, Option.map_eq_none_iff] at hm
  exact hm

theorem State.SamePanels.look_eq_some {s t : State} (h : s.SamePanels t) {l : Nat} {x : Launch} (hl : look s.launches l = some x) :
    ∃ y, look t.launches l = some y ∧ y.st = x.st := by
  have hm := h.launches l
  rw [hl, Option.map_some, Option.map_eq_some_iff] at hm
  exact hm

/-! Meters. -/

theorem State.samePanels_onLaunch (s : State) (l : Nat) {f : Launch → Launch} (hf : ∀ x, (f x).st = x.st) :
    s.SamePanels (s.onLaunch l f) := by
  refine ⟨s.onLaunch_clusters l f, s.onLaunch_knots l f, fun k => ?_⟩
  rw [State.look_onLaunch, Option.map_map]
  congr 1
  funext x
  by_cases hk : k = l
  · exact (congrArg Launch.st (if_pos hk)).trans (hf x)
  · exact congrArg Launch.st (if_neg hk)

theorem State.samePanels_meter (s : State) (l die i n : Nat) : s.SamePanels (s.meter l die i n) :=
  (State.samePanels_of_eq (s := s) (t := s.meterPart (s.launch l).part die i n) rfl rfl rfl).trans (State.samePanels_onLaunch _ l
    (f := fun x => { x with delta := setAt x.delta i (getAt x.delta i 0 + BitVec.ofNat 64 n) 0 }) fun _ => rfl)

theorem State.samePanels_meterOf (s : State) (c : Client) (die i n : Nat) : s.SamePanels (s.meterOf c die i n) := by
  rw [State.meterOf]
  split
  · exact .refl s
  · cases c.launch with
    | none => exact State.samePanels_of_eq rfl rfl rfl
    | some l => exact s.samePanels_meter l die i n

theorem State.samePanels_crossing (s : State) (c : Client) (a b n : Nat) : s.SamePanels (s.crossing c a b n) := by
  rw [State.crossing]
  split
  · exact .refl s
  · exact s.samePanels_meterOf c a 11 _

/-! Local HBM and its tables. -/

theorem State.samePanels_touchPa (s : State) (pa : Nat) : s.SamePanels (s.touchPa pa) := by
  rw [State.touchPa]
  split <;> exact State.samePanels_of_eq rfl rfl rfl

theorem State.samePanels_hbmPut (s : State) (key pa : Nat) (bs : List Byte) : s.SamePanels (s.hbmPut key pa bs) := by
  obtain ⟨m, h, -⟩ := s.hbmPut_frame key pa bs
  rw [h]
  exact State.samePanels_of_eq rfl rfl rfl

theorem State.samePanels_hbmWrite (s : State) (part key pa : Nat) (bs : List Byte) : s.SamePanels (s.hbmWrite part key pa bs) := by
  refine (s.samePanels_hbmPut key pa bs).trans ?_
  rw [State.hbmWrite, State.setDirty]
  dsimp only
  split <;> exact State.samePanels_of_eq rfl rfl rfl

theorem State.samePanels_groupEntry (s : State) (key table va : Nat) : s.SamePanels (s.groupEntry key table va).2 := by
  rw [State.groupEntry]
  dsimp only
  split
  · split <;> exact State.samePanels_of_eq rfl rfl rfl
  · exact .refl s

theorem State.SamePanels.touchPa {s t : State} (h : s.SamePanels t) (pa : Nat) : s.SamePanels (t.touchPa pa) :=
  h.trans (t.samePanels_touchPa pa)

theorem State.samePanels_walk (s : State) (part va : Nat) : s.SamePanels (s.walk part va).2 := by
  rw [State.walk]
  dsimp only
  split
  · exact .refl s
  split
  · exact .refl s
  split
  · exact (State.SamePanels.refl s).touchPa _
  split
  · split <;> exact ((State.SamePanels.refl s).touchPa _).touchPa _
  split
  · exact ((State.SamePanels.refl s).touchPa _).touchPa _
  rw [apply_ite Prod.snd, ite_self]
  exact (((State.SamePanels.refl s).touchPa _).touchPa _).touchPa _ |>.trans (State.samePanels_groupEntry _ _ _ _)

theorem State.samePanels_translate (s : State) (part va : Nat) (need : Need) : s.SamePanels (s.translate part va need).2 := by
  have hw := s.samePanels_walk part va
  rw [State.translate]
  split
  next h => rw [h] at hw; exact hw
  next h => rw [h] at hw; exact hw
  next h =>
    rw [h] at hw
    split
    · exact hw
    · exact hw.trans (State.samePanels_hbmPut _ _ _ _)

/-! The portal. -/

theorem State.samePanels_portTo (s : State) (cl acc : Nat) (mask : BitVec 48) : s.SamePanels (s.portTo cl acc mask).2 := by
  rw [State.portTo]
  dsimp only
  split
  · exact .refl s
  · exact State.samePanels_of_eq rfl rfl rfl

theorem State.samePanels_routeTo {s s1 : State} {cl : Nat} {t : GTarget} {tag : Option Nat} {r : Route}
    (h : s.routeTo cl t tag = some (r, s1)) : s.SamePanels s1 := by
  unfold State.routeTo at h
  split at h
  · dsimp only at h
    split at h
    · cases h; exact s.samePanels_portTo _ _ _
    · split at h
      · cases h; exact s.samePanels_portTo _ _ _
      · cases h
  · cases h; exact .refl s

theorem State.samePanels_portalBytes (s : State) (c : Client) (t : GTarget) (sent got : Nat) : s.SamePanels (s.portalBytes c t sent got) := by
  unfold State.portalBytes
  split
  · exact s.samePanels_meterOf _ _ _ _
  · exact (s.samePanels_meterOf _ _ _ _).trans (State.samePanels_meterOf _ _ _ _ _)

theorem State.samePanels_askPage (s : State) (c : Client) (t : GTarget) : s.SamePanels (s.askPage c t).2 := by
  unfold State.askPage
  split
  · split
    · exact .refl s
    · dsimp only
      split <;> exact State.samePanels_of_eq rfl rfl rfl
  · exact .refl s

/-! Writes of G (R216 to R221). -/

theorem State.samePanels_writeTarget (s : State) (c : Client) (t : GTarget) (bs : List Byte) : s.SamePanels (s.writeTarget c t bs) := by
  unfold State.writeTarget
  split
  next pa key =>
    exact (((s.samePanels_touchPa pa).trans (State.samePanels_hbmWrite _ c.part key pa bs)).trans
      (State.samePanels_meterOf _ c (dieOf pa) 8 bs.length)).trans (State.samePanels_crossing _ c (c.cl / 128) (dieOf pa) bs.length)
  · split
    · exact .refl s
    · next r s1 h =>
      have hsent : s1.SamePanels (s1.sendOut (portalMsg r codeWrite t bs.length bs)) := State.samePanels_of_eq rfl rfl rfl
      exact ((State.samePanels_routeTo h).trans hsent).trans (State.samePanels_portalBytes _ _ _ _ _)

theorem State.samePanels_gWrite {s t : State} {c : Client} {va : Nat} {bs : List Byte} {need : Need} (h : s.gWrite c va bs need = .ok t) :
    s.SamePanels t := by
  have ht := s.samePanels_translate c.part va need
  rw [State.gWrite] at h
  split at h
  · cases h
  next g s1 hx =>
    rw [hx] at ht
    have ha := s1.samePanels_askPage c g
    split at h
    next hp =>
      rw [hp] at ha
      cases h
      exact (ht.trans ha).trans (State.samePanels_writeTarget _ _ _ _)
    · cases h

theorem State.samePanels_writeSpan {c : Client} {fuel a : Nat} {bs : List Byte} {s t : State} (h : State.writeSpan c fuel a bs s = .ok t) :
    s.SamePanels t := by
  induction fuel generalizing a bs s with
  | zero => cases h; exact .refl _
  | succ n ih =>
    rw [State.writeSpan] at h
    split at h
    · cases h; exact .refl _
    · dsimp only at h
      split at h
      · cases h
      next hw => exact (State.samePanels_gWrite hw).trans (ih h)

theorem State.samePanels_schedWrite (s : State) (c : Client) (a : Nat) (bs : List Byte) : s.SamePanels (s.schedWrite c a bs) := by
  rw [State.schedWrite]
  split
  next h => exact State.samePanels_writeSpan h
  · exact .refl s

/-- What keeps the panels at each step keeps them over a list. -/
theorem State.samePanels_foldl {α : Type} (g : State → α → State) (h : ∀ (s : State) a, s.SamePanels (g s a)) (xs : List α) (s : State) :
    s.SamePanels (xs.foldl g s) := by
  induction xs generalizing s with
  | nil => exact .refl s
  | cons x xs ih => exact (h s x).trans (ih (g s x))

theorem State.samePanels_setOvf (s : State) (l : Nat) (new : List OvfRec) : s.SamePanels (s.setOvf l new) := by
  have hnew : s.SamePanels (s.onLaunch l fun y => { y with ovf := new }) := s.samePanels_onLaunch l fun _ => rfl
  rw [State.setOvf]
  dsimp only
  split
  · exact hnew
  · refine hnew.trans (State.samePanels_foldl _ (fun t r => ?_) _ _)
    split
    next h => exact State.samePanels_gWrite h
    · exact .refl t

/-! A knot's add (R338). -/

theorem State.launches_fireTrigger (s : State) (key : Nat) : (s.fireTrigger key).launches = s.launches := by
  rw [State.fireTrigger]
  dsimp only
  split <;> rfl

theorem State.launches_knotAdd {s t : State} {key n : Nat} {d : Option Word} (h : s.knotAdd key n d = some t) : t.launches = s.launches := by
  rw [State.knotAdd] at h
  split at h
  · cases h
  · cases h
    exact State.launches_fireTrigger _ _

/-- A completion add of the scheduler makes no launch. -/
theorem State.look_completionAdd_eq_none {s : State} {part frm l : Nat} {h : Word} (hl : look s.launches l = none) :
    look (s.completionAdd part frm h).launches l = none := by
  have hadd : look (s.engineAdd frm none part h 1).2.launches l = none := by
    rw [State.engineAdd]
    split
    · exact hl
    dsimp only
    split
    · exact hl
    split
    · exact hl
    next s1 hk =>
      refine State.SamePanels.look_eq_none ((s1.samePanels_meterOf _ _ _ _).trans (State.samePanels_crossing _ _ _ _ _)) ?_
      rw [State.launches_knotAdd hk]
      exact hl
  rw [State.completionAdd]
  split
  next he => rw [he] at hadd; exact hadd
  next he => rw [he] at hadd; exact hadd

end Sys2Proof.Machine

end

section
/-! SUPPORT. Proofs/Preemption.lean: freezes, saves, restores, the watchdog and retirement (spec 18, 19: R378 to R383, R387, R388). -/

namespace Sys2Proof.Machine

/-! Freezing (R378). -/

/-- The freeze wave: its launch freezes, and the freeze is counted. -/
theorem State.launch_startFreeze {s : State} {l : Nat} {x : Launch} (h : look s.launches l = some x) (w : Bool) (n : Nat) :
    ∃ d, (s.startFreeze l w n).launch l =
      { x with st := .freezing, freeze := some ⟨n, w⟩, preempts := x.preempts + 1, delta := d } := by
  have hf : look (s.onLaunch l fun x => { x with st := .freezing, freeze := some ⟨n, w⟩, preempts := x.preempts + 1 }).launches l =
      some { x with st := .freezing, freeze := some ⟨n, w⟩, preempts := x.preempts + 1 } := by
    rw [State.look_onLaunch, h, Option.map_some, if_pos rfl]
  exact ⟨_, State.launch_onLaunch (State.meterPart _ _ _ _ _) l _ _ hf⟩

/-- A save area is found or taken; the launches stay. -/
theorem State.launches_saveArea {s s1 : State} {l a : Nat} (h : s.saveArea l = some (a, s1)) : s1.launches = s.launches ∧ s1.nCycle = s.nCycle := by
  rw [State.saveArea] at h
  dsimp only at h
  split at h
  · cases h; exact ⟨rfl, rfl⟩
  · split at h
    · cases h; exact ⟨rfl, rfl⟩
    · cases h

theorem State.launch_congr {s t : State} (h : t.launches = s.launches) (l : Nat) : t.launch l = s.launch l := by
  rw [State.launch, h, State.launch]

/-- A freeze cancels a switch whose hem has not passed (R144). -/
theorem State.askFreeze_begins {s : State} {l : Nat} (h : (s.launch l).cfg = none ∨ (s.launch l).switchHem = true) (w : Bool) :
    s.askFreeze l w = (s.onLaunch l fun y => { y with
      cfg := none, hems := y.hems.filter fun h => decide (h.why ≠ .stage) }).startFreeze l w s.nCycle := by
  refine if_neg ?_
  rw [Bool.and_eq_true, Option.isSome_iff_ne_none, Bool.not_eq_true']
  exact fun ⟨hc, hs⟩ => h.elim hc fun hh => Bool.false_ne_true (hs.symm.trans hh)

/-- Otherwise it waits for the switch's end (R144). -/
theorem State.askFreeze_waits {s : State} {l : Nat} (hc : (s.launch l).cfg ≠ none) (hs : (s.launch l).switchHem = false) (w : Bool) :
    s.askFreeze l w = s.onLaunch l fun y => { y with freeze := some ⟨s.nCycle, w⟩ } := by
  refine if_pos ?_
  rw [Bool.and_eq_true, Option.isSome_iff_ne_none, Bool.not_eq_true']
  exact ⟨hc, hs⟩

theorem State.exec_freeze {s s1 : State} {l a : Nat} (h : s.mayFreeze l = true) (ha : s.saveArea l = some (a, s1)) :
    exec (.freeze l) s = .next (s1.askFreeze l false) := by
  change execFreeze l s = _
  simp only [execFreeze, if_pos h, ha]

/-! The save (R380). -/

section
variable {s s1 : State} {l base : Nat} {z : Freeze} (hz : (s.launch l).freeze = some z) (hst : (s.launch l).st = .freezing)
  (he : (s.launch l).ending = none) (hf : s.frozen l = true) (ha : s.saveArea l = some (base, s1))
include hz hst he hf ha

theorem State.exec_saveLaunch (hw : z.watchdog = false) : exec (.saveLaunch l) s = .next (s1.saveTo l base) := by
  change execSaveLaunch l s = _
  simp only [execSaveLaunch, hz, hst, he, hf, ha, hw, ne_eq, not_true_eq_false, Bool.false_and, Bool.false_eq_true, Bool.true_eq_false,
    or_self, if_false]

theorem State.exec_saveLaunch_watchdog (hw : z.watchdog = true) (hb : s.nCycle - z.since < freezeBound (s.launch l).panel.all.length) :
    exec (.saveLaunch l) s =
      .next ((((s1.saveTo l base).onLaunch l fun y => { y with ending := some .wdogSaved }).watchdogRecord l 0).finish l (s1.panelExc l)) := by
  have hp : s.boundPassed (s.launch l) z = false := decide_eq_false (not_le.2 hb)
  change execSaveLaunch l s = _
  simp only [execSaveLaunch, hz, hst, he, hf, ha, hw, hp, ne_eq, not_true_eq_false, Bool.and_false, Bool.false_eq_true, Bool.true_eq_false,
    or_self, if_false, if_true]

end

theorem State.launches_foldl {α : Type} (g : State → α → State) (h : ∀ (s : State) a, (g s a).launches = s.launches) (xs : List α)
    (s : State) : (xs.foldl g s).launches = s.launches := by
  induction xs generalizing s with
  | nil => rfl
  | cons x xs ih => exact (ih (g s x)).trans (h s x)

theorem State.clusters_foldl {α : Type} (g : State → α → State) (h : ∀ (s : State) a, (g s a).clusters = s.clusters) (xs : List α)
    (s : State) : (xs.foldl g s).clusters = s.clusters := by
  induction xs generalizing s with
  | nil => rfl
  | cons x xs ih => exact (ih (g s x)).trans (h s x)

theorem State.cluster_congr {s t : State} (h : t.clusters = s.clusters) (k : Nat) : t.cluster k = s.cluster k := by
  rw [State.cluster, h, State.cluster]

theorem State.launches_leaveKnots (s : State) (l : Nat) : (s.leaveKnots l).launches = s.launches := by
  rw [State.leaveKnots]
  exact State.launches_foldl _ (fun t p => by split <;> rfl) _ s

theorem State.launches_freePanel (s : State) (l : Nat) : (s.freePanel l).launches = s.launches := by
  rw [State.freePanel, State.launches_foldl, State.launches_foldl, State.launches_foldl] <;> exact fun _ _ => rfl

/-- A change that leaves a cluster without an owner, made at each of a list, leaves each of them so. -/
theorem State.owner_foldl_onCluster {f : Cluster → Cluster} (hf : ∀ c, (f c).owner = none) {cls : List Nat} {cl : Nat} {s : State}
    (h : cl ∈ cls ∨ (s.cluster cl).owner = none) : ((cls.foldl (fun s k => s.onCluster k f) s).cluster cl).owner = none := by
  induction cls generalizing s with
  | nil => exact h.resolve_left List.not_mem_nil
  | cons k ks ih =>
    refine ih ?_
    by_cases hk : cl = k
    · subst hk
      exact .inr (by rw [State.cluster_onCluster, hf])
    · rw [List.mem_cons, or_iff_right hk] at h
      exact h.imp_right fun ho => by rw [State.cluster_onCluster_ne _ _ _ _ hk, ho]

/-- A released panel's clusters have no owner (R131). -/
theorem State.owner_freePanel {s : State} {l cl : Nat} (h : cl ∈ (s.launch l).panel.all) : ((s.freePanel l).cluster cl).owner = none := by
  have hc : (s.freePanel l).clusters =
      ((s.launch l).panel.all.foldl (fun t cl => t.onCluster cl fun c => c.vacate (s.poolKeys l)) s).clusters := by
    rw [State.freePanel, State.clusters_foldl, State.clusters_foldl] <;> exact fun _ _ => rfl
  rw [State.cluster_congr hc]
  exact State.owner_foldl_onCluster (f := fun c => c.vacate (s.poolKeys l)) (fun _ => rfl) (.inl h)

/-- What a save holds of a frozen panel (R380). -/
def State.savedAt (s : State) (l base : Nat) : Saved :=
  let s1 := s.leaveKnots l
  let pool := s.poolKeys l
  ⟨s.stamp, (s.launch l).panel.all.map (fun cl => (cl, (s1.cluster cl).portable pool)),
    (s.launch l).panel.seamKeys.map (fun k => (k, s1.seam k)), pool.map (fun k => (k, s1.knot k)), base, s1.freeCtr, s.savedTokens l, false,
    s.stepping, (s.launch l).part, s.loadedKeys (s.launch l).part⟩

/-- The state of a save just before its launch is marked: its panel is free, and its area holds the image (R380). -/
def State.savedPanel (s : State) (l base : Nat) : State :=
  let x := s.launch l
  let sv := s.savedAt l base
  let s2 := { (s.leaveKnots l).freePanel l with freeCtr := (s.leaveKnots l).freeCtr + 1 }
  x.panel.dies.foldl (fun s d => s.onUm d fun e => e.save l)
    (s2.schedWrite (s2.schedClient x.part x.qidx) base (saveImage s.stepping x.panel.all.length sv.fill sv.tokens))

theorem State.saveTo_eq (s : State) (l base : Nat) : s.saveTo l base = (s.savedPanel l base).onLaunch l fun y => { y with
    st := .saved, saved := some (s.savedAt l base), freeze := none, since := s.nCycle, blockedAt := none
    parked := y.parked.map fun p => p.shiftYield fun t => t - s.aCycle } := rfl

/-- A save keeps its launch. -/
theorem State.look_savedPanel {s : State} {l : Nat} {x : Launch} (h : look s.launches l = some x) (base : Nat) :
    ∃ y, look (s.savedPanel l base).launches l = some y := by
  have hfree : look ((s.leaveKnots l).freePanel l).launches l = some x := by
    rw [State.launches_freePanel, State.launches_leaveKnots, h]
  obtain ⟨y, hy, -⟩ := State.SamePanels.look_eq_some (State.samePanels_schedWrite
    { (s.leaveKnots l).freePanel l with freeCtr := (s.leaveKnots l).freeCtr + 1 }
      (({ (s.leaveKnots l).freePanel l with freeCtr := (s.leaveKnots l).freeCtr + 1 } : State).schedClient (s.launch l).part (s.launch l).qidx)
      base (saveImage s.stepping (s.launch l).panel.all.length (s.savedAt l base).fill (s.savedAt l base).tokens)) hfree
  refine ⟨y, ?_⟩
  rw [State.savedPanel, State.launches_foldl]
  · exact hy
  · exact fun _ _ => rfl

/-- A saved launch is in no freeze, and holds its save (R380). -/
theorem State.launch_saveTo {s : State} {l : Nat} {x : Launch} (h : look s.launches l = some x) (base : Nat) :
    ((s.saveTo l base).launch l).st = .saved ∧ ((s.saveTo l base).launch l).freeze = none ∧
      ((s.saveTo l base).launch l).saved = some (s.savedAt l base) := by
  obtain ⟨y, hy⟩ := State.look_savedPanel h base
  rw [State.saveTo_eq, State.launch_onLaunch _ l _ y hy]
  exact ⟨rfl, rfl, rfl⟩

/-- A save releases its panel's clusters (R131, R380). -/
theorem State.owner_savedPanel {s : State} {l cl : Nat} (h : cl ∈ (s.launch l).panel.all) (base : Nat) :
    ((s.savedPanel l base).cluster cl).owner = none := by
  have hc : (s.savedPanel l base).clusters = ((s.leaveKnots l).freePanel l).clusters := by
    rw [State.savedPanel, State.clusters_foldl, (State.samePanels_schedWrite _ _ _ _).clusters]
    exact fun _ _ => rfl
  rw [State.cluster_congr hc]
  refine State.owner_freePanel (s := s.leaveKnots l) ?_
  rwa [State.launch_congr (State.launches_leaveKnots s l)]

/-! The restore (R381). -/

/-- Clusters that are written back, each once, stand as they are written. -/
theorem State.cluster_foldl_onCluster {α : Type} {g : Nat × α → Cluster → Cluster} {es : List (Nat × α)} (hn : (es.map Prod.fst).Nodup)
    {e : Nat × α} (he : e ∈ es) (s : State) : ∃ c, ((es.foldl (fun s e => s.onCluster e.1 (g e)) s).cluster e.1) = g e c := by
  have hrest : ∀ {k : Nat} {fs : List (Nat × α)} (s : State), k ∉ fs.map Prod.fst →
      (fs.foldl (fun s e => s.onCluster e.1 (g e)) s).cluster k = s.cluster k := by
    intro k fs
    induction fs with
    | nil => exact fun _ _ => rfl
    | cons f fs ih =>
      intro s hk
      rw [List.map_cons, List.mem_cons, not_or] at hk
      exact (ih _ hk.2).trans (State.cluster_onCluster_ne _ _ _ _ hk.1)
  induction es generalizing s with
  | nil => cases he
  | cons f fs ih =>
    rw [List.map_cons, List.nodup_cons] at hn
    rcases List.mem_cons.1 he with rfl | hm
    · exact ⟨s.cluster e.1, (hrest _ hn.1).trans (State.cluster_onCluster _ _ _)⟩
    · exact ih hn.2 hm _

/-- Knots that are written back, each once, stand as they are written. -/
theorem State.knot_foldl_setKnot {es : List (Nat × Knot)} (hn : (es.map Prod.fst).Nodup) {e : Nat × Knot} (he : e ∈ es) (s : State) :
    (es.foldl (fun s e => s.setKnot e.1 e.2) s).knot e.1 = e.2 := by
  have hrest : ∀ {k : Nat} {fs : List (Nat × Knot)} (s : State), k ∉ fs.map Prod.fst →
      (fs.foldl (fun s e => s.setKnot e.1 e.2) s).knot k = s.knot k := by
    intro k fs
    induction fs with
    | nil => exact fun _ _ => rfl
    | cons f fs ih =>
      intro s hk
      rw [List.map_cons, List.mem_cons, not_or] at hk
      exact (ih _ hk.2).trans (State.knot_setKnot_ne _ _ hk.1)
  induction es generalizing s with
  | nil => cases he
  | cons f fs ih =>
    rw [List.map_cons, List.nodup_cons] at hn
    rcases List.mem_cons.1 he with rfl | hm
    · exact (hrest _ hn.1).trans (State.knot_setKnot _ _ _)
    · exact ih hn.2 hm _

/-- The clusters, seam units and knots of a save written back (R381). -/
def State.panelBack (s : State) (l : Nat) (v : Saved) : State :=
  let port := fun (q : SeamPort) => { q with queue := q.queue.map (OutTok.retime v.stamp s.stamp) }
  let unit := fun (u : SeamUnit) => { u with ports := u.ports.map fun q => (q.1, port q.2) }
  v.knots.foldl (fun s k => s.setKnot k.1 k.2) (v.seams.foldl (fun s u => s.onSeam u.1 fun _ => unit u.2)
    (v.clusters.foldl (fun t c => t.onCluster c.1 fun cur =>
      cur.putBack (c.2.retime v.stamp t.stamp) (s.pattern l) (s.launch l).panel c.1) s))

theorem State.writeBack_eq (s : State) (l : Nat) (v : Saved) : s.writeBack l v =
    ((s.panelBack l v).setOvf l ((s.launch l).ovf.map fun o => { o with tok := o.tok.retime v.stamp s.stamp })).onLaunch l fun y => { y with
      saved := none
      gens := y.gens.map fun g => { g with firing := g.firing.retime v.stamp s.stamp }
      parked := y.parked.map fun p => { p.shiftYield (fun t => t + s.aCycle) with firing := p.firing.retime v.stamp s.stamp } } := rfl

/-- The stamp counter stands still while a panel is written back. -/
theorem State.panelBack_clusters (s : State) (l : Nat) (v : Saved) : (s.panelBack l v).clusters =
    (v.clusters.foldl (fun t c => t.onCluster c.1 fun cur =>
      cur.putBack (c.2.retime v.stamp s.stamp) (s.pattern l) (s.launch l).panel c.1) s).clusters := by
  rw [State.panelBack, State.clusters_foldl, State.clusters_foldl]
  rotate_left
  · exact fun _ _ => rfl
  · exact fun _ _ => rfl
  refine congrArg State.clusters (List.foldl_rel (r := fun a b => a = b ∧ a.stamp = s.stamp) ⟨rfl, rfl⟩ fun c _ a b ⟨hab, hs⟩ => ?_).1
  subst hab
  exact ⟨by rw [hs], hs⟩

/-- Memory that a save holds stands again, but for its `.discard` ranges (R212). -/
theorem Cluster.mem_putBack (cur c : Cluster) (p : Pattern) (x : Panel) (cl off : Nat) :
    getAt (cur.putBack c (some p) x cl).mem off 0 = if p.discards x cl off then 0 else getAt c.mem off 0 := by
  change getAt (c.mem.filter fun e => !p.discards x cl e.1) off 0 = _
  by_cases hd : p.discards x cl off = true
  · rw [if_pos hd, getAt, look_filter_of_dropped (p := fun k => !p.discards x cl k) (by rw [hd]; rfl)]
    rfl
  · rw [if_neg hd, getAt, look_filter_of_kept (p := fun k => !p.discards x cl k) (by rw [Bool.eq_false_iff.2 hd]; rfl), getAt]

section
variable {s : State} {l : Nat} {x : Launch} {v : Saved} (hx : look s.launches l = some x)

/-- A cluster that is written back stands as its save holds it (R381). -/
theorem State.cluster_writeBack (hn : (v.clusters.map Prod.fst).Nodup) {e : Nat × Cluster} (he : e ∈ v.clusters) :
    ∃ cur : Cluster, (s.writeBack l v).cluster e.1 =
      cur.putBack (e.2.retime v.stamp s.stamp) (s.pattern l) (s.launch l).panel e.1 := by
  obtain ⟨cur, hc⟩ := State.cluster_foldl_onCluster (g := fun c cur =>
    cur.putBack (c.2.retime v.stamp s.stamp) (s.pattern l) (s.launch l).panel c.1) hn he s
  refine ⟨cur, (State.cluster_congr ?_ e.1).trans hc⟩
  rw [State.writeBack_eq, State.onLaunch_clusters, (State.samePanels_setOvf _ _ _).clusters, State.panelBack_clusters]

theorem State.knot_writeBack (hn : (v.knots.map Prod.fst).Nodup) {e : Nat × Knot} (he : e ∈ v.knots) : (s.writeBack l v).knot e.1 = e.2 := by
  have hk : (s.writeBack l v).knots = (s.panelBack l v).knots := by
    rw [State.writeBack_eq, State.onLaunch_knots, (State.samePanels_setOvf _ _ _).knots]
  rw [State.knot, hk]
  exact State.knot_foldl_setKnot hn he _

include hx in
/-- A launch that is written back holds no save, and stands as it did. -/
theorem State.launch_writeBack : ((s.writeBack l v).launch l).saved = none ∧ ((s.writeBack l v).launch l).st = x.st := by
  have hl : (s.panelBack l v).launches = s.launches := by
    rw [State.panelBack, State.launches_foldl, State.launches_foldl, State.launches_foldl] <;> exact fun _ _ => rfl
  obtain ⟨y, hy, hst⟩ := State.SamePanels.look_eq_some (State.samePanels_setOvf (s.panelBack l v) l
    ((s.launch l).ovf.map fun o => { o with tok := o.tok.retime v.stamp s.stamp })) (hl ▸ hx)
  rw [State.writeBack_eq, State.launch_onLaunch _ l _ y hy]
  exact ⟨rfl, hst⟩

theorem State.exec_restoreLaunch (hv : (s.launch l).saved = some v) (hst : (s.launch l).st = .restoring)
    (ha : (s.launch l).allLoaded = true) : exec (.restoreLaunch l) s = .next (s.writeBack l v) := by
  change execRestoreLaunch l s = _
  simp only [execRestoreLaunch, hv, hst, ha, ne_eq, not_true_eq_false, Bool.true_eq_false, or_self, if_false]

/-! The watchdog (R382). -/

/-- What an expiry of the watchdog does to its panel (R382). -/
def State.watchdogFreezes (s : State) (l : Nat) : State :=
  match (s.launch l).freeze with
  | some z => s.onLaunch l fun y => { y with freeze := some { z with watchdog := true } }
  | none => if (s.launch l).ending = none then s.askFreeze l true else s.onLaunch l fun y => { y with freeze := some ⟨s.nCycle, true⟩ }

theorem State.watchdogFreezes_running (hf : (s.launch l).freeze = none) (he : (s.launch l).ending = none) :
    s.watchdogFreezes l = s.askFreeze l true := by
  simp only [State.watchdogFreezes, hf, he, if_true]

theorem State.watchdogFreezes_ending (hf : (s.launch l).freeze = none) (he : (s.launch l).ending ≠ none) :
    s.watchdogFreezes l = s.onLaunch l fun y => { y with freeze := some ⟨s.nCycle, true⟩ } := by
  simp only [State.watchdogFreezes, hf, he, if_false]

theorem State.watchdogFreezes_frozen {z : Freeze} (hf : (s.launch l).freeze = some z) :
    s.watchdogFreezes l = s.onLaunch l fun y => { y with freeze := some { z with watchdog := true } } := by
  simp only [State.watchdogFreezes, hf]

section
variable {n : Nat} (hw : (s.launch l).wdog = some n) (hu : n * 2100 ≤ (s.launch l).wdogUsed)
  (hst : (s.launch l).st = .running ∨ (s.launch l).st = .freezing ∨ (s.launch l).st = .retiring)
include hw hu hst

/-- A watchdog that has expired freezes its panel, or takes over a freeze under way; in a retirement it sets the bound (log 42). -/
theorem State.exec_watchdogExpiry : exec (.watchdogExpiry l) s = .next (State.watchdogFreezes s l) := by
  have hne : ¬ ((s.launch l).wdogUsed < n * perMicro ∨
      ((s.launch l).st ≠ .running ∧ (s.launch l).st ≠ .freezing ∧ (s.launch l).st ≠ .retiring)) := by
    rintro (hlt | ⟨hr, hf, ht⟩)
    · exact absurd hu (not_le.2 hlt)
    · exact hst.elim hr fun h => h.elim hf ht
  change execWatchdogExpiry l s = _
  simp only [execWatchdogExpiry, hw, if_neg hne] <;> rfl

end

/-- A watchdog's freeze that has passed its bound is drained (R382; log 41). -/
theorem State.exec_freezeBoundExpiry {z : Freeze} (hz : (s.launch l).freeze = some z) (hw : z.watchdog = true)
    (hst : (s.launch l).st = .freezing ∨ (s.launch l).st = .running ∨ (s.launch l).ending ≠ none)
    (hb : freezeBound (s.launch l).panel.all.length ≤ s.nCycle - z.since) : exec (.freezeBoundExpiry l) s = .next (s.drain l) := by
  have hp : s.boundPassed (s.launch l) z = true := decide_eq_true hb
  have hne : ¬ (((s.launch l).st ≠ .freezing ∧ (s.launch l).st ≠ .running ∧ (s.launch l).ending = none) ∨ z.watchdog = false) := by
    rintro (⟨hf, hr, hn⟩ | hf)
    · exact hst.elim hf fun h => h.elim hr fun he => he hn
    · exact Bool.false_ne_true (hf.symm.trans hw)
  change execFreezeBoundExpiry l s = _
  simp only [execFreezeBoundExpiry, hz, if_neg hne, hp, if_true]

end

/-! Retirement (R387, R388). -/

/-- A launch that is finished is gone. -/
theorem State.look_finish (s : State) (l : Nat) (exc : Exc) : look (s.finish l exc).launches l = none :=
  State.look_completionAdd_eq_none (look_del_same _ _)

section
variable {s : State} {l : Nat}

section
variable (hst : (s.launch l).st = .running ∨ (s.launch l).st = .freezing) (he : (s.launch l).expired = false)
include hst he

theorem State.retirement_under_way : (s.launch l).st ≠ .retiring ∧
    ¬ (((s.launch l).st ≠ .running ∧ (s.launch l).st ≠ .freezing) ∨ (s.launch l).expired = true) := by
  refine ⟨fun h => ?_, ?_⟩
  · rcases hst with h' | h' <;> cases h.symm.trans h'
  · rintro (⟨hr, hf⟩ | h)
    · exact hst.elim hr hf
    · exact Bool.false_ne_true (he.symm.trans h)

/-- A launch that meets R387 retires normally, with the records that its fault queue has room for written. -/
theorem State.exec_retirement_normal (hm : s.mayRetire l = true) (hm1 : (s.flush l).mayRetire l = true) :
    exec (.retirement l) s = .next (((s.flush l).onLaunch l fun y => { y with
      st := .retiring, retire := 1, ending := some .normal, freeze := none }).beginHem l .retire) := by
  obtain ⟨hret, hgo⟩ := State.retirement_under_way hst he
  have hnone : (s.launch l).ending = none := by
    rw [State.mayRetire, Bool.and_eq_true, decide_eq_true_iff] at hm
    exact hm.2
  have hend : ¬ ((s.launch l).ending = some .forced ∨ (s.launch l).ending = some .abortFault) := by
    rw [hnone]; exact fun h => h.elim (by simp) (by simp)
  change execRetirement l s = _
  simp only [execRetirement, if_neg hret, if_neg hgo, if_neg hend, hm, hm1, if_true]

/-- A wave that finds it not quiescent clears the touched bits (R30; log 130). -/
theorem State.exec_retirement_clears (hnone : (s.launch l).ending = none) (hm : s.mayRetire l = false) (ht : s.tallied l = true) :
    exec (.retirement l) s = .next (s.clearTouched l) := by
  obtain ⟨hret, hgo⟩ := State.retirement_under_way hst he
  change execRetirement l s = _
  simp only [execRetirement, if_neg hret, if_neg hgo, hnone, hm, ht, reduceCtorEq, or_self, Bool.false_eq_true, if_false, if_true]

/-- A forced or aborted launch retires once its engines have stopped (R185). -/
theorem State.exec_retirement_forced (hend : (s.launch l).ending = some .forced ∨ (s.launch l).ending = some .abortFault)
    (hs : s.stopped l = true) : exec (.retirement l) s =
      .next (((s.abandon l).onLaunch l fun y => { y with st := .retiring, retire := 1 }).beginHem l .retire) := by
  obtain ⟨hret, hgo⟩ := State.retirement_under_way hst he
  change execRetirement l s = _
  simp only [execRetirement, if_neg hret, if_neg hgo, if_pos hend, hs, if_true]

end

/-- After its hem a launch with nothing under way is finished (R388). -/
theorem State.exec_retirement_finishes (hst : (s.launch l).st = .retiring) (hret : (s.launch l).retire = 2)
    (hq : ∀ q ∈ s.reqs, q.ofLaunch l = false) (hk : ∀ q ∈ s.kreqs, q.firing.launch ≠ l)
    (hp : ∀ p ∈ s.portal, p.client.launch = some l → p.answer.isSome = true) :
    exec (.retirement l) s = .next ((s.flush l).finish l ((s.flush l).panelExc l)) := by
  have hreqs : (s.reqs.all fun q => !q.ofLaunch l) = true :=
    List.all_eq_true.2 fun q hm => by rw [hq q hm]; rfl
  have hkreqs : (s.kreqs.all fun q => decide (q.firing.launch ≠ l)) = true := List.all_eq_true.2 fun q hm => decide_eq_true (hk q hm)
  have hportal : (s.portal.all fun t => decide (t.client.launch ≠ some l) || t.answer.isSome) = true :=
    List.all_eq_true.2 fun t hm => by
      rw [Bool.or_eq_true, decide_eq_true_iff]
      exact or_iff_not_imp_left.2 fun h => hp t hm (not_not.1 h)
  change execRetirement l s = _
  simp only [execRetirement, if_pos hst, hret, hreqs, hkreqs, hportal, and_self, if_true]

end

end Sys2Proof.Machine

namespace Sys2Proof.Proofs

open Sys2Proof.Machine

/-- Settles O58: the freeze, the save and the restore by what each writes, and the retirement by its conditions. -/
theorem preemptionAndRetirement : Obligations.PreemptionAndRetirement := by
  refine ⟨fun s l x hx => ?_, fun s l => ⟨fun hst he => ⟨State.exec_retirement_normal hst he, State.exec_retirement_clears hst he,
    State.exec_retirement_forced hst he⟩, State.exec_retirement_finishes, fun exc => State.look_finish s l exc⟩⟩
  obtain rfl : s.launch l = x := by rw [State.launch, hx, Option.getD_some]
  refine ⟨fun a s1 hm ha => ⟨fun hc => ?_, fun hc hs => ?_⟩, fun w n => ?_, fun base s1 z hz hst he hf ha =>
    ⟨State.exec_saveLaunch hz hst he hf ha, State.exec_saveLaunch_watchdog hz hst he hf ha⟩, fun base => ?_, fun v => State.exec_restoreLaunch,
    fun v p hp hn hk => ⟨(State.launch_writeBack hx).1, (State.launch_writeBack hx).2, fun e => State.knot_writeBack hk, fun e he => ?_⟩,
    fun n hw hu hst => ⟨fun hf he => ?_, fun hf he => ?_, fun z hf => ?_⟩, fun z hz hw hst hb =>
      ⟨State.exec_freezeBoundExpiry hz hw hst hb, State.look_finish _ _ _⟩⟩
  · obtain ⟨hl, hn⟩ := State.launches_saveArea ha
    rw [← State.launch_congr hl l] at hc
    rw [State.exec_freeze hm ha, State.askFreeze_begins hc, hn]
  · obtain ⟨hl, hn⟩ := State.launches_saveArea ha
    rw [← State.launch_congr hl l] at hc hs
    rw [State.exec_freeze hm ha, State.askFreeze_waits hc hs, hn]
  · obtain ⟨d, hd⟩ := State.launch_startFreeze hx w n
    rw [hd]
    exact ⟨rfl, rfl, rfl⟩
  · obtain ⟨hst, hfr, hsv⟩ := State.launch_saveTo hx base
    exact ⟨hst, hfr, fun cl hcl => (congrArg Cluster.owner (State.cluster_congr (State.onLaunch_clusters _ _ _) cl)).trans
      (State.owner_savedPanel hcl base), s.savedAt l base, hsv, rfl, rfl, rfl, rfl⟩
  · obtain ⟨cur, hc⟩ := State.cluster_writeBack (s := s) (l := l) hn he
    rw [hc, hp]
    exact ⟨rfl, rfl, fun off => Cluster.mem_putBack _ _ _ _ _ _⟩
  · rw [State.exec_watchdogExpiry hw hu hst, State.watchdogFreezes_running hf he]
  · rw [State.exec_watchdogExpiry hw hu hst, State.watchdogFreezes_ending hf he]
  · rw [State.exec_watchdogExpiry hw hu hst, State.watchdogFreezes_frozen hf]

end Sys2Proof.Proofs

end

section
/-! SUPPORT. Proofs/Service.lean: the control block, Ronob requests and service (spec 19: R391 to R411). -/

namespace Sys2Proof.Machine

/-! The control block (R392, R393). -/

section
variable {s : State} {part q : Nat} {v : Word}

/-- The switches of a control word (R392). -/
def Partition.setSwitches (p : Partition) (v : Word) : Partition :=
  { p with enable := v.getLsbD 0, metered := p.metered || v.getLsbD 0, permissive := v.getLsbD 1, keepovf := v.getLsbD 2, debug := v.getLsbD 3 }

theorem State.pfWrite_open (h : s.locked part = false) (f : State → State) : s.pfWrite part f = f s := by
  simp only [State.pfWrite, h, Bool.false_eq_true, if_false]

theorem State.pfWrite_locked (h : s.locked part = true) (f : State → State) :
    s.pfWrite part f = { s with tdisp := setAt s.tdisp part .error .configUnlocked } := if_pos h

/-- A write of the control word that turns a partition neither on nor off. -/
theorem State.writeEnable_same (h : (s.part part).enable = v.getLsbD 0) :
    s.writeEnable part v = s.onPart part fun p => p.setSwitches v := by
  simp only [State.writeEnable, h, Bool.and_not_self, Bool.not_and_self, Bool.false_eq_true, if_false, Partition.setSwitches]

/-- One that enables it anew (log 160). -/
theorem State.writeEnable_on (h : (s.part part).enable = false) (hv : v.getLsbD 0 = true) : s.writeEnable part v =
    (s.onPart part fun p => p.setSwitches v).onPart part fun p => { p with deduct := 0, migrating := false } := by
  simp only [State.writeEnable, h, hv, Bool.false_and, Bool.not_false, Bool.and_self, Bool.false_eq_true, if_false, if_true,
    Partition.setSwitches]

/-- One that disables it: its waiting launches are rejected. -/
theorem State.writeEnable_off (h : (s.part part).enable = true) (hv : v.getLsbD 0 = false) : s.writeEnable part v =
    (s.onPart part fun p => p.setSwitches v).rejectWaiting part fun _ => true := by
  simp only [State.writeEnable, h, hv, Bool.not_false, Bool.and_self, if_true, Partition.setSwitches]

theorem State.exec_controlBlockWrite_pf {off : Nat} (ho : off % 8 = 0) (hp : part < 64) (hf : pfOffset off = true) :
    exec (.controlBlockWrite .pf part off v) s = .next (s.pfWrite part fun s => s.writePf part off v) := by
  change execControlBlockWrite .pf part off v s = _
  simp only [execControlBlockWrite, ho, not_le.2 hp, hf, ne_eq, not_true_eq_false, or_self, if_false, if_true]

/-- A queue entry turned off (R111, R119). -/
theorem State.exec_cbQueueEntry_off (hq : q < 16) (hv : v.getLsbD 0 = false) : exec (.cbQueueEntry part q v) s =
    .next ((s.onPart part fun p => { p with lq := put p.lq q v, lqHdr := del p.lqHdr q }).rejectWaiting part fun x =>
      decide (x.qidx = q)) := by
  change execCbQueueEntry part q v s = _
  simp only [execCbQueueEntry, State.writeQueueEntry, not_le.2 hq, hv, Bool.not_false, if_false, if_true, State.disableQueue]

/-- A queue entry turned on: its header is read, and taken where it fits (R111, R112). -/
theorem State.exec_cbQueueEntry_on {h : QueueHdr} {s1 : State} (hq : q < 16) (hv : v.getLsbD 0 = true)
    (hn : look (s.part part).lq q = none) (hr : s.readHeader (s.schedClient part q) (entryAddr v) = (some h, s1)) :
    exec (.cbQueueEntry part q v) s = .next (if s1.headerFits part h
      then s1.onPart part fun p => { p with
        lq := put p.lq q v, lqHdr := put p.lqHdr q { h with seen := (s1.knot (knotKey h.publish)).value.toNat } } else s1) := by
  change execCbQueueEntry part q v s = _
  simp only [execCbQueueEntry, State.writeQueueEntry, not_le.2 hq, hv, hn, hr, Bool.not_true, Bool.false_eq_true, reduceCtorEq, if_false,
    State.knotValue]

/-- A copy-queue entry turned off (R239). -/
theorem State.exec_cbCopyQueueEntry_off (hq : q < 16) (hv : v.getLsbD 0 = false) : exec (.cbCopyQueueEntry part q v) s =
    .next (s.onPart part fun p => { p with cq := put p.cq q v, cqHdr := del p.cqHdr q }) := by
  change execCbCopyQueueEntry part q v s = _
  simp only [execCbCopyQueueEntry, State.writeCopyEntry, not_le.2 hq, hv, Bool.not_false, if_false, if_true]

section
variable {h : QueueHdr} {s1 : State} (hq : q < 16) (hv : v.getLsbD 0 = true) (hn : look (s.part part).cq q = none)
  (hr : s.readHeader (queueClient part 0) (entryAddr v) = (some h, s1))
include hq hv hn hr

/-- A copy-queue entry turned on, whose header is not accepted (R239). -/
theorem State.exec_cbCopyQueueEntry_refused (hc : s1.copyHeader part h = none) : exec (.cbCopyQueueEntry part q v) s = .next s1 := by
  change execCbCopyQueueEntry part q v s = _
  simp only [execCbCopyQueueEntry, State.writeCopyEntry, not_le.2 hq, hv, hn, hr, hc, Bool.not_true, Bool.false_eq_true, reduceCtorEq,
    if_false]

/-- One whose header is accepted. -/
theorem State.exec_cbCopyQueueEntry_on {h1 : QueueHdr} (hc : s1.copyHeader part h = some h1) : exec (.cbCopyQueueEntry part q v) s =
    .next (s1.onPart part fun p => { p with
      cq := put p.cq q v, cqHdr := put p.cqHdr q { h1 with seen := (s1.knot (knotKey h.publish)).value.toNat } }) := by
  change execCbCopyQueueEntry part q v s = _
  simp only [execCbCopyQueueEntry, State.writeCopyEntry, not_le.2 hq, hv, hn, hr, hc, Bool.not_true, Bool.false_eq_true, reduceCtorEq,
    if_false, State.knotValue]

end

/-- An invalidation begins (R219). -/
theorem State.exec_cbInvalidate (h : (s.part part).invalBusy = false) : exec (.cbInvalidate part v) s =
    .next (s.onPart part fun p => { p with inval := v, invalBusy := true }) := by
  change execCbInvalidate part v s = _
  simp only [execCbInvalidate, State.writeInval, State.invalidationDone, h, Bool.not_false, if_true]

/-- An invalidation that ends leaves no cached entry that it names (R219). -/
theorem State.exec_invalidationComplete (h : (s.part part).invalBusy = true) : ∃ t : State,
    exec (.invalidationComplete part) s = .next t ∧ (t.part part).invalBusy = false ∧
      ∀ c ∈ t.clusters, ∀ e ∈ c.2.tcache, e.part = part → invalidates (s.part part).inval e = false := by
  have hdone : exec (.invalidationComplete part) s = .next (s.invalidationDone part) := rfl
  simp only [State.invalidationDone, h, Bool.not_true, Bool.false_eq_true, if_false] at hdone
  refine ⟨_, hdone, by rw [State.part_onPart], fun c hc e he hp => ?_⟩
  obtain ⟨k, -, rfl⟩ := List.mem_map.1 (List.mem_filter.1 hc).1
  have hkeep := (List.mem_filter.1 he).2
  rw [decide_eq_true hp, Bool.true_and, Bool.not_eq_true'] at hkeep
  exact hkeep

theorem State.hbm_touchPa (s : State) (pa : Nat) : (s.touchPa pa).hbm = s.hbm := by
  rw [State.touchPa]; split <;> rfl

theorem State.part_touchPa (s : State) (pa p : Nat) : (s.touchPa pa).part p = s.part p := by
  rw [State.touchPa]; split <;> rfl

theorem State.launches_touchPa (s : State) (pa : Nat) : (s.touchPa pa).launches = s.launches := by
  rw [State.touchPa]; split <;> rfl

/-- The memory once the word of a snapshot's place has been copied and cleared (R405; log 175). -/
def State.snapshotWord (s : State) (part : Nat) : State :=
  let p := s.part part
  let src := p.dirty.toNat / 2 * 2 + 8 * p.dsnapAt
  let dst := p.dsnap.toNat + 8 * p.dsnapAt
  ({ s with hbm := writeBytes (writeBytes s.hbm src (List.replicate 8 0)) dst (readBytes s.hbm src 8) }.touchPa src).touchPa dst

theorem State.exec_dsnapComplete (h : (s.part part).dsnap ≠ 0) : exec (.dsnapComplete part) s =
    .next ((s.snapshotWord part).onPart part fun p => { p with
      dsnap := if 147456 ≤ (s.part part).dsnapAt + 1 then 0 else p.dsnap
      dsnapAt := if 147456 ≤ (s.part part).dsnapAt + 1 then 0 else p.dsnapAt + 1 }) := by
  have hwords : bitmapWords = 147456 := by decide
  change execDsnapComplete part s = _
  simp only [execDsnapComplete, State.snapshotWord, if_neg h, hwords, decide_eq_true_iff]

theorem State.part_snapshotWord (p : Nat) : (s.snapshotWord part).part p = s.part p := by
  rw [State.snapshotWord, State.part_touchPa, State.part_touchPa]
  rfl

/-- The areas that a launch left are returned, where no launch is there (R391). -/
theorem State.exec_cbOvrel (h : s.launches = []) : exec (.cbOvrel part v) s = .next (s.onPart part fun p =>
    let other := fun (a : Nat × Nat × Nat × Nat) => decide (a.2.2.1 ≠ v.toNat % 16 ∨ a.2.2.2 % 2 ^ 32 ≠ v.toNat / 2 ^ 16 % 2 ^ 32)
    { p with ovrel := v, ovAreas := p.ovAreas.filter other, svAreas := p.svAreas.filter other }) := by
  change execCbOvrel part v s = _
  simp only [execCbOvrel, State.writeOvrel, h, List.any_nil, Bool.false_eq_true, if_false]

end

/-! Ronob requests (R394, R395). -/

/-- The answer to a request: its status and the request's own word (R394). -/
def State.ronobAnswer (t : State) (r : DoeReq) (status : Nat) : State :=
  { t with outbox := t.outbox ++ [leBytes 8 (status + r.header.toNat / 2 ^ 32 % 2 ^ 32 * 2 ^ 32)] }

section
variable {s : State} {r : DoeReq} {malformed refused busy : Bool} {effect : State → State}

/-- While one of the Ronobs that it needs restarts, a request is not answered (R402). -/
theorem State.ronob_deaf (hd : (s.deaf (fnDie r.session) || s.deaf (r.header.toNat / 2 ^ 16 % 2 ^ 2)) = true) :
    s.ronob r malformed refused busy effect = s :=
  if_pos (.inr (Bool.or_eq_true_iff.1 hd))

variable (hs : getAt s.spdm r.session false = true) (hd : (s.deaf (fnDie r.session) || s.deaf (r.header.toNat / 2 ^ 16 % 2 ^ 2)) = false)
include hs hd

/-- Otherwise it is answered. -/
theorem State.ronob_answers : s.ronob r malformed refused busy effect =
    let status := if malformed then 3 else if refused then 1 else if busy then 2 else 0
    (if status = 0 then effect s else s).ronobAnswer r status := by
  refine if_neg ?_
  obtain ⟨h1, h2⟩ := Bool.or_eq_false_iff.1 hd
  rintro (h | h | h)
  · exact Bool.false_ne_true (h.symm.trans hs)
  · exact Bool.false_ne_true (h1.symm.trans h)
  · exact Bool.false_ne_true (h2.symm.trans h)

theorem State.ronob_malformed (hm : malformed = true) : s.ronob r malformed refused busy effect = s.ronobAnswer r 3 := by
  rw [State.ronob_answers hs hd, hm]; rfl

theorem State.ronob_refused (hm : malformed = false) (hr : refused = true) : s.ronob r malformed refused busy effect = s.ronobAnswer r 1 := by
  rw [State.ronob_answers hs hd, hm, hr]; rfl

theorem State.ronob_done (hm : malformed = false) (hr : refused = false) (hb : busy = false) :
    s.ronob r malformed refused busy effect = (effect s).ronobAnswer r 0 := by
  rw [State.ronob_answers hs hd, hm, hr, hb]; rfl

end

/-- A well-formed request whose operands are in range is not malformed. -/
theorem not_malformed {w : Bool} {p : Prop} [Decidable p] (hw : w = true) (hp : ¬ p) : (!w || decide p) = false := by
  rw [hw, decide_eq_false hp]; rfl

/-- The physical function's request to a partition that is not locked is not refused. -/
theorem not_refused {f l : Bool} (hf : f = true) (hl : l = false) : (!f || l) = false := by rw [hf, hl]; rfl

theorem any_decide_eq_false {α : Type} {xs : List α} {p : α → Prop} [DecidablePred p] (h : ∀ x ∈ xs, ¬ p x) :
    (xs.any fun x => decide (p x)) = false :=
  List.any_eq_false.2 fun x hx => by rw [decide_eq_true_iff]; exact h x hx

/-- A key request of the function of its partition, which is not locked, is not refused for its sender (R394, R395). -/
theorem DoeReq.own_not_refused {r : DoeReq} {l : Bool} {p : Prop} [Decidable p] (hf : r.fromPf = false) (hown : r.fn = r.part)
    (hl : l = false) (hp : ¬ p) : (!r.own || l || decide p) = false := by
  rw [DoeReq.own, hf, decide_eq_true hown, hl, decide_eq_false hp]; rfl

section
variable {s : State} {part : Nat} {ks : List Nat}

/-- The return of a partition's own standing knots is not refused (Table 19.10). -/
theorem State.knotReturn_not_refused {f l : Bool} (hf : f = true) (hl : l = false)
    (hk : ∀ k ∈ ks, (s.knot k).owner = .standing ∧ (s.knot k).opart.toNat = part) :
    (!f || l || ks.any fun k => decide ((s.knot k).owner ≠ .standing ∨ (s.knot k).opart.toNat ≠ part)) = false := by
  rw [hf, hl, any_decide_eq_false fun k hm => not_or.2 ⟨not_not.2 (hk k hm).1, not_not.2 (hk k hm).2⟩]; rfl

/-- One of knots that nothing uses is not busy. -/
theorem State.knotReturn_not_busy {b : Bool} (hb : b = false)
    (hk : ∀ k ∈ ks, (s.knot k).waiters = 0 ∧ (s.knot k).armed = false ∧ s.publishKnot k = false) :
    (b || ks.any fun k => decide ((s.knot k).waiters ≠ 0) || (s.knot k).armed || s.publishKnot k) = false := by
  have hany : (ks.any fun k => decide ((s.knot k).waiters ≠ 0) || (s.knot k).armed || s.publishKnot k) = false := by
    refine List.any_eq_false.2 fun k hm => ?_
    obtain ⟨hw, ha, hp⟩ := hk k hm
    rw [decide_eq_false (not_not.2 hw), ha, hp]
    exact Bool.false_ne_true
  rw [hb, hany]; rfl

end

/-! Service (R397 to R410). -/

theorem length_signatureBytes (die : Nat) (bs : List Byte) : (signatureBytes die bs).length = 96 := by
  rw [signatureBytes, List.length_reverse, length_leBytes]

section
variable {s : State} {fn die : Nat}

/-- A measurement is signed (R401). -/
theorem State.exec_getMeasurements (hs : getAt s.spdm fn false = true) (h1 : s.deaf (fnDie fn) = false) (h2 : s.deaf die = false) (n : Nat) :
    exec (.getMeasurements fn die n) s = .next { s with
      outbox := s.outbox ++ [s.measurement fn die n ++ signatureBytes die (s.measurement fn die n)] } := by
  change execGetMeasurements fn die n s = _
  simp only [execGetMeasurements, hs, h1, h2, Bool.not_false, Bool.and_self, if_true]

/-- The meters of a die for a partition, as a snapshot holds them (Table 19.4). -/
def State.snapshotBytes (s : State) (die part : Nat) (nonce : BitVec 256) : List Byte :=
  leBytes 4 0x594B4D53 ++ leBytes 1 die ++ leBytes 1 part ++ leBytes 2 0 ++ leBytes 8 s.aCycle ++ leBytes 32 nonce.toNat ++
    (countFrom 0 24).flatMap fun i => leBytes 8 (getAt s.meters ((part * 4 + die) * 32 + i) 0).toNat

/-- A meter snapshot is signed (R397). -/
theorem State.exec_meterSnapshot (hs : getAt s.spdm fn false = true) (h1 : s.deaf (fnDie fn) = false) (h2 : s.deaf die = false) (part : Nat)
    (nonce : BitVec 256) : exec (.meterSnapshot fn die part nonce) s = .next { s with
      outbox := s.outbox ++ [s.snapshotBytes die part nonce ++ signatureBytes die (s.snapshotBytes die part nonce)] } := by
  change execMeterSnapshot fn die part nonce s = _
  simp only [execMeterSnapshot, State.snapshotBytes, hs, h1, h2, Bool.not_false, Bool.and_self, if_true]

/-- Without a session, or while its Ronob restarts, a function is answered nothing (R400, R402). -/
theorem State.exec_getMeasurements_none (h : getAt s.spdm fn false = false ∨ s.deaf (fnDie fn) = true) (n : Nat) :
    exec (.getMeasurements fn die n) s = .next s := by
  change execGetMeasurements fn die n s = _
  rcases h with h | h <;> simp [execGetMeasurements, h]

theorem State.exec_meterSnapshot_none (h : getAt s.spdm fn false = false ∨ s.deaf (fnDie fn) = true) (part : Nat) (nonce : BitVec 256) :
    exec (.meterSnapshot fn die part nonce) s = .next s := by
  change execMeterSnapshot fn die part nonce s = _
  rcases h with h | h <;> simp [execMeterSnapshot, h]

end

/-- A link is being recalibrated exactly from its beginning to its end (R407). -/
theorem mem_lanes (lanes : List LinkUnit) (k : LinkUnit) (on : Bool) :
    k ∈ (if on then (lanes.filter fun u => decide (u ≠ k)) ++ [k] else lanes.filter fun u => decide (u ≠ k)) ↔ on = true := by
  cases on <;> simp

/-- The host pages of a span are forgotten (R399). -/
theorem not_mem_ats {ats : List Nat} {die addr len p : Nat} (hp : p < 2 ^ 48) (hlo : p * 2 ^ 12 < addr + len)
    (hhi : addr < (p + 1) * 2 ^ 12) : die * 2 ^ 48 + p ∉ ats.filter fun k =>
      !decide (k / 2 ^ 48 = die ∧ k % 2 ^ 48 * 2 ^ 12 < addr + len ∧ addr < k % 2 ^ 48 * 2 ^ 12 + 2 ^ 12) := by
  intro h
  have hkeep := (List.mem_filter.1 h).2
  rw [Bool.not_eq_true', decide_eq_false_iff_not] at hkeep
  have hdie : (die * 2 ^ 48 + p) / 2 ^ 48 = die := by omega
  have hpage : (die * 2 ^ 48 + p) % 2 ^ 48 = p := by omega
  exact hkeep ⟨hdie, by rwa [hpage], by rw [hpage]; omega⟩

end Sys2Proof.Machine

namespace Sys2Proof.Proofs

open Sys2Proof.Machine

/-- Settles O59, by each write, each request and each service operation. -/
theorem serviceInterface : Obligations.ServiceInterface := by
  refine ⟨fun s part q v => ⟨fun hl => ⟨fun he hv => ?_, fun he hv => ?_, fun he hv => ?_, fun he hv => ?_, ?_, fun hp => ⟨?_, ?_⟩⟩,
    fun hl => ⟨?_, ?_, fun hp => ?_⟩, fun hp => ⟨?_, ?_⟩,
    fun hq hv => ⟨State.exec_cbQueueEntry_off hq hv, State.exec_cbCopyQueueEntry_off hq hv⟩,
    fun h s1 => State.exec_cbQueueEntry_on, fun h s1 hq hv hn hr => ⟨State.exec_cbCopyQueueEntry_refused hq hv hn hr,
      fun h1 => State.exec_cbCopyQueueEntry_on hq hv hn hr⟩, State.exec_cbInvalidate, State.exec_invalidationComplete, fun hz => ?_,
    State.exec_cbOvrel, rfl⟩, fun s r hs => ?_, fun s fn die part n addr len nonce d w on to_ k => ?_⟩
  · exact (congrArg Host.Outcome.next (State.pfWrite_open hl _)).trans (congrArg _ (State.writeEnable_same (he.trans hv.symm)))
  · exact (congrArg Host.Outcome.next (State.pfWrite_open hl _)).trans (congrArg _ (State.writeEnable_on he hv))
  · exact (congrArg Host.Outcome.next (State.pfWrite_open hl _)).trans (congrArg _ (State.writeEnable_same (he.trans hv.symm)))
  · exact (congrArg Host.Outcome.next (State.pfWrite_open hl _)).trans (congrArg _ (State.writeEnable_off he hv))
  · exact congrArg Host.Outcome.next (State.pfWrite_open hl _)
  · exact (State.exec_controlBlockWrite_pf rfl hp rfl).trans (congrArg Host.Outcome.next (State.pfWrite_open hl _))
  · exact (State.exec_controlBlockWrite_pf rfl hp rfl).trans (congrArg Host.Outcome.next (State.pfWrite_open hl _))
  · exact congrArg Host.Outcome.next (State.pfWrite_locked hl _)
  · exact congrArg Host.Outcome.next (State.pfWrite_locked hl _)
  · exact (State.exec_controlBlockWrite_pf rfl hp rfl).trans (congrArg Host.Outcome.next (State.pfWrite_locked hl _))
  · change execControlBlockWrite .vf part 0x48 v s = _
    simp only [execControlBlockWrite, not_le.2 hp]
    rfl
  · change execControlBlockWrite .vf part 0x88 v s = _
    simp only [execControlBlockWrite, not_le.2 hp]
    rfl
  · refine ⟨_, State.exec_dsnapComplete hz, ?_, fun hn => ?_, fun hn => ⟨?_, ?_⟩, ?_, ?_⟩
    · change (s.snapshotWord part).hbm = _
      rw [State.snapshotWord, State.hbm_touchPa, State.hbm_touchPa]
    · rw [State.part_onPart, if_pos hn]
    · rw [State.part_onPart, if_neg (not_le.2 hn), State.part_snapshotWord]
    · rw [State.part_onPart, State.part_snapshotWord]
      exact if_neg (not_le.2 hn)
    · change (s.snapshotWord part).clusters = _
      rw [State.snapshotWord, (State.samePanels_touchPa _ _).clusters, (State.samePanels_touchPa _ _).clusters]
    · change (s.snapshotWord part).launches = _
      rw [State.snapshotWord, State.launches_touchPa, State.launches_touchPa]
  · refine ⟨fun hd i hi => ?_, fun hd => ⟨fun hw => ?_, fun hw => ?_, fun hf hl hq => ⟨fun hw hb hfree => ?_, fun hw hb hown => ?_,
      fun hw h0 => ?_, fun hw h0 h1 => ?_⟩, fun hf => ⟨fun hw h0 h1 => ?_, fun hw h0 hp => ?_, fun hw h0 h1 h2 => ?_⟩,
      fun hf hown h0 => ⟨fun hl => ⟨fun hw => ?_, fun hw => ?_⟩, fun hl hw ho => ?_, fun hl hw ho => ?_⟩⟩⟩
    · fin_cases hi <;> exact congrArg Host.Outcome.next (State.ronob_deaf hd)
    · exact congrArg Host.Outcome.next (State.ronob_malformed hs hd (by rw [hw]; rfl))
    · exact congrArg Host.Outcome.next (State.ronob_malformed hs hd (by rw [hw]; rfl))
    · exact congrArg Host.Outcome.next (State.ronob_done hs hd (by rw [hw, hb]; rfl) (not_refused hf hl)
        (by rw [hq, any_decide_eq_false fun k hk => not_not.2 (hfree k hk)]; rfl))
    · exact congrArg Host.Outcome.next (State.ronob_done hs hd (by rw [hw, hb]; rfl)
        (State.knotReturn_not_refused hf hl fun k hk => ⟨(hown k hk).1, (hown k hk).2.1⟩)
        (State.knotReturn_not_busy hq fun k hk => (hown k hk).2.2))
    · exact congrArg Host.Outcome.next (State.ronob_done hs hd (not_malformed hw (not_le.2 h0)) (not_refused hf hl) hq)
    · exact congrArg Host.Outcome.next (State.ronob_done hs hd (not_malformed hw (not_or.2 ⟨not_not.2 h0, not_le.2 h1⟩)) (not_refused hf hl) hq)
    · exact congrArg Host.Outcome.next (State.ronob_done hs hd (not_malformed hw (not_or.2 ⟨not_le.2 h0, not_le.2 h1⟩)) (by rw [hf]; rfl) rfl)
    · exact congrArg Host.Outcome.next (State.ronob_done hs hd (not_malformed hw (not_le.2 h0)) (by rw [hf]; rfl)
        (List.any_eq_false.2 fun e he => by rw [hp e he]; exact Bool.false_ne_true))
    · exact congrArg Host.Outcome.next (State.ronob_done hs hd (not_malformed hw
        (not_or.2 ⟨not_not.2 h0, not_or.2 ⟨not_le.2 h1, not_le.2 h2⟩⟩)) (by rw [hf]; rfl) rfl)
    · exact congrArg Host.Outcome.next (State.ronob_refused hs hd (not_malformed hw (not_le.2 h0)) (by rw [hl, Bool.or_true, Bool.true_or]))
    · exact congrArg Host.Outcome.next (State.ronob_refused hs hd (not_malformed hw (not_le.2 h0)) (by rw [hl, Bool.or_true, Bool.true_or]))
    · exact congrArg Host.Outcome.next (State.ronob_done hs hd (not_malformed hw (not_le.2 h0))
        (DoeReq.own_not_refused hf hown hl fun h => ho.elim h.1 h.2) rfl)
    · exact congrArg Host.Outcome.next (State.ronob_done hs hd (not_malformed hw (not_le.2 h0))
        (DoeReq.own_not_refused hf hown hl (not_not.2 ho)) rfl)
  · refine ⟨fun h => ?_, fun h => ⟨?_, ?_⟩, fun h => ⟨?_, State.exec_getMeasurements_none (.inr h) n,
      State.exec_meterSnapshot_none (.inr h) part nonce⟩, rfl, rfl, rfl, ⟨_, rfl, mem_lanes _ _ _, rfl⟩, rfl, fun h => ?_, rfl, rfl, rfl,
      fun h => ?_, fun h => ?_, ⟨_, rfl, rfl, fun p hp hlo hhi => not_mem_ats hp hlo hhi⟩, fun hs h1 h2 =>
      ⟨⟨_, length_signatureBytes _ _, State.exec_getMeasurements hs h1 h2 n⟩, ⟨signatureBytes die (s.snapshotBytes die part nonce),
        length_signatureBytes _ _, State.exec_meterSnapshot hs h1 h2 part nonce⟩⟩,
      fun h => ⟨State.exec_getMeasurements_none (.inl h) n, State.exec_meterSnapshot_none (.inl h) part nonce⟩⟩
    · exact congrArg Host.Outcome.next (if_neg (Bool.eq_false_iff.1 h))
    · exact congrArg Host.Outcome.next (if_neg (Bool.eq_false_iff.1 h))
    · exact congrArg Host.Outcome.next (if_neg (Bool.eq_false_iff.1 h))
    · exact congrArg Host.Outcome.next (if_pos h)
    · exact congrArg Host.Outcome.next (if_pos h)
    · exact congrArg Host.Outcome.next (if_neg h)
    · exact congrArg Host.Outcome.next (if_pos h)

end Sys2Proof.Proofs

end
